-- ==== Sys2Proof/Word.lean ====
section
/-! DEFINITION. Word types of the Priberun block: register words, fabric time, counters, bytes (R7, R12, R20). -/
namespace Sys2Proof

/-- One byte (R9). -/
abbrev Byte := BitVec 8
/-- A 32-bit register word (R388). -/
abbrev W32 := BitVec 32
/-- A 16-bit field. -/
abbrev W16 := BitVec 16
/-- A 14-bit field (the OFF bits of Table 05-8). -/
abbrev W14 := BitVec 14
/-- A 12-bit field (partition keys, LSEQ, DSEQ). -/
abbrev W12 := BitVec 12
/-- A 4-bit field. -/
abbrev W4 := BitVec 4
/-- A 3-bit field. -/
abbrev W3 := BitVec 3
/-- A 2-bit field (time quality, Table 03-1). -/
abbrev W2 := BitVec 2
/-- A 64-bit fabric-time value, or any other u64 (R12). -/
abbrev FT := BitVec 64
/-- A 48-bit counter (R20). -/
abbrev W48 := BitVec 48
/-- A 64-byte descriptor or mailbox entry, word i in bits [32i+31:32i] (R52, R360). -/
abbrev Desc := BitVec 512

/-- A finite map kept as a list of keys and values; the operations over it are in Machine/Ops. -/
abbrev KMap (α : Type) := List (Nat × α)

end Sys2Proof
end

