-- ==== Sys2Proof/Syntax.lean ====
section
/-! DEFINITION. The commands of the block: one constructor of Instr per row of the opcode table, with the row's operands. -/
namespace Sys2Proof

/-- A router and its clock island: the die and the router instance (R13, R34). -/
structure Island where
  die : Nat
  inst : Nat
  deriving DecidableEq, Repr

/-- What a collective frame says of its instance beside the fields of Table 05-1: no table names the place that carries it (DESIGN CHOICE,
log 38). op is the opcode (Table 08-1; 0 where the frame says nothing), then C, ROOT, STEP, the ROW of SPARSE_SUM, the valid count of an ALL_GATHER
slot (R196), the status FLAGS, rows dropped and lowest dropped index met below or above (R195, R198, R200), a contribution header
where the frame has no payload for it (BARRIER), and whether a malformed block has poisoned its whole chunk below (R216). -/
structure CollSide where
  op : Nat := 0
  cap : Nat := 0
  root : Nat := 0
  step : W32 := 0
  row : Nat := 0
  valid : Nat := 0
  flags : Nat := 0
  dropped : Nat := 0
  firstDropped : Nat := 0xFFFFFFFF
  hdr : List Byte := []
  bad : Bool := false
  deriving DecidableEq, Repr

/-- The poisoned byte ranges of a string of bytes, in rising order: each from its first byte up to the byte past its last (R117). -/
abbrev Marks := List (Nat × Nat)

/-- A frame: the fields of the head of Table 05-1 (reserved bits are ignored on receipt, R111), its payload bytes, and
the byte ranges of the payload whose flits or units are marked poisoned (R112, R117). rctr is the event counter that the
transfer advances at its destination (R53): the head of Table 05-1 names no field that carries it (DESIGN CHOICE, log 6).
coll is what a collective frame says of its instance (log 38). -/
structure Frame where
  destStation : W16 := 0
  dpLen : W4 := 0
  length : BitVec 13 := 0
  pkey : W12 := 0
  inc : W4 := 0
  journal : Bool := false
  watched : Bool := false
  last : Bool := false
  poison : Bool := false
  epoch : Bool := false
  cls : BitVec 6 := 0
  hopPtr : BitVec 6 := 0
  txn : Byte := 0
  srcCoord : BitVec 17 := 0
  srcStation : W16 := 0
  destCoord : BitVec 17 := 0
  addr : FT := 0
  opinfo : W16 := 0
  seq : W32 := 0
  streamId : W16 := 0
  dpath : BitVec 40 := 0
  qdelay : BitVec 24 := 0
  route : BitVec 160 := 0
  payload : List Byte := []
  marked : Marks := []
  rctr : Option W12 := none
  coll : CollSide := {}
  deriving DecidableEq, Repr

/-- The arbiters of Table 07-1. -/
inductive Arb where
  | routerOut (isl : Island) (plane out : Nat)
  | staging (port plane : Nat)
  | portMux (port : Nat)
  | niIssue (st : Nat)
  | engineIn (st : Nat)
  | sram (unit index : Nat)
  deriving DecidableEq, Repr

/-- The flits of a frame at a router input in which SEC-DED found an uncorrectable word (R112): whether one is in a head flit, and the numbers of the
data flits that have one. -/
structure FlitErrs where
  head : Bool := false
  data : List Nat := []
  deriving DecidableEq, Repr

/-- A level at the input pin of a side: each root-capable die has its own (R285). -/
structure PinLevel where
  side : Nat
  level : Bool
  deriving DecidableEq, Repr

/-- A requester of an arbiter whose head the block's other state does not hold: its number, its tier (Table 07-1), its wait in arbiter
cycles (R158) and whether it is the emergency requester (R159). -/
structure Requester where
  id : Nat
  tier : Nat
  wait : Nat
  emergency : Bool
  deriving DecidableEq, Repr

/-- A FOLLOW_UP control unit (Table 05-8). -/
structure FollowUp where
  xid : Nat
  t1 : FT
  quality : W2
  steps : Nat
  gm : Bool
  realignValid : Bool
  errEst : W32
  realignFt : FT
  leap : Int
  deriving DecidableEq, Repr

/-- A codeword as it arrives (R122, R123): the PAM4 levels of each physical lane in one codeword period, in order, with the lanes' skew removed. -/
structure Codeword where
  levels : List (List Nat)
  deriving DecidableEq, Repr

/-- The levels that a physical lane carries in a codeword period where an alignment codeword stands (R124), the lane's skew in ns that the port
measures, and the codewords since the lane's last one. -/
structure Acw where
  lane : Nat
  levels : List Nat
  skew : Nat
  spacing : Nat
  deriving DecidableEq, Repr

/-- A 64-byte link unit and its type: 0 DATA, 1 DATA_POISON, 2 HEAD, 3 CONTROL (Table 05-5). -/
structure WireUnit where
  ut : Nat
  bits : BitVec 512
  deriving DecidableEq, Repr

/-- A whole frame on the wire (R125): the frame, its LINKWORD fields (Table 05-7), the CRC-32C it carries, whether one of its units lay in an
uncorrectable codeword, and whether its U units came complete. -/
structure LinkFrame where
  frame : Frame
  plane : Nat
  vc : Nat
  lseq : W12
  ackValid : Bool
  ackSeq : W12
  crc : W32
  uncorr : Bool
  complete : Bool
  deriving DecidableEq, Repr

/-- A TRAIN unit (Table 05-11). -/
structure Train where
  port : Nat
  ackSeq : W12
  laneMask : W16
  switch : Bool
  retrain : Bool
  state : Nat
  version : Nat
  coord : BitVec 17
  serial : FT
  deriving DecidableEq, Repr

/-- A slot of a die-to-die container (Table 11-6): its tag, the head it carries when HEAD is set, the payload bytes of a data flit (Table
05-2), and whether its flit has an uncorrectable word where the adapter takes it (R112). -/
structure Slot where
  plane : Nat
  vc : Nat
  tail : Bool
  poison : Bool
  head : Option Frame
  data : List Byte := []
  err : Bool := false
  deriving DecidableEq, Repr

/-- A die-to-die container (Table 11-6); slots holds the VALID slots in order. -/
structure Container where
  dseq : W12
  dack : W12
  ackValid : Bool
  nak : Bool
  sequenced : Bool
  crcOk : Bool
  slots : List Slot
  deriving DecidableEq, Repr

/-- A report that reaches a die's FAULT unit (R294): its class, the reporting unit's address, its DETAIL, and whether the
count strobe was carried across its clock boundary; if not, the OVERRUN bit of the receiving island's input (R277). -/
structure FaultReport where
  cls : Nat
  unit : Nat
  detail : W32
  strobe : Bool
  input : Nat
  deriving DecidableEq, Repr

/-- What a Vigil stands over (R309): a transaction, or a collective instance by its COLL_TAG. -/
inductive VigilWho where
  | txn (n : Nat)
  | coll (tag : W16)
  deriving DecidableEq, Repr

/-- What a transfer from host memory brought: its completion status (Table 02-4) and the bytes. -/
structure Dma where
  status : Nat
  bytes : List Byte
  deriving DecidableEq, Repr

/-- The status block of a collective instance at one member (Table 08-10). -/
structure StatusBlock where
  digest : FT := 0
  step : W32 := 0
  lateMember : BitVec 27 := 0
  lateness : BitVec 24 := 0
  flags : W32 := 0
  firstNonfinite : W32 := 0xFFFFFFFF
  saturations : W32 := 0
  overflow : W32 := 0
  firstDropped : W32 := 0xFFFFFFFF
  validOut : W32 := 0
  firstCancelled : W32 := 0xFFFFFFFF
  ftEnd : FT := 0
  deriving DecidableEq, Repr

/-- A statistics record (Table 10-1). -/
structure StatsRec where
  count : W32 := 0
  nan : W32 := 0
  posInf : W32 := 0
  negInf : W32 := 0
  min : FT := 0x7FF8000000000000
  max : FT := 0x7FF8000000000000
  sum : FT := 0
  sumsq : FT := 0
  chunk : W32 := 0xFFFFFFFF
  member : BitVec 27 := 0
  ref : FT := 0xFFFFFFFFFFFFFFFF
  deriving DecidableEq, Repr

/-- A report to the Diary unit (R236). kind 0 is a member's report of a collective, 1 a WATCH entry (R245), 2 the report of
an engine of a Priberun-S (R243); for a WATCH entry step holds FIRST_SEQ, tag the stream id, member the tiles covered; for an ENGINE one member and root hold the chunks finalised and relayed. The
qualities are those at READY_FT and FT_END (R62). -/
structure DiaryReport where
  kind : Nat
  station : Nat
  tag : W16
  opcode : Byte
  mode : Byte
  member : Nat
  root : Nat
  block : StatusBlock
  readyFt : FT
  summary : StatsRec
  statsLost : Bool
  outBytes : Nat
  startQual : Nat := 3
  endQual : Nat := 3
  deriving DecidableEq, Repr

/-- The commands of the block, one constructor per row of the opcode table. -/
inductive Instr where
  /-- REGISTER_WRITE (R17): A management-tree write to a register that has no row of its own sets its fields as their access codes state and completes with a status. -/
  | registerWrite (core : Nat) (tag : Nat) (epoch : Nat) (addr : W32) (data : W32)
  /-- TREE_TIMEOUT (R393): A hub or root limit expires on an access, which completes TIMEOUT, is captured and counted, and raises a MGMT fault. -/
  | treeTimeout (tag : Nat) (addr : W32) (write : Bool) (atRoot : Bool)
  /-- COUNTER_LO_READ (R21): A read of a counter's _LO register captures bits [47:32] into the shadow and marks the shadow unread. -/
  | counterLoRead (addr : W32)
  /-- COUNTER_HI_READ (R21): A read of _HI returns the unread shadow and marks it read, or returns the live upper bits. -/
  | counterHiRead (addr : W32)
  /-- TIME_NOW_LO_READ (R82): A read of TIME_NOW_LO captures FT [63:32] and the time quality in the same island cycle. -/
  | timeNowLoRead (side : Nat)
  /-- PAIR_LO_WRITE (R394): A write of the _LO half of an RW or RWL pair is staged without effect, or is checked against the low half after commit. -/
  | pairLoWrite (addr : W32) (data : W32)
  /-- PAIR_HI_WRITE (R394): A write of the _HI half puts both halves of the pair into effect in one cycle. -/
  | pairHiWrite (addr : W32) (data : W32)
  /-- COUNTER_CLEAR (R20): A write of 1 to a clear bit zeroes the selected 48-bit counter; an event in the same cycle counts after the clear. -/
  | counterClear (addr : W32) (data : W32) (coincident : W32)
  /-- OP_NOP (R52): A NOP descriptor acts only on its counters and its completion. -/
  | opNop (st : Nat) (d : Desc)
  /-- OP_PUT (R47): A PUT descriptor is checked, translated, policed and queued, then reserves its space and sends its data in frames of at most 4 KiB. -/
  | opPut (st : Nat) (d : Desc)
  /-- OP_GET (R47): A GET descriptor reserves its own receive buffers and sends a READ_REQ. -/
  | opGet (st : Nat) (d : Desc)
  /-- OP_INDEXED_READ (R48): An INDEXED_READ descriptor sends an index list to a memory station and reserves buffers for the packed rows. -/
  | opIndexedRead (st : Nat) (d : Desc)
  /-- OP_MESSAGE (R52): A MESSAGE descriptor sends up to 32 bytes on RQ. -/
  | opMessage (st : Nat) (d : Desc)
  /-- OP_ATOMIC (R52): An ATOMIC descriptor sends a fetch-add, swap or compare-swap to an 8-byte-aligned target. -/
  | opAtomic (st : Nat) (d : Desc)
  /-- OP_COUNTER_ADD (R54): A COUNTER_ADD descriptor adds a u32 to a local event counter. -/
  | opCounterAdd (st : Nat) (d : Desc)
  /-- OP_COUNTER_SET (R54): A COUNTER_SET descriptor writes a 48-bit value to a local event counter. -/
  | opCounterSet (st : Nat) (d : Desc)
  /-- OP_STREAM_PUT (R49): A STREAM_PUT descriptor offers a tile, which takes the next sequence number of its stream and waits for a run. -/
  | opStreamPut (st : Nat) (d : Desc)
  /-- DESCRIPTOR_TRIGGER_STORE (R55): A descriptor with TRIG_EN set is checked under R52 and stored and armed in its slot without being issued. -/
  | descriptorTriggerStore (st : Nat) (d : Desc)
  /-- TRIGGER_FIRE (R55): An armed slot whose counter has reached THRESHOLD fires, is disarmed and issues its descriptor as a new submission. -/
  | triggerFire (st : Nat) (slot : Nat)
  /-- XLAT_MISS_FETCH_DONE (R43): Both table entries read for a translation-cache miss arrive, and the translation completes and is cached. -/
  | xlatMissFetchDone (st : Nat) (pkgEntry : W32) (stnEntry : W16)
  /-- NI_XLAT_FLUSH (R43): A write of NI_CTRL.XLAT_FLUSH invalidates the translation cache. -/
  | niXlatFlush (st : Nat)
  /-- NI_TRIG_CLEAR_ALL (R55): A write of NI_CTRL.TRIG_CLEAR_ALL disarms all 4,096 triggered slots. -/
  | niTrigClearAll (st : Nat)
  /-- WRITE_DONE (R58): The station asserts st_wr_done for a write id, which makes the write visible and lets the counters, acknowledgements and buffer frees that wait on it proceed. -/
  | writeDone (st : Nat) (id : Nat)
  /-- COMPLETION_RECORD_TAKEN (R58): The station takes a completion record, which frees room in the FIFO for a waiting completion. -/
  | completionRecordTaken (st : Nat)
  /-- EVENT_NOTICE_TAKEN (R58): The station takes a counter event notice; notices pending meanwhile coalesce to the latest value. -/
  | eventNoticeTaken (st : Nat) (ctr : Nat)
  /-- READ_DATA_RETURN (R57): The station returns requested read data, which the NI sends as source data or as GET service; poisoned numbers the beats of 128 bytes that came with st_rdd_poison. -/
  | readDataReturn (st : Nat) (id : Nat) (data : List Byte) (poisoned : List Nat)
  /-- WRITE_RSV_RECEIVE (R169): A WRITE_RSV arrives at its destination NI, is checked, and requests pool buffers. -/
  | writeRsvReceive (st : Nat) (f : Frame)
  /-- WRITE_DATA_RECEIVE (R46): A WRITE_DATA frame arrives, is window-checked, and its bytes are written to the station. -/
  | writeDataReceive (st : Nat) (f : Frame)
  /-- READ_REQ_RECEIVE (R46): A READ_REQ arrives at its destination, is checked, and a read of the station is issued. -/
  | readReqReceive (st : Nat) (f : Frame)
  /-- IDX_READ_REQ_RECEIVE (R48): An IDX_READ_REQ arrives at a memory station, and rows are window-checked, read and returned packed, with rows outside the windows returned as zeros. -/
  | idxReadReqReceive (st : Nat) (f : Frame)
  /-- MESSAGE_RECEIVE (R46): A MESSAGE arrives at its destination NI, is checked and written. -/
  | messageReceive (st : Nat) (f : Frame)
  /-- ATOMIC_RECEIVE (R52): An ATOMIC arrives, is performed on its target, and an ATOMIC_RESP is formed. -/
  | atomicReceive (st : Nat) (f : Frame)
  /-- STREAM_DATA_RECEIVE (R51): A STREAM_DATA frame is written; the tile's event is raised after its last frame, and an out-of-sequence tile is counted as a gap. -/
  | streamDataReceive (st : Nat) (f : Frame)
  /-- GRANT_RECEIVE (R47): A GRANT arrives at the initiator, which then sends the payload on BK. -/
  | grantReceive (st : Nat) (f : Frame)
  /-- ACK_RECEIVE (R114): An ACK arrives and completes a PUT or MESSAGE at the initiator. -/
  | ackReceive (st : Nat) (f : Frame)
  /-- READ_DATA_RECEIVE (R114): READ_DATA lands in reserved space, and the frame carrying LAST completes the GET. -/
  | readDataReceive (st : Nat) (f : Frame)
  /-- IDX_READ_DATA_RECEIVE (R48): IDX_READ_DATA lands in reserved buffers and completes the indexed read with OK, PARTIAL_ROWS or POISONED. -/
  | idxReadDataReceive (st : Nat) (f : Frame)
  /-- ATOMIC_RESP_RECEIVE (R114): An ATOMIC_RESP arrives, returns the old value and completes the ATOMIC. -/
  | atomicRespReceive (st : Nat) (f : Frame)
  /-- REFUSAL_RECEIVE (R120): A REFUSAL arrives and completes the transfer with the status of its reason. -/
  | refusalReceive (st : Nat) (f : Frame)
  /-- VIGIL_ERR_RECEIVE (R114): A VIGIL_ERR arrives from a link and completes its transaction as a response. -/
  | vigilErrReceive (st : Nat) (f : Frame)
  /-- ROUTER_FRAME_RECEIVE (R45): A head arrives at a router input and is checked for malformation, epoch and key admission before it is routed; errs tells which of its flits have an uncorrectable word (R112). -/
  | routerFrameReceive (isl : Island) (input : Nat) (plane : Nat) (vc : Nat) (f : Frame) (errs : FlitErrs)
  /-- ARBITER_GRANT (R158): An arbiter grants an output, credit, port or SRAM access to one eligible requester by tier, priority and Octave grant. -/
  | arbiterGrant (arb : Arb) (extra : List Requester)
  /-- SHAPER_CONFIG_WRITE (R164): A write to RATE, BURST or SHAPER_EN takes effect at the next refill, with T clipped to the new BURST. -/
  | shaperConfigWrite (addr : W32) (data : W32)
  /-- YELLOW_RELEASE (R167): A yellow entry at the head of its partition leaves the list once Tc covers its charge. -/
  | yellowRelease (st : Nat) (key : Nat)
  /-- YELLOW_EXPIRY (R167): A yellow entry still in the list YELLOW_MAX slots after acceptance is refused POLICED_RED. -/
  | yellowExpiry (st : Nat) (key : Nat)
  /-- POOL_ALLOCATE (R169): A waiting pool request is served whole once enough buffers are free. -/
  | poolAllocate (die : Nat)
  /-- POOL_WAIT_EXPIRY (R169): A request that has waited WAIT_MAX slots is refused POOL_CEILING. -/
  | poolWaitExpiry (die : Nat)
  /-- POOL_DISABLE (R169): A write of POOL_CTRL.EN to 0 refuses every waiting request NOT_READY. -/
  | poolDisable (die : Nat)
  /-- SLOT_BOUNDARY (R83): Local FT reaches a multiple of 128 quanta, and every run, window, refill and delay count of the slot advances. -/
  | slotBoundary (isl : Island)
  /-- NO_WINDOW_DROP (R92): A frame still unstarted N + t slots after its first deferral is dropped and refused NO_WINDOW. -/
  | noWindowDrop (isl : Island) (input : Nat) (plane : Nat) (vc : Nat)
  /-- KALENDS (R84): An almanac cycle begins: leap slots are taken, any armed Equinox is taken, and the Procession begins. -/
  | kalends
  /-- LAUNCH_NOTICE (R106): At Kalends + w × s an NI with LAUNCH_EN increments LAUNCH_CTR. -/
  | launchNotice (st : Nat)
  /-- ALM_LOAD (R94): A LOAD command begins loading a variant into the FREE other bank, or rejects. -/
  | almLoad (variant : W16)
  /-- ALM_COPY (R94): A COPY command copies the bank in force into the FREE other bank. -/
  | almCopy
  /-- ALM_ARM (R97): An ARM command arms the READY bank for the target SS in ALM_EQX_AT, or rejects. -/
  | almArm
  /-- ALM_DISARM (R94): A DISARM command returns an ARMED bank to READY. -/
  | almDisarm
  /-- ALM_LOAD_COMPLETE (R94): A LOAD or COPY finishes, and the bank becomes READY or, on failure, FREE. -/
  | almLoadComplete (ok : Bool)
  /-- COOL_REQUEST_RESUME (R102): A cool request that waited for an FM bank to be taken proceeds with its LOAD. -/
  | coolRequestResume
  /-- BANK_HOLD_EXPIRY (R96): BANK_HOLD_US after the Equinox, the HELD bank becomes FREE. -/
  | bankHoldExpiry
  /-- LATTICE_PULSE (R65): A lattice pulse reaches an island, which compares its FT and trims its increment. -/
  | latticePulse (isl : Island) (seen : Int)
  /-- ISLAND_FT_LOAD (R67): A restarted island loads a full-value word and releases its router, NI and almanac actions. -/
  | islandFtLoad (isl : Island)
  /-- SYNC_EXCHANGE_START (R70): At the SYNC_RATE interval a port sends SYNC and then FOLLOW_UP carrying t1. -/
  | syncExchangeStart (port : Nat)
  /-- SYNC_RECEIVE (R70): A SYNC arrives, t2 is taken, and DELAY_REQ follows with t3. -/
  | syncReceive (port : Nat) (xid : Nat)
  /-- FOLLOW_UP_RECEIVE (R70): A FOLLOW_UP delivers t1, the sender's quality, its depth and any realignment record. -/
  | followUpReceive (port : Nat) (fu : FollowUp)
  /-- DELAY_REQ_RECEIVE (R70): A DELAY_REQ arrives, t4 is taken, and DELAY_RESP returns it. -/
  | delayReqReceive (port : Nat) (xid : Nat)
  /-- DELAY_RESP_RECEIVE (R70): A DELAY_RESP completes an exchange, and delay and offset are computed. -/
  | delayRespReceive (port : Nat) (xid : Nat) (t4 : FT)
  /-- UPSTREAM_LOSS (R69): Eight missed Syncs lose the upstream, and the next qualifying port or HOLDOVER takes over. -/
  | upstreamLoss
  /-- UPSTREAM_RETURN (R69): A higher-priority port that has qualified for 64 Syncs becomes the upstream. -/
  | upstreamReturn (port : Nat)
  /-- PPS_IN_EDGE (R74): A pps_in edge on a GM_EXTERNAL package drives acquisition or servo steering. -/
  | ppsInEdge
  /-- PPS_IN_LOSS (R74): Two expected pps_in edges missing loses the reference. -/
  | ppsInLoss
  /-- REF10M_LOSS (R80): 1 µs without a ref10m_in edge loses the frequency reference. -/
  | ref10mLoss
  /-- TIME_REALIGN_ARM (R77): A write of TIME_REALIGN.ARM in HOLD arms a realignment at F, or sets REALIGN_REJECT. -/
  | timeRealignArm (side : Nat)
  /-- PPS_OUT_RISE (R81): pps_out rises at each whole second of FT. -/
  | ppsOutRise
  /-- PPS_OUT_FALL (R80): pps_out falls PPS_WIDTH µs after it rose. -/
  | ppsOutFall
  /-- TIME_VALID_CHANGE (R81): time_valid changes when the error estimate crosses TIME_VALID_LIMIT or the quality leaves or enters FREE. -/
  | timeValidChange
  /-- CODEWORD_RECEIVE (R122): A codeword is corrected and descrambled and its ten units are delivered, or all ten are discarded if it is uncorrectable. -/
  | codewordReceive (port : Nat) (cw : Codeword)
  /-- ACW_RECEIVE (R124): An alignment codeword sets a lane's number, polarity and skew and advances lock, or loses lock at a wrong spacing. -/
  | acwReceive (port : Nat) (acw : Acw)
  /-- ACW_LOCK_TIMEOUT (R124): 3 × 4,096 codewords without an ACW lose lock and start a retrain. -/
  | acwLockTimeout (port : Nat)
  /-- LINK_FRAME_RECEIVE (R128): A whole frame on the wire is accepted in LSEQ order or discarded, and an accepted frame takes its route step at the ingress. -/
  | linkFrameReceive (port : Nat) (lf : LinkFrame)
  /-- NAK_RESEND (R129): 2 µs after a NAK with frame E still not accepted, the receiver may send the NAK again. -/
  | nakResend (port : Nat)
  /-- CTRL_ACK_RECEIVE (R130): An ACK frees every held frame up to ACK_SEQ. -/
  | ctrlAckReceive (port : Nat) (ackSeq : W12)
  /-- CTRL_NAK_RECEIVE (R130): A NAK(e) frees earlier frames and replays every held frame from e onward. -/
  | ctrlNakReceive (port : Nat) (expected : W12)
  /-- CTRL_FLOW_RECEIVE (R131): A FLOW unit updates the OFF bits of the peer's VCs. -/
  | ctrlFlowReceive (port : Nat) (off : W14)
  /-- FLOW_PERIODIC (R131): Each 1 µs the receiver sends a FLOW unit again. -/
  | flowPeriodic (port : Nat)
  /-- REPLAY_TIMEOUT (R130): The oldest held frame unacknowledged for REPLAY_TIMEOUT is replayed. -/
  | replayTimeout (port : Nat)
  /-- TRAIN_RECEIVE (R132): A TRAIN unit from the peer advances the training states, the layout and the peer checks, or starts a retrain from ACTIVE. -/
  | trainReceive (port : Nat) (t : Train)
  /-- SIGNAL_LOCK (R132): CDR lock and 2^20 error-free PRBS31 bits on every lane take the port to ALIGN. -/
  | signalLock (port : Nat)
  /-- SIGNAL_TIMEOUT (R132): 50 ms in SIGNAL takes the port DOWN. -/
  | signalTimeout (port : Nat)
  /-- ALIGN_TIMEOUT (R132): 2 ms in ALIGN returns the port to SIGNAL. -/
  | alignTimeout (port : Nat)
  /-- EXCHANGE_TIMEOUT (R132): 1 ms in EXCHANGE returns the port to ALIGN. -/
  | exchangeTimeout (port : Nat)
  /-- READY_TIMEOUT (R132): 1 ms in READY returns the port to ALIGN. -/
  | readyTimeout (port : Nat)
  /-- RETRAIN_TIMEOUT (R135): 10 ms out of ACTIVE without regaining it takes the port DOWN and discards its replay buffer. -/
  | retrainTimeout (port : Nat)
  /-- CDR_LOSS (R132): Loss of CDR in ACTIVE sends the port to SIGNAL. -/
  | cdrLoss (port : Nat)
  /-- TX_ACTIVE_AT_ACW (R132): The transmitter enters ACTIVE at its next ACW after READY completes. -/
  | txActiveAtAcw (port : Nat)
  /-- SAVED_SETTINGS_TIMEOUT (R256): 5 ms in SIGNAL with saved settings discards the record and adapts fully. -/
  | savedSettingsTimeout (port : Nat)
  /-- QUAL_WINDOW_END (R262): A 2 s qualification window ends in pass or fail, and a fail degrades a lane or takes the port DOWN. -/
  | qualWindowEnd (port : Nat)
  /-- MONITOR_WINDOW_END (R262): A 100 ms monitoring window ends, and three failing windows set BER_HIGH. -/
  | monitorWindowEnd (port : Nat)
  /-- PORT_AUTO_RETRY (R263): 100 ms after a retryable DOWN the port starts a cold training. -/
  | portAutoRetry (port : Nat)
  /-- PORT_FULL_RETRAIN (R134): PORT_CTRL.FULL_RETRAIN retrains an ACTIVE port with full masks. -/
  | portFullRetrain (port : Nat)
  /-- PORT_RETRAIN (R132): PORT_CTRL.RETRAIN retrains an ACTIVE port with its current masks. -/
  | portRetrain (port : Nat)
  /-- PORT_COLD (R135): PORT_CTRL.COLD discards the link state and begins a cold training. -/
  | portCold (port : Nat)
  /-- PORT_ENABLE (R263): A write of PORT_CTRL.EN to 1 ungates the port and starts training. -/
  | portEnable (port : Nat)
  /-- PORT_DISABLE (R263): A write of PORT_CTRL.EN to 0 takes the port DOWN with cause COMMANDED. -/
  | portDisable (port : Nat)
  /-- PORT_POWER_GATE (R283): A port whose EN has been 0 for 1 ms is power-gated. -/
  | portPowerGate (port : Nat)
  /-- DLINK_CONTAINER_RECEIVE (R268): A container is accepted by CRC and DSEQ and its slots are handed to the adapter, or it is discarded and NAKed. -/
  | dlinkContainerReceive (die : Nat) (n : Nat) (c : Container)
  /-- DLINK_REPLAY_TIMEOUT (R268): The oldest held container unacknowledged after TIMEOUT_NS is replayed. -/
  | dlinkReplayTimeout (die : Nat) (n : Nat)
  /-- DLINK_MODULE_FAIL (R269): A failed module pair puts the crossing into half mode if allowed, or DOWN. -/
  | dlinkModuleFail (die : Nat) (n : Nat) (m : Nat)
  /-- DLINK_HALF_TIMEOUT (R269): A crossing not back in service within 10 ms goes DOWN. -/
  | dlinkHalfTimeout (die : Nat) (n : Nat)
  /-- DLINK_TRAIN_DONE (R266): UCIe training of a crossing completes, with lane repair, into ACTIVE or ACTIVE_HALF. -/
  | dlinkTrainDone (die : Nat) (n : Nat) (modules : W4) (repaired : Nat)
  /-- DLINK_QUAL_END (R270): A 100 ms crossing qualification ends in pass, or in fail and DOWN. -/
  | dlinkQualEnd (die : Nat) (n : Nat)
  /-- DLINK_RETRAIN (R269): DLINK_CTRL.RETRAIN retrains the crossing, keeping its retry state. -/
  | dlinkRetrain (die : Nat) (n : Nat)
  /-- DLINK_ENABLE (R270): A write of DLINK_CTRL.EN to 1 trains the crossing. -/
  | dlinkEnable (die : Nat) (n : Nat)
  /-- DLINK_DISABLE (R152): A write of DLINK_CTRL.EN to 0 takes the crossing DOWN and cuts its worms. -/
  | dlinkDisable (die : Nat) (n : Nat)
  /-- ISLAND_FREQ_WRITE (R273): A write of POWER_ISL_CTRL.FREQ sets a new target and starts a glide. -/
  | islandFreqWrite (isl : Island) (freq : Nat)
  /-- ISLAND_GLIDE_STEP (R274): Every 100 ns a gliding island moves one 25 MHz step toward its frequency. -/
  | islandGlideStep (isl : Island)
  /-- ISLAND_STOP (R278): A write of STOP = 1 stops the island clock at its next cycle boundary, keeping its state. -/
  | islandStop (isl : Island)
  /-- ISLAND_START (R278): A write of STOP = 0 restarts the clock within 100 ns, and the island reloads FT. -/
  | islandStart (isl : Island)
  /-- PLL_LOCK_LOST (R279): A PLL losing lock stops its island glitch-free and reports CLOCK. -/
  | pllLockLost (isl : Island)
  /-- PLL_RELOCK (R279): A relocked PLL restarts its island unless STOP is 1. -/
  | pllRelock (isl : Island)
  /-- DIE_GATE (R281): POWER_DIE_CTRL GATE begins gating an unused compute die, or is rejected. -/
  | dieGate (die : Nat)
  /-- DIE_GATE_DONE (R281): The die reaches OFF and GATE_DONE is set. -/
  | dieGateDone (die : Nat)
  /-- DIE_UNGATE (R282): POWER_DIE_CTRL UNGATE begins the ungating sequence of an OFF die. -/
  | dieUngate (die : Nat)
  /-- UNGATE_STEP_TIMEOUT (R282): An ungating step that overruns its timeout returns the die to OFF with GATE_REJECT. -/
  | ungateStepTimeout (die : Nat)
  /-- DIE_UNGATE_DONE (R282): The last ungating step completes; the die is ON and GATE_DONE is set. -/
  | dieUngateDone (die : Nat)
  /-- ENGINE_CLOCK_STOP (R283): An engine or collective unit idle for 64 cycles stops its own clock. -/
  | engineClockStop (st : Nat)
  /-- PC_INPUT_SAMPLE (R286): A change of a side's pc_valid, pc_ramp or pc_budget updates the ramp limit and the budget level. -/
  | pcInputSample (valid : PinLevel) (ramp : W12) (budget : W3)
  /-- THROTTLE_N_CHANGE (R287): A filtered change of a side's throttle_n adds or removes a throttle cause. -/
  | throttleNChange (level : PinLevel)
  /-- THROTTLE_HOLD_EXPIRY (R287): HOLD_US with no cause ends the throttle. -/
  | throttleHoldExpiry
  /-- FORCE_THROTTLE_WRITE (R287): A write of POWER_CTRL.FORCE_THROTTLE adds or removes a throttle cause. -/
  | forceThrottleWrite (value : Bool)
  /-- KALENDS_WARN_RISE (R289): kalends_warn rises KWARN_NS before a Kalends. -/
  | kalendsWarnRise
  /-- KALENDS_WARN_FALL (R289): kalends_warn falls PROC_WAVES × s after the Kalends. -/
  | kalendsWarnFall
  /-- DIE_RESUME (R290): After a Holiday release, POWER resumes the next die s after the one before. -/
  | dieResume
  /-- FAULT_REPORT_RECEIVE (R300): A fault strobe and its report reach the die's FAULT unit, which counts, classifies, captures and reacts. -/
  | faultReportReceive (die : Nat) (reports : List FaultReport)
  /-- FAULT_CAPTURE_DONE (R306): A capture of up to four reports ends, and FAULT_FIRST and FAULT_ALSO are filled and records are passed on. -/
  | faultCaptureDone (die : Nat)
  /-- FAULT_FENCE_MESSAGE (R303): A die's FAULT unit receives a fence message and sets the key in every NI of its die. -/
  | faultFenceMessage (die : Nat) (key : Nat)
  /-- FAULT_QUIET_CHECK (R304): Every 1 µs, states quiet for Q return to NONE, with Jubilee counting and automatic restore. -/
  | faultQuietCheck (die : Nat)
  /-- FAULT_UNIT_RESET (R313): FAULT_UNIT_CMD RESET resets a fenced NI, MEMST, REDUCE, PORT, DLINK or POOL unit. -/
  | faultUnitReset (die : Nat)
  /-- FAULT_UNIT_CLEAR (R305): FAULT_UNIT_CMD CLEAR sets every state to NONE and cnt to 0. -/
  | faultUnitClear (die : Nat)
  /-- FAULT_UNIT_RESTORE (R304): FAULT_UNIT_CMD RESTORE clears the states and lifts isolation and fences. -/
  | faultUnitRestore (die : Nat)
  /-- FAULT_CLEAR_JUBILEE (R305): FAULT_UNIT_CMD CLEAR_JUBILEE zeroes the Jubilee count. -/
  | faultClearJubilee (die : Nat)
  /-- NI_PFENCE_SET (R303): NI_PFENCE_CMD SET fences a key at one NI. -/
  | niPfenceSet (st : Nat) (key : Nat)
  /-- NI_PFENCE_CLEAR (R303): NI_PFENCE_CMD CLEAR unfences a key at one NI. -/
  | niPfenceClear (st : Nat) (key : Nat)
  /-- SCRUB_ACCESS (R296): The scrubber takes one access in 4,096 and corrects or poisons the next word of its walk. -/
  | scrubAccess (unit : Nat) (sram : Nat)
  /-- ECC_WRITE_BACK (R296): A corrected word is written back in the port's next idle cycle. -/
  | eccWriteBack (unit : Nat) (sram : Nat) (word : Nat)
  /-- VIGIL_EXPIRY (R310): A Vigil fires; the NI completes the transaction or instance with VIGIL, frees reserved buffers and retires the TXN. -/
  | vigilExpiry (st : Nat) (who : VigilWho)
  /-- GRANT_EXPIRY (R310): A destination frees grant buffers whose data did not all arrive within NI_VIGIL_MACH. -/
  | grantExpiry (st : Nat) (src : Nat) (txn : Nat)
  /-- TXN_RETIRE_EXPIRY (R311): A retired TXN becomes reusable once NI_VIGIL_RETIRE has passed. -/
  | txnRetireExpiry (st : Nat) (txn : Nat)
  /-- STATE_BEACON (R315): Every 1 ms the FAULT unit compares live control fields with the last written values and updates the shadow. -/
  | stateBeacon (die : Nat) (unit : Nat)
  /-- INJECT_ARM_WRITE (R318): A write of <CLASS>_INJ.ARM arms an error injector, or completes LOCKED while INJ_EN is 0. -/
  | injectArmWrite (addr : W32) (data : W32)
  /-- BUCKET_REFILL (R327): Every 1 ms the rate buckets refill, and a bucket with suppressed records writes SUPPRESSED. -/
  | bucketRefill
  /-- RECORD_PLACE (R328): A record leaves the holding RAM and is placed in the OPEN sector, or displaces, drops or waits at a full log. -/
  | recordPlace
  /-- CHRON_PROGRAM_DONE (R323): A flash program operation completes and the next program of the record or copy proceeds. -/
  | chronProgramDone (ctl : Nat) (ok : Bool)
  /-- CHRON_COMPACTION (R329): A compaction copies a sector's live records into the spare and erases the source. -/
  | chronCompaction (ctl : Nat)
  /-- SECTOR_ERASE_DONE (R331): An erase finishes and is verified, marking the sector FREE, or is retried, or marks it BAD. -/
  | sectorEraseDone (ctl : Nat) (verified : Bool)
  /-- CHRON_MOUNT_DONE (R332): Mount classifies every sector, re-erases as needed and writes MOUNTED. -/
  | chronMountDone (ctl : Nat) (answers : Bool)
  /-- STANDBY_DECISION_APPLY (R333): The standby controller applies a mirrored record decision to its own device. -/
  | standbyDecisionApply
  /-- CHRON_LOAD (R334): CHRON_RD_CMD LOAD shows the first live record at or above the cursor. -/
  | chronLoad (ctl : Nat)
  /-- CHRON_NEXT (R334): CHRON_RD_CMD NEXT shows the record after the cursor. -/
  | chronNext (ctl : Nat)
  /-- CHRON_RETIRE_TO (R330): CHRON_CMD RETIRE_TO retires every live record below CHRON_RETIRE_SEQ. -/
  | chronRetireTo (ctl : Nat)
  /-- CHRON_SW_SUBMIT (R326): CHRON_SW_CMD SUBMIT submits the staged record, or refuses a code outside the FM range. -/
  | chronSwSubmit (ctl : Nat)
  /-- CHRON_FREEZE (R335): A write of FREEZE = 1 stops all programs and erases. -/
  | chronFreeze (ctl : Nat)
  /-- CHRON_UNFREEZE (R335): A write of FREEZE = 0 resumes placement in order. -/
  | chronUnfreeze (ctl : Nat)
  /-- CHRON_FREEZE_EXPIRY (R335): FREEZE held for CHRON_FREEZE_MAX is released and FREEZE_EXPIRED is written. -/
  | chronFreezeExpiry
  /-- CHRON_SECONDS_TICK (R325): SECONDS advances each second of powered operation. -/
  | chronSecondsTick (ctl : Nat)
  /-- COLD_RESET (R338): Power-on or pkg_reset_n resets the package and restarts both cores at B0. -/
  | coldReset
  /-- WARM_RESET_PIN (R338): warm_reset_n held low for 1 µs performs a warm reset. -/
  | warmResetPin
  /-- BOOT_WARM_RESET (R338): BOOT_CMD WARM_RESET performs a warm reset. -/
  | bootWarmReset (side : Nat)
  /-- BOOT_CONTINUE_NO_IMAGE (R341): BOOT_CMD CONTINUE_NO_IMAGE in WAIT_IMAGE runs B2–B4 with register defaults. -/
  | bootContinueNoImage (side : Nat)
  /-- BOOT_PROCEED (R340): BOOT_CMD PROCEED in B5 disables ports that have not passed and finishes B5 REDUCED. -/
  | bootProceed (side : Nat)
  /-- BOOT_CLEAR_LEVELS (R349): BOOT_CMD CLEAR_LEVELS zeroes the step levels at the next boot. -/
  | bootClearLevels (side : Nat)
  /-- BOOT_CLEAR_DISABLES (R349): BOOT_CMD CLEAR_DISABLES clears the boot disables at the next boot. -/
  | bootClearDisables (side : Nat)
  /-- BOOT_STEP_START (R339): Once its STARTED entry is valid, a bring-up step writes its image fields and begins its work at its level. -/
  | bootStepStart
  /-- BOOT_STEP_FINISH (R339): A step's finish condition holds, and FINISHED is written. -/
  | bootStepFinish
  /-- BOOT_STEP_TIMEOUT (R340): A step's timeout expires, a TIMEOUT entry is written, and a warm reset or FAILED follows. -/
  | bootStepTimeout
  /-- BOOT_DEADLINE_EXPIRY (R340): BOOT_DEADLINE seconds in B5 write a LATE entry and set LATE. -/
  | bootDeadlineExpiry
  /-- HEARTBEAT_TICK (R353): Every 100 µs each BOOT unit sends a heartbeat, and the active core renews its lease if FM_ALIVE. -/
  | heartbeatTick (side : Nat)
  /-- HEARTBEAT_MISS (R353): HB_MISS consecutive misses make the standby report a MGMT fault and request the lease. -/
  | heartbeatMiss (side : Nat)
  /-- LEASE_REQUEST_RECEIVE (R352): A voter grants its vote to a requesting core if it holds no unexpired grant. -/
  | leaseRequestReceive (voter : Nat) (core : Nat)
  /-- LEASE_GRANT_EXPIRY (R352): A voter's grant expires LEASE_US after its last renewal. -/
  | leaseGrantExpiry (voter : Nat)
  /-- TAKEOVER (R355): A core that holds a majority becomes active, takes the package roles and re-roots the tree. -/
  | takeover (core : Nat)
  /-- BOOT_HB_KICK (R353): A write of BOOT_HB_KICK marks the FM alive. -/
  | bootHbKick (side : Nat)
  /-- BOOT_MIRROR_FENCE (R354): A write of BOOT_MIRROR_FENCE sets FENCE_PENDING. -/
  | bootMirrorFence (side : Nat)
  /-- MIRROR_FENCE_DONE (R354): FENCE_PENDING clears once every earlier mirror write is in the standby's memory. -/
  | mirrorFenceDone
  /-- STANDBY_SYNC_DONE (R354): The whole-region copy completes; SYNCED is set and STANDBY_SYNCED is written. -/
  | standbySyncDone
  /-- MBX_CMD_PROD_WRITE (R359): The host advances MBX_CMD_PROD, or the write is ignored with IDX_ERR. -/
  | mbxCmdProdWrite (idx : W16) (entries : List Desc)
  /-- MBX_RSP_CONS_WRITE (R359): The host advances MBX_RSP_CONS, freeing response slots. -/
  | mbxRspConsWrite (idx : W16)
  /-- MBX_NOP (R361): The mailbox NOP command is answered OK. -/
  | mbxNop
  /-- MBX_GET_INFO (R361): GET_INFO returns the boot status, variant, image ids, FM version, BOOT_NO and FT. -/
  | mbxGetInfo
  /-- MBX_IMAGE_STAGE (R367): IMAGE_STAGE fetches an image from host memory and checks and stages it, optionally storing it. -/
  | mbxImageStage (dma : Dma)
  /-- MBX_IMAGE_COMMIT (R369): IMAGE_COMMIT validates the staged image, loads its variant and arms the target SS. -/
  | mbxImageCommit
  /-- MBX_IMAGE_ABORT (R371): IMAGE_ABORT disarms a pending change and discards the staged image. -/
  | mbxImageAbort
  /-- MBX_FW_WRITE (R361): FW_WRITE verifies firmware from host memory and writes it into a slot not in use. -/
  | mbxFwWrite (dma : Dma)
  /-- MBX_FW_SELECT (R361): FW_SELECT chooses the firmware slot for the next boot. -/
  | mbxFwSelect
  /-- MBX_WARM_RESET (R361): WARM_RESET answers and then starts a warm reset within 1 ms. -/
  | mbxWarmReset
  /-- MBX_REG_READ (R361): REG_READ reads a register over the tree and returns its value. -/
  | mbxRegRead
  /-- MBX_REG_WRITE (R361): REG_WRITE writes a register over the tree. -/
  | mbxRegWrite
  /-- MBX_CHRON_READ (R361): CHRON_READ copies Chronicle records to host memory. -/
  | mbxChronRead
  /-- MBX_DIARY_READ (R361): DIARY_READ copies Diary entries to host memory and may advance RD. -/
  | mbxDiaryRead
  /-- MBX_EVENT_MASK (R361): EVENT_MASK chooses which events produce records. -/
  | mbxEventMask
  /-- MBX_BACKGROUND_DONE (R360): A long command finishes in the background and its response is written. -/
  | mbxBackgroundDone (hseq : W32)
  /-- MSIX_HOLDOFF_EXPIRY (R363): A vector's holdoff ends and a condition held during it sends one message. -/
  | msixHoldoffExpiry (vector : Nat)
  /-- LIVE_CHANGE_FINISH (R370): After the Equinox of a live change the FM writes the new unbanked fields, and the new image becomes committed. -/
  | liveChangeFinish
  /-- OP_ALL_REDUCE (R174): An ALL_REDUCE collective descriptor starts an instance that delivers the reduced result to every member. -/
  | opAllReduce (st : Nat) (d : Desc)
  /-- OP_REDUCE_SCATTER (R174): A REDUCE_SCATTER descriptor delivers share i of the reduction to member i. -/
  | opReduceScatter (st : Nat) (d : Desc)
  /-- OP_ALL_GATHER (R196): An ALL_GATHER descriptor gathers each member's padded slot and valid counts to every member. -/
  | opAllGather (st : Nat) (d : Desc)
  /-- OP_REDUCE (R174): A REDUCE descriptor delivers the reduction to ROOT only. -/
  | opReduce (st : Nat) (d : Desc)
  /-- OP_BROADCAST (R174): A BROADCAST descriptor copies ROOT's input to every member. -/
  | opBroadcast (st : Nat) (d : Desc)
  /-- OP_ALL_TO_ALL (R182): An ALL_TO_ALL descriptor sends block j of member i to member j on the NI path. -/
  | opAllToAll (st : Nat) (d : Desc)
  /-- OP_SPARSE_SUM (R197): A SPARSE_SUM descriptor merges sorted row records and keeps the C lowest indices. -/
  | opSparseSum (st : Nat) (d : Desc)
  /-- OP_BARRIER (R182): A BARRIER descriptor sends BARRIER frames up and down the NI tree. -/
  | opBarrier (st : Nat) (d : Desc)
  /-- OP_CANCEL (R201): A CANCEL descriptor cancels this NI's unfinished instance of a group and step, or completes OK with no effect. -/
  | opCancel (st : Nat) (d : Desc)
  /-- STAGE_RSV_RECEIVE (R190): A STAGE_RSV is entered in the reservation table and takes the instance's arithmetic word. -/
  | stageRsvReceive (st : Nat) (f : Frame)
  /-- STAGE_GRANT_SEND (R193): When staging for a chunk frees, the receiver grants up to four in-edges. -/
  | stageGrantSend (st : Nat) (tag : W16) (chunk : W32)
  /-- STAGE_GRANT_RECEIVE (R190): A STAGE_GRANT lets the sender send the chunk's data frames to its address. -/
  | stageGrantReceive (st : Nat) (f : Frame)
  /-- CHUNK_RECEIVE (R193): A CHUNK frame is folded into the chunk at an engine or NI, or dropped if its tag does not own the staging. -/
  | chunkReceive (st : Nat) (f : Frame)
  /-- PARTIAL_RECEIVE (R216): An anchored or binary32 partial is rebuilt and folded, and the last in-edge finishes the chunk upward or at the final engine. -/
  | partialReceive (st : Nat) (f : Frame)
  /-- SPARSE_RECEIVE (R198): SPARSE frames are merged in ascending index, with out-of-order and excess rows dropped. -/
  | sparseReceive (st : Nat) (f : Frame)
  /-- RESULT_RECEIVE (R187): A RESULT frame is relayed down the plan or written to the member's output. -/
  | resultReceive (st : Nat) (f : Frame)
  /-- BARRIER_RECEIVE (R182): A BARRIER frame is combined up the NI tree or passed down. -/
  | barrierReceive (st : Nat) (f : Frame)
  /-- CANCEL_RECEIVE (R202): A CANCEL frame cancels its tag at this unit once and is forwarded on the other plan edges. -/
  | cancelReceive (st : Nat) (f : Frame)
  /-- COLLECTIVE_COMPLETE (R194): After the last chunk is visible, the NI writes the status block, delivers the completion and reports to the Diary. -/
  | collectiveComplete (st : Nat) (tag : W16)
  /-- DIARY_REPORT_RECEIVE (R236): The Diary unit takes a member report and writes the entry once every local member has reported. -/
  | diaryReportReceive (side : Nat) (r : DiaryReport)
  /-- DIARY_RD_ADVANCE (R240): Software advances TRACE_DIARY_RD, consuming entries and ending drops. -/
  | diaryRdAdvance (rd : FT)
  /-- STATS_RD_ADVANCE (R235): Software advances NI_STATS_RD, freeing statistics ring space. -/
  | statsRdAdvance (st : Nat) (rd : FT)
  /-- JRNL_RD_ADVANCE (R247): Software advances NI_JRNL_RD, and recording resumes. -/
  | jrnlRdAdvance (st : Nat) (rd : FT)
  /-- REPLAY_DIVERGE (R249): A held transfer waiting DIVERGE_LIMIT slots diverges the replay; held transfers are delivered and MODE becomes RECORD. -/
  | replayDiverge (st : Nat)
  /-- JRNL_MODE_WRITE (R251): A write of NI_JRNL_CTRL.MODE changes the journal mode, and leaving REPLAY releases held transfers. -/
  | jrnlModeWrite (st : Nat) (mode : W2) (ring : List FT)
  /-- HOLIDAY_STOP_PACKAGE (R376): TRACE_HOLIDAY_CMD STOP_PACKAGE begins a package-scope Holiday. -/
  | holidayStopPackage (side : Nat)
  /-- HOLIDAY_STOP_MACHINE (R376): TRACE_HOLIDAY_CMD STOP_MACHINE begins a machine-scope Holiday with a new ID. -/
  | holidayStopMachine (side : Nat)
  /-- HOLIDAY_PIN (R376): holiday_in_n low for 3 samples with PIN_EN begins a Holiday. -/
  | holidayPin
  /-- HOLIDAY_STOP_FRAME (R379): A received STOP enters Holiday with its ID and forwards it, or is consumed. -/
  | holidayStopFrame (port : Nat) (arg : W32)
  /-- DIE_STOP_ACK (R378): A die acknowledges its stop, and the last acknowledgement sets STOPPED. -/
  | dieStopAck (die : Nat)
  /-- HOLIDAY_ACK_TIMEOUT (R378): 1 µs without every acknowledgement sets STOPPED without the lost die. -/
  | holidayAckTimeout
  /-- HOLIDAY_RELEASE (R381): TRACE_HOLIDAY_CMD RELEASE computes K, forwards RELEASE and resumes the dies. -/
  | holidayRelease (side : Nat)
  /-- HOLIDAY_RELEASE_FRAME (R381): A received RELEASE with the matching ID rebuilds K and releases the Holiday. -/
  | holidayReleaseFrame (port : Nat) (arg : W32)
  /-- HOLIDAY_SCAN (R380): TRACE_HOLIDAY_CMD SCAN reads one input VC's state into SCAN_DATA while STOPPED. -/
  | holidayScan (side : Nat)
  /-- TRACE_COLLECT (R375): A die's trace collector takes a probe record from a router FIFO onto the funnel. -/
  | traceCollect (die : Nat)
  /-- DLINK_NAK_RESEND (R268): A crossing NAK still outstanding after 100 ns is sent again in the next outgoing container. -/
  | dlinkNakResend (die : Nat) (n : Nat)
  /-- COLD_START_LEASE_REQUEST (R352): At a cold start the non-preferred core requests the lease after 50 ms without a heartbeat from the preferred core. -/
  | coldStartLeaseRequest (core : Nat)
  /-- MSIX_TABLE_WRITE (R363): A host write to the MSI-X table unmasks a vector, and a set pending bit then sends its message. -/
  | msixTableWrite (vector : Nat) (addr : FT) (data : W32) (masked : Bool)
  /-- TRACE_ARM (R384): TRACE_CMD ARM puts the trace buffer in ARMED. -/
  | traceArm
  /-- TRACE_TRIGGER (R384): TRACE_CMD TRIGGER takes a software trigger. -/
  | traceTrigger
  /-- TRACE_ADVANCE (R384): TRACE_CMD ADVANCE releases the oldest 64 bytes read through TRACE_WIN. -/
  | traceAdvance
  /-- TRACE_RECORD_DRAINED (R384): The trace port finishes sending a record, freeing space and possibly returning TRIGGERED to ARMED. -/
  | traceRecordDrained
  /-- TRACE_PORT_ENABLE (R385): PORT_EN rising sends 16 ALIGN sets and then drains records to the trace port. -/
  | tracePortEnable
  /-- REF10M_RETURN (R80): An edge on ref10m_in after its loss restores the frequency reference and REF10M_OK, lifting the HOLDOVER cap on quality. -/
  | ref10mReturn
  /-- STANDBY_LOST (R354): The active core loses the standby's heartbeats, clears SYNCED and writes STANDBY_LOST. -/
  | standbyLost
  deriving DecidableEq, Repr

end Sys2Proof
end

