-- ==== Sys2Proof/Decode.lean ====
section
/-! DEFINITION. The decoder of table words. The opcode table gives no row any bits: the commands of this block are not words, so
no word spells one (log 15). -/
namespace Sys2Proof

/-- The command that a word spells by the table's bits: none, as no row has bits (log 15). -/
def decodeTableWord (_nbits _w : Nat) : Option Instr := none

end Sys2Proof
end

