-- ==== Sys2Proof/Machine/Operands.lean ====
section
/-! DEFINITION. The forms in which the block reads its operands: little-endian bytes (R9), register bits (R8), descriptor words
(Table 02-1), frame heads (Table 05-1), responses and return routes (R114, R118), CRCs (R125, R231). -/
namespace Sys2Proof.Machine

/-! ## Bytes and bits -/

/-- The n bytes of a value, least significant first (R9). -/
def leBytes : Nat → Nat → List Byte
  | 0, _ => []
  | n + 1, v => BitVec.ofNat 8 v :: leBytes n (v / 256)

/-- The value of little-endian bytes (R9). -/
def ofLe : List Byte → Nat
  | [] => 0
  | b :: bs => b.toNat + 256 * ofLe bs

/-- The little-endian value of n bytes at an offset; bytes past the end read as zero. -/
def leAt (bs : List Byte) (off n : Nat) : Nat := ofLe ((bs.drop off).take n)

/-- Bits [hi:lo] of a word (R8). -/
def getBits (w : W32) (hi lo : Nat) : Nat := (w.toNat >>> lo) % 2 ^ (hi - lo + 1)

/-- The mask of bits [hi:lo]. -/
def bitMask (hi lo : Nat) : W32 := BitVec.ofNat 32 ((2 ^ (hi - lo + 1) - 1) <<< lo)

/-- A word with bits [hi:lo] replaced by the low bits of v. -/
def setBits (w : W32) (hi lo v : Nat) : W32 :=
  (w &&& ~~~ bitMask hi lo) ||| (BitVec.ofNat 32 (v <<< lo) &&& bitMask hi lo)

/-- Bits [hi:lo] of a number. -/
def natBits (n hi lo : Nat) : Nat := (n >>> lo) % 2 ^ (hi - lo + 1)

/-- A signed 64-bit reading of an FT difference (R12). -/
def ftDiff (a b : FT) : Int := (a - b).toInt

/-- Whether FT value a is at or after b (R12). -/
def ftGe (a b : FT) : Bool := decide (0 ≤ ftDiff a b)

/-- The distance from b to a as a count, 0 where a is before b. -/
def ftSince (a b : FT) : Nat := (ftDiff a b).toNat

/-- The slot number of an FT value: slot boundaries are the multiples of 128 quanta (R83). -/
def slotOf (t : FT) : Nat := t.toNat / 128

/-- The number of slot boundaries that pass from a to b (R115). -/
def slotsBetween (a b : FT) : Nat := if ftGe b a then ((b.toNat / 128) + 2 ^ 57 - (a.toNat / 128)) % 2 ^ 57 else 0

/-- A 24-bit delay, saturating (Tables 02-3, 05-1). -/
def satQ (n : Nat) : BitVec 24 := BitVec.ofNat 24 (min n 0xFFFFFF)

/-- The sum of a delay and a count, saturating. -/
def addQ (q : BitVec 24) (n : Nat) : BitVec 24 := satQ (q.toNat + n)

/-! ## Cyclic redundancy checks -/

/-- One bit of a reflected CRC-32C (R125; polynomial 0x1EDC6F41, reflected 0x82F63B78). -/
def crc32Bit (c : W32) : W32 := if c.getLsbD 0 then (c >>> 1) ^^^ 0x82F63B78#32 else c >>> 1

/-- Eight bits of the CRC-32C. -/
def crc32Byte (c : W32) (b : Byte) : W32 :=
  crc32Bit (crc32Bit (crc32Bit (crc32Bit (crc32Bit (crc32Bit (crc32Bit (crc32Bit (c ^^^ b.zeroExtend 32))))))))

/-- CRC-32C with initial value and final XOR of all ones (R125). -/
def crc32c (bs : List Byte) : W32 := ~~~ (bs.foldl crc32Byte 0xFFFFFFFF#32)

/-- One bit of the reflected CRC-64 of ECMA-182 (R231; 0x42F0E1EBA9EA3693, reflected 0xC96C5795D7870F42). -/
def crc64Bit (c : FT) : FT := if c.getLsbD 0 then (c >>> 1) ^^^ 0xC96C5795D7870F42#64 else c >>> 1

/-- Eight bits of the CRC-64. -/
def crc64Byte (c : FT) (b : Byte) : FT :=
  crc64Bit (crc64Bit (crc64Bit (crc64Bit (crc64Bit (crc64Bit (crc64Bit (crc64Bit (c ^^^ b.zeroExtend 64))))))))

/-- The digest of bytes (R231); the digest of no bytes is 0. -/
def crc64 (bs : List Byte) : FT := ~~~ (bs.foldl crc64Byte 0xFFFFFFFFFFFFFFFF#64)

/-! ## Descriptors (Table 02-1) -/

/-- Word i of a descriptor. -/
def dw (d : Desc) (i : Nat) : W32 := d.extractLsb' (32 * i) 32

/-- The descriptor with its OPCODE field set: a command of a row carries that row's opcode (log 7). -/
def withOpcode (d : Desc) (op : Nat) : Desc := (d &&& ~~~ (0xFF#512)) ||| BitVec.ofNat 512 (op % 256)

/-- OPCODE. -/
def dOp (d : Desc) : Nat := getBits (dw d 0) 7 0
/-- PKEY. -/
def dKey (d : Desc) : Nat := getBits (dw d 0) 31 20
/-- DIRECT. -/
def dDirect (d : Desc) : Bool := (dw d 0).getLsbD 15
/-- FENCE. -/
def dFence (d : Desc) : Bool := (dw d 0).getLsbD 14
/-- CQ. -/
def dCq (d : Desc) : Bool := (dw d 0).getLsbD 13
/-- DEST. -/
def dDest (d : Desc) : Nat := (dw d 1).toNat
/-- TAG. -/
def dTag (d : Desc) : W16 := (dw d 2).extractLsb' 16 16
/-- STREAM_ID. -/
def dStream (d : Desc) : Nat := getBits (dw d 2) 15 0
/-- LENGTH. -/
def dLen (d : Desc) : Nat := getBits (dw d 3) 16 0
/-- LOCAL_ADDR. -/
def dLocal (d : Desc) : FT := d.extractLsb' 128 64
/-- REMOTE_ADDR. -/
def dRemote (d : Desc) : FT := d.extractLsb' 192 64
/-- REMOTE_CTR, where enabled. -/
def dRemoteCtr (d : Desc) : Option W12 := if (dw d 8).getLsbD 31 then some ((dw d 8).extractLsb' 16 12) else none
/-- LOCAL_CTR. -/
def dLocalCtr (d : Desc) : Nat := getBits (dw d 8) 11 0
/-- LOCAL_CTR_EN. -/
def dLocalCtrEn (d : Desc) : Bool := (dw d 8).getLsbD 15
/-- CPL_CTR, where enabled. -/
def dCplCtr (d : Desc) : Option Nat := if (dw d 9).getLsbD 15 then some (getBits (dw d 9) 11 0) else none
/-- TRIG_EN. -/
def dTrigEn (d : Desc) : Bool := (dw d 14).getLsbD 24
/-- TRIG_SLOT. -/
def dTrigSlot (d : Desc) : Nat := getBits (dw d 14) 23 12
/-- TRIG_CTR. -/
def dTrigCtr (d : Desc) : Nat := getBits (dw d 14) 11 0
/-- THRESHOLD. -/
def dThreshold (d : Desc) : Nat := (dw d 15).toNat
/-- Row size S of an INDEXED_READ (Table 02-2). -/
def dRowSize (d : Desc) : Nat := getBits (dw d 10) 12 0
/-- Index count N of an INDEXED_READ. -/
def dRowCount (d : Desc) : Nat := getBits (dw d 11) 6 0
/-- The 64 bits of words 12 and 13: index-list address, or ATOMIC operand. -/
def dW12 (d : Desc) : FT := d.extractLsb' 384 64
/-- ATOMIC op. -/
def dAtomicOp (d : Desc) : Nat := getBits (dw d 10) 1 0

/-- Whether an opcode of Table 02-2 is reserved; collective opcodes are those of Table 08-1. -/
def opReserved (op : Nat) : Bool := !(op ≤ 8 || (0x20 ≤ op && op ≤ 0x28))

/-- Whether an opcode is collective (0x20–0x2F, Table 02-2). -/
def opCollective (op : Nat) : Bool := decide (0x20 ≤ op) && decide (op ≤ 0x2F)

/-- Whether a descriptor breaks R52 in its common words or in the words of a non-collective opcode: a reserved bit set, a
reserved opcode, or a reserved encoding. -/
def descMalformed (d : Desc) : Bool :=
  let z (i : Nat) (m : W32) : Bool := dw d i &&& m != 0
  let op := dOp d
  opReserved op || z 0 0x000F1F00 || z 14 0xFE000000 ||
  (!opCollective op &&
   ((dDirect d && z 1 0xFFFF0000) || (op != 8 && z 2 0x0000FFFF) || z 3 0xFFFE0000 || z 8 0x70007000 || z 9 0xFFFF7000 ||
    (if op == 3 then z 10 0xFFFFE000 || z 11 0xFFFFFF80
     else if op == 4 then false
     else if op == 5 then z 10 0xFFFFFFFC || z 11 0xFFFFFFFF || dAtomicOp d == 3
     else if op == 6 then z 11 0xFFFFFFFF || z 12 0xFFFFFFFF || z 13 0xFFFFFFFF
     else if op == 7 then z 11 0xFFFF0000 || z 12 0xFFFFFFFF || z 13 0xFFFFFFFF
     else z 10 0xFFFFFFFF || z 11 0xFFFFFFFF || z 12 0xFFFFFFFF || z 13 0xFFFFFFFF)))

/-- Whether a descriptor breaks a length, size or alignment rule of its opcode (R47, R48, Table 02-2; the tile size of R49 is
checked with its stream). -/
def descBadLength (d : Desc) : Bool :=
  let op := dOp d
  let l := dLen d
  if op == 1 || op == 2 then decide (l = 0) || decide (65536 < l)
  else if op == 3 then
    let s := dRowSize d
    let n := dRowCount d
    decide (s < 4) || decide (4096 < s) || s % 4 != 0 || decide (n < 1) || decide (64 < n) || decide (65536 < n * s) || l != n * s
  else if op == 4 then decide (l < 1) || decide (32 < l)
  else if op == 5 then l != 8 || (dRemote d).toNat % 8 != 0
  else false

/-- The charge of a queued descriptor (R163). -/
def descCharge (d : Desc) : Nat := if dOp d == 5 then 16 else dLen d

/-! ## Frames -/

/-- The plane of a class, 0 RQ, 1 RS, 2 BK, 3 CV; none where the code is reserved (Table 05-3). -/
def classPlane (c : Nat) : Option Nat :=
  if 1 ≤ c ∧ c ≤ 5 then some 0
  else if 0x10 ≤ c ∧ c ≤ 0x14 then some 1
  else if 0x20 ≤ c ∧ c ≤ 0x23 then some 2
  else if (0x30 ≤ c ∧ c ≤ 0x33) ∨ (0x38 ≤ c ∧ c ≤ 0x3C) then some 3
  else none

/-- The limit of LENGTH of a class (Table 05-3). -/
def classLimit (c : Nat) : Nat :=
  if c == 4 then 32
  else if c == 5 then 16
  else if c == 2 then 256
  else if c == 0x14 then 8
  else if 0x20 ≤ c ∧ c ≤ 0x23 ∨ 0x30 ≤ c ∧ c ≤ 0x33 then 4096
  else 0

/-- Whether LENGTH does not exceed the limit of its class (R111). A LENGTH below the class's range, or not of its form, is no malformation of R111:
the frame goes on with the bytes it has (DESIGN CHOICE, log 68: the specification gives such a frame no treatment). -/
def classLenOk (c l : Nat) : Bool := decide (l ≤ classLimit c)

/-- Whether a class belongs to a response: the RS classes, READ_DATA and IDX_READ_DATA (R114). -/
def classResponse (c : Nat) : Bool := (decide (0x10 ≤ c) && decide (c ≤ 0x14)) || c == 0x21 || c == 0x22

/-- Entry i of a frame's ROUTE (Table 05-1). -/
def routeEntry (r : BitVec 160) (i : Nat) : Nat := if i < 32 then (r >>> (5 * i)).toNat % 32 else 0

/-- A ROUTE from its entries. -/
def routeOf : List Nat → BitVec 160
  | [] => 0
  | e :: es => BitVec.ofNat 160 (e % 32) ||| (routeOf es <<< 5)

/-- A ROUTE with entry i replaced. -/
def routeSet (r : BitVec 160) (i e : Nat) : BitVec 160 :=
  (r &&& ~~~ ((31#160) <<< (5 * i))) ||| (BitVec.ofNat 160 (e % 32) <<< (5 * i))

/-- The return route of a frame (R118): the recorded ingress ports newest first, then 31; none once HOP_PTR is above 31. -/
def returnRoute (f : Frame) : Option (BitVec 160) :=
  let h := f.hopPtr.toNat
  if h ≤ 31 then some (routeOf ((List.range h).map (fun j => routeEntry f.route (h - 1 - j)) ++ [31])) else none

/-- A bit as a number. -/
def bitNat (b : Bool) : Nat := if b then 1 else 0

/-- Word Hk of a frame's head (Table 05-1); LINKWORD is zero inside a package. -/
def headWord (f : Frame) (k : Nat) : FT :=
  if k = 0 then BitVec.ofNat 64 (f.destStation.toNat * 2 ^ 48 + f.dpLen.toNat * 2 ^ 41 + f.length.toNat * 2 ^ 28 + f.pkey.toNat * 2 ^ 16 +
    f.inc.toNat * 2 ^ 12 + bitNat f.journal * 1024 + bitNat f.watched * 512 + bitNat f.last * 256 + bitNat f.poison * 128 +
    bitNat f.epoch * 64 + f.cls.toNat)
  else if k = 1 then BitVec.ofNat 64 (f.hopPtr.toNat * 2 ^ 58 + f.txn.toNat * 2 ^ 50 + f.srcCoord.toNat * 2 ^ 33 +
    f.srcStation.toNat * 2 ^ 17 + f.destCoord.toNat)
  else if k = 2 then f.addr
  else if k = 3 then BitVec.ofNat 64 (f.opinfo.toNat * 2 ^ 48 + f.seq.toNat * 2 ^ 16 + f.streamId.toNat)
  else if k = 4 then BitVec.ofNat 64 (f.dpath.toNat * 2 ^ 24 + f.qdelay.toNat)
  else if k ≤ 7 then BitVec.ofNat 64 (f.route.toNat / 2 ^ (64 * (k - 5)))
  else 0

/-- A response to a frame (R114): destination and source exchanged, TXN, INC and key copied, the return route from hop 0, and
QDELAY started at q (R115). -/
def respond (f : Frame) (cls : Nat) (q : BitVec 24) : Frame :=
  { destStation := f.srcStation, destCoord := f.srcCoord, srcStation := f.destStation, srcCoord := f.destCoord, txn := f.txn,
    inc := f.inc, pkey := f.pkey, cls := BitVec.ofNat 6 cls, qdelay := q, route := (returnRoute f).getD 0, epoch := f.epoch }

/-- Whether a unit that refuses this frame sends a REFUSAL for it (R120): not for an RS class or a CV control class, and only
where it has a return route. -/
def refusable (f : Frame) : Bool :=
  let c := f.cls.toNat
  !(decide (0x10 ≤ c) && decide (c ≤ 0x14)) && !(decide (0x38 ≤ c) && decide (c ≤ 0x3C)) && decide (f.hopPtr.toNat ≤ 31)

/-- The REFUSAL of a frame: key 0, the refused key in ARG, reason and refuser in OPINFO, QDELAY copied (R114, R120). -/
def refusalFrame (f : Frame) (reason refuser : Nat) : Frame :=
  { respond f 0x12 f.qdelay with
      pkey := 0, seq := f.pkey.zeroExtend 32, opinfo := BitVec.ofNat 16 (refuser * 256 + reason), last := true }

/-! ## Poisoned bytes (R57, R112, R117) -/

/-- The first poisoned byte. -/
def marksFirst : Marks → Option Nat
  | [] => none
  | r :: m => match marksFirst m with
    | none => some r.1
    | some n => some (min r.1 n)

/-- Whether a byte from lo up to hi is poisoned. -/
def marksHit (m : Marks) (lo hi : Nat) : Bool := m.any (fun r => decide (max r.1 lo < min r.2 hi))

/-- Poisoned bytes moved up by n. -/
def marksUp (m : Marks) (n : Nat) : Marks := m.map (fun r => (r.1 + n, r.2 + n))

/-- The poisoned bytes of the n bytes from an offset on, by their offsets in that part. -/
def marksPart (m : Marks) (off n : Nat) : Marks :=
  m.filterMap (fun r => if max r.1 off < min r.2 (off + n) then some (max r.1 off - off, min r.2 (off + n) - off) else none)

/-- The flits, units or beats of u bytes that hold a poisoned byte of a payload of len bytes, whole (R117). -/
def marksWhole (u len : Nat) (m : Marks) : Marks :=
  (List.range ((len + u - 1) / u)).filterMap (fun i => if marksHit m (u * i) (u * i + u) then some (u * i, u * i + u) else none)

/-- The bytes of a data flit of a plane (Table 05-2). -/
def flitBytes (plane : Nat) : Nat := if plane ≤ 1 then 32 else 128

/-- The poisoned bytes of a frame: those of its marked flits or units, or all of it where only H0.POISON is set (R117). -/
def frameMarks (f : Frame) : Marks :=
  if f.marked.isEmpty then (if f.poison then [(0, max 1 f.length.toNat)] else []) else f.marked

/-- The transfer offset of the first poisoned byte of a frame whose payload starts at offset base (R117). -/
def poisonAt (f : Frame) (base : Nat) : Option Nat := (marksFirst (frameMarks f)).map (base + ·)

/-- A frame with the flits of its plane marked that hold a poisoned byte of its payload, and H0.POISON set where one is (R112, R117). -/
def withMarks (plane : Nat) (m : Marks) (f : Frame) : Frame :=
  let w := marksWhole (flitBytes plane) f.length.toNat m
  { f with marked := w, poison := !w.isEmpty }

/-- A frame of which the numbered data flits came with an uncorrectable word: it travels on with them marked (R112). -/
def poisonFlits (plane : Nat) (bad : List Nat) (f : Frame) : Frame :=
  let n := flitBytes plane
  let m := bad.filterMap (fun i => if n * i < f.length.toNat then some (n * i, n * i + n) else none)
  if m.isEmpty then f else withMarks plane (frameMarks f ++ m) f

/-- The earlier of two poisoned offsets. -/
def firstPoison : Option Nat → Option Nat → Option Nat
  | none, b => b
  | a, none => a
  | some a, some b => some (min a b)

/-- The flit count of a frame on a plane (Table 05-2). -/
def flitCount (plane len : Nat) : Nat := if plane ≤ 1 then 2 + (len + 31) / 32 else 1 + (len + 127) / 128

/-- The link units of a frame (R125). -/
def unitCount (len : Nat) : Nat := 1 + (len + 4 + 63) / 64

/-- The pieces of a transfer of length l at address a (R47): address, offset and size of each frame; no piece crosses a 4 KiB
boundary. The fuel bounds the number of pieces, at most 17. -/
def pieces : Nat → Nat → Nat → Nat → List (Nat × Nat × Nat)
  | 0, _, _, _ => []
  | k + 1, a, off, l =>
    if l = 0 then [] else
    let n := min l (4096 - a % 4096)
    (a, off, n) :: pieces k (a + n) (off + n) (l - n)

/-- The pieces of a PUT or GET (R47). -/
def putPieces (a : FT) (l : Nat) : List (Nat × Nat × Nat) := pieces 18 a.toNat 0 l

/-- The frames an indexed read of n packed bytes uses (R48). -/
def idxFrames (bytes : Nat) : Nat := (bytes + 4095) / 4096

/-! ## Addresses of units (R295, R388) -/

/-- A unit address from die, class and instance. -/
def unitAddr (die cls inst : Nat) : Nat := die * 32768 + cls * 1024 + inst
/-- The die of a unit address. -/
def unitDie (u : Nat) : Nat := u / 32768
/-- The class of a unit address. -/
def unitClass (u : Nat) : Nat := u / 1024 % 32
/-- The instance of a unit address. -/
def unitInst (u : Nat) : Nat := u % 1024
/-- The management address of an offset of a unit. -/
def regAddr (u off : Nat) : Nat := u * 4096 + off
/-- The NI unit of a station. -/
def niUnit (st : Nat) : Nat := unitAddr (st / 2048) 2 (st % 2048)
/-- The station of an NI unit. -/
def niStation (u : Nat) : Nat := unitDie u * 2048 + unitInst u

end Sys2Proof.Machine
end

