-- ==== Sys2Proof/Config.lean ====
section
/-! DEFINITION. What the specification leaves to no rule: the free values, and the verdicts of the cryptography that lies outside the
block's own arithmetic. Each is opaque: nothing can evaluate it or prove a value of it. -/
namespace Sys2Proof

/-- A free value: the n-th value that the specification leaves open (log 2). The counter that selects it is State.freeCtr. -/
opaque Config.freeValue : Nat → FT

/-- Whether the ECDSA P-384 signature block of an image, or of firmware, verifies over its bytes (R365, Table 15-1; log 3). -/
opaque Config.signatureValid : List Byte → Bool

/-- Whether the public key of an image's signature block is one of those the firmware carries (R365; log 3). -/
opaque Config.keyTrusted : List Byte → Bool

/-- Whether firmware bytes verify against the words of BOOT_FUSE_KEYHASH (Table 15-1; log 3). -/
opaque Config.firmwareValid : List W32 → List Byte → Bool

/-- The engine of a Priberun-S, with its coordinate, to which a package's last engine of a group's chunk sends its partial (R186, log 42): station
in [32:17], coordinate in [16:0]. No table of the image gives a Priberun-A this address. -/
opaque Config.switchPeer : Nat → Nat → FT

/-- Whether an image disables a port (R39, R344; log 74): no record of Table 16-10 says which ports an image disables. -/
opaque Config.imageDisables : List Byte → Nat → Bool

/-- The lattice delay of an island, by die × 1024 + router instance, in quanta: what the echo of B2 measures (R64, log 17). -/
opaque Config.latticeDelay : Nat → BitVec 16

/-- What a word of an SRAM of a unit class holds (Table 13-2): the kind of SRAM, and the item of it (log 75). No rule says where an SRAM keeps what. -/
opaque Config.sramHolds : Nat → Nat → Nat → Nat × Nat

/-- The runs of a stream at the sender of a cable, by image bytes, ingress port, plane and stream: first slot, slot after the last, frames and units of
each. They stand in the sender's image, not in this package's (R93, log 45). -/
opaque Config.farRuns : List Byte → Nat → Nat → Nat → List (Nat × Nat × Nat × Nat)

/-- The current in mA by which a station's work steps when its wave begins, by image bytes and station (R105). No record of Table 16-10 carries it
(log 45). -/
opaque Config.stepCurrent : List Byte → Nat → Nat

/-- M of a group at a Priberun-S, whose GROUP record lists member ports in place of LOCAL_MEMBERS (Table 16-11) and so does not give it
(R200, log 42). -/
opaque Config.switchMembers : Nat → BitVec 27

end Sys2Proof
end

