-- ==== Sys2Proof/Machine/RegTypes.lean ====
section
/-! DEFINITION. The types in which the register index is written: access codes (Table 00-5), reset classes (Table 18-8), legal
encodings (R18), fields, rows and the kinds of instance (Table 18-3). -/
namespace Sys2Proof.Machine

/-- Access codes (Table 00-5). -/
inductive Acc where
  | rw | ro | w1c | w1s | wo | rwl
  deriving DecidableEq, Repr

/-- What a warm reset leaves in a field (Table 18-8): the value its Warm column gives, which is its cold value wherever it is a
number; its present value; the cold value until the image is loaded; the fuses' value. -/
inductive Warm where
  | value | keep | image | fuse
  deriving DecidableEq, Repr

/-- The encodings a field accepts (R18): any, a range, or the multiples of a number. -/
inductive Legal where
  | any
  | range (lo hi : Nat)
  | mult (n : Nat)
  deriving DecidableEq, Repr

/-- A register field: offset of its register's first entry, the stride of its array, its bits, its access code, its cold
value, its warm class and its legal encodings. -/
structure Fld where
  off : Nat
  stride : Nat
  hi : Nat
  lo : Nat
  acc : Acc
  cold : Nat
  warm : Warm
  legal : Legal
  deriving DecidableEq, Repr

/-- How a register row is held: one word, a 48-bit counter pair (R20, R21), a 64-bit pair the block writes (R21), or a 64-bit
pair that software writes (R394). -/
inductive RegKind where
  | single | counter | roPair | rwPair
  deriving DecidableEq, Repr

/-- One row of the register index. -/
structure RegRow where
  off : Nat
  count : Nat
  stride : Nat
  kind : RegKind
  flds : List Fld
  deriving DecidableEq, Repr

/-- The kinds of instance that have registers (Tables 18-2, 18-3; ALM and PROBE/TRACE have several kinds each). -/
inductive UnitKind where
  | global | router | ni | memst | port | dlink | reduce | time | almRouter | almCtl | fault | chron | probe | diary | holiday
  | trace | pool | power | mbx | boot
  deriving DecidableEq, Repr

end Sys2Proof.Machine
end

