-- ==== Sys2Proof/Machine/State.lean ====
section
/-! DEFINITION. The state of the block as plain data: every register, buffer, queue, table, counter, mode and pin that the
specification gives it, the queue of waiting commands, and what the block has put on its boundary. INVENTORY.md lists each
field with the rule that names it. -/
namespace Sys2Proof.Machine

/-! ## Identity and image -/

/-- The two corner dies that a Q20-L fuses off (R37). -/
inductive CornerPair where
  | c0c3 | c0c12 | c0c15 | c3c12 | c3c15 | c12c15
  deriving DecidableEq, Repr

/-- A pair of corner dies as bits by die number. -/
def CornerPair.bits : CornerPair → W16
  | .c0c3 => 0x0009
  | .c0c12 => 0x1001
  | .c0c15 => 0x8001
  | .c3c12 => 0x1008
  | .c3c15 => 0x8008
  | .c12c15 => 0x9000

/-- What the fuses say of this package (Table 15-10, R37, R254): instance, variant, fused-off dies and ports, serial, preferred
core, hashes, bad stations by die × 16 + word, and lane maps and lane fuses by route port (absent: the identity, none bad). -/
structure Package where
  isS : Bool := false
  variant : Nat := 0
  corners : CornerPair := .c0c3
  portOff : FT := 0
  serial : FT := 0
  pref : Bool := false
  hash : W32 := 0
  keyHash : List W32 := []
  badStations : KMap W32 := []
  laneMap : KMap FT := []
  laneFuse : KMap W32 := []
  deriving DecidableEq, Repr

/-- A record of a fabric image (Table 16-9): the section it stands in, its header fields and its payload. -/
structure Rec where
  sec : Nat
  kind : Nat
  variant : W16
  scope : W32
  payload : List Byte
  offset : Nat := 0
  rsv : Nat := 0
  deriving DecidableEq, Repr

/-- A staged or committed fabric image (R365): its header fields, its records in order, its bytes, and whether STORE was set. -/
structure Image where
  id : FT
  target : Nat
  serial : FT
  coord : BitVec 17
  recs : List Rec
  bytes : List Byte
  store : Bool
  deriving DecidableEq, Repr

/-- The content of an almanac and table bank (R94, R366): its variant and its banked records; none is the null almanac (R85). -/
structure Bank where
  variant : W16 := 0
  recs : List Rec := []
  deriving DecidableEq, Repr

/-! ## Network interfaces -/

/-- A completion record (Table 02-3). -/
structure Cpl where
  tag : W16
  op : Byte
  status : Byte
  qdelay : BitVec 24
  detail : W32
  peer : W16
  deriving DecidableEq, Repr

/-- A completion that has become due (R58): its record, whether a record is delivered (CQ), the CPL_CTR it advances, and
whether it ends a descriptor of this station (R59). -/
structure Due where
  cpl : Cpl
  record : Bool
  ctr : Option Nat
  ends : Bool
  deriving DecidableEq, Repr

/-- A descriptor past its checks: its destination, and the local FT of its acceptance (R115, R171). -/
structure Task where
  d : Desc
  coord : BitVec 17
  dest : W16
  acc : FT
  deriving DecidableEq, Repr

/-- Where a transaction stands: waiting for pool buffers, fetching what its first frame carries, its first frame sent, reading
the source data of a granted PUT, or its data sent or arriving. -/
inductive TxPhase where
  | poolWait | fetch | sent | reading | data
  deriving DecidableEq, Repr

/-- An outstanding transaction of an initiator (R309, R311): its task, phase, the FT its Vigil last started at, the QDELAY of
its last response, pool buffers reserved and not filled, bytes received, writes not yet visible, whether LAST has arrived, the
first poisoned offset and the first zeroed list position. -/
structure Txn where
  task : Task
  phase : TxPhase
  vigil : Option FT := none
  lastQ : BitVec 24 := 0
  bufs : Nat := 0
  got : Nat := 0
  writes : Nat := 0
  last : Bool := false
  poison : Option Nat := none
  zeroed : Option Nat := none
  deriving DecidableEq, Repr

/-- A transfer that a destination NI delivers: the frame that requested it, its journal class (0 MESSAGE, 1 PUT, 2 ATOMIC),
its bytes, the largest QDELAY among its frames, its first poisoned offset and the FT it arrived whole (R115, R246). -/
structure Delivery where
  f : Frame
  kind : Nat
  bytes : Nat
  q : BitVec 24
  poison : Option Nat
  since : FT
  deriving DecidableEq, Repr

/-- A reservation a destination NI holds (R169, R310), kept by its number of arrival: the WRITE_RSV, whether its buffers are allocated, the bytes
and the buffers still to come, the writes not yet visible, the largest QDELAY and the first poisoned offset of its data, the FT of its last frame,
and the FT at which it was granted. -/
structure Grant where
  f : Frame
  granted : Bool
  left : Nat
  bufs : Nat
  writes : Nat
  q : BitVec 24
  poison : Option Nat
  since : FT
  at_ : FT := 0
  deriving DecidableEq, Repr

/-- What waits for a write id to become visible (R58). -/
inductive WrFor where
  | nothing
  | grantData (key : Nat)
  | txnData (txn key : Nat) (buf : Bool)
  | deliver (no : Nat)
  | atomic (d : Delivery) (old : FT)
  | tile (stream no : Nat)
  | result (tag : W16) (chunk : Nat)
  | status (tag : W16)
  deriving DecidableEq, Repr

/-- A write that waits for a free write id, with its poisoned bytes (R57, R58). -/
structure PendWrite where
  addr : FT
  data : List Byte
  poison : Marks
  what : WrFor
  deriving DecidableEq, Repr

/-- What a station read is for (R53). -/
inductive RdFor where
  | putData (txn : Nat)
  | first (txn : Nat)
  | tile (task : Task)
  | serve (f : Frame) (no : Nat)
  | rows (f : Frame) (no i : Nat) (acc : List Byte) (zeroed : Option Nat) (poison : Marks)
  | atomic (d : Delivery)
  | contribution (tag : W16) (chunk : Nat)
  deriving DecidableEq, Repr

/-- A read that waits for a free read id. -/
structure PendRead where
  addr : FT
  len : Nat
  what : RdFor
  deriving DecidableEq, Repr

/-- An entry of the translation cache (R43). -/
structure Xlat where
  key : Nat
  rank : Nat
  coord : BitVec 17
  station : W16
  deriving DecidableEq, Repr

/-- An entry of the yellow list (R167): its task with its acceptance, its key, whether it must take its charge from Tc, and the slots for which
Holiday froze its expiry (R377). -/
structure Yellow where
  task : Task
  key : Nat
  debit : Bool
  froze : Nat := 0
  deriving DecidableEq, Repr

/-- A tile that a stream source holds whole (R50): its descriptor, sequence, bytes, poisoned bytes, the frames already sent, the FT it was whole
at, and whether its slip has been counted (R90). -/
structure Tile where
  task : Task
  seq : W32
  data : List Byte
  poison : Marks
  sent : Nat
  index : Nat := 0
  ready : FT := 0
  deferred : Bool := false
  deriving DecidableEq, Repr

/-- A tile that arrives or is not yet visible (R51): its number at the stream, its sequence, its writes not yet visible, whether LAST has come, its
counter, its bytes so far for a watch (R245), its first poisoned offset, its source, whether its sequence was a gap, and the largest QDELAY of
its frames (R56). -/
structure RxTile where
  no : Nat
  seq : W32
  writes : Nat := 0
  last : Bool := false
  rctr : Option W12 := none
  data : List Byte := []
  poison : Option Nat := none
  src : W16 := 0
  gap : Bool := false
  slipped : Bool := false
  q : BitVec 24 := 0
  deriving DecidableEq, Repr

/-- A stream as a destination sees it (R51): the expected sequence, the number of the next tile, and the tiles that arrive or are not yet
visible, oldest first. -/
structure RxStream where
  expect : W32 := 0
  next : Nat := 0
  tiles : List RxTile := []
  deriving DecidableEq, Repr

/-- The values of a shaper that are in effect (R164). -/
structure Shaper where
  rate : Nat := 0
  burst : Nat := 65536
  en : Bool := false
  deriving DecidableEq, Repr

/-- Tokens that a policer set has spent (R166): the distance of Tc and Tp from full, in 1/256 B. -/
structure Spent where
  tc : Nat := 0
  tp : Nat := 0
  deriving DecidableEq, Repr

/-- The open entry of a watch slot at an NI (R245). -/
structure Watch where
  tiles : Nat := 0
  firstSeq : W32 := 0
  firstFt : FT := 0
  firstQual : Nat := 3
  lastFt : FT := 0
  lastQual : Nat := 3
  data : List Byte := []
  gap : Bool := false
  slipped : Bool := false
  deriving DecidableEq, Repr

/-- A transfer of an NI whose frames leave in issue order among those of one class to one destination (R59): where it goes, its class, what it is
(the TXN, or the number of the request that is served), and its frames once they are formed. -/
structure Form where
  dest : W16
  coord : BitVec 17
  cls : Nat
  ref : Nat
  frames : Option (List Frame)
  deriving DecidableEq, Repr

/-- A MESSAGE that has arrived and is delivered in arrival order among those of its source (R59): its number, and whether it is visible. -/
structure MsgIn where
  no : Nat
  d : Delivery
  visible : Bool
  deriving DecidableEq, Repr

/-- A held transfer of the journal hold table (R248). -/
structure Held where
  d : Delivery
  since : FT
  deriving DecidableEq, Repr

/-- A RESULT chunk at a member (R194, R228): its bytes by offset in the chunk, the writes not yet visible, whether LAST data, the status word and its
visibility have come, and its first poisoned output offset. -/
structure OutChunk where
  data : KMap (List Byte) := []
  writes : Nat := 0
  last : Bool := false
  word : Bool := false
  raised : Bool := false
  deriving DecidableEq, Repr

/-- A collective instance at a member NI (R192–R203): its descriptor and member index, M, when it was accepted and at which quality, its COLL_TAG, whether it runs on the
engine path, how many input chunks it has reserved, its open reservations by chunk with the address granted, its input chunks sent, its output
chunks, the valid counts received, whether the header result has come, how it was cancelled, the FT its Vigil last started at, its status block,
the first poisoned output offset, whether statistics were lost and where its first record stands, the FT at which its last chunk became
visible with the quality then, and while it ends the quality at FT_END, the status it completes with and the writes of its valid counts and status block not yet visible (R194). -/
structure Member where
  d : Desc
  member : Nat
  size : Nat
  acc : FT
  qual : Nat := 3
  tag : W16
  engine : Bool
  rsvNext : Nat := 0
  opened : KMap (Option FT) := []
  sentIn : Nat := 0
  outs : KMap OutChunk := []
  valid : KMap Nat := []
  hdr : Bool := false
  cancelled : Bool := false
  cause : Nat := 0
  vigil : FT
  block : StatusBlock := {}
  poison : Option Nat := none
  statsLost : Bool := false
  firstRec : Option Nat := none
  visFt : Option (FT × Nat) := none
  endQual : Nat := 3
  ending : Option Nat := none
  endWr : Nat := 0
  deriving DecidableEq, Repr

/-- A frame that waits in a buffer or queue: the FT of its arrival there (R115), the FT at which it became the head (the wait of
R158), the outputs it takes (several at a multicast fork, R144), the FT of its first deferral with the length of that cycle (R92),
whether its slip has been counted (R90), whether it holds egress-staging credit (R150), and in a port's egress queue the input VC of its router
that it holds until it takes staging (R151). -/
structure Head where
  f : Frame
  since : FT
  headAt : FT
  out : List Nat := []
  defer : Option (FT × Nat) := none
  slipped : Bool := false
  credit : Bool := false
  holds : Option Nat := none
  deriving DecidableEq, Repr

/-- A network interface (chapters 02, 07, 08, 10, 13). -/
structure Ni where
  ctr : KMap W48 := []
  ctrBad : List Nat := []
  evt : KMap W48 := []
  trig : KMap Desc := []
  fireq : List Nat := []
  xlat : List Xlat := []
  xlatWait : List Task := []
  cmdWait : List Desc := []
  cmdq : List (Desc × FT) := []
  live : Nat := 0
  cpl : List Cpl := []
  due : List Due := []
  wr : KMap WrFor := []
  wrQ : List PendWrite := []
  rd : KMap RdFor := []
  rdQ : List PendRead := []
  txn : KMap Txn := []
  retired : KMap FT := []
  queues : KMap (List Task) := []
  qHead : KMap FT := []
  deficit : KMap Nat := []
  drrAt : Option Nat := none
  tokens : KMap Int := []
  shaper : KMap Shaper := []
  spent : KMap Spent := []
  yellow : List Yellow := []
  yellowWait : List Task := []
  seqNext : KMap W32 := []
  tiles : List Tile := []
  rx : KMap RxStream := []
  grants : KMap Grant := []
  arriveNo : Nat := 0
  msgs : List MsgIn := []
  atomics : List Delivery := []
  forms : List Form := []
  fenced : List Nat := []
  hold : List Held := []
  ring : List FT := []
  ringBase : Nat := 0
  jrnlAt : FT := 0
  watch : KMap Watch := []
  outq : List Head := []
  collq : List Head := []
  collPend : KMap (List (Frame × FT)) := []
  collDef : KMap Nat := []
  collAt : Nat := 0
  collSched : List (Frame × FT × Bool) := []
  defer : KMap (FT × Nat) := []
  members : KMap Member := []
  collWait : List (Desc × FT) := []
  genNext : KMap Nat := []
  resets : List FT := []
  stopHeld : List Instr := []
  launched : KMap FT := []
  deriving DecidableEq, Repr

/-! ## Receive buffer pool -/

/-- A request for pool buffers (R169): the station and key it is for, how many, whether a WRITE_RSV (by grant key) or a
transaction of the station asked, the FT it came at, and the slots for which Holiday froze its WAIT_MAX (R377). -/
structure PoolReq where
  st : Nat
  key : Nat
  n : Nat
  rsv : Bool
  ref : Nat
  since : FT
  froze : Nat := 0
  deriving DecidableEq, Repr

/-- A POOL instance (R168): buffers in use by key, and the waiting requests in arrival order. -/
structure Pool where
  use : KMap Nat := []
  queue : List PoolReq := []
  deriving DecidableEq, Repr

/-! ## Fabric time (chapter 03) -/

/-- The follower's side of a time exchange on a port (R70): its XID, t2, then t1 and the advertised values of its FOLLOW_UP, then
t3; and the XIDs this end sends next and awaits an answer for as the sender. -/
structure Exch where
  xid : Nat := 0
  t2 : Option FT := none
  fu : Option FollowUp := none
  t3 : Option FT := none
  sendXid : Nat := 0
  t1 : Option FT := none
  deriving DecidableEq, Repr

/-- What a package knows of a port as a source of time (R69, R73): consecutive qualifying Syncs, whether a Sync has come since the port was last
trained, the FT of the last one, the last advertised FOLLOW_UP, the last path delays (newest first, at most 16) and the last offsets (newest first, at most 4). -/
structure TimePort where
  good : Nat := 0
  heard : Bool := false
  last : Option FT := none
  adv : Option FollowUp := none
  delays : List Int := []
  offsets : List Int := []
  deriving DecidableEq, Repr

/-- A realignment record (R78): its FT and leap count, whether this package armed it, and whether it has been applied and its leap slots are being
taken. -/
structure Realign where
  ft : FT
  leap : Int
  own : Bool
  applied : Bool := false
  deriving DecidableEq, Repr

/-- The TIME unit (R60–R82). state and quality are coded as Table 03-1; slew is what is still to be slewed out, in 2^-32
quanta, positive where FT is ahead; target is the offset from the upstream that the servo holds (R77); records are those it carries and past
the FTs of those that are over for it (R78); rate is the learned frequency as a correction per tick, in 2^-32 quanta (R74), ppm the slew limit
in force (R75) and lastO the offset that the error estimate counts (R76); root is the side whose unit is the root (R63); ppsSec is the second of FT last begun at pps_out (R81); island offsets stand in Isl. -/
structure Time where
  ft : FT := 0
  frac : Nat := 0
  state : Nat := 0
  slew : Int := 0
  upstream : Option Nat := none
  steps : Nat := 0
  ports : KMap TimePort := []
  exch : KMap Exch := []
  offset : Int := 0
  target : Int := 0
  d : Int := 0
  accepted : Int := 0
  armed : Option FT := none
  records : List Realign := []
  past : List FT := []
  eqxFt : Option FT := none
  rate : Int := 0
  ppm : Nat := 100
  lastO : Int := 0
  entryEst : Nat := 0
  entryFt : FT := 0
  ppsWritten : Bool := false
  ppsChecks : List Int := []
  ppsInOk : Bool := false
  ref10mOk : Bool := false
  root : Nat := 0
  ppsSec : Option Nat := none
  ppsOut : Bool := false
  valid : Bool := false
  nbrPort : Nat := 0
  nowQual : KMap Nat := []
  deriving DecidableEq, Repr

/-! ## The almanac (chapter 04) -/

/-- The states of the bank not in force (Table 04-5). -/
inductive OtherState where
  | held | free | loading | ready | armed
  deriving DecidableEq, Repr

/-- The package almanac controller (R83–R109): the bank in force and both banks, the other bank's state, what is being loaded
into it, the armed target, who armed it, P, the t of the running cycle, the FT of the last Kalends, the Kalends since cold
reset, the wave spacing in force and the one that follows, and COOL_PENDING with the cool form asked for. -/
structure Alm where
  inForce : Nat := 0
  b0 : Bank := {}
  b1 : Bank := {}
  other : OtherState := .free
  loading : Option Bank := none
  target : FT := 0
  byPower : Bool := false
  leap : Int := 0
  t : Int := 0
  start : FT := 0
  cycles : FT := 0
  spacing : Nat := 0
  spacingNext : Nat := 0
  cool : Option Bool := none
  deriving DecidableEq, Repr

/-! ## Clock islands (chapter 12) -/

/-- A clock island (R34, R64–R67, R86, R273–R279): its FT minus the root's in 2^-32 quanta, consecutive pulses beyond 2 ns, whether its FT is valid, its
frequency in 25 MHz units, whether its clock runs, whether its PLL is locked, the FT of the last slot boundary it executed, whether it still has to come
to one since it loaded FT, what its trim takes from it per reference cycle and for how many more, the last pulse it took, and its lattice delay in
quanta. -/
structure Isl where
  off : Int := 0
  beyond : Nat := 0
  ftValid : Bool := false
  freq : Nat := 0
  running : Bool := false
  locked : Bool := false
  slot : FT := 0
  fresh : Bool := false
  trim : Int := 0
  trimLeft : Nat := 0
  pulse : Nat := 0
  delay : Int := 0
  deriving DecidableEq, Repr

/-! ## Holiday and trace (chapter 17) -/

/-- The package Holiday controller (R376–R382): whether a Holiday is in force, whether all dies have stopped, whether it resumes, its
ID, cause and scope, whether this package originated it, the dies that have acknowledged, the last ID released, a RELEASE that
waits for STOPPED with the port it came by, K as a resume SS, the dies that have resumed, and whether the almanac is suspended. -/
structure Hol where
  active : Bool := false
  stopped : Bool := false
  resuming : Bool := false
  id : Nat := 0
  cause : Nat := 0
  machine : Bool := false
  own : Bool := false
  acks : List Nat := []
  lastId : Nat := 0
  release : Option (Option Nat × Option Nat) := none
  k : Int := 0
  resumed : List Nat := []
  suspended : Bool := false
  scanReady : Bool := false
  deriving DecidableEq, Repr

/-- A 130-bit block on a lane of the trace port: its sync header and its 128 bits, the first sent lowest (R385). -/
structure TraceBlock where
  lane : Nat
  sync : BitVec 2
  bits : BitVec 128
  deriving DecidableEq, Repr

/-- The trace unit (R383–R385): its state (0 IDLE, 1 ARMED, 2 TRIGGERED, 3 DONE), the undrained records oldest first and how much of
the oldest has been drained, the next TSEQ, the bytes captured since the trigger, the records that must drain before ARMED, and
what was dropped since the last OVERFLOW record. rr is, for each die, the router whose FIFO its collector took from last (R375); blocks counts
the port's blocks since its last ALIGN set, and scr is the lanes' generator (R385). -/
structure Trace where
  st : Nat := 0
  ring : List (List Byte) := []
  headOff : Nat := 0
  tseq : Nat := 0
  post : Nat := 0
  drain : Option Nat := none
  dropRecs : Nat := 0
  dropBytes : Nat := 0
  trigFt : FT := 0
  rr : List (Nat × Nat) := []
  blocks : Nat := 0
  scr : BitVec 31 := -1
  deriving DecidableEq, Repr

/-! ## Routers, ports and crossings (chapters 04 to 07, 11) -/

/-- The pins of the block (Tables 03-5, 12-4, 17-1). -/
inductive Pin where
  | ppsOut (side : Nat) | timeValid (side : Nat) | holidayOut | kalendsWarn (side : Nat)
  deriving DecidableEq, Repr

/-- A control unit that a port sends (Table 05-8). -/
inductive PortCtl where
  | ack (seq : Nat)
  | nak (expected : Nat)
  | flow (off : W14)
  | sync (xid : Nat)
  | followUp (fu : FollowUp)
  | delayReq (xid : Nat)
  | delayResp (xid : Nat) (t4 : FT)
  | train (t : Train)
  deriving DecidableEq, Repr

/-- What a port has found of a physical lane (R124): the number and polarity its alignment codewords show, its skew in ns, and how many have come in
step, three at most. -/
structure RxLane where
  number : Nat := 0
  inverted : Bool := false
  skew : Nat := 0
  seen : Nat := 0
  deriving DecidableEq, Repr

/-- A common arbiter (R158): the count n of grants in T2 and T3, the round-robin pointer, the priorities of its requesters, and at an SRAM port
the access cycles since the scrubber's last (R159). -/
structure ArbSt where
  n : Nat := 0
  ptr : Nat := 0
  p : KMap Nat := []
  sinceScrub : Nat := 0
  deriving DecidableEq, Repr

/-- A probe record in a router's FIFO (R375): plane, probe, VC, FT and head. -/
structure ProbeRec where
  plane : Nat
  probe : Nat
  vc : Nat
  ft : FT
  qual : Nat
  f : Frame
  deriving DecidableEq, Repr

/-- A router: its input VCs (by (input × 4 + plane) × 4 + vc) and those of them that hold their sender OFF (R147), the arbiter, the frames started
in the current run and the FT until which the tail holds the output, each by output × 4 + plane, and the probe
FIFO. -/
structure Rtr where
  inq : KMap (List Head) := []
  off : List Nat := []
  arb : KMap ArbSt := []
  started : KMap Nat := []
  busy : KMap FT := []
  fifo : List ProbeRec := []
  deriving DecidableEq, Repr

/-- A frame on a cable that is not acknowledged yet (R130). -/
structure TxHeld where
  lseq : Nat
  units : Nat
  lf : LinkFrame
  deriving DecidableEq, Repr

/-- The sums of a qualification or monitoring window (R261): codewords, symbols, bits, uncorrectable codewords, codewords with 12
or more corrections, and symbols by lane. -/
structure QualSum where
  c : Nat := 0
  s : Nat := 0
  b : Nat := 0
  u : Nat := 0
  h : Nat := 0
  lanes : KMap Nat := []
  deriving DecidableEq, Repr

/-- A port (R121–R135, R147–R151, R253–R265): receive and transmit sides of the link, egress queues and staging, and training. -/
structure Port where
  -- receive side
  e : Nat := 0
  nakFor : Option Nat := none
  rxq : KMap (List Head) := []
  off : W14 := 0
  scram : BitVec 31 := 0x7FFFFFFF
  rxOpen : List WireUnit := []
  -- transmit side
  lseq : Nat := 0
  held : List TxHeld := []
  resend : Option Nat := none
  tries : Nat := 0
  txOff : W14 := 0
  localq : KMap (List Head) := []
  direct : KMap (List Head) := []
  staged : KMap (List Head) := []
  stageUse : KMap Nat := []
  deficit : KMap Nat := []
  drrAt : KMap Nat := []
  tokens : KMap Int := []
  shaper : KMap Shaper := []
  stageArb : KMap ArbSt := []
  mux : ArbSt := {}
  started : KMap Nat := []
  shareAt : KMap FT := []
  hq : List Frame := []
  busy : FT := 0
  txUnits : List WireUnit := []
  txScram : BitVec 31 := 0x7FFFFFFF
  txCount : Nat := 0
  -- training
  cold : Bool := true
  ownMask : W16 := 0xFFFF
  peer : Option Train := none
  trainRx : Nat := 0
  readyRx : Nat := 0
  rxActive : Bool := false
  readyTx : Nat := 0
  away : Bool := false
  rxLanes : KMap RxLane := []
  goodCw : Nat := 0
  savedUse : Bool := false
  adapted : Bool := false
  layoutWas : Nat := 0
  win : QualSum := {}
  fails : Nat := 0
  failSum : QualSum := {}
  deriving DecidableEq, Repr

/-- A flit in an adapter's queue, and the FT it came at. -/
structure TxFlit where
  slot : Slot
  since : FT
  deriving DecidableEq, Repr

/-- A frame whose flits are crossing: its head, the data flits' bytes so far, the byte ranges of those that are poisoned, and whether its head
had an uncorrectable word, so that its rest is consumed (R112). -/
structure Worm where
  f : Frame
  data : List Byte := []
  poison : Marks := []
  bad : Bool := false
  deriving DecidableEq, Repr

/-- A die-to-die crossing's end (R152, R266–R270): the retry layer's numbers and held containers, the adapter's queues by plane, the VCs whose
queues hold their sender OFF (R147) and the open worms by plane × 4 + vc, whether it trains after EN rose, and what its qualification window has seen. -/
structure Dlink where
  dseq : Nat := 0
  held : List Container := []
  tries : Nat := 0
  e : Nat := 0
  nak : Bool := false
  txq : KMap (List TxFlit) := []
  off : List Nat := []
  rxOpen : KMap Worm := []
  fresh : Bool := false
  qualErr : Nat := 0
  qualRepair : Bool := false
  deriving DecidableEq, Repr

/-! ## Power (chapter 12) -/

/-- The inputs of the package power controller at a side, as last sampled there (R285). -/
structure PcPins where
  valid : Bool := false
  ramp : W12 := 0
  budget : W3 := 7
  throttleN : Bool := true
  deriving DecidableEq, Repr

/-- What POWER holds beside its registers: the dies whose UNGATE waits for OFF (R292), the gating commands held by a Holiday, die and
whether it is GATE (R292), the level of kalends_warn (R289), the stations whose engine or collective unit has stopped its own
clock (R283), the inputs of each side (R285), and the FT at which the throttle's hold began (R287). -/
structure Pwr where
  ungateWait : List Nat := []
  gateHeld : List (Nat × Bool) := []
  kwarn : Bool := false
  asleep : List Nat := []
  pins : KMap PcPins := []
  holdAt : FT := 0
  deriving DecidableEq, Repr

/-! ## The Chronicle (chapter 14) -/

/-- A record's fields without SEQ and MARK (Table 14-1). -/
structure ChRec where
  code : Nat
  sev : Nat
  quality : Nat
  source : Nat
  cycles : Nat
  ft : FT
  seconds : Nat
  payload : List Byte
  deriving DecidableEq, Repr

/-- A record slot of a sector: the record, its SEQ, and its MARK: 0xFF torn, 0x0F live, 0x00 retired (R323). -/
structure ChSlot where
  r : ChRec
  seq : W32
  mark : Nat := 0xFF
  deriving DecidableEq, Repr

/-- A Chronicle sector (Table 14-2): its header, and its records from slot 2 on. -/
structure ChSector where
  magic : Bool := true
  started : Bool := false
  erased : Bool := true
  st : Nat := 0x7F
  seq : W32 := 0xFFFFFFFF
  copyOf : W32 := 0xFFFFFFFF
  erases : Nat := 0
  seconds : Nat := 0
  slots : List ChSlot := []
  deriving DecidableEq, Repr

/-- A program of the flash (R323, R329–R331): a record's body, a MARK, a page of a copy, and the header fields. -/
inductive FlashOp where
  | body (sector : Nat) (x : ChSlot)
  | mark (sector : Nat) (seq : W32) (m : Nat)
  | page (sector : Nat) (xs : List ChSlot)
  | copying (sector : Nat) (of_ : W32)
  | open_ (sector : Nat)
  | close (sector : Nat)
  | eraseStart (sector : Nat)
  | erased (sector : Nat)
  | bad (sector : Nat)
  deriving DecidableEq, Repr

/-- A decision of the active controller (R333): a record placed with its SEQ and the victim it displaced, or live records below a SEQ
retired. -/
inductive ChDecision where
  | place (x : ChSlot)
  | retire (seq : W32)
  | retireTo (bound : W32)
  deriving DecidableEq, Repr

/-- One controller and its device (R321, R328–R332): the sectors that are not blank, whether it has mounted and its device is in use, the spare,
the programs to do and whether the first is under way, how often it has failed, the erases to do and whether the first has failed once,
whether a placement waits for a compaction, SECONDS, POWER_CYCLES, whether the next mount follows a cold reset, decisions to apply, and the
read command that waits for the mount (true: NEXT). -/
structure ChDev where
  sectors : KMap ChSector := []
  mounted : Bool := false
  ok : Bool := false
  full : Bool := false
  spare : Option Nat := none
  seqNext : W32 := 0
  ops : List FlashOp := []
  busy : Bool := false
  fails : Nat := 0
  eraseQ : List Nat := []
  eraseFailed : Bool := false
  need : Bool := false
  seconds : Nat := 0
  cycles : Nat := 0
  cold : Bool := true
  decisions : List ChDecision := []
  reading : Option Bool := none
  deriving DecidableEq, Repr

/-- A rate bucket (R327): what it is short of its BURST, in 1/16,000 record, the records suppressed, and their highest severity. -/
structure ChBucket where
  spent : Nat := 0
  supp : Nat := 0
  sev : Nat := 0
  deriving DecidableEq, Repr

/-- What the active controller decides with and mirrors (R327, R333, R335): the holding RAM, the records lost from it, the buckets by code or
0xFFF0 + severity, whether the first record of the RAM has displaced its victim, a RETIRE_TO that waits, the FT at which FREEZE began, and both
controllers. -/
structure Chron where
  hold : List ChRec := []
  lost : Nat := 0
  buckets : KMap ChBucket := []
  displaced : Bool := false
  retire : Option W32 := none
  frozeAt : FT := 0
  d0 : ChDev := {}
  d1 : ChDev := {}
  deriving DecidableEq, Repr

/-! ## The host mailbox (chapter 16) -/

/-- An entry of the MSI-X table (Table 16-1): address, data, mask bit. -/
structure MsixEntry where
  addr : FT := 0
  data : W32 := 0
  masked : Bool := true
  deriving DecidableEq, Repr

/-- A response or event record before it takes its FSEQ (Table 16-2). -/
structure MbxRsp where
  echo : W32
  code : W16
  status : Nat := 0
  detail : W32 := 0
  result : List Byte := []
  deriving DecidableEq, Repr

/-- What the MBX unit and the FM's mailbox service hold beside the registers (R359–R364): both rings by slot, the commands taken and not
answered (HSEQ, OPCODE), the answers of long commands and the answers that wait for room, the event mask, the records lost since
the last EVENTS_LOST record, the MSI-X table, the pending bits, the vectors in holdoff, and those that have a message to send after it. -/
structure Mbx where
  cmd : KMap Desc := []
  rsp : KMap Desc := []
  open_ : List (W32 × W16) := []
  jobs : List MbxRsp := []
  waiting : List MbxRsp := []
  mask : W16 := 0
  lost : Nat := 0
  msix : KMap MsixEntry := []
  pba : List Nat := []
  hold : List Nat := []
  owed : List Nat := []
  deriving DecidableEq, Repr

/-! ## Faults (chapter 13) -/

/-- What the FAULT unit keeps for a unit and class (R300). -/
structure FClass where
  st : Nat := 0
  cnt : Nat := 0
  wstart : FT := 0
  last : FT := 0
  deriving DecidableEq, Repr

/-- What the FAULT unit keeps for a unit (R300–R305): its classes, its Jubilee count, the classes whose isolation of it is in force, the
units and classes whose isolation holds this unit's fields, the values those fields had, and the keys fenced by each class. -/
structure FUnit where
  cls : KMap FClass := []
  jubilee : Nat := 0
  iso : List Nat := []
  heldBy : List (Nat × Nat) := []
  saved : Nat := 0
  fences : List (Nat × Nat) := []
  deriving DecidableEq, Repr

/-- A report under capture (R306). -/
structure FCapture where
  unit : Nat
  cls : Nat
  detail : W32
  sev : Nat
  cnt : Nat
  jub : Nat
  ft : FT
  qual : Nat
  log : Bool
  deriving DecidableEq, Repr

/-- A die's FAULT unit (R294, R306). -/
structure FDie where
  units : KMap FUnit := []
  capture : List FCapture := []
  deriving DecidableEq, Repr

/-- The control fields of a unit as last written, its consecutive mismatched beacons, and what the FM's shadow holds: last written and live
(R315). -/
structure Beacon where
  written : Nat := 0
  misses : Nat := 0
  shadow : Option (Nat × Nat) := none
  deriving DecidableEq, Repr

/-- The fault controllers (R294–R315): the dies' FAULT units, the keys whose FENCE waits for a lease, the isolations and fences that
wait for Holiday release (unit, class, key), the beacons by unit, the errors in SRAM words by (unit × 64 + SRAM) × 2^24 + word as the XOR of
the check bits, and the scrubber's next word by unit × 64 + SRAM. -/
structure Flt where
  dies : KMap FDie := []
  fenceHeld : List Nat := []
  held : List (Nat × Nat × Nat) := []
  beacons : KMap Beacon := []
  ecc : KMap Byte := []
  scrub : KMap Nat := []
  deriving DecidableEq, Repr

/-! ## Bring-up and the management pair (chapter 15) -/

/-- A boot journal entry (Table 15-3). -/
structure JEntry where
  bootNo : W32
  step : Nat
  event : Nat
  level : Nat
  kind : Nat
  ft : FT
  qual : Nat
  subject : Nat
  detail : W32
  seconds : Nat
  deriving DecidableEq, Repr

/-- A boot state block (Table 15-4); dis lists the boot-disabled units by unit address, and clearedAt is the boot of the last
CLEAR_LEVELS, to which R349 counts. -/
structure BootBlock where
  generation : W32 := 0
  fuseHash : W32 := 0
  settingsCrc : W32 := 0
  levels : Nat := 0
  lastReady : Bool := false
  fwSlot : Nat := 0
  dis : List Nat := []
  clearedAt : W32 := 0
  deriving DecidableEq, Repr

/-- A side's flash below the Chronicle's region (Table 15-2): both firmware slots, the stored image, the boot state and the journal, oldest
entry first. -/
structure BootFlash where
  fw0 : List Byte := []
  fw1 : List Byte := []
  stored : List Byte := []
  block : Option BootBlock := none
  slot : Nat := 0
  journal : List JEntry := []
  deriving DecidableEq, Repr

/-- The bring-up sequencer (R338–R342): whether the current step has started, whether CONTINUE_NO_IMAGE let the package go on, whether level 2 of B6
has asked the host for an image (Table 15-5), the sides whose firmware runs, and both flash devices. -/
structure Boot where
  started : Bool := false
  noImage : Bool := false
  asked : Bool := false
  fwUp : List Nat := []
  f0 : BootFlash := {}
  f1 : BootFlash := {}
  deriving DecidableEq, Repr

/-- The management pair (R352–R355): the voters' grants (core, expiry), the FT at which each voter gave a grant that has not been renewed, the lease
epoch, the core that lost its majority and has not failed a renewal yet, the FT of each FM's last kick, and each core's consecutive
missed heartbeats. -/
structure Lease where
  votes : KMap (Nat × FT) := []
  fresh : KMap FT := []
  epoch : Nat := 0
  lapsed : Option Nat := none
  kick : KMap FT := []
  misses : KMap Nat := []
  deriving DecidableEq, Repr

/-! ## Collectives (chapters 08, 09) -/

/-- A lane of an EXACT accumulator (R209): in window, in units of 2^(A − 95) (integers: 1), promoted, in units of 2^−160, or non-finite, with
its NaN, +inf and −inf states. -/
inductive Lane where
  | win (v : Int)
  | pro (v : Int)
  | non (nan pos neg : Bool)
  deriving DecidableEq, Repr

/-- The accumulator of 64 elements: EXACT with its anchor (R209, R214), integers of ORDERED and ARRIVAL (int64, R218), binary32 (R218),
or elements as bytes (R220, R187). -/
inductive Blk where
  | exact (anchor : Option Int) (lanes : List Lane)
  | ints (lanes : List Int)
  | f32 (lanes : List W32)
  | raw (bytes : List Byte)
  deriving DecidableEq, Repr

/-- An open block of a chunk (R209, R227): what is folded so far, if anything, and whether a poisoned element was. -/
structure OpenBlk where
  val : Option Blk := none
  poison : Bool := false
  deriving DecidableEq, Repr

/-- A record of a SPARSE_SUM (R197, R198): its row index, its blocks, its poison. -/
structure SpRec where
  index : W32
  blks : List Blk
  poison : Bool
  deriving DecidableEq, Repr

/-- An in-edge of a chunk (R190, R193): the peer, its lowest member index, whether its STAGE_RSV has come, the address and staging
units granted to it, the class of its frames, the bytes received and not folded with the string offset they begin at, the poisoned ranges of the
string, the bytes received in all, whether LAST has come, the blocks folded, whether the rest of its string is discarded (R216), whether its fold is
held, and since when (R213). -/
structure CIn where
  coord : BitVec 17
  st : Nat
  rsv : Bool := false
  base : Option FT := none
  units : Nat := 0
  cls : Nat := 0
  data : List Byte := []
  off : Nat := 0
  marks : List (Nat × Nat) := []
  got : Nat := 0
  last : Bool := false
  blocks : Nat := 0
  bad : Bool := false
  held : Bool := false
  heldAt : Option FT := none
  deriving DecidableEq, Repr

/-- A frame of a chunk's result as it goes down the plan (R187, R228): class-specific ADDR offset, bytes, poisoned bytes, LAST, and what rides with it. -/
structure ResFrame where
  off : Nat
  data : List Byte
  mark : Marks
  last : Bool
  word : Bool
  side : CollSide
  deriving DecidableEq, Repr

/-- A down edge of a chunk (R187, R190): the peer, the member it is where it is one that takes the result as its output, whether the
reservation has been sent, the granted address, the result frames sent, and whether its peer is whoever outside the package sends on the edge
(log 42). -/
structure CDown where
  coord : BitVec 17
  st : Nat
  member : Option Nat
  rsv : Bool := false
  base : Option FT := none
  sent : Nat := 0
  ext : Bool := false
  deriving DecidableEq, Repr

/-- A chunk at an engine or in an NI's collective unit (Table 08-9): its arithmetic word, its in-edges, whether its STAGE_RSV to the up edge has left and
the address granted there, the blocks from the first not yet emitted on with that block's number, the emitted string not yet sent with its offset and
poisoned ranges, whether its last frame has left upward or its result is complete, the valid count of its slot (R196), whether a malformed block has poisoned
it (R216), the saturations and promoted lanes of its blocks emitted (R228), its down edges, the reservation of its parent (none, waiting, granted
with address and bytes), the frames of its result, and the order in which its frames came: the in-edge and the bytes it then had (R219). -/
structure Chunk where
  word : Option FT := none
  ins : List CIn := []
  upRsv : Bool := false
  upBase : Option FT := none
  first : Nat := 0
  blks : List OpenBlk := []
  str : List Byte := []
  strOff : Nat := 0
  marks : List (Nat × Nat) := []
  sent : Bool := false
  valid : Nat := 0
  bad : Bool := false
  sats : List Nat := []
  proms : List Nat := []
  down : List CDown := []
  downRsv : Option (Option (FT × Nat)) := none
  res : List ResFrame := []
  arrivals : List (Nat × Nat) := []
  deriving DecidableEq, Repr

/-- A collective instance at an engine or collective unit (R192, R199, R200): its COLL_TAG, what its frames say of it, its first arithmetic word,
the contribution headers by in-edge of chunk 0, whether the combined header has left, the result header received, its chunks, the numbers of those
finished, the peer outside the package last met (log 42), the status flags it has met, the rows dropped with the lowest dropped index (R198), and for an ENGINE entry (Table 10-3) the FT of the first grant and of the last RESULT
frame, the chunks finalised and relayed and the saturations counted here. -/
structure Inst where
  tag : W16
  par : CollSide
  word : Option FT := none
  hdrs : KMap (List Byte) := []
  hdrSent : Bool := false
  hdrDown : Option (List Byte) := none
  chunks : KMap Chunk := []
  doneList : List Nat := []
  below : Option (BitVec 17 × Nat) := none
  flags : Nat := 0
  dropped : Nat := 0
  firstDropped : Nat := 0xFFFFFFFF
  firstFt : Option FT := none
  firstQual : Nat := 3
  lastFt : FT := 0
  lastQual : Nat := 3
  finals : Nat := 0
  relays : Nat := 0
  sats : Nat := 0
  deriving DecidableEq, Repr

/-- A reduction engine, or the collective unit of a member NI (R182, R191, R202, Table 08-16): its instances in the order of acceptance, the
cancelled tags with the cause and flags of the first CANCEL (R203), the tags DONE, the last LATE_MEMBER, LATENESS and STEP by group, the most promotion slots in use, the OUT_ADDR
of members by tag × 2^16 + station (R199), and on a Priberun-S the instances DONE or cancelled here and not reported yet (R243). -/
structure Eng where
  insts : List Inst := []
  cancelled : List (W16 × Nat × Nat) := []
  finished : List W16 := []
  late : KMap (Nat × Nat × W32) := []
  hwm : Nat := 0
  outAddr : KMap FT := []
  past : List Inst := []
  deriving DecidableEq, Repr

/-! ## The Diary (chapter 10) -/

/-- A Diary unit of a side (R236, R242): the reports it holds of sets that are not complete or not confirmed, by set, and the sets that the active
unit has confirmed before this one held all their reports. -/
structure DiarySide where
  sets : KMap (List DiaryReport) := []
  confirmed : List Nat := []
  deriving DecidableEq, Repr

/-- The Diary units (R236-R243): both sides, the entry ring by slot, and the reports that a Holiday holds, with the side each came to. -/
structure Diary where
  d0 : DiarySide := {}
  d1 : DiarySide := {}
  ring : KMap (List Byte) := []
  held : List (Nat × DiaryReport) := []
  deriving DecidableEq, Repr

/-! ## Outcomes -/

/-- Why the machine stops with a fault. No command of the block does: the block has no exception and stops at nothing. -/
inductive Fault where
  /-- Raised by no command (safe): the specification names no event after which the block itself stops. -/
  | stopped
  deriving DecidableEq, Repr

/-- Why a command has no meaning. No command of the block is refused: a command that names a unit that the package does not carry has no effect
(R3, log 65). -/
inductive Refusal where
  /-- The command has no meaning yet (safe). -/
  | notModelled (mnemonic : String)
  deriving DecidableEq, Repr

/-! ## The block -/

/-- A management-tree access that has not completed (R391, R393); lost tells that its late completion is discarded. -/
structure TreeAcc where
  core : Nat
  tag : Nat
  addr : W32
  write : Bool
  data : W32
  lost : Bool := false
  deriving DecidableEq, Repr

/-- A beat of an NI's write channel (Table 02-5): ni_wr_addr, the bytes of ni_wr_data from it, ni_wr_strb, ni_wr_poison and ni_wr_last. -/
structure Beat where
  addr : FT
  data : List Byte
  strb : BitVec 128
  poison : Bool
  last : Bool
  deriving DecidableEq, Repr

/-- What the block puts on its boundary. -/
inductive Out where
  /-- A completion of the management tree to a core (R391): tag, status, data. -/
  | treeDone (core tag status : Nat) (data : W32)
  /-- An interrupt to the FM: register address and bit (R407). -/
  | irq (addr bit : Nat)
  /-- A frame leaves an NI into its router. -/
  | niFrame (st : Nat) (f : Frame)
  /-- A write of an NI (Table 02-5): its id and its beats in order. -/
  | niWrite (st id : Nat) (beats : List Beat)
  /-- A read an NI asks of its station (Table 02-5). -/
  | niRead (st id : Nat) (addr : FT) (len : Nat)
  /-- The reads of a package-table and a station-map entry on a translation miss, by their addresses (R42, R43). -/
  | xlatFetch (st : Nat) (pkgEntry stnEntry : FT)
  /-- A completion record is transferred to the station: the 16 bytes of ni_cpl_data (Tables 02-3, 02-5). -/
  | niCpl (st : Nat) (data : List Byte)
  /-- A counter event notice is transferred to the station: ni_evt_ctr and ni_evt_value (Table 02-5). -/
  | niEvt (st ctr : Nat) (value : W48)
  /-- A fault event: the count strobe and the report of a unit (R294). -/
  | fault (unit cls : Nat) (detail : W32)
  /-- A record leaves by the trace port, in its blocks and the ALIGN sets among them; ALIGN sets alone carry no record (R385). -/
  | traceOut (record : List Byte) (blocks : List TraceBlock)
  /-- A die that gave no stop acknowledgement, as the fault unit reports it (R378). -/
  | dieLost (die : Nat)
  /-- A refusal that a router or port forms (R120). -/
  | refusal (unit : Nat) (f : Frame)
  /-- A frame that crossed leaves an adapter into its router: the router, its input, plane and VC. -/
  | adapterFrame (isl input plane vc : Nat) (f : Frame)
  /-- A head leaves a router at an output, with its plane and VC. -/
  | routerFrame (isl out plane vc : Nat) (f : Frame)
  /-- A frame goes out on a cable (R125). -/
  | linkFrame (port : Nat) (lf : LinkFrame)
  /-- A control unit goes out on a cable (R126). -/
  | portCtl (port : Nat) (c : PortCtl)
  /-- A codeword goes out on a port's physical lanes: the levels of each (R122, R123, R254). -/
  | codeword (port : Nat) (lanes : List (Nat × List Nat))
  /-- An alignment codeword goes out on a port's physical lanes (R124). -/
  | acw (port : Nat) (lanes : List (Nat × List Nat))
  /-- PRBS31 starts on physical lanes, each lane's generator at all ones (Table 05-10). -/
  | prbs31 (port : Nat) (lanes : List Nat)
  /-- A container goes out on a crossing (R267). -/
  | container (die n : Nat) (c : Container)
  /-- A pin takes a level. -/
  | pin (p : Pin) (level : Bool)
  /-- A flash program begins (R323): side and operation. -/
  | flash (side : Nat) (op : FlashOp)
  /-- A sector erase begins or resumes (R331). -/
  | flashErase (side sector : Nat)
  /-- An MSI-X message (R363): vector, address, data. -/
  | msix (v : Nat) (addr : FT) (data : W32)
  /-- The FM writes host or package memory (R358, R366). -/
  | fmWrite (addr : FT) (data : List Byte)
  /-- A fence message to a die's FAULT unit (R303). -/
  | fenceMsg (die key : Nat)
  /-- A heartbeat of a side with FM_ALIVE (R353). -/
  | heartbeat (side : Nat) (alive : Bool)
  /-- A core requests the lease of every voter (R352). -/
  | leaseRequest (core : Nat)
  /-- A memory station is probed with a read of 64 B (Table 15-1). -/
  | memProbe (st : Nat)
  /-- A read of a register answers (R21, R82, R391): address, status, data. -/
  | readData (addr : W32) (status : Nat) (data : W32)
  /-- A write of a register answers (R391): address, status. -/
  | writeDone (addr : W32) (status : Nat)
  /-- A management core is reset (R353). -/
  | coreReset (core : Nat)
  /-- A page of the boot journal or boot state is programmed (R347, R348): side, bytes. -/
  | bootFlash (side : Nat) (bytes : List Byte)
  /-- The FM programs firmware or the stored image (Table 15-2): side, first sector, bytes. -/
  | fmFlash (side sector : Nat) (bytes : List Byte)
  /-- The state beacon of a unit enters the FM's shadow (R315): the control fields last written and live, and a die's or almanac bank's state. -/
  | shadow (unit written live state : Nat)
  /-- A member NI reports to both Diary units, in four MESSAGE frames of 32 B with key 0 (R236); a watch or an engine of a Priberun-S does so too. -/
  | diaryReport (r : DiaryReport)
  /-- The Diary unit writes a statistics block or an entry to its ring (R239, R240). -/
  | diaryWrite (addr : FT) (data : List Byte)
  deriving DecidableEq, Repr

/-- The state of the block. -/
structure State where
  /-- What the fuses say of the package. -/
  pkg : Package := {}
  /-- The commands that wait, first in first out. -/
  pending : List Instr := []
  /-- What the block has put on its boundary, newest first (the model's own field, log 4). -/
  out : List Out := []
  /-- How many free values have been taken (the model's own field, log 2). -/
  freeCtr : Nat := 0
  /-- The registers that do not hold their cold values, by address (R401). -/
  regs : KMap W32 := []
  /-- The 48-bit counters that are not 0, by the address of the low half (R20). -/
  ctrs : KMap W48 := []
  /-- The captured and unread upper halves, by the address of the low half (R21). -/
  shadows : KMap W32 := []
  /-- The staged low halves of 64-bit pairs (R394). -/
  staged : KMap W32 := []
  /-- Whether the RWL fields are locked (R17). -/
  committed : Bool := false
  /-- Interrupts that wait for a core to hold the lease (R407): register address and bit. -/
  irqHeld : List (Nat × Nat) := []
  /-- Accesses outstanding at the tree root (R391). -/
  tree : List TreeAcc := []
  /-- Requests that wait at the core for a place among the sixteen (R391). -/
  treeWait : List TreeAcc := []
  /-- The network interfaces, by station id. -/
  ni : KMap Ni := []
  /-- The pool instances, by die (R168). -/
  pools : KMap Pool := []
  /-- The TIME unit. -/
  time : Time := {}
  /-- The package almanac controller. -/
  alm : Alm := {}
  /-- The clock islands, by die × 1024 + router instance. -/
  isl : KMap Isl := []
  /-- The management side, 0 or 1, whose core holds the lease (R352). -/
  holder : Option Nat := none
  /-- The staged image, if any (R367). -/
  staging : Option Image := none
  /-- The committed image, if any (R342, R370). -/
  image : Option Image := none
  /-- The units that the boot state disables (R344, Table 15-4), by unit address; a die by its GLOBAL unit. -/
  bootDis : List Nat := []
  /-- The package Holiday controller. -/
  hol : Hol := {}
  /-- The trace unit. -/
  trace : Trace := {}
  /-- The routers, by die × 1024 + instance. -/
  rtr : KMap Rtr := []
  /-- The ports, by route port number (R32). -/
  ports : KMap Port := []
  /-- The crossings' ends, by die × 32 + DLINK instance (R270). -/
  dlinks : KMap Dlink := []
  /-- The common arbiters of NI issue stages, engine inputs and SRAM ports (R158), by unit address × 256, plus 0, 1, or 2 + the SRAM. -/
  arbs : KMap ArbSt := []
  /-- What POWER holds beside its registers. -/
  pwr : Pwr := {}
  /-- The Chronicle. -/
  chron : Chron := {}
  /-- The host mailbox. -/
  mbx : Mbx := {}
  /-- The fault controllers. -/
  flt : Flt := {}
  /-- The bring-up sequencer. -/
  boot : Boot := {}
  /-- The management pair. -/
  lease : Lease := {}
  /-- A live change (R369–R371): 0 none, 1 armed, 2 its Equinox taken and the unbanked fields still to be written. -/
  live : Nat := 0
  /-- The reduction engines and collective units, by station. -/
  eng : KMap Eng := []
  /-- The Diary units. -/
  diary : Diary := {}
  deriving DecidableEq, Repr

/-- The machine right after reset (log 1: a Priberun-A of variant Q20 with no unit disabled): every register at its cold value, every queue
empty. The fields' defaults are the values of cold reset. -/
def State.reset : State := {}

end Sys2Proof.Machine
end

