-- ==== Sys2Proof/Machine/Pcs.lean ====
section
/-! DEFINITION. The coding of the Ewelyn link: the RS(544,514) code, the scrambler, lanes and PAM4 levels, alignment codewords, and the units of
frames and control (R121–R127, Tables 05-5, 05-7, 05-8, 05-11). -/
namespace Sys2Proof.Machine

/-! ## The field and the code (R121)

The specification takes the field, its primitive polynomial and the generator polynomial from IEEE 802.3 Clause 91: x^10 + x^3 + 1, and the product of
x − α^j for j = 0–29 (PRESUMED, log 73). -/

/-- A product in GF(2^10). -/
def gfMul (a b : Nat) : Nat :=
  (List.range 10).foldl (fun r i =>
    let d := if 512 ≤ r then (2 * r) ^^^ 0x409 else 2 * r
    if b.testBit (9 - i) then d ^^^ a else d) 0

/-- A power in GF(2^10). -/
def gfPow (a n : Nat) : Nat :=
  (List.range 10).foldl (fun r i =>
    let d := gfMul r r
    if n.testBit (9 - i) then gfMul d a else d) 1

/-- An inverse in GF(2^10); 0 has none. -/
def gfInv (a : Nat) : Nat := gfPow a 1022

/-- α^n. -/
def gfAlpha (n : Nat) : Nat := gfPow 2 (n % 1023)

/-- The value at x of a polynomial given from its highest coefficient down. -/
def gfEval (p : List Nat) (x : Nat) : Nat := p.foldl (fun v c => gfMul v x ^^^ c) 0

/-- The exclusive or of two lists, the longer one's rest kept. -/
def xorLists : List Nat → List Nat → List Nat
  | [], b => b
  | a, [] => a
  | x :: a, y :: b => (x ^^^ y) :: xorLists a b

/-- The generator polynomial, from its lowest coefficient up. -/
def rsGenerator : List Nat :=
  (List.range 30).foldl (fun g j => xorLists (0 :: g) (g.map (gfMul (gfAlpha j)))) [1]

/-- One step of the division by the generator polynomial g (its coefficients below the leading one, highest first). -/
def rsStep (g st : List Nat) (m : Nat) : List Nat :=
  xorLists (st.drop 1 ++ [0]) (g.map (gfMul (m ^^^ st.headD 0)))

/-- The codeword of 514 payload symbols: they and the 30 parity symbols that follow (R122). -/
def rsEncode (m : List Nat) : List Nat :=
  let g := (rsGenerator.reverse).drop 1
  m ++ m.foldl (rsStep g) (List.replicate 30 0)

/-- The syndromes of 544 received symbols. -/
def rsSyndromes (r : List Nat) : List Nat := (List.range 30).map (fun j => gfEval r (gfAlpha j))

/-- The state of the search for the error locator: the locator and the last one, from the lowest coefficient up, its length, the shift since, and
the last discrepancy. -/
structure Locator where
  c : List Nat := [1]
  b : List Nat := [1]
  len : Nat := 0
  shift : Nat := 1
  disc : Nat := 1
  deriving DecidableEq, Repr

/-- One step of the search over syndrome n. -/
def Locator.next (syn : List Nat) (l : Locator) (n : Nat) : Locator :=
  let d := (List.range (l.len + 1)).foldl (fun v i => v ^^^ gfMul (l.c.getD i 0) (syn.getD (n - i) 0)) 0
  if d = 0 then { l with shift := l.shift + 1 }
  else
    let c := xorLists l.c (List.replicate l.shift 0 ++ l.b.map (gfMul (gfMul d (gfInv l.disc))))
    if 2 * l.len ≤ n then { c := c, b := l.c, len := n + 1 - l.len, shift := 1, disc := d }
    else { l with c := c, shift := l.shift + 1 }

/-- The powers of x, below 544, at which symbols are in error: the locator's roots are their inverses. -/
def rsPlaces (c : List Nat) : List Nat := (List.range 544).filter (fun p => gfEval c.reverse (gfAlpha (1023 - p)) == 0)

/-- The value of the error at power p. -/
def rsValue (syn c : List Nat) (p : Nat) : Nat :=
  let x := gfAlpha p
  let y := gfAlpha (1023 - p)
  let omega := (List.range 30).map (fun k => (List.range (k + 1)).foldl (fun v i => v ^^^ gfMul (c.getD i 0) (syn.getD (k - i) 0)) 0)
  let slope := (List.range c.length).map (fun k => if k % 2 = 0 then c.getD (k + 1) 0 else 0)
  gfMul x (gfMul (gfEval omega.reverse y) (gfInv (gfEval slope.reverse y)))

/-- The decoder: the codeword within 15 symbols of what was received, where there is one (R122, R253). -/
def rsDecode (r : List Nat) : Option (List Nat) :=
  let syn := rsSyndromes r
  if syn.all (· == 0) then some r
  else
    let l := (List.range 30).foldl (Locator.next syn) {}
    let ps := rsPlaces l.c
    let out := (List.range 544).map (fun i =>
      if ps.contains (543 - i) then r.getD i 0 ^^^ rsValue syn l.c (543 - i) else r.getD i 0)
    if l.len ≤ 15 ∧ ps.length = l.len ∧ (rsSyndromes out).all (· == 0) = true then some out else none

/-! ## The scrambler (R122) -/

/-- n bits of the PRBS31 sequence, first bit first, and the generator after them (R122, log 27). -/
def prbsBits : Nat → BitVec 31 → List Bool × BitVec 31
  | 0, g => ([], g)
  | n + 1, g =>
    let b := g.getLsbD 30
    let (l, h) := prbsBits n ((g <<< 1) ||| (BitVec.ofBool (b ^^ g.getLsbD 27)).zeroExtend 31)
    (b :: l, h)

/-- A number from bits, first bit least significant. -/
def bitsNat : List Bool → Nat
  | [] => 0
  | b :: bs => bitNat b + 2 * bitsNat bs

/-- A payload with the scrambler's sequence added, and the generator after it. -/
def scramble (x : Nat) (g : BitVec 31) : Nat × BitVec 31 :=
  let r := prbsBits 5140 g
  (x ^^^ bitsNat r.1, r.2)

/-- The symbols of a payload: symbol s is bits [10s+9:10s] (R122). -/
def payloadSymbols (x : Nat) : List Nat := (List.range 514).map (fun s => x / 2 ^ (10 * s) % 1024)

/-- The payload of the first 514 symbols. -/
def symbolsPayload (l : List Nat) : Nat := ((l.take 514).reverse).foldl (fun v s => v * 1024 + s % 1024) 0

/-! ## Lanes and levels (R123, R254) -/

/-- The 16-lane numbers of a layout's lanes in ascending order: code 1 all lanes, 2 lanes 0–7, 3 lanes 8–15 (R123, R133). -/
def layoutLanes (l : Nat) : List Nat :=
  if l = 1 then List.range 16 else if l = 2 then List.range 8 else if l = 3 then (List.range 8).map (8 + ·) else []

/-- The symbols of a lane in a codeword: symbol s is on the (s mod L)-th lane, in increasing s. -/
def laneSymbols (sym : List Nat) (n i : Nat) : List Nat := (List.range (544 / n)).map (fun k => sym.getD (n * k + i) 0)

/-- The Gray code of a bit pair, and back: 00 ↔ 0, 01 ↔ 1, 11 ↔ 2, 10 ↔ 3. -/
def grayLevel (p : Nat) : Nat := if p % 4 = 2 then 3 else if p % 4 = 3 then 2 else p % 4

/-- The five PAM4 levels of a symbol, bit pair [1:0] first. -/
def symbolLevels (s : Nat) : List Nat := (List.range 5).map (fun k => grayLevel (s / 4 ^ k))

/-- The symbol of five levels. -/
def levelsSymbol (l : List Nat) : Nat := ((l.take 5).reverse).foldl (fun v x => v * 4 + grayLevel x) 0

/-- A level inverted. -/
def flipLevel (inv : Bool) (l : Nat) : Nat := if inv then 3 - l else l

/-- The symbols of a lane's levels. -/
def laneDecode (inv : Bool) (ls : List Nat) : List Nat :=
  (List.range (ls.length / 5)).map (fun k => levelsSymbol (((ls.drop (5 * k)).take 5).map (flipLevel inv)))

/-- The number of symbols that a lane sends in a codeword. -/
def lanePeriod (layout : Nat) : Nat := if layout = 1 then 34 else 68

/-- The symbol of an alignment codeword on lane i (R124). -/
def acwSymbol (i : Nat) : Nat := 0x2C0 + i

/-- The number and polarity that a lane's symbols of one codeword period show: at least 32 match 0x2C0 + i, as they are or level-inverted (R124). -/
def acwFind (ls : List Nat) : Option (Nat × Bool) :=
  let hits (inv : Bool) (i : Nat) : Bool := decide (32 ≤ ((laneDecode inv ls).filter (· == acwSymbol i)).length)
  ((List.range 16).flatMap (fun i => [(i, false), (i, true)])).find? (fun x => hits x.2 x.1)

/-- The physical lane that carries a number, by what the alignment codewords have shown. -/
def rxPhysical (m : KMap RxLane) (i : Nat) : Option (Nat × Bool) := (m.find? (fun e => decide (0 < e.2.seen) && e.2.number == i)).map (fun e => (e.1, e.2.inverted))

/-- The layout that the peer sends, by the lanes that carry alignment codewords (R133). -/
def rxLayout (m : KMap RxLane) : Nat :=
  let low := m.any (fun e => decide (0 < e.2.seen) && decide (e.2.number < 8))
  let high := m.any (fun e => decide (0 < e.2.seen) && decide (8 ≤ e.2.number))
  if low && high then 1 else if low then 2 else if high then 3 else 0

/-- The 544 symbols of a codeword on physical lanes, by a receiver that has found the lanes' numbers and polarities. A lane not found reads zeros. -/
def codewordSymbols (m : KMap RxLane) (cw : Codeword) : List Nat :=
  let lanes := layoutLanes (rxLayout m)
  let cols := lanes.map (fun i => match rxPhysical m i with
    | some (p, inv) => laneDecode inv (cw.levels.getD p [])
    | none => [])
  (List.range 544).map (fun s => (cols.getD (s % max 1 lanes.length) []).getD (s / max 1 lanes.length) 0)

/-! ## Units (Table 05-5) -/

/-- The payload of ten units: their types, then their bits. -/
def unitsPayload (us : List WireUnit) : Nat :=
  (List.range 10).foldl (fun v u =>
    let x := us.getD u { ut := 3, bits := 0 }
    v + x.ut % 4 * 2 ^ (2 * u) + x.bits.toNat * 2 ^ (20 + 512 * u)) 0

/-- The ten units of a payload. -/
def payloadUnits (x : Nat) : List WireUnit :=
  (List.range 10).map (fun u => { ut := x / 2 ^ (2 * u) % 4, bits := BitVec.ofNat 512 (x / 2 ^ (20 + 512 * u)) })

/-- The units of a run of a codeword at a time, the last one filled up with IDLE; one that must be unit 0 of its codeword waits for the next one, behind
IDLE units (R127). The fuel is the number of units. -/
def packUnits : Nat → List WireUnit → List WireUnit → List (List WireUnit)
  | 0, cur, _ => if cur.isEmpty then [] else [cur]
  | _ + 1, cur, [] => if cur.isEmpty then [] else [cur]
  | n + 1, cur, u :: us =>
    if cur.length = 10 ∨ (u.ut = 3 ∧ (u.bits.toNat % 256 = 0x10 ∨ u.bits.toNat % 256 = 0x12) ∧ cur ≠ []) then cur :: packUnits n [u] us
    else packUnits n (cur ++ [u]) us

/-! ## Control units (Tables 05-8, 05-11) -/

/-- A unit from its words C0–C4. -/
def ctlWords (c0 c1 c2 c3 c4 : Nat) : BitVec 512 := BitVec.ofNat 512 (c0 + c1 * 2 ^ 64 + c2 * 2 ^ 128 + c3 * 2 ^ 192 + c4 * 2 ^ 256)

/-- The bits of a control unit. -/
def ctlBits : PortCtl → BitVec 512
  | .ack n => ctlWords (0x01 + n % 4096 * 2 ^ 16) 0 0 0 0
  | .nak n => ctlWords (0x02 + n % 4096 * 2 ^ 16) 0 0 0 0
  | .flow off => ctlWords (0x03 + off.toNat * 2 ^ 16) 0 0 0 0
  | .sync x => ctlWords (0x10 + x % 256 * 256) 0 0 0 0
  | .followUp f => ctlWords (0x11 + f.xid % 256 * 256 + f.quality.toNat * 2 ^ 16 + f.steps % 64 * 2 ^ 18 + bitNat f.gm * 2 ^ 24 + bitNat f.realignValid * 2 ^ 25)
      f.t1.toNat f.errEst.toNat f.realignFt.toNat (BitVec.ofInt 32 f.leap).toNat
  | .delayReq x => ctlWords (0x12 + x % 256 * 256) 0 0 0 0
  | .delayResp x t4 => ctlWords (0x13 + x % 256 * 256) t4.toNat 0 0 0
  | .train t => ctlWords (0x20 + t.state % 16 * 256 + bitNat t.retrain * 2 ^ 12 + bitNat t.switch * 2 ^ 13 + t.laneMask.toNat * 2 ^ 16 +
      t.ackSeq.toNat * 2 ^ 32 + t.port % 64 * 2 ^ 44) (t.coord.toNat + t.version % 16 * 2 ^ 17) t.serial.toNat 0 0

/-- Whether a CONTROL unit type is one of Table 05-8. -/
def ctlKnown (t : Nat) : Bool := decide (t ≤ 3) || (decide (0x10 ≤ t) && decide (t ≤ 0x13)) || t == 0x20

/-- The control unit that bits hold; IDLE and the reserved types hold none. -/
def ctlOf (b : BitVec 512) : Option PortCtl :=
  let x := b.toNat
  let t := x % 256
  let xid := x / 256 % 256
  let seq := x / 2 ^ 16 % 4096
  let c1 := BitVec.ofNat 64 (x / 2 ^ 64)
  if t = 0x01 then some (.ack seq)
  else if t = 0x02 then some (.nak seq)
  else if t = 0x03 then some (.flow (BitVec.ofNat 14 (x / 2 ^ 16)))
  else if t = 0x10 then some (.sync xid)
  else if t = 0x11 then some (.followUp {
    xid := xid, t1 := c1, quality := BitVec.ofNat 2 (x / 2 ^ 16), steps := x / 2 ^ 18 % 64, gm := x.testBit 24, realignValid := x.testBit 25,
    errEst := BitVec.ofNat 32 (x / 2 ^ 128), realignFt := BitVec.ofNat 64 (x / 2 ^ 192), leap := (BitVec.ofNat 32 (x / 2 ^ 256)).toInt })
  else if t = 0x12 then some (.delayReq xid)
  else if t = 0x13 then some (.delayResp xid c1)
  else if t = 0x20 then some (.train {
    port := x / 2 ^ 44 % 64, ackSeq := BitVec.ofNat 12 (x / 2 ^ 32), laneMask := BitVec.ofNat 16 (x / 2 ^ 16), switch := x.testBit 13,
    retrain := x.testBit 12, state := x / 256 % 16, version := x / 2 ^ 81 % 16, coord := BitVec.ofNat 17 (x / 2 ^ 64),
    serial := BitVec.ofNat 64 (x / 2 ^ 128) })
  else none

/-- A control unit on the wire. -/
def ctlUnit (c : PortCtl) : WireUnit := { ut := 3, bits := ctlBits c }

/-! ## Frames on the wire (R125) -/

/-- LINKWORD (Table 05-7). -/
def linkWord (lf : LinkFrame) : Nat :=
  bitNat lf.ackValid * 2 ^ 28 + lf.ackSeq.toNat * 2 ^ 16 + lf.vc % 4 * 2 ^ 14 + lf.plane % 4 * 2 ^ 12 + lf.lseq.toNat

/-- The 512 bits of the HEAD unit: the head of Table 05-1 with LINKWORD filled in. -/
def headUnitBits (lf : LinkFrame) : Nat :=
  (List.range 8).foldl (fun v k => v + (headWord lf.frame k).toNat * 2 ^ (64 * k)) 0 + linkWord lf * 2 ^ 480

/-- The bytes of a frame before its CRC: the head, the payload and zeros. -/
def frameBody (lf : LinkFrame) : List Byte :=
  let n := lf.frame.length.toNat
  let data := lf.frame.payload.take n
  leBytes 64 (headUnitBits lf) ++ data ++ List.replicate (64 * unitCount n - 68 - data.length) 0

/-- The CRC-32C of a frame on the wire. -/
def frameCrc (lf : LinkFrame) : W32 := crc32c (frameBody lf)

/-- Whether a frame's CRC is correct. -/
def frameCrcOk (lf : LinkFrame) : Bool := lf.crc == frameCrc lf

/-- A frame with its CRC. -/
def signFrame (lf : LinkFrame) : LinkFrame := { lf with crc := frameCrc lf }

/-- The units of a frame: HEAD, then DATA, or DATA_POISON where a byte is poisoned. -/
def frameUnits (lf : LinkFrame) : List WireUnit :=
  let bytes := frameBody lf ++ leBytes 4 lf.crc.toNat
  (List.range (unitCount lf.frame.length.toNat)).map (fun u =>
    { ut := if u = 0 then 2 else if marksHit lf.frame.marked (64 * (u - 1)) (64 * u) then 1 else 0, bits := BitVec.ofNat 512 (leAt bytes (64 * u) 64) })

/-- The fields of a head (Table 05-1). -/
def headFrame (x : Nat) : Frame :=
  { destStation := BitVec.ofNat 16 (x / 2 ^ 48), dpLen := BitVec.ofNat 4 (x / 2 ^ 41), length := BitVec.ofNat 13 (x / 2 ^ 28),
    pkey := BitVec.ofNat 12 (x / 2 ^ 16), inc := BitVec.ofNat 4 (x / 2 ^ 12), journal := x.testBit 10, watched := x.testBit 9, last := x.testBit 8,
    poison := x.testBit 7, epoch := x.testBit 6, cls := BitVec.ofNat 6 x, hopPtr := BitVec.ofNat 6 (x / 2 ^ 122), txn := BitVec.ofNat 8 (x / 2 ^ 114),
    srcCoord := BitVec.ofNat 17 (x / 2 ^ 97), srcStation := BitVec.ofNat 16 (x / 2 ^ 81), destCoord := BitVec.ofNat 17 (x / 2 ^ 64),
    addr := BitVec.ofNat 64 (x / 2 ^ 128), opinfo := BitVec.ofNat 16 (x / 2 ^ 240), seq := BitVec.ofNat 32 (x / 2 ^ 208),
    streamId := BitVec.ofNat 16 (x / 2 ^ 192), dpath := BitVec.ofNat 40 (x / 2 ^ 280), qdelay := BitVec.ofNat 24 (x / 2 ^ 256),
    route := BitVec.ofNat 160 (x / 2 ^ 320) }

/-- The units that a HEAD unit announces (R125). -/
def headUnits (u : WireUnit) : Nat := unitCount (u.bits.toNat / 2 ^ 28 % 8192)

/-- The frame of a HEAD unit and the data units after it, in order. What the model's frames carry beside the head of Table 05-1 (log 6, log 38) no unit
holds. Its CRC stands as the wire's where that is wrong. -/
def unitsFrame (us : List WireUnit) (uncorr : Bool) : LinkFrame :=
  let head := us.headD { ut := 2, bits := 0 }
  let x := head.bits.toNat
  let f := headFrame x
  let bytes := us.flatMap (fun u => leBytes 64 u.bits.toNat)
  let n := f.length.toNat
  let marks := (List.range (us.length - 1)).filterMap (fun i => if (us.getD (i + 1) head).ut = 1 ∧ 64 * i < n then some (64 * i, 64 * i + 64) else none)
  let whole := decide (us.length = headUnits head)
  let ok := whole && (crc32c (bytes.take (64 * us.length - 4))).toNat == leAt bytes (64 * us.length - 4) 4
  let lf : LinkFrame := {
    frame := { f with payload := (bytes.drop 64).take n, marked := marks }, plane := x / 2 ^ 492 % 4, vc := x / 2 ^ 494 % 4,
    lseq := BitVec.ofNat 12 (x / 2 ^ 480), ackValid := x.testBit 508, ackSeq := BitVec.ofNat 12 (x / 2 ^ 496), crc := 0, uncorr := uncorr,
    complete := whole }
  let crc := frameCrc lf
  { lf with crc := if ok then crc else ~~~ crc }

end Sys2Proof.Machine
end

