-- ==== Sys2Proof/Machine/RegTable.lean ====
section
/-! DEFINITION. The register index (Tables 18-11 to 18-23) and the fields of every register, with their access codes, cold and
warm values and legal encodings, as the field tables of the chapters that own them give them (R16, R17, R18, R401). -/
namespace Sys2Proof.Machine

/-- Byte offset of GLOBAL_DIE (R401). -/
def R.GLOBAL_DIE : Nat := 0x000
/-- GLOBAL_DIE.DIE [23:19]. -/
def F.GLOBAL_DIE_DIE : Fld := ⟨0x000, 4, 23, 19, .ro, 0, .fuse, .any⟩
/-- GLOBAL_DIE.KIND [18:16]. -/
def F.GLOBAL_DIE_KIND : Fld := ⟨0x000, 4, 18, 16, .ro, 0, .fuse, .any⟩
/-- GLOBAL_DIE.ROOT_CAPABLE [1:1]. -/
def F.GLOBAL_DIE_ROOT_CAPABLE : Fld := ⟨0x000, 4, 1, 1, .ro, 0, .fuse, .any⟩
/-- GLOBAL_DIE.ENABLED [0:0]. -/
def F.GLOBAL_DIE_ENABLED : Fld := ⟨0x000, 4, 0, 0, .ro, 0, .keep, .any⟩
/-- Byte offset of GLOBAL_TREE_CTRL (R401). -/
def R.GLOBAL_TREE_CTRL : Nat := 0x004
/-- GLOBAL_TREE_CTRL.TIMEOUT_US [9:0]. -/
def F.GLOBAL_TREE_CTRL_TIMEOUT_US : Fld := ⟨0x004, 4, 9, 0, .rw, 10, .keep, .range 2 1000⟩
/-- Byte offset of GLOBAL_TREE_STATUS (R401). -/
def R.GLOBAL_TREE_STATUS : Nat := 0x008
/-- GLOBAL_TREE_STATUS.EPOCH [31:16]. -/
def F.GLOBAL_TREE_STATUS_EPOCH : Fld := ⟨0x008, 4, 31, 16, .ro, 0, .value, .any⟩
/-- GLOBAL_TREE_STATUS.OUTSTANDING [4:0]. -/
def F.GLOBAL_TREE_STATUS_OUTSTANDING : Fld := ⟨0x008, 4, 4, 0, .ro, 0, .value, .any⟩
/-- Byte offset of GLOBAL_TREE_EVENT (R401). -/
def R.GLOBAL_TREE_EVENT : Nat := 0x00C
/-- GLOBAL_TREE_EVENT.RESERVED_ACCESS [2:2]. -/
def F.GLOBAL_TREE_EVENT_RESERVED_ACCESS : Fld := ⟨0x00C, 4, 2, 2, .w1c, 0, .keep, .any⟩
/-- GLOBAL_TREE_EVENT.EPOCH_DROP [1:1]. -/
def F.GLOBAL_TREE_EVENT_EPOCH_DROP : Fld := ⟨0x00C, 4, 1, 1, .w1c, 0, .keep, .any⟩
/-- GLOBAL_TREE_EVENT.TIMEOUT [0:0]. -/
def F.GLOBAL_TREE_EVENT_TIMEOUT : Fld := ⟨0x00C, 4, 0, 0, .w1c, 0, .keep, .any⟩
/-- Byte offset of GLOBAL_TREE_ERR_INFO (R401). -/
def R.GLOBAL_TREE_ERR_INFO : Nat := 0x010
/-- GLOBAL_TREE_ERR_INFO.VALID [31:31]. -/
def F.GLOBAL_TREE_ERR_INFO_VALID : Fld := ⟨0x010, 4, 31, 31, .w1c, 0, .keep, .any⟩
/-- GLOBAL_TREE_ERR_INFO.WRITE [2:2]. -/
def F.GLOBAL_TREE_ERR_INFO_WRITE : Fld := ⟨0x010, 4, 2, 2, .ro, 0, .keep, .any⟩
/-- GLOBAL_TREE_ERR_INFO.STATUS [1:0]. -/
def F.GLOBAL_TREE_ERR_INFO_STATUS : Fld := ⟨0x010, 4, 1, 0, .ro, 0, .keep, .any⟩
/-- Byte offset of GLOBAL_TREE_ERR_ADDR (R401). -/
def R.GLOBAL_TREE_ERR_ADDR : Nat := 0x014
/-- GLOBAL_TREE_ERR_ADDR.ADDR [31:0]. -/
def F.GLOBAL_TREE_ERR_ADDR_ADDR : Fld := ⟨0x014, 4, 31, 0, .ro, 0, .keep, .any⟩
/-- Byte offset of GLOBAL_CNT_CLR (R401). -/
def R.GLOBAL_CNT_CLR : Nat := 0x018
/-- GLOBAL_CNT_CLR.RESERVED [1:1]. -/
def F.GLOBAL_CNT_CLR_RESERVED : Fld := ⟨0x018, 4, 1, 1, .wo, 0, .value, .any⟩
/-- GLOBAL_CNT_CLR.TIMEOUTS [0:0]. -/
def F.GLOBAL_CNT_CLR_TIMEOUTS : Fld := ⟨0x018, 4, 0, 0, .wo, 0, .value, .any⟩
/-- Byte offset of GLOBAL_TREE_TIMEOUTS (R401). -/
def R.GLOBAL_TREE_TIMEOUTS : Nat := 0x020
/-- Byte offset of GLOBAL_TREE_RESERVED (R401). -/
def R.GLOBAL_TREE_RESERVED : Nat := 0x028
/-- Byte offset of NI_CTRL (R401). -/
def R.NI_CTRL : Nat := 0x000
/-- NI_CTRL.XLAT_FLUSH [7:7]. -/
def F.NI_CTRL_XLAT_FLUSH : Fld := ⟨0x000, 4, 7, 7, .wo, 0, .value, .any⟩
/-- NI_CTRL.TRIG_CLEAR_ALL [6:6]. -/
def F.NI_CTRL_TRIG_CLEAR_ALL : Fld := ⟨0x000, 4, 6, 6, .wo, 0, .value, .any⟩
/-- NI_CTRL.DIRECT_EN [3:3]. -/
def F.NI_CTRL_DIRECT_EN : Fld := ⟨0x000, 4, 3, 3, .rwl, 0, .image, .any⟩
/-- NI_CTRL.KEY0_EN [2:2]. -/
def F.NI_CTRL_KEY0_EN : Fld := ⟨0x000, 4, 2, 2, .rwl, 0, .image, .any⟩
/-- NI_CTRL.CMD_EN [1:1]. -/
def F.NI_CTRL_CMD_EN : Fld := ⟨0x000, 4, 1, 1, .rw, 0, .value, .any⟩
/-- NI_CTRL.RX_EN [0:0]. -/
def F.NI_CTRL_RX_EN : Fld := ⟨0x000, 4, 0, 0, .rw, 0, .value, .any⟩
/-- Byte offset of NI_STATUS (R401). -/
def R.NI_STATUS : Nat := 0x004
/-- NI_STATUS.CPL_LEVEL [22:16]. -/
def F.NI_STATUS_CPL_LEVEL : Fld := ⟨0x004, 4, 22, 16, .ro, 0, .value, .any⟩
/-- NI_STATUS.CMD_STALLED [2:2]. -/
def F.NI_STATUS_CMD_STALLED : Fld := ⟨0x004, 4, 2, 2, .ro, 0, .value, .any⟩
/-- NI_STATUS.SEQ_GAP [1:1]. -/
def F.NI_STATUS_SEQ_GAP : Fld := ⟨0x004, 4, 1, 1, .w1c, 0, .value, .any⟩
/-- NI_STATUS.KEY_VIOLATION [0:0]. -/
def F.NI_STATUS_KEY_VIOLATION : Fld := ⟨0x004, 4, 0, 0, .w1c, 0, .value, .any⟩
/-- Byte offset of NI_CNT_CLR (R401). -/
def R.NI_CNT_CLR : Nat := 0x008
/-- NI_CNT_CLR.STREAM_IDLE_RUN [4:4]. -/
def F.NI_CNT_CLR_STREAM_IDLE_RUN : Fld := ⟨0x008, 4, 4, 4, .wo, 0, .value, .any⟩
/-- NI_CNT_CLR.SEQ_GAP [3:3]. -/
def F.NI_CNT_CLR_SEQ_GAP : Fld := ⟨0x008, 4, 3, 3, .wo, 0, .value, .any⟩
/-- NI_CNT_CLR.XLAT_MISS [2:2]. -/
def F.NI_CNT_CLR_XLAT_MISS : Fld := ⟨0x008, 4, 2, 2, .wo, 0, .value, .any⟩
/-- NI_CNT_CLR.WIN_DROP [1:1]. -/
def F.NI_CNT_CLR_WIN_DROP : Fld := ⟨0x008, 4, 1, 1, .wo, 0, .value, .any⟩
/-- NI_CNT_CLR.PKEY_DROP [0:0]. -/
def F.NI_CNT_CLR_PKEY_DROP : Fld := ⟨0x008, 4, 0, 0, .wo, 0, .value, .any⟩
/-- Byte offset of NI_ROUTE_CFG (R401). -/
def R.NI_ROUTE_CFG : Nat := 0x00C
/-- NI_ROUTE_CFG.OVERRIDE_EN [8:8]. -/
def F.NI_ROUTE_CFG_OVERRIDE_EN : Fld := ⟨0x00C, 4, 8, 8, .rwl, 0, .image, .any⟩
/-- NI_ROUTE_CFG.DIE_MASK [3:0]. -/
def F.NI_ROUTE_CFG_DIE_MASK : Fld := ⟨0x00C, 4, 3, 0, .rw, 15, .image, .range 1 15⟩
/-- Byte offset of NI_PKEY_DROP (R401). -/
def R.NI_PKEY_DROP : Nat := 0x010
/-- Byte offset of NI_WIN_DROP (R401). -/
def R.NI_WIN_DROP : Nat := 0x018
/-- Byte offset of NI_XLAT_MISS (R401). -/
def R.NI_XLAT_MISS : Nat := 0x020
/-- Byte offset of NI_SEQ_GAP (R401). -/
def R.NI_SEQ_GAP : Nat := 0x028
/-- Byte offset of NI_STREAM_IDLE_RUN (R401). -/
def R.NI_STREAM_IDLE_RUN : Nat := 0x030
/-- Byte offset of NI_Q_EVENT (R401). -/
def R.NI_Q_EVENT : Nat := 0x040
/-- NI_Q_EVENT.DELAY [31:16]. -/
def F.NI_Q_EVENT_DELAY : Fld := ⟨0x040, 4, 31, 16, .w1c, 0, .value, .any⟩
/-- NI_Q_EVENT.DEPTH [15:0]. -/
def F.NI_Q_EVENT_DEPTH : Fld := ⟨0x040, 4, 15, 0, .w1c, 0, .value, .any⟩
/-- Byte offset of NI_SHAPE_STATUS (R401). -/
def R.NI_SHAPE_STATUS : Nat := 0x044
/-- NI_SHAPE_STATUS.YELLOW_FULL [7:7]. -/
def F.NI_SHAPE_STATUS_YELLOW_FULL : Fld := ⟨0x044, 4, 7, 7, .ro, 0, .value, .any⟩
/-- NI_SHAPE_STATUS.YELLOW_LEVEL [6:0]. -/
def F.NI_SHAPE_STATUS_YELLOW_LEVEL : Fld := ⟨0x044, 4, 6, 0, .ro, 0, .value, .any⟩
/-- Byte offset of NI_SHAPE_CNT_CLR (R401). -/
def R.NI_SHAPE_CNT_CLR : Nat := 0x048
/-- NI_SHAPE_CNT_CLR.HWM [3:3]. -/
def F.NI_SHAPE_CNT_CLR_HWM : Fld := ⟨0x048, 4, 3, 3, .wo, 0, .value, .any⟩
/-- NI_SHAPE_CNT_CLR.EXPIRED [2:2]. -/
def F.NI_SHAPE_CNT_CLR_EXPIRED : Fld := ⟨0x048, 4, 2, 2, .wo, 0, .value, .any⟩
/-- NI_SHAPE_CNT_CLR.YELLOW [1:1]. -/
def F.NI_SHAPE_CNT_CLR_YELLOW : Fld := ⟨0x048, 4, 1, 1, .wo, 0, .value, .any⟩
/-- NI_SHAPE_CNT_CLR.RED [0:0]. -/
def F.NI_SHAPE_CNT_CLR_RED : Fld := ⟨0x048, 4, 0, 0, .wo, 0, .value, .any⟩
/-- Byte offset of NI_POLICE_RED (R401). -/
def R.NI_POLICE_RED : Nat := 0x050
/-- Byte offset of NI_POLICE_YELLOW (R401). -/
def R.NI_POLICE_YELLOW : Nat := 0x058
/-- Byte offset of NI_POLICE_EXPIRED (R401). -/
def R.NI_POLICE_EXPIRED : Nat := 0x060
/-- Byte offset of NI_JRNL_CTRL (R401). -/
def R.NI_JRNL_CTRL : Nat := 0x080
/-- NI_JRNL_CTRL.MODE [1:0]. -/
def F.NI_JRNL_CTRL_MODE : Fld := ⟨0x080, 4, 1, 0, .rw, 0, .keep, .range 0 2⟩
/-- Byte offset of NI_JRNL_EVENT (R401). -/
def R.NI_JRNL_EVENT : Nat := 0x084
/-- NI_JRNL_EVENT.REPLAY_END [2:2]. -/
def F.NI_JRNL_EVENT_REPLAY_END : Fld := ⟨0x084, 4, 2, 2, .w1c, 0, .keep, .any⟩
/-- NI_JRNL_EVENT.DIVERGED [1:1]. -/
def F.NI_JRNL_EVENT_DIVERGED : Fld := ⟨0x084, 4, 1, 1, .w1c, 0, .keep, .any⟩
/-- NI_JRNL_EVENT.OVERFLOW [0:0]. -/
def F.NI_JRNL_EVENT_OVERFLOW : Fld := ⟨0x084, 4, 0, 0, .w1c, 0, .keep, .any⟩
/-- Byte offset of NI_JRNL_CNT_CLR (R401). -/
def R.NI_JRNL_CNT_CLR : Nat := 0x088
/-- NI_JRNL_CNT_CLR.STATS_LOST [2:2]. -/
def F.NI_JRNL_CNT_CLR_STATS_LOST : Fld := ⟨0x088, 4, 2, 2, .wo, 0, .value, .any⟩
/-- NI_JRNL_CNT_CLR.HELD [1:1]. -/
def F.NI_JRNL_CNT_CLR_HELD : Fld := ⟨0x088, 4, 1, 1, .wo, 0, .value, .any⟩
/-- NI_JRNL_CNT_CLR.LOST [0:0]. -/
def F.NI_JRNL_CNT_CLR_LOST : Fld := ⟨0x088, 4, 0, 0, .wo, 0, .value, .any⟩
/-- Byte offset of NI_JRNL_SIZE (R401). -/
def R.NI_JRNL_SIZE : Nat := 0x08C
/-- NI_JRNL_SIZE.ENTRIES [31:0]. -/
def F.NI_JRNL_SIZE_ENTRIES : Fld := ⟨0x08C, 4, 31, 0, .rwl, 0, .image, .any⟩
/-- Byte offset of NI_JRNL_BASE (R401). -/
def R.NI_JRNL_BASE : Nat := 0x090
/-- NI_JRNL_BASE.ADDR [31:0]. -/
def F.NI_JRNL_BASE_ADDR : Fld := ⟨0x090, 8, 31, 0, .rwl, 0, .image, .any⟩
/-- Byte offset of NI_JRNL_WR (R401). -/
def R.NI_JRNL_WR : Nat := 0x098
/-- NI_JRNL_WR.COUNT [31:0]. -/
def F.NI_JRNL_WR_COUNT : Fld := ⟨0x098, 8, 31, 0, .ro, 0, .keep, .any⟩
/-- Byte offset of NI_JRNL_RD (R401). -/
def R.NI_JRNL_RD : Nat := 0x0A0
/-- NI_JRNL_RD.COUNT [31:0]. -/
def F.NI_JRNL_RD_COUNT : Fld := ⟨0x0A0, 8, 31, 0, .rw, 0, .keep, .any⟩
/-- Byte offset of NI_JRNL_RBASE (R401). -/
def R.NI_JRNL_RBASE : Nat := 0x0A8
/-- NI_JRNL_RBASE.ADDR [31:0]. -/
def F.NI_JRNL_RBASE_ADDR : Fld := ⟨0x0A8, 8, 31, 0, .rwl, 0, .image, .any⟩
/-- Byte offset of NI_JRNL_REPLAY_HEAD (R401). -/
def R.NI_JRNL_REPLAY_HEAD : Nat := 0x0B0
/-- NI_JRNL_REPLAY_HEAD.INDEX [31:0]. -/
def F.NI_JRNL_REPLAY_HEAD_INDEX : Fld := ⟨0x0B0, 4, 31, 0, .rw, 0, .keep, .any⟩
/-- Byte offset of NI_JRNL_REPLAY_END (R401). -/
def R.NI_JRNL_REPLAY_END : Nat := 0x0B4
/-- NI_JRNL_REPLAY_END.INDEX [31:0]. -/
def F.NI_JRNL_REPLAY_END_INDEX : Fld := ⟨0x0B4, 4, 31, 0, .rw, 0, .keep, .any⟩
/-- Byte offset of NI_JRNL_DIVERGE_POS (R401). -/
def R.NI_JRNL_DIVERGE_POS : Nat := 0x0B8
/-- NI_JRNL_DIVERGE_POS.INDEX [31:0]. -/
def F.NI_JRNL_DIVERGE_POS_INDEX : Fld := ⟨0x0B8, 4, 31, 0, .ro, 0, .keep, .any⟩
/-- Byte offset of NI_JRNL_DIVERGE_LIMIT (R401). -/
def R.NI_JRNL_DIVERGE_LIMIT : Nat := 0x0BC
/-- NI_JRNL_DIVERGE_LIMIT.SLOTS [23:0]. -/
def F.NI_JRNL_DIVERGE_LIMIT_SLOTS : Fld := ⟨0x0BC, 4, 23, 0, .rw, 512, .keep, .range 1 4294967295⟩
/-- Byte offset of NI_JRNL_LOST (R401). -/
def R.NI_JRNL_LOST : Nat := 0x0C0
/-- Byte offset of NI_JRNL_HELD (R401). -/
def R.NI_JRNL_HELD : Nat := 0x0C8
/-- Byte offset of NI_STATS_BASE (R401). -/
def R.NI_STATS_BASE : Nat := 0x0D0
/-- NI_STATS_BASE.ADDR [31:0]. -/
def F.NI_STATS_BASE_ADDR : Fld := ⟨0x0D0, 8, 31, 0, .rwl, 0, .image, .any⟩
/-- Byte offset of NI_STATS_SIZE (R401). -/
def R.NI_STATS_SIZE : Nat := 0x0D8
/-- NI_STATS_SIZE.RECORDS [31:0]. -/
def F.NI_STATS_SIZE_RECORDS : Fld := ⟨0x0D8, 4, 31, 0, .rwl, 0, .image, .any⟩
/-- Byte offset of NI_STATS_WR (R401). -/
def R.NI_STATS_WR : Nat := 0x0E0
/-- NI_STATS_WR.COUNT [31:0]. -/
def F.NI_STATS_WR_COUNT : Fld := ⟨0x0E0, 8, 31, 0, .ro, 0, .keep, .any⟩
/-- Byte offset of NI_STATS_RD (R401). -/
def R.NI_STATS_RD : Nat := 0x0E8
/-- NI_STATS_RD.COUNT [31:0]. -/
def F.NI_STATS_RD_COUNT : Fld := ⟨0x0E8, 8, 31, 0, .rw, 0, .keep, .any⟩
/-- Byte offset of NI_STATS_LOST (R401). -/
def R.NI_STATS_LOST : Nat := 0x0F0
/-- Byte offset of NI_FAULT_STATUS (R401). -/
def R.NI_FAULT_STATUS : Nat := 0x100
/-- NI_FAULT_STATUS.INC [31:28]. -/
def F.NI_FAULT_STATUS_INC : Fld := ⟨0x100, 4, 31, 28, .ro, 0, .keep, .any⟩
/-- NI_FAULT_STATUS.WR_OUT [27:27]. -/
def F.NI_FAULT_STATUS_WR_OUT : Fld := ⟨0x100, 4, 27, 27, .ro, 0, .value, .any⟩
/-- NI_FAULT_STATUS.TXN_OUT [26:18]. -/
def F.NI_FAULT_STATUS_TXN_OUT : Fld := ⟨0x100, 4, 26, 18, .ro, 0, .value, .any⟩
/-- NI_FAULT_STATUS.TXN_RETIRED [17:9]. -/
def F.NI_FAULT_STATUS_TXN_RETIRED : Fld := ⟨0x100, 4, 17, 9, .ro, 0, .value, .any⟩
/-- NI_FAULT_STATUS.GRANTS [8:0]. -/
def F.NI_FAULT_STATUS_GRANTS : Fld := ⟨0x100, 4, 8, 0, .ro, 0, .value, .any⟩
/-- Byte offset of NI_VIGIL_PKG (R401). -/
def R.NI_VIGIL_PKG : Nat := 0x104
/-- NI_VIGIL_PKG.US [21:0]. -/
def F.NI_VIGIL_PKG_US : Fld := ⟨0x104, 4, 21, 0, .rw, 2000, .image, .range 1 4000000⟩
/-- Byte offset of NI_VIGIL_MACH (R401). -/
def R.NI_VIGIL_MACH : Nat := 0x108
/-- NI_VIGIL_MACH.US [21:0]. -/
def F.NI_VIGIL_MACH_US : Fld := ⟨0x108, 4, 21, 0, .rw, 50000, .image, .range 1 4000000⟩
/-- Byte offset of NI_VIGIL_RETIRE (R401). -/
def R.NI_VIGIL_RETIRE : Nat := 0x10C
/-- NI_VIGIL_RETIRE.MS [15:0]. -/
def F.NI_VIGIL_RETIRE_MS : Fld := ⟨0x10C, 4, 15, 0, .rw, 200, .image, .any⟩
/-- Byte offset of NI_PFENCE_CMD (R401). -/
def R.NI_PFENCE_CMD : Nat := 0x110
/-- NI_PFENCE_CMD.SET [13:13]. -/
def F.NI_PFENCE_CMD_SET : Fld := ⟨0x110, 4, 13, 13, .wo, 0, .value, .any⟩
/-- NI_PFENCE_CMD.CLEAR [12:12]. -/
def F.NI_PFENCE_CMD_CLEAR : Fld := ⟨0x110, 4, 12, 12, .wo, 0, .value, .any⟩
/-- NI_PFENCE_CMD.PKEY [11:0]. -/
def F.NI_PFENCE_CMD_PKEY : Fld := ⟨0x110, 4, 11, 0, .wo, 0, .value, .any⟩
/-- Byte offset of NI_FAULT_CNT_CLR (R401). -/
def R.NI_FAULT_CNT_CLR : Nat := 0x114
/-- NI_FAULT_CNT_CLR.GRANT_EXPIRED [1:1]. -/
def F.NI_FAULT_CNT_CLR_GRANT_EXPIRED : Fld := ⟨0x114, 4, 1, 1, .wo, 0, .value, .any⟩
/-- NI_FAULT_CNT_CLR.STALE_DROP [0:0]. -/
def F.NI_FAULT_CNT_CLR_STALE_DROP : Fld := ⟨0x114, 4, 0, 0, .wo, 0, .value, .any⟩
/-- Byte offset of NI_STALE_DROP (R401). -/
def R.NI_STALE_DROP : Nat := 0x118
/-- Byte offset of NI_GRANT_EXPIRED (R401). -/
def R.NI_GRANT_EXPIRED : Nat := 0x120
/-- Byte offset of NI_Q_CFG (R401). -/
def R.NI_Q_CFG : Nat := 0x200
/-- NI_Q_CFG.SHAPER_EN [31:31]. -/
def F.NI_Q_CFG_SHAPER_EN : Fld := ⟨0x200, 32, 31, 31, .rw, 0, .image, .any⟩
/-- NI_Q_CFG.PRECOLOUR [30:30]. -/
def F.NI_Q_CFG_PRECOLOUR : Fld := ⟨0x200, 32, 30, 30, .rw, 0, .image, .any⟩
/-- NI_Q_CFG.QUANTUM [8:0]. -/
def F.NI_Q_CFG_QUANTUM : Fld := ⟨0x200, 32, 8, 0, .rw, 16, .image, .range 1 256⟩
/-- Byte offset of NI_Q_RATE (R401). -/
def R.NI_Q_RATE : Nat := 0x204
/-- NI_Q_RATE.RATE [21:0]. -/
def F.NI_Q_RATE_RATE : Fld := ⟨0x204, 32, 21, 0, .rw, 0, .image, .any⟩
/-- Byte offset of NI_Q_BURST (R401). -/
def R.NI_Q_BURST : Nat := 0x208
/-- NI_Q_BURST.BURST [23:0]. -/
def F.NI_Q_BURST_BURST : Fld := ⟨0x208, 32, 23, 0, .rw, 65536, .image, .range 4096 4294967295⟩
/-- Byte offset of NI_Q_HWM (R401). -/
def R.NI_Q_HWM : Nat := 0x20C
/-- NI_Q_HWM.DELAY [31:16]. -/
def F.NI_Q_HWM_DELAY : Fld := ⟨0x20C, 32, 31, 16, .ro, 0, .value, .any⟩
/-- NI_Q_HWM.DEPTH [15:0]. -/
def F.NI_Q_HWM_DEPTH : Fld := ⟨0x20C, 32, 15, 0, .ro, 0, .value, .any⟩
/-- Byte offset of NI_Q_HWM_LIMIT (R401). -/
def R.NI_Q_HWM_LIMIT : Nat := 0x210
/-- NI_Q_HWM_LIMIT.DELAY [31:16]. -/
def F.NI_Q_HWM_LIMIT_DELAY : Fld := ⟨0x210, 32, 31, 16, .rw, 0, .image, .any⟩
/-- NI_Q_HWM_LIMIT.DEPTH [15:0]. -/
def F.NI_Q_HWM_LIMIT_DEPTH : Fld := ⟨0x210, 32, 15, 0, .rw, 0, .image, .any⟩
/-- Byte offset of NI_WIN_BASE (R401). -/
def R.NI_WIN_BASE : Nat := 0x400
/-- NI_WIN_BASE.ADDR [31:0]. -/
def F.NI_WIN_BASE_ADDR : Fld := ⟨0x400, 32, 31, 0, .rwl, 0, .image, .any⟩
/-- Byte offset of NI_WIN_LIMIT (R401). -/
def R.NI_WIN_LIMIT : Nat := 0x408
/-- NI_WIN_LIMIT.ADDR [31:0]. -/
def F.NI_WIN_LIMIT_ADDR : Fld := ⟨0x408, 32, 31, 0, .rwl, 0, .image, .any⟩
/-- Byte offset of NI_WIN_ATTR (R401). -/
def R.NI_WIN_ATTR : Nat := 0x410
/-- NI_WIN_ATTR.VALID [31:31]. -/
def F.NI_WIN_ATTR_VALID : Fld := ⟨0x410, 32, 31, 31, .rwl, 0, .image, .any⟩
/-- NI_WIN_ATTR.PKEY [27:16]. -/
def F.NI_WIN_ATTR_PKEY : Fld := ⟨0x410, 32, 27, 16, .rwl, 0, .image, .any⟩
/-- NI_WIN_ATTR.IDX [3:3]. -/
def F.NI_WIN_ATTR_IDX : Fld := ⟨0x410, 32, 3, 3, .rwl, 0, .image, .any⟩
/-- NI_WIN_ATTR.ATOMIC [2:2]. -/
def F.NI_WIN_ATTR_ATOMIC : Fld := ⟨0x410, 32, 2, 2, .rwl, 0, .image, .any⟩
/-- NI_WIN_ATTR.WRITE [1:1]. -/
def F.NI_WIN_ATTR_WRITE : Fld := ⟨0x410, 32, 1, 1, .rwl, 0, .image, .any⟩
/-- NI_WIN_ATTR.READ [0:0]. -/
def F.NI_WIN_ATTR_READ : Fld := ⟨0x410, 32, 0, 0, .rwl, 0, .image, .any⟩
/-- Byte offset of ROUTER_FLOW (R401). -/
def R.ROUTER_FLOW : Nat := 0x000
/-- ROUTER_FLOW.DLINK_HEADROOM [21:16]. -/
def F.ROUTER_FLOW_DLINK_HEADROOM : Fld := ⟨0x000, 4, 21, 16, .rwl, 28, .image, .range 1 47⟩
/-- ROUTER_FLOW.MESH_HEADROOM [4:0]. -/
def F.ROUTER_FLOW_MESH_HEADROOM : Fld := ⟨0x000, 4, 4, 0, .rwl, 14, .image, .range 1 15⟩
/-- Byte offset of ROUTER_CNT_CLR (R401). -/
def R.ROUTER_CNT_CLR : Nat := 0x004
/-- ROUTER_CNT_CLR.ROUTE_ERR [2:2]. -/
def F.ROUTER_CNT_CLR_ROUTE_ERR : Fld := ⟨0x004, 4, 2, 2, .wo, 0, .value, .any⟩
/-- ROUTER_CNT_CLR.MALFORMED [1:1]. -/
def F.ROUTER_CNT_CLR_MALFORMED : Fld := ⟨0x004, 4, 1, 1, .wo, 0, .value, .any⟩
/-- ROUTER_CNT_CLR.PKEY_DROP [0:0]. -/
def F.ROUTER_CNT_CLR_PKEY_DROP : Fld := ⟨0x004, 4, 0, 0, .wo, 0, .value, .any⟩
/-- Byte offset of ROUTER_PKEY_DROP (R401). -/
def R.ROUTER_PKEY_DROP : Nat := 0x010
/-- Byte offset of ROUTER_MALFORMED (R401). -/
def R.ROUTER_MALFORMED : Nat := 0x018
/-- Byte offset of ROUTER_ROUTE_ERR (R401). -/
def R.ROUTER_ROUTE_ERR : Nat := 0x020
/-- Byte offset of DLINK_CTRL (R401). -/
def R.DLINK_CTRL : Nat := 0x000
/-- DLINK_CTRL.HALF_ALLOW [3:3]. -/
def F.DLINK_CTRL_HALF_ALLOW : Fld := ⟨0x000, 4, 3, 3, .rw, 1, .image, .any⟩
/-- DLINK_CTRL.RETRAIN [2:2]. -/
def F.DLINK_CTRL_RETRAIN : Fld := ⟨0x000, 4, 2, 2, .wo, 0, .value, .any⟩
/-- DLINK_CTRL.QUAL_EN [1:1]. -/
def F.DLINK_CTRL_QUAL_EN : Fld := ⟨0x000, 4, 1, 1, .rw, 1, .image, .any⟩
/-- DLINK_CTRL.EN [0:0]. -/
def F.DLINK_CTRL_EN : Fld := ⟨0x000, 4, 0, 0, .rw, 0, .value, .any⟩
/-- Byte offset of DLINK_STATUS (R401). -/
def R.DLINK_STATUS : Nat := 0x004
/-- DLINK_STATUS.REPAIRED [20:16]. -/
def F.DLINK_STATUS_REPAIRED : Fld := ⟨0x004, 4, 20, 16, .ro, 0, .value, .any⟩
/-- DLINK_STATUS.MODULE_OK [11:8]. -/
def F.DLINK_STATUS_MODULE_OK : Fld := ⟨0x004, 4, 11, 8, .ro, 0, .value, .any⟩
/-- DLINK_STATUS.INHERITED [5:5]. -/
def F.DLINK_STATUS_INHERITED : Fld := ⟨0x004, 4, 5, 5, .ro, 0, .keep, .any⟩
/-- DLINK_STATUS.QUAL [4:3]. -/
def F.DLINK_STATUS_QUAL : Fld := ⟨0x004, 4, 4, 3, .ro, 0, .keep, .any⟩
/-- DLINK_STATUS.STATE [2:0]. -/
def F.DLINK_STATUS_STATE : Fld := ⟨0x004, 4, 2, 0, .ro, 0, .value, .any⟩
/-- Byte offset of DLINK_EVENT (R401). -/
def R.DLINK_EVENT : Nat := 0x008
/-- DLINK_EVENT.QUAL_DONE [5:5]. -/
def F.DLINK_EVENT_QUAL_DONE : Fld := ⟨0x008, 4, 5, 5, .w1c, 0, .value, .any⟩
/-- DLINK_EVENT.RETRY_EXHAUST [4:4]. -/
def F.DLINK_EVENT_RETRY_EXHAUST : Fld := ⟨0x008, 4, 4, 4, .w1c, 0, .value, .any⟩
/-- DLINK_EVENT.REPAIR [3:3]. -/
def F.DLINK_EVENT_REPAIR : Fld := ⟨0x008, 4, 3, 3, .w1c, 0, .value, .any⟩
/-- DLINK_EVENT.HALF [2:2]. -/
def F.DLINK_EVENT_HALF : Fld := ⟨0x008, 4, 2, 2, .w1c, 0, .value, .any⟩
/-- DLINK_EVENT.DOWN [1:1]. -/
def F.DLINK_EVENT_DOWN : Fld := ⟨0x008, 4, 1, 1, .w1c, 0, .value, .any⟩
/-- DLINK_EVENT.ACTIVE [0:0]. -/
def F.DLINK_EVENT_ACTIVE : Fld := ⟨0x008, 4, 0, 0, .w1c, 0, .value, .any⟩
/-- Byte offset of DLINK_RETRY_CFG (R401). -/
def R.DLINK_RETRY_CFG : Nat := 0x00C
/-- DLINK_RETRY_CFG.LIMIT [19:16]. -/
def F.DLINK_RETRY_CFG_LIMIT : Fld := ⟨0x00C, 4, 19, 16, .rw, 8, .image, .range 1 15⟩
/-- DLINK_RETRY_CFG.TIMEOUT_NS [15:0]. -/
def F.DLINK_RETRY_CFG_TIMEOUT_NS : Fld := ⟨0x00C, 4, 15, 0, .rw, 100, .image, .range 20 65535⟩
/-- Byte offset of DLINK_CNT_CLR (R401). -/
def R.DLINK_CNT_CLR : Nat := 0x010
/-- DLINK_CNT_CLR.CUT [3:3]. -/
def F.DLINK_CNT_CLR_CUT : Fld := ⟨0x010, 4, 3, 3, .wo, 0, .value, .any⟩
/-- DLINK_CNT_CLR.CONTAINERS [2:2]. -/
def F.DLINK_CNT_CLR_CONTAINERS : Fld := ⟨0x010, 4, 2, 2, .wo, 0, .value, .any⟩
/-- DLINK_CNT_CLR.RETRY [1:1]. -/
def F.DLINK_CNT_CLR_RETRY : Fld := ⟨0x010, 4, 1, 1, .wo, 0, .value, .any⟩
/-- DLINK_CNT_CLR.CRC_ERR [0:0]. -/
def F.DLINK_CNT_CLR_CRC_ERR : Fld := ⟨0x010, 4, 0, 0, .wo, 0, .value, .any⟩
/-- Byte offset of DLINK_CRC_ERR (R401). -/
def R.DLINK_CRC_ERR : Nat := 0x020
/-- Byte offset of DLINK_RETRY (R401). -/
def R.DLINK_RETRY : Nat := 0x028
/-- Byte offset of DLINK_CONTAINERS (R401). -/
def R.DLINK_CONTAINERS : Nat := 0x030
/-- Byte offset of DLINK_CUT (R401). -/
def R.DLINK_CUT : Nat := 0x038
/-- Byte offset of POOL_CTRL (R401). -/
def R.POOL_CTRL : Nat := 0x000
/-- POOL_CTRL.EN [16:16]. -/
def F.POOL_CTRL_EN : Fld := ⟨0x000, 4, 16, 16, .rw, 0, .value, .any⟩
/-- POOL_CTRL.WAIT_MAX [15:0]. -/
def F.POOL_CTRL_WAIT_MAX : Fld := ⟨0x000, 4, 15, 0, .rw, 64, .image, .any⟩
/-- Byte offset of POOL_STATUS (R401). -/
def R.POOL_STATUS : Nat := 0x004
/-- POOL_STATUS.QUEUED [28:16]. -/
def F.POOL_STATUS_QUEUED : Fld := ⟨0x004, 4, 28, 16, .ro, 0, .value, .any⟩
/-- POOL_STATUS.FREE [12:0]. -/
def F.POOL_STATUS_FREE : Fld := ⟨0x004, 4, 12, 0, .ro, 4096, .value, .any⟩
/-- Byte offset of POOL_PART_SEL (R401). -/
def R.POOL_PART_SEL : Nat := 0x008
/-- POOL_PART_SEL.PKEY [11:0]. -/
def F.POOL_PART_SEL_PKEY : Fld := ⟨0x008, 4, 11, 0, .rw, 0, .value, .any⟩
/-- Byte offset of POOL_PART_USE (R401). -/
def R.POOL_PART_USE : Nat := 0x00C
/-- POOL_PART_USE.CEILING [28:16]. -/
def F.POOL_PART_USE_CEILING : Fld := ⟨0x00C, 4, 28, 16, .ro, 0, .image, .any⟩
/-- POOL_PART_USE.IN_USE [12:0]. -/
def F.POOL_PART_USE_IN_USE : Fld := ⟨0x00C, 4, 12, 0, .ro, 0, .value, .any⟩
/-- Byte offset of POOL_CNT_CLR (R401). -/
def R.POOL_CNT_CLR : Nat := 0x010
/-- POOL_CNT_CLR.WAITED [2:2]. -/
def F.POOL_CNT_CLR_WAITED : Fld := ⟨0x010, 4, 2, 2, .wo, 0, .value, .any⟩
/-- POOL_CNT_CLR.REFUSE_WAIT [1:1]. -/
def F.POOL_CNT_CLR_REFUSE_WAIT : Fld := ⟨0x010, 4, 1, 1, .wo, 0, .value, .any⟩
/-- POOL_CNT_CLR.REFUSE_CEIL [0:0]. -/
def F.POOL_CNT_CLR_REFUSE_CEIL : Fld := ⟨0x010, 4, 0, 0, .wo, 0, .value, .any⟩
/-- Byte offset of POOL_REFUSE_CEIL (R401). -/
def R.POOL_REFUSE_CEIL : Nat := 0x020
/-- Byte offset of POOL_REFUSE_WAIT (R401). -/
def R.POOL_REFUSE_WAIT : Nat := 0x028
/-- Byte offset of POOL_WAITED (R401). -/
def R.POOL_WAITED : Nat := 0x030
/-- Byte offset of PORT_CTRL (R401). -/
def R.PORT_CTRL : Nat := 0x000
/-- PORT_CTRL.FULL_RETRAIN [8:8]. -/
def F.PORT_CTRL_FULL_RETRAIN : Fld := ⟨0x000, 4, 8, 8, .wo, 0, .value, .any⟩
/-- PORT_CTRL.RETRAIN [7:7]. -/
def F.PORT_CTRL_RETRAIN : Fld := ⟨0x000, 4, 7, 7, .wo, 0, .value, .any⟩
/-- PORT_CTRL.COLD [6:6]. -/
def F.PORT_CTRL_COLD : Fld := ⟨0x000, 4, 6, 6, .wo, 0, .value, .any⟩
/-- PORT_CTRL.AUTO_RETRY [5:5]. -/
def F.PORT_CTRL_AUTO_RETRY : Fld := ⟨0x000, 4, 5, 5, .rw, 1, .image, .any⟩
/-- PORT_CTRL.AUTO_DEGRADE [4:4]. -/
def F.PORT_CTRL_AUTO_DEGRADE : Fld := ⟨0x000, 4, 4, 4, .rw, 1, .image, .any⟩
/-- PORT_CTRL.QUAL_EN [3:3]. -/
def F.PORT_CTRL_QUAL_EN : Fld := ⟨0x000, 4, 3, 3, .rw, 1, .image, .any⟩
/-- PORT_CTRL.USE_SAVED [2:2]. -/
def F.PORT_CTRL_USE_SAVED : Fld := ⟨0x000, 4, 2, 2, .rw, 0, .image, .any⟩
/-- PORT_CTRL.EN [0:0]. -/
def F.PORT_CTRL_EN : Fld := ⟨0x000, 4, 0, 0, .rw, 0, .value, .any⟩
/-- Byte offset of PORT_STATUS (R401). -/
def R.PORT_STATUS : Nat := 0x004
/-- PORT_STATUS.DOWN_CAUSE [31:28]. -/
def F.PORT_STATUS_DOWN_CAUSE : Fld := ⟨0x004, 4, 31, 28, .ro, 1, .value, .any⟩
/-- PORT_STATUS.INHERITED [25:25]. -/
def F.PORT_STATUS_INHERITED : Fld := ⟨0x004, 4, 25, 25, .ro, 0, .value, .any⟩
/-- PORT_STATUS.QUAL [24:23]. -/
def F.PORT_STATUS_QUAL : Fld := ⟨0x004, 4, 24, 23, .ro, 0, .value, .any⟩
/-- PORT_STATUS.LAYOUT [22:21]. -/
def F.PORT_STATUS_LAYOUT : Fld := ⟨0x004, 4, 22, 21, .ro, 0, .value, .any⟩
/-- PORT_STATUS.STATE [18:16]. -/
def F.PORT_STATUS_STATE : Fld := ⟨0x004, 4, 18, 16, .ro, 0, .value, .any⟩
/-- PORT_STATUS.EFF_MASK [15:0]. -/
def F.PORT_STATUS_EFF_MASK : Fld := ⟨0x004, 4, 15, 0, .ro, 0, .value, .any⟩
/-- Byte offset of PORT_EVENT (R401). -/
def R.PORT_EVENT : Nat := 0x008
/-- PORT_EVENT.SAVED_REJECT [8:8]. -/
def F.PORT_EVENT_SAVED_REJECT : Fld := ⟨0x008, 4, 8, 8, .w1c, 0, .value, .any⟩
/-- PORT_EVENT.REPLAY_EXHAUST [7:7]. -/
def F.PORT_EVENT_REPLAY_EXHAUST : Fld := ⟨0x008, 4, 7, 7, .w1c, 0, .value, .any⟩
/-- PORT_EVENT.BER_HIGH [6:6]. -/
def F.PORT_EVENT_BER_HIGH : Fld := ⟨0x008, 4, 6, 6, .w1c, 0, .value, .any⟩
/-- PORT_EVENT.MISCABLED [5:5]. -/
def F.PORT_EVENT_MISCABLED : Fld := ⟨0x008, 4, 5, 5, .w1c, 0, .value, .any⟩
/-- PORT_EVENT.QUAL_DONE [4:4]. -/
def F.PORT_EVENT_QUAL_DONE : Fld := ⟨0x008, 4, 4, 4, .w1c, 0, .value, .any⟩
/-- PORT_EVENT.DEGRADE [3:3]. -/
def F.PORT_EVENT_DEGRADE : Fld := ⟨0x008, 4, 3, 3, .w1c, 0, .value, .any⟩
/-- PORT_EVENT.RETRAIN [2:2]. -/
def F.PORT_EVENT_RETRAIN : Fld := ⟨0x008, 4, 2, 2, .w1c, 0, .value, .any⟩
/-- PORT_EVENT.DOWN [1:1]. -/
def F.PORT_EVENT_DOWN : Fld := ⟨0x008, 4, 1, 1, .w1c, 0, .value, .any⟩
/-- PORT_EVENT.ACTIVE [0:0]. -/
def F.PORT_EVENT_ACTIVE : Fld := ⟨0x008, 4, 0, 0, .w1c, 0, .value, .any⟩
/-- Byte offset of PORT_CNT_CLR (R401). -/
def R.PORT_CNT_CLR : Nat := 0x00C
/-- PORT_CNT_CLR.RETRAINS [14:14]. -/
def F.PORT_CNT_CLR_RETRAINS : Fld := ⟨0x00C, 4, 14, 14, .wo, 0, .value, .any⟩
/-- PORT_CNT_CLR.LANE_SYMERR [13:13]. -/
def F.PORT_CNT_CLR_LANE_SYMERR : Fld := ⟨0x00C, 4, 13, 13, .wo, 0, .value, .any⟩
/-- PORT_CNT_CLR.DOWN_DROP [12:12]. -/
def F.PORT_CNT_CLR_DOWN_DROP : Fld := ⟨0x00C, 4, 12, 12, .wo, 0, .value, .any⟩
/-- PORT_CNT_CLR.FLOW_OVERRUN [11:11]. -/
def F.PORT_CNT_CLR_FLOW_OVERRUN : Fld := ⟨0x00C, 4, 11, 11, .wo, 0, .value, .any⟩
/-- PORT_CNT_CLR.ROUTE_ERR [10:10]. -/
def F.PORT_CNT_CLR_ROUTE_ERR : Fld := ⟨0x00C, 4, 10, 10, .wo, 0, .value, .any⟩
/-- PORT_CNT_CLR.REPLAY_DISCARD [9:9]. -/
def F.PORT_CNT_CLR_REPLAY_DISCARD : Fld := ⟨0x00C, 4, 9, 9, .wo, 0, .value, .any⟩
/-- PORT_CNT_CLR.REPLAY [8:8]. -/
def F.PORT_CNT_CLR_REPLAY : Fld := ⟨0x00C, 4, 8, 8, .wo, 0, .value, .any⟩
/-- PORT_CNT_CLR.NAK_TX [7:7]. -/
def F.PORT_CNT_CLR_NAK_TX : Fld := ⟨0x00C, 4, 7, 7, .wo, 0, .value, .any⟩
/-- PORT_CNT_CLR.MALFORMED [6:6]. -/
def F.PORT_CNT_CLR_MALFORMED : Fld := ⟨0x00C, 4, 6, 6, .wo, 0, .value, .any⟩
/-- PORT_CNT_CLR.CRC_ERR [5:5]. -/
def F.PORT_CNT_CLR_CRC_ERR : Fld := ⟨0x00C, 4, 5, 5, .wo, 0, .value, .any⟩
/-- PORT_CNT_CLR.CW_HIGH [4:4]. -/
def F.PORT_CNT_CLR_CW_HIGH : Fld := ⟨0x00C, 4, 4, 4, .wo, 0, .value, .any⟩
/-- PORT_CNT_CLR.CW [3:3]. -/
def F.PORT_CNT_CLR_CW : Fld := ⟨0x00C, 4, 3, 3, .wo, 0, .value, .any⟩
/-- PORT_CNT_CLR.FEC_BITS [2:2]. -/
def F.PORT_CNT_CLR_FEC_BITS : Fld := ⟨0x00C, 4, 2, 2, .wo, 0, .value, .any⟩
/-- PORT_CNT_CLR.FEC_SYM [1:1]. -/
def F.PORT_CNT_CLR_FEC_SYM : Fld := ⟨0x00C, 4, 1, 1, .wo, 0, .value, .any⟩
/-- PORT_CNT_CLR.FEC_UNCORR [0:0]. -/
def F.PORT_CNT_CLR_FEC_UNCORR : Fld := ⟨0x00C, 4, 0, 0, .wo, 0, .value, .any⟩
/-- Byte offset of PORT_LANE_MAP (R401). -/
def R.PORT_LANE_MAP : Nat := 0x010
/-- PORT_LANE_MAP.MAP [31:0]. -/
def F.PORT_LANE_MAP_MAP : Fld := ⟨0x010, 8, 31, 0, .ro, 0, .fuse, .any⟩
/-- Byte offset of PORT_LANE_FUSE (R401). -/
def R.PORT_LANE_FUSE : Nat := 0x018
/-- PORT_LANE_FUSE.BAD [31:16]. -/
def F.PORT_LANE_FUSE_BAD : Fld := ⟨0x018, 4, 31, 16, .ro, 0, .fuse, .any⟩
/-- PORT_LANE_FUSE.TX_INVERT [15:0]. -/
def F.PORT_LANE_FUSE_TX_INVERT : Fld := ⟨0x018, 4, 15, 0, .ro, 0, .fuse, .any⟩
/-- Byte offset of PORT_QUAL_CFG (R401). -/
def R.PORT_QUAL_CFG : Nat := 0x01C
/-- PORT_QUAL_CFG.HIGH_MAX [23:16]. -/
def F.PORT_QUAL_CFG_HIGH_MAX : Fld := ⟨0x01C, 4, 23, 16, .rw, 2, .image, .any⟩
/-- PORT_QUAL_CFG.LAMBDA_MAX [9:0]. -/
def F.PORT_QUAL_CFG_LAMBDA_MAX : Fld := ⟨0x01C, 4, 9, 0, .rw, 717, .image, .range 0 717⟩
/-- Byte offset of PORT_REPLAY_CFG (R401). -/
def R.PORT_REPLAY_CFG : Nat := 0x020
/-- PORT_REPLAY_CFG.LIMIT [19:16]. -/
def F.PORT_REPLAY_CFG_LIMIT : Fld := ⟨0x020, 4, 19, 16, .rw, 8, .image, .range 1 15⟩
/-- PORT_REPLAY_CFG.TIMEOUT_NS [15:0]. -/
def F.PORT_REPLAY_CFG_TIMEOUT_NS : Fld := ⟨0x020, 4, 15, 0, .rw, 2000, .image, .range 100 65535⟩
/-- Byte offset of PORT_REPLAY_STATUS (R401). -/
def R.PORT_REPLAY_STATUS : Nat := 0x024
/-- PORT_REPLAY_STATUS.FRAMES [26:16]. -/
def F.PORT_REPLAY_STATUS_FRAMES : Fld := ⟨0x024, 4, 26, 16, .ro, 0, .value, .any⟩
/-- PORT_REPLAY_STATUS.UNITS [12:0]. -/
def F.PORT_REPLAY_STATUS_UNITS : Fld := ⟨0x024, 4, 12, 0, .ro, 0, .value, .any⟩
/-- Byte offset of PORT_PEER_INFO (R401). -/
def R.PORT_PEER_INFO : Nat := 0x028
/-- PORT_PEER_INFO.VALID [31:31]. -/
def F.PORT_PEER_INFO_VALID : Fld := ⟨0x028, 4, 31, 31, .ro, 0, .value, .any⟩
/-- PORT_PEER_INFO.VERSION [20:17]. -/
def F.PORT_PEER_INFO_VERSION : Fld := ⟨0x028, 4, 20, 17, .ro, 0, .value, .any⟩
/-- PORT_PEER_INFO.SWITCH [16:16]. -/
def F.PORT_PEER_INFO_SWITCH : Fld := ⟨0x028, 4, 16, 16, .ro, 0, .value, .any⟩
/-- PORT_PEER_INFO.PORT [5:0]. -/
def F.PORT_PEER_INFO_PORT : Fld := ⟨0x028, 4, 5, 0, .ro, 0, .value, .any⟩
/-- Byte offset of PORT_PEER_COORD (R401). -/
def R.PORT_PEER_COORD : Nat := 0x02C
/-- PORT_PEER_COORD.COORD [16:0]. -/
def F.PORT_PEER_COORD_COORD : Fld := ⟨0x02C, 4, 16, 0, .ro, 0, .value, .any⟩
/-- Byte offset of PORT_PEER_SERIAL (R401). -/
def R.PORT_PEER_SERIAL : Nat := 0x030
/-- PORT_PEER_SERIAL.SERIAL [31:0]. -/
def F.PORT_PEER_SERIAL_SERIAL : Fld := ⟨0x030, 8, 31, 0, .ro, 0, .value, .any⟩
/-- Byte offset of PORT_EXPECT (R401). -/
def R.PORT_EXPECT : Nat := 0x038
/-- PORT_EXPECT.KIND [18:17]. -/
def F.PORT_EXPECT_KIND : Fld := ⟨0x038, 4, 18, 17, .rwl, 0, .image, .range 0 2⟩
/-- PORT_EXPECT.COORD [16:0]. -/
def F.PORT_EXPECT_COORD : Fld := ⟨0x038, 4, 16, 0, .rwl, 0, .image, .any⟩
/-- Byte offset of PORT_VC_CFG (R401). -/
def R.PORT_VC_CFG : Nat := 0x040
/-- PORT_VC_CFG.CAPACITY [27:16]. -/
def F.PORT_VC_CFG_CAPACITY : Fld := ⟨0x040, 4, 27, 16, .rwl, 0, .image, .any⟩
/-- PORT_VC_CFG.HEADROOM [11:0]. -/
def F.PORT_VC_CFG_HEADROOM : Fld := ⟨0x040, 4, 11, 0, .rwl, 0, .image, .any⟩
/-- Byte offset of PORT_SAVED (R401). -/
def R.PORT_SAVED : Nat := 0x080
/-- PORT_SAVED.WORD [31:0]. -/
def F.PORT_SAVED_WORD : Fld := ⟨0x080, 4, 31, 0, .rw, 0, .keep, .any⟩
/-- Byte offset of PORT_FEC_UNCORR (R401). -/
def R.PORT_FEC_UNCORR : Nat := 0x200
/-- Byte offset of PORT_FEC_SYM (R401). -/
def R.PORT_FEC_SYM : Nat := 0x208
/-- Byte offset of PORT_FEC_BITS (R401). -/
def R.PORT_FEC_BITS : Nat := 0x210
/-- Byte offset of PORT_CW (R401). -/
def R.PORT_CW : Nat := 0x218
/-- Byte offset of PORT_CW_HIGH (R401). -/
def R.PORT_CW_HIGH : Nat := 0x220
/-- Byte offset of PORT_CRC_ERR (R401). -/
def R.PORT_CRC_ERR : Nat := 0x228
/-- Byte offset of PORT_MALFORMED (R401). -/
def R.PORT_MALFORMED : Nat := 0x230
/-- Byte offset of PORT_NAK_TX (R401). -/
def R.PORT_NAK_TX : Nat := 0x238
/-- Byte offset of PORT_REPLAY (R401). -/
def R.PORT_REPLAY : Nat := 0x240
/-- Byte offset of PORT_REPLAY_DISCARD (R401). -/
def R.PORT_REPLAY_DISCARD : Nat := 0x248
/-- Byte offset of PORT_ROUTE_ERR (R401). -/
def R.PORT_ROUTE_ERR : Nat := 0x250
/-- Byte offset of PORT_FLOW_OVERRUN (R401). -/
def R.PORT_FLOW_OVERRUN : Nat := 0x258
/-- Byte offset of PORT_DOWN_DROP (R401). -/
def R.PORT_DOWN_DROP : Nat := 0x260
/-- Byte offset of PORT_RETRAINS (R401). -/
def R.PORT_RETRAINS : Nat := 0x268
/-- Byte offset of PORT_LANE_SYMERR (R401). -/
def R.PORT_LANE_SYMERR : Nat := 0x280
/-- Byte offset of PORT_Q_EVENT (R401). -/
def R.PORT_Q_EVENT : Nat := 0x300
/-- PORT_Q_EVENT.DELAY [23:16]. -/
def F.PORT_Q_EVENT_DELAY : Fld := ⟨0x300, 4, 23, 16, .w1c, 0, .value, .any⟩
/-- PORT_Q_EVENT.DEPTH [7:0]. -/
def F.PORT_Q_EVENT_DEPTH : Fld := ⟨0x300, 4, 7, 0, .w1c, 0, .value, .any⟩
/-- Byte offset of PORT_SHAPE_CNT_CLR (R401). -/
def R.PORT_SHAPE_CNT_CLR : Nat := 0x310
/-- PORT_SHAPE_CNT_CLR.HWM [3:3]. -/
def F.PORT_SHAPE_CNT_CLR_HWM : Fld := ⟨0x310, 4, 3, 3, .wo, 0, .value, .any⟩
/-- Byte offset of PORT_Q_CFG (R401). -/
def R.PORT_Q_CFG : Nat := 0x400
/-- PORT_Q_CFG.SHAPER_EN [31:31]. -/
def F.PORT_Q_CFG_SHAPER_EN : Fld := ⟨0x400, 32, 31, 31, .rw, 0, .image, .any⟩
/-- PORT_Q_CFG.QUANTUM [8:0]. -/
def F.PORT_Q_CFG_QUANTUM : Fld := ⟨0x400, 32, 8, 0, .rw, 16, .image, .range 1 256⟩
/-- Byte offset of PORT_Q_RATE (R401). -/
def R.PORT_Q_RATE : Nat := 0x404
/-- PORT_Q_RATE.RATE [21:0]. -/
def F.PORT_Q_RATE_RATE : Fld := ⟨0x404, 32, 21, 0, .rw, 0, .image, .any⟩
/-- Byte offset of PORT_Q_BURST (R401). -/
def R.PORT_Q_BURST : Nat := 0x408
/-- PORT_Q_BURST.BURST [23:0]. -/
def F.PORT_Q_BURST_BURST : Fld := ⟨0x408, 32, 23, 0, .rw, 65536, .image, .range 4096 4294967295⟩
/-- Byte offset of PORT_Q_HWM (R401). -/
def R.PORT_Q_HWM : Nat := 0x40C
/-- PORT_Q_HWM.DELAY [31:16]. -/
def F.PORT_Q_HWM_DELAY : Fld := ⟨0x40C, 32, 31, 16, .ro, 0, .value, .any⟩
/-- PORT_Q_HWM.DEPTH [15:0]. -/
def F.PORT_Q_HWM_DEPTH : Fld := ⟨0x40C, 32, 15, 0, .ro, 0, .value, .any⟩
/-- Byte offset of PORT_Q_HWM_LIMIT (R401). -/
def R.PORT_Q_HWM_LIMIT : Nat := 0x410
/-- PORT_Q_HWM_LIMIT.DELAY [31:16]. -/
def F.PORT_Q_HWM_LIMIT_DELAY : Fld := ⟨0x410, 32, 31, 16, .rw, 0, .image, .any⟩
/-- PORT_Q_HWM_LIMIT.DEPTH [15:0]. -/
def F.PORT_Q_HWM_LIMIT_DEPTH : Fld := ⟨0x410, 32, 15, 0, .rw, 0, .image, .any⟩
/-- Byte offset of REDUCE_CTRL (R401). -/
def R.REDUCE_CTRL : Nat := 0x000
/-- REDUCE_CTRL.HOLIDAY_CANCEL [2:2]. -/
def F.REDUCE_CTRL_HOLIDAY_CANCEL : Fld := ⟨0x000, 4, 2, 2, .rw, 0, .image, .any⟩
/-- REDUCE_CTRL.EN [0:0]. -/
def F.REDUCE_CTRL_EN : Fld := ⟨0x000, 4, 0, 0, .rw, 0, .value, .any⟩
/-- Byte offset of REDUCE_STATUS (R401). -/
def R.REDUCE_STATUS : Nat := 0x004
/-- REDUCE_STATUS.RSV_USED [31:16]. -/
def F.REDUCE_STATUS_RSV_USED : Fld := ⟨0x004, 4, 31, 16, .ro, 0, .value, .any⟩
/-- REDUCE_STATUS.STAGE_FREE [10:0]. -/
def F.REDUCE_STATUS_STAGE_FREE : Fld := ⟨0x004, 4, 10, 0, .ro, 512, .value, .any⟩
/-- Byte offset of REDUCE_EVENT (R401). -/
def R.REDUCE_EVENT : Nat := 0x008
/-- REDUCE_EVENT.SORT_ERR [5:5]. -/
def F.REDUCE_EVENT_SORT_ERR : Fld := ⟨0x008, 4, 5, 5, .w1c, 0, .value, .any⟩
/-- REDUCE_EVENT.SHAPE_MISMATCH [4:4]. -/
def F.REDUCE_EVENT_SHAPE_MISMATCH : Fld := ⟨0x008, 4, 4, 4, .w1c, 0, .value, .any⟩
/-- REDUCE_EVENT.STEP_MISMATCH [3:3]. -/
def F.REDUCE_EVENT_STEP_MISMATCH : Fld := ⟨0x008, 4, 3, 3, .w1c, 0, .value, .any⟩
/-- REDUCE_EVENT.CANCEL_DROP [2:2]. -/
def F.REDUCE_EVENT_CANCEL_DROP : Fld := ⟨0x008, 4, 2, 2, .w1c, 0, .value, .any⟩
/-- REDUCE_EVENT.CANCELLED [1:1]. -/
def F.REDUCE_EVENT_CANCELLED : Fld := ⟨0x008, 4, 1, 1, .w1c, 0, .value, .any⟩
/-- REDUCE_EVENT.LATE [0:0]. -/
def F.REDUCE_EVENT_LATE : Fld := ⟨0x008, 4, 0, 0, .w1c, 0, .value, .any⟩
/-- Byte offset of REDUCE_CNT_CLR (R401). -/
def R.REDUCE_CNT_CLR : Nat := 0x00C
/-- REDUCE_CNT_CLR.ROWS_DROPPED [4:4]. -/
def F.REDUCE_CNT_CLR_ROWS_DROPPED : Fld := ⟨0x00C, 4, 4, 4, .wo, 0, .value, .any⟩
/-- REDUCE_CNT_CLR.SORT_ERR [3:3]. -/
def F.REDUCE_CNT_CLR_SORT_ERR : Fld := ⟨0x00C, 4, 3, 3, .wo, 0, .value, .any⟩
/-- REDUCE_CNT_CLR.CANCEL_DROP [2:2]. -/
def F.REDUCE_CNT_CLR_CANCEL_DROP : Fld := ⟨0x00C, 4, 2, 2, .wo, 0, .value, .any⟩
/-- REDUCE_CNT_CLR.CANCELLED [1:1]. -/
def F.REDUCE_CNT_CLR_CANCELLED : Fld := ⟨0x00C, 4, 1, 1, .wo, 0, .value, .any⟩
/-- REDUCE_CNT_CLR.CHUNKS [0:0]. -/
def F.REDUCE_CNT_CLR_CHUNKS : Fld := ⟨0x00C, 4, 0, 0, .wo, 0, .value, .any⟩
/-- Byte offset of REDUCE_LATE_SEL (R401). -/
def R.REDUCE_LATE_SEL : Nat := 0x010
/-- REDUCE_LATE_SEL.GROUP [11:0]. -/
def F.REDUCE_LATE_SEL_GROUP : Fld := ⟨0x010, 4, 11, 0, .rw, 0, .value, .any⟩
/-- Byte offset of REDUCE_LATE_MEMBER (R401). -/
def R.REDUCE_LATE_MEMBER : Nat := 0x014
/-- REDUCE_LATE_MEMBER.MEMBER [26:0]. -/
def F.REDUCE_LATE_MEMBER_MEMBER : Fld := ⟨0x014, 4, 26, 0, .ro, 0, .keep, .any⟩
/-- Byte offset of REDUCE_LATE_SLOTS (R401). -/
def R.REDUCE_LATE_SLOTS : Nat := 0x018
/-- REDUCE_LATE_SLOTS.SLOTS [23:0]. -/
def F.REDUCE_LATE_SLOTS_SLOTS : Fld := ⟨0x018, 4, 23, 0, .ro, 0, .keep, .any⟩
/-- Byte offset of REDUCE_LATE_STEP (R401). -/
def R.REDUCE_LATE_STEP : Nat := 0x01C
/-- REDUCE_LATE_STEP.STEP [31:0]. -/
def F.REDUCE_LATE_STEP_STEP : Fld := ⟨0x01C, 4, 31, 0, .ro, 0, .keep, .any⟩
/-- Byte offset of REDUCE_LATE_LIMIT (R401). -/
def R.REDUCE_LATE_LIMIT : Nat := 0x020
/-- REDUCE_LATE_LIMIT.SLOTS [23:0]. -/
def F.REDUCE_LATE_LIMIT_SLOTS : Fld := ⟨0x020, 4, 23, 0, .rw, 0, .image, .any⟩
/-- Byte offset of REDUCE_CHUNKS (R401). -/
def R.REDUCE_CHUNKS : Nat := 0x040
/-- Byte offset of REDUCE_CANCELLED (R401). -/
def R.REDUCE_CANCELLED : Nat := 0x048
/-- Byte offset of REDUCE_CANCEL_DROP (R401). -/
def R.REDUCE_CANCEL_DROP : Nat := 0x050
/-- Byte offset of REDUCE_SORT_ERR (R401). -/
def R.REDUCE_SORT_ERR : Nat := 0x058
/-- Byte offset of REDUCE_ROWS_DROPPED (R401). -/
def R.REDUCE_ROWS_DROPPED : Nat := 0x060
/-- Byte offset of REDUCE_PROMO_STATUS (R401). -/
def R.REDUCE_PROMO_STATUS : Nat := 0x080
/-- REDUCE_PROMO_STATUS.HWM [28:16]. -/
def F.REDUCE_PROMO_STATUS_HWM : Fld := ⟨0x080, 4, 28, 16, .ro, 0, .value, .any⟩
/-- REDUCE_PROMO_STATUS.IN_USE [12:0]. -/
def F.REDUCE_PROMO_STATUS_IN_USE : Fld := ⟨0x080, 4, 12, 0, .ro, 0, .value, .any⟩
/-- Byte offset of REDUCE_PROMO_CNT_CLR (R401). -/
def R.REDUCE_PROMO_CNT_CLR : Nat := 0x084
/-- REDUCE_PROMO_CNT_CLR.HWM [3:3]. -/
def F.REDUCE_PROMO_CNT_CLR_HWM : Fld := ⟨0x084, 4, 3, 3, .wo, 0, .value, .any⟩
/-- REDUCE_PROMO_CNT_CLR.SATURATIONS [2:2]. -/
def F.REDUCE_PROMO_CNT_CLR_SATURATIONS : Fld := ⟨0x084, 4, 2, 2, .wo, 0, .value, .any⟩
/-- REDUCE_PROMO_CNT_CLR.PROMO_STALLS [1:1]. -/
def F.REDUCE_PROMO_CNT_CLR_PROMO_STALLS : Fld := ⟨0x084, 4, 1, 1, .wo, 0, .value, .any⟩
/-- REDUCE_PROMO_CNT_CLR.PROMOTIONS [0:0]. -/
def F.REDUCE_PROMO_CNT_CLR_PROMOTIONS : Fld := ⟨0x084, 4, 0, 0, .wo, 0, .value, .any⟩
/-- Byte offset of REDUCE_PROMOTIONS (R401). -/
def R.REDUCE_PROMOTIONS : Nat := 0x088
/-- Byte offset of REDUCE_PROMO_STALLS (R401). -/
def R.REDUCE_PROMO_STALLS : Nat := 0x090
/-- Byte offset of REDUCE_SATURATIONS (R401). -/
def R.REDUCE_SATURATIONS : Nat := 0x098
/-- Byte offset of TIME_CTRL (R401). -/
def R.TIME_CTRL : Nat := 0x000
/-- TIME_CTRL.PPS_WIDTH [17:8]. -/
def F.TIME_CTRL_PPS_WIDTH : Fld := ⟨0x000, 4, 17, 8, .rw, 100, .keep, .range 1 1000⟩
/-- TIME_CTRL.NBR_MON [7:7]. -/
def F.TIME_CTRL_NBR_MON : Fld := ⟨0x000, 4, 7, 7, .rw, 0, .keep, .any⟩
/-- TIME_CTRL.PPS_OUT_EN [6:6]. -/
def F.TIME_CTRL_PPS_OUT_EN : Fld := ⟨0x000, 4, 6, 6, .rw, 0, .keep, .any⟩
/-- TIME_CTRL.SYNC_RATE [5:2]. -/
def F.TIME_CTRL_SYNC_RATE : Fld := ⟨0x000, 4, 5, 2, .rw, 10, .keep, .range 6 13⟩
/-- TIME_CTRL.ROLE [1:0]. -/
def F.TIME_CTRL_ROLE : Fld := ⟨0x000, 4, 1, 0, .rwl, 0, .image, .range 0 2⟩
/-- Byte offset of TIME_STATUS (R401). -/
def R.TIME_STATUS : Nat := 0x004
/-- TIME_STATUS.NBR_PORT [26:21]. -/
def F.TIME_STATUS_NBR_PORT : Fld := ⟨0x004, 4, 26, 21, .ro, 0, .keep, .any⟩
/-- TIME_STATUS.REALIGN_ARMED [20:20]. -/
def F.TIME_STATUS_REALIGN_ARMED : Fld := ⟨0x004, 4, 20, 20, .ro, 0, .keep, .any⟩
/-- TIME_STATUS.REF10M_OK [19:19]. -/
def F.TIME_STATUS_REF10M_OK : Fld := ⟨0x004, 4, 19, 19, .ro, 0, .keep, .any⟩
/-- TIME_STATUS.PPS_IN_OK [18:18]. -/
def F.TIME_STATUS_PPS_IN_OK : Fld := ⟨0x004, 4, 18, 18, .ro, 0, .keep, .any⟩
/-- TIME_STATUS.TIME_VALID [17:17]. -/
def F.TIME_STATUS_TIME_VALID : Fld := ⟨0x004, 4, 17, 17, .ro, 0, .keep, .any⟩
/-- TIME_STATUS.STEPS_REMOVED [16:11]. -/
def F.TIME_STATUS_STEPS_REMOVED : Fld := ⟨0x004, 4, 16, 11, .ro, 0, .keep, .any⟩
/-- TIME_STATUS.UPSTREAM_VALID [10:10]. -/
def F.TIME_STATUS_UPSTREAM_VALID : Fld := ⟨0x004, 4, 10, 10, .ro, 0, .keep, .any⟩
/-- TIME_STATUS.UPSTREAM [9:4]. -/
def F.TIME_STATUS_UPSTREAM : Fld := ⟨0x004, 4, 9, 4, .ro, 0, .keep, .any⟩
/-- TIME_STATUS.STATE [3:2]. -/
def F.TIME_STATUS_STATE : Fld := ⟨0x004, 4, 3, 2, .ro, 0, .keep, .any⟩
/-- TIME_STATUS.QUALITY [1:0]. -/
def F.TIME_STATUS_QUALITY : Fld := ⟨0x004, 4, 1, 0, .ro, 0, .keep, .any⟩
/-- Byte offset of TIME_EVENT (R401). -/
def R.TIME_EVENT : Nat := 0x008
/-- TIME_EVENT.GM_CONFLICT [9:9]. -/
def F.TIME_EVENT_GM_CONFLICT : Fld := ⟨0x008, 4, 9, 9, .w1c, 0, .keep, .any⟩
/-- TIME_EVENT.DEPTH_MISMATCH [8:8]. -/
def F.TIME_EVENT_DEPTH_MISMATCH : Fld := ⟨0x008, 4, 8, 8, .w1c, 0, .keep, .any⟩
/-- TIME_EVENT.LATTICE_FAULT [7:7]. -/
def F.TIME_EVENT_LATTICE_FAULT : Fld := ⟨0x008, 4, 7, 7, .w1c, 0, .keep, .any⟩
/-- TIME_EVENT.NBR_OFFSET [6:6]. -/
def F.TIME_EVENT_NBR_OFFSET : Fld := ⟨0x008, 4, 6, 6, .w1c, 0, .keep, .any⟩
/-- TIME_EVENT.REALIGN_MISSED [5:5]. -/
def F.TIME_EVENT_REALIGN_MISSED : Fld := ⟨0x008, 4, 5, 5, .w1c, 0, .keep, .any⟩
/-- TIME_EVENT.REALIGN_REJECT [4:4]. -/
def F.TIME_EVENT_REALIGN_REJECT : Fld := ⟨0x008, 4, 4, 4, .w1c, 0, .keep, .any⟩
/-- TIME_EVENT.TIME_INVALID [3:3]. -/
def F.TIME_EVENT_TIME_INVALID : Fld := ⟨0x008, 4, 3, 3, .w1c, 0, .keep, .any⟩
/-- TIME_EVENT.HOLDOVER_ENTERED [2:2]. -/
def F.TIME_EVENT_HOLDOVER_ENTERED : Fld := ⟨0x008, 4, 2, 2, .w1c, 0, .keep, .any⟩
/-- TIME_EVENT.STEP_DETECTED [1:1]. -/
def F.TIME_EVENT_STEP_DETECTED : Fld := ⟨0x008, 4, 1, 1, .w1c, 0, .keep, .any⟩
/-- TIME_EVENT.UPSTREAM_CHANGED [0:0]. -/
def F.TIME_EVENT_UPSTREAM_CHANGED : Fld := ⟨0x008, 4, 0, 0, .w1c, 0, .keep, .any⟩
/-- Byte offset of TIME_REALIGN (R401). -/
def R.TIME_REALIGN : Nat := 0x00C
/-- TIME_REALIGN.ARM [0:0]. -/
def F.TIME_REALIGN_ARM : Fld := ⟨0x00C, 4, 0, 0, .wo, 0, .value, .any⟩
/-- Byte offset of TIME_NOW (R401). -/
def R.TIME_NOW : Nat := 0x010
/-- TIME_NOW.FT [31:0]. -/
def F.TIME_NOW_FT : Fld := ⟨0x010, 8, 31, 0, .ro, 0, .keep, .any⟩
/-- Byte offset of TIME_EPOCH_SET (R401). -/
def R.TIME_EPOCH_SET : Nat := 0x018
/-- TIME_EPOCH_SET.FT [31:0]. -/
def F.TIME_EPOCH_SET_FT : Fld := ⟨0x018, 8, 31, 0, .rw, 0, .image, .any⟩
/-- Byte offset of TIME_PPS_FT (R401). -/
def R.TIME_PPS_FT : Nat := 0x020
/-- TIME_PPS_FT.FT [31:0]. -/
def F.TIME_PPS_FT_FT : Fld := ⟨0x020, 8, 31, 0, .rw, 0, .keep, .any⟩
/-- Byte offset of TIME_ACCEPTED_OFFSET (R401). -/
def R.TIME_ACCEPTED_OFFSET : Nat := 0x028
/-- TIME_ACCEPTED_OFFSET.QUANTA [31:0]. -/
def F.TIME_ACCEPTED_OFFSET_QUANTA : Fld := ⟨0x028, 8, 31, 0, .ro, 0, .keep, .any⟩
/-- Byte offset of TIME_STEP_THRESH (R401). -/
def R.TIME_STEP_THRESH : Nat := 0x030
/-- TIME_STEP_THRESH.QUANTA [31:0]. -/
def F.TIME_STEP_THRESH_QUANTA : Fld := ⟨0x030, 4, 31, 0, .rw, 4000, .keep, .range 128 4294967295⟩
/-- Byte offset of TIME_VALID_LIMIT (R401). -/
def R.TIME_VALID_LIMIT : Nat := 0x034
/-- TIME_VALID_LIMIT.QUANTA [31:0]. -/
def F.TIME_VALID_LIMIT_QUANTA : Fld := ⟨0x034, 4, 31, 0, .rw, 4000, .keep, .any⟩
/-- Byte offset of TIME_HOLDOVER (R401). -/
def R.TIME_HOLDOVER : Nat := 0x038
/-- TIME_HOLDOVER.DRIFT_PPB [31:0]. -/
def F.TIME_HOLDOVER_DRIFT_PPB : Fld := ⟨0x038, 4, 31, 0, .rw, 50, .keep, .any⟩
/-- Byte offset of TIME_ERR_EST (R401). -/
def R.TIME_ERR_EST : Nat := 0x03C
/-- TIME_ERR_EST.QUANTA [31:0]. -/
def F.TIME_ERR_EST_QUANTA : Fld := ⟨0x03C, 4, 31, 0, .ro, 4294967295, .keep, .any⟩
/-- Byte offset of TIME_OFFSET (R401). -/
def R.TIME_OFFSET : Nat := 0x040
/-- TIME_OFFSET.QUANTA [31:0]. -/
def F.TIME_OFFSET_QUANTA : Fld := ⟨0x040, 4, 31, 0, .ro, 0, .keep, .any⟩
/-- Byte offset of TIME_NOW_QUAL (R401). -/
def R.TIME_NOW_QUAL : Nat := 0x044
/-- TIME_NOW_QUAL.QUALITY [1:0]. -/
def F.TIME_NOW_QUAL_QUALITY : Fld := ⟨0x044, 4, 1, 0, .ro, 0, .keep, .any⟩
/-- Byte offset of TIME_SLEW_LIMIT (R401). -/
def R.TIME_SLEW_LIMIT : Nat := 0x048
/-- TIME_SLEW_LIMIT.PPM [9:0]. -/
def F.TIME_SLEW_LIMIT_PPM : Fld := ⟨0x048, 4, 9, 0, .rw, 100, .keep, .range 1 500⟩
/-- Byte offset of TIME_NBR_LIMIT (R401). -/
def R.TIME_NBR_LIMIT : Nat := 0x04C
/-- TIME_NBR_LIMIT.QUANTA [4:0]. -/
def F.TIME_NBR_LIMIT_QUANTA : Fld := ⟨0x04C, 4, 4, 0, .rw, 20, .keep, .range 1 31⟩
/-- Byte offset of TIME_DEPTH (R401). -/
def R.TIME_DEPTH : Nat := 0x050
/-- TIME_DEPTH.DEPTH [5:0]. -/
def F.TIME_DEPTH_DEPTH : Fld := ⟨0x050, 4, 5, 0, .rwl, 0, .image, .range 0 48⟩
/-- Byte offset of TIME_UPSTREAM (R401). -/
def R.TIME_UPSTREAM : Nat := 0x054
/-- TIME_UPSTREAM.COUNT [26:24]. -/
def F.TIME_UPSTREAM_COUNT : Fld := ⟨0x054, 4, 26, 24, .rwl, 0, .image, .range 0 4⟩
/-- TIME_UPSTREAM.PORTS [23:0]. -/
def F.TIME_UPSTREAM_PORTS : Fld := ⟨0x054, 4, 23, 0, .rwl, 0, .image, .any⟩
/-- Byte offset of TIME_REALIGN_D (R401). -/
def R.TIME_REALIGN_D : Nat := 0x058
/-- TIME_REALIGN_D.QUANTA [31:0]. -/
def F.TIME_REALIGN_D_QUANTA : Fld := ⟨0x058, 8, 31, 0, .ro, 0, .keep, .any⟩
/-- Byte offset of TIME_PORT_ASYM (R401). -/
def R.TIME_PORT_ASYM : Nat := 0x100
/-- TIME_PORT_ASYM.QUANTA [31:0]. -/
def F.TIME_PORT_ASYM_QUANTA : Fld := ⟨0x100, 4, 31, 0, .rwl, 0, .image, .any⟩
/-- Byte offset of ALM_CNT_CLR (R401). -/
def R.ALM_CNT_CLR : Nat := 0x000
/-- ALM_CNT_CLR.EPOCH_DROP [4:4]. -/
def F.ALM_CNT_CLR_EPOCH_DROP : Fld := ⟨0x000, 4, 4, 4, .wo, 0, .value, .any⟩
/-- ALM_CNT_CLR.EPOCH_CARRY [3:3]. -/
def F.ALM_CNT_CLR_EPOCH_CARRY : Fld := ⟨0x000, 4, 3, 3, .wo, 0, .value, .any⟩
/-- ALM_CNT_CLR.NOWIN [2:2]. -/
def F.ALM_CNT_CLR_NOWIN : Fld := ⟨0x000, 4, 2, 2, .wo, 0, .value, .any⟩
/-- ALM_CNT_CLR.SLIP [1:1]. -/
def F.ALM_CNT_CLR_SLIP : Fld := ⟨0x000, 4, 1, 1, .wo, 0, .value, .any⟩
/-- ALM_CNT_CLR.DEFER [0:0]. -/
def F.ALM_CNT_CLR_DEFER : Fld := ⟨0x000, 4, 0, 0, .wo, 0, .value, .any⟩
/-- Byte offset of ALM_LINK_STATUS (R401). -/
def R.ALM_LINK_STATUS : Nat := 0x004
/-- ALM_LINK_STATUS.LAST_MAP [15:0]. -/
def F.ALM_LINK_STATUS_LAST_MAP : Fld := ⟨0x004, 4, 15, 0, .ro, 0, .value, .any⟩
/-- Byte offset of ALM_DEFER (R401). -/
def R.ALM_DEFER : Nat := 0x010
/-- Byte offset of ALM_SLIP (R401). -/
def R.ALM_SLIP : Nat := 0x018
/-- Byte offset of ALM_NOWIN (R401). -/
def R.ALM_NOWIN : Nat := 0x020
/-- Byte offset of ALM_EPOCH_CARRY (R401). -/
def R.ALM_EPOCH_CARRY : Nat := 0x028
/-- Byte offset of ALM_EPOCH_DROP (R401). -/
def R.ALM_EPOCH_DROP : Nat := 0x030
/-- Byte offset of ALM_BANK_CTRL (R401). -/
def R.ALM_BANK_CTRL : Nat := 0x100
/-- ALM_BANK_CTRL.VARIANT [27:12]. -/
def F.ALM_BANK_CTRL_VARIANT : Fld := ⟨0x100, 4, 27, 12, .rw, 0, .keep, .any⟩
/-- ALM_BANK_CTRL.CMD [2:0]. -/
def F.ALM_BANK_CTRL_CMD : Fld := ⟨0x100, 4, 2, 0, .wo, 0, .value, .range 0 4⟩
/-- Byte offset of ALM_BANK_STATUS (R401). -/
def R.ALM_BANK_STATUS : Nat := 0x104
/-- ALM_BANK_STATUS.COOL_PENDING [5:5]. -/
def F.ALM_BANK_STATUS_COOL_PENDING : Fld := ⟨0x104, 4, 5, 5, .ro, 0, .keep, .any⟩
/-- ALM_BANK_STATUS.LEAP_ACTIVE [4:4]. -/
def F.ALM_BANK_STATUS_LEAP_ACTIVE : Fld := ⟨0x104, 4, 4, 4, .ro, 0, .keep, .any⟩
/-- ALM_BANK_STATUS.OTHER_STATE [3:1]. -/
def F.ALM_BANK_STATUS_OTHER_STATE : Fld := ⟨0x104, 4, 3, 1, .ro, 2, .keep, .any⟩
/-- ALM_BANK_STATUS.IN_FORCE [0:0]. -/
def F.ALM_BANK_STATUS_IN_FORCE : Fld := ⟨0x104, 4, 0, 0, .ro, 0, .keep, .any⟩
/-- Byte offset of ALM_EVENT (R401). -/
def R.ALM_EVENT : Nat := 0x108
/-- ALM_EVENT.MAP_FAULT [9:9]. -/
def F.ALM_EVENT_MAP_FAULT : Fld := ⟨0x108, 4, 9, 9, .w1c, 0, .keep, .any⟩
/-- ALM_EVENT.EPOCH_DROP [8:8]. -/
def F.ALM_EVENT_EPOCH_DROP : Fld := ⟨0x108, 4, 8, 8, .w1c, 0, .keep, .any⟩
/-- ALM_EVENT.NO_WINDOW [7:7]. -/
def F.ALM_EVENT_NO_WINDOW : Fld := ⟨0x108, 4, 7, 7, .w1c, 0, .keep, .any⟩
/-- ALM_EVENT.SLIP [6:6]. -/
def F.ALM_EVENT_SLIP : Fld := ⟨0x108, 4, 6, 6, .w1c, 0, .keep, .any⟩
/-- ALM_EVENT.LEAP_DONE [5:5]. -/
def F.ALM_EVENT_LEAP_DONE : Fld := ⟨0x108, 4, 5, 5, .w1c, 0, .keep, .any⟩
/-- ALM_EVENT.LOAD_FAIL [4:4]. -/
def F.ALM_EVENT_LOAD_FAIL : Fld := ⟨0x108, 4, 4, 4, .w1c, 0, .keep, .any⟩
/-- ALM_EVENT.LOAD_DONE [3:3]. -/
def F.ALM_EVENT_LOAD_DONE : Fld := ⟨0x108, 4, 3, 3, .w1c, 0, .keep, .any⟩
/-- ALM_EVENT.CMD_REJECT [2:2]. -/
def F.ALM_EVENT_CMD_REJECT : Fld := ⟨0x108, 4, 2, 2, .w1c, 0, .keep, .any⟩
/-- ALM_EVENT.EQX_REJECT [1:1]. -/
def F.ALM_EVENT_EQX_REJECT : Fld := ⟨0x108, 4, 1, 1, .w1c, 0, .keep, .any⟩
/-- ALM_EVENT.EQX_TAKEN [0:0]. -/
def F.ALM_EVENT_EQX_TAKEN : Fld := ⟨0x108, 4, 0, 0, .w1c, 0, .keep, .any⟩
/-- Byte offset of ALM_VARIANT (R401). -/
def R.ALM_VARIANT : Nat := 0x10C
/-- ALM_VARIANT.OTHER [31:16]. -/
def F.ALM_VARIANT_OTHER : Fld := ⟨0x10C, 4, 31, 16, .ro, 0, .keep, .any⟩
/-- ALM_VARIANT.IN_FORCE [15:0]. -/
def F.ALM_VARIANT_IN_FORCE : Fld := ⟨0x10C, 4, 15, 0, .ro, 0, .keep, .any⟩
/-- Byte offset of ALM_EQX_AT (R401). -/
def R.ALM_EQX_AT : Nat := 0x110
/-- ALM_EQX_AT.SS [31:0]. -/
def F.ALM_EQX_AT_SS : Fld := ⟨0x110, 8, 31, 0, .rw, 0, .keep, .any⟩
/-- Byte offset of ALM_POS (R401). -/
def R.ALM_POS : Nat := 0x118
/-- ALM_POS.LOG2N [25:21]. -/
def F.ALM_POS_LOG2N : Fld := ⟨0x118, 4, 25, 21, .ro, 10, .keep, .any⟩
/-- ALM_POS.SLOT [20:0]. -/
def F.ALM_POS_SLOT : Fld := ⟨0x118, 4, 20, 0, .ro, 0, .keep, .any⟩
/-- Byte offset of ALM_LEAP_PENDING (R401). -/
def R.ALM_LEAP_PENDING : Nat := 0x11C
/-- ALM_LEAP_PENDING.P [31:0]. -/
def F.ALM_LEAP_PENDING_P : Fld := ⟨0x11C, 4, 31, 0, .ro, 0, .keep, .any⟩
/-- Byte offset of ALM_CYCLE (R401). -/
def R.ALM_CYCLE : Nat := 0x120
/-- ALM_CYCLE.COUNT [31:0]. -/
def F.ALM_CYCLE_COUNT : Fld := ⟨0x120, 8, 31, 0, .ro, 0, .keep, .any⟩
/-- Byte offset of ALM_SPACING (R401). -/
def R.ALM_SPACING : Nat := 0x128
/-- ALM_SPACING.QUANTA [15:0]. -/
def F.ALM_SPACING_QUANTA : Fld := ⟨0x128, 4, 15, 0, .ro, 0, .keep, .any⟩
/-- Byte offset of FAULT_CTRL (R401). -/
def R.FAULT_CTRL : Nat := 0x000
/-- FAULT_CTRL.JUBILEE_MAX [15:8]. -/
def F.FAULT_CTRL_JUBILEE_MAX : Fld := ⟨0x000, 4, 15, 8, .rw, 16, .image, .any⟩
/-- FAULT_CTRL.FIRST_MIN [3:2]. -/
def F.FAULT_CTRL_FIRST_MIN : Fld := ⟨0x000, 4, 3, 2, .rw, 2, .image, .range 1 3⟩
/-- FAULT_CTRL.INJ_EN [1:1]. -/
def F.FAULT_CTRL_INJ_EN : Fld := ⟨0x000, 4, 1, 1, .rwl, 0, .image, .any⟩
/-- FAULT_CTRL.EN [0:0]. -/
def F.FAULT_CTRL_EN : Fld := ⟨0x000, 4, 0, 0, .rw, 1, .keep, .any⟩
/-- Byte offset of FAULT_EVENT (R401). -/
def R.FAULT_EVENT : Nat := 0x004
/-- FAULT_EVENT.FENCE_APPLIED [4:4]. -/
def F.FAULT_EVENT_FENCE_APPLIED : Fld := ⟨0x004, 4, 4, 4, .w1c, 0, .keep, .any⟩
/-- FAULT_EVENT.CMD_REJECT [3:3]. -/
def F.FAULT_EVENT_CMD_REJECT : Fld := ⟨0x004, 4, 3, 3, .w1c, 0, .keep, .any⟩
/-- FAULT_EVENT.JUBILEE_LIMIT [2:2]. -/
def F.FAULT_EVENT_JUBILEE_LIMIT : Fld := ⟨0x004, 4, 2, 2, .w1c, 0, .keep, .any⟩
/-- FAULT_EVENT.RECORD_LOST [1:1]. -/
def F.FAULT_EVENT_RECORD_LOST : Fld := ⟨0x004, 4, 1, 1, .w1c, 0, .keep, .any⟩
/-- FAULT_EVENT.FAULT [0:0]. -/
def F.FAULT_EVENT_FAULT : Fld := ⟨0x004, 4, 0, 0, .w1c, 0, .keep, .any⟩
/-- Byte offset of FAULT_FIRST_INFO (R401). -/
def R.FAULT_FIRST_INFO : Nat := 0x008
/-- FAULT_FIRST_INFO.VALID [31:31]. -/
def F.FAULT_FIRST_INFO_VALID : Fld := ⟨0x008, 4, 31, 31, .w1c, 0, .keep, .any⟩
/-- FAULT_FIRST_INFO.QUALITY [29:28]. -/
def F.FAULT_FIRST_INFO_QUALITY : Fld := ⟨0x008, 4, 29, 28, .ro, 0, .keep, .any⟩
/-- FAULT_FIRST_INFO.SEVERITY [27:26]. -/
def F.FAULT_FIRST_INFO_SEVERITY : Fld := ⟨0x008, 4, 27, 26, .ro, 0, .keep, .any⟩
/-- FAULT_FIRST_INFO.CLASS [23:20]. -/
def F.FAULT_FIRST_INFO_CLASS : Fld := ⟨0x008, 4, 23, 20, .ro, 0, .keep, .any⟩
/-- FAULT_FIRST_INFO.UNIT [19:0]. -/
def F.FAULT_FIRST_INFO_UNIT : Fld := ⟨0x008, 4, 19, 0, .ro, 0, .keep, .any⟩
/-- Byte offset of FAULT_FIRST_DETAIL (R401). -/
def R.FAULT_FIRST_DETAIL : Nat := 0x00C
/-- FAULT_FIRST_DETAIL.DETAIL [31:0]. -/
def F.FAULT_FIRST_DETAIL_DETAIL : Fld := ⟨0x00C, 4, 31, 0, .ro, 0, .keep, .any⟩
/-- Byte offset of FAULT_FIRST_FT (R401). -/
def R.FAULT_FIRST_FT : Nat := 0x010
/-- FAULT_FIRST_FT.FT [31:0]. -/
def F.FAULT_FIRST_FT_FT : Fld := ⟨0x010, 8, 31, 0, .ro, 0, .keep, .any⟩
/-- Byte offset of FAULT_ALSO (R401). -/
def R.FAULT_ALSO : Nat := 0x018
/-- FAULT_ALSO.CLASSES [15:0]. -/
def F.FAULT_ALSO_CLASSES : Fld := ⟨0x018, 4, 15, 0, .w1c, 0, .keep, .any⟩
/-- Byte offset of FAULT_UNIT_SEL (R401). -/
def R.FAULT_UNIT_SEL : Nat := 0x01C
/-- FAULT_UNIT_SEL.UNIT [19:0]. -/
def F.FAULT_UNIT_SEL_UNIT : Fld := ⟨0x01C, 4, 19, 0, .rw, 0, .keep, .any⟩
/-- Byte offset of FAULT_UNIT_CMD (R401). -/
def R.FAULT_UNIT_CMD : Nat := 0x020
/-- FAULT_UNIT_CMD.CMD [2:0]. -/
def F.FAULT_UNIT_CMD_CMD : Fld := ⟨0x020, 4, 2, 0, .wo, 0, .value, .range 0 4⟩
/-- Byte offset of FAULT_UNIT_STATE (R401). -/
def R.FAULT_UNIT_STATE : Nat := 0x024
/-- FAULT_UNIT_STATE.SEVERITY [31:30]. -/
def F.FAULT_UNIT_STATE_SEVERITY : Fld := ⟨0x024, 4, 31, 30, .ro, 0, .keep, .any⟩
/-- FAULT_UNIT_STATE.ISOLATED [29:29]. -/
def F.FAULT_UNIT_STATE_ISOLATED : Fld := ⟨0x024, 4, 29, 29, .ro, 0, .keep, .any⟩
/-- FAULT_UNIT_STATE.JUBILEE [23:16]. -/
def F.FAULT_UNIT_STATE_JUBILEE : Fld := ⟨0x024, 4, 23, 16, .ro, 0, .keep, .any⟩
/-- FAULT_UNIT_STATE.ACTIVE [15:0]. -/
def F.FAULT_UNIT_STATE_ACTIVE : Fld := ⟨0x024, 4, 15, 0, .ro, 0, .keep, .any⟩
/-- Byte offset of FAULT_CNT_CLR (R401). -/
def R.FAULT_CNT_CLR : Nat := 0x028
/-- FAULT_CNT_CLR.CLASSES [15:0]. -/
def F.FAULT_CNT_CLR_CLASSES : Fld := ⟨0x028, 4, 15, 0, .wo, 0, .value, .any⟩
/-- Byte offset of FAULT_CLASS_CFG (R401). -/
def R.FAULT_CLASS_CFG : Nat := 0x100
/-- FAULT_CLASS_CFG.BASE [29:28]. -/
def F.FAULT_CLASS_CFG_BASE : Fld := ⟨0x100, 4, 29, 28, .rwl, 0, .image, .range 1 3⟩
/-- FAULT_CLASS_CFG.AUTO_RESTORE [27:27]. -/
def F.FAULT_CLASS_CFG_AUTO_RESTORE : Fld := ⟨0x100, 4, 27, 27, .rwl, 0, .image, .any⟩
/-- FAULT_CLASS_CFG.N_SEV [23:12]. -/
def F.FAULT_CLASS_CFG_N_SEV : Fld := ⟨0x100, 4, 23, 12, .rwl, 0, .image, .any⟩
/-- FAULT_CLASS_CFG.N_DEG [11:0]. -/
def F.FAULT_CLASS_CFG_N_DEG : Fld := ⟨0x100, 4, 11, 0, .rwl, 0, .image, .any⟩
/-- Byte offset of FAULT_CLASS_T (R401). -/
def R.FAULT_CLASS_T : Nat := 0x140
/-- FAULT_CLASS_T.US [31:0]. -/
def F.FAULT_CLASS_T_US : Fld := ⟨0x140, 4, 31, 0, .rwl, 0, .image, .range 1 4294967295⟩
/-- Byte offset of FAULT_CLASS_Q (R401). -/
def R.FAULT_CLASS_Q : Nat := 0x180
/-- FAULT_CLASS_Q.US [31:0]. -/
def F.FAULT_CLASS_Q_US : Fld := ⟨0x180, 4, 31, 0, .rwl, 0, .image, .any⟩
/-- Byte offset of FAULT_REACT (R401). -/
def R.FAULT_REACT : Nat := 0x1C0
/-- FAULT_REACT.SEVERE [14:10]. -/
def F.FAULT_REACT_SEVERE : Fld := ⟨0x1C0, 4, 14, 10, .rwl, 0, .image, .any⟩
/-- FAULT_REACT.DEGRADED [9:5]. -/
def F.FAULT_REACT_DEGRADED : Fld := ⟨0x1C0, 4, 9, 5, .rwl, 0, .image, .any⟩
/-- FAULT_REACT.NOTE [4:0]. -/
def F.FAULT_REACT_NOTE : Fld := ⟨0x1C0, 4, 4, 0, .rwl, 0, .image, .any⟩
/-- Byte offset of FAULT_CNT (R401). -/
def R.FAULT_CNT : Nat := 0x200
/-- Byte offset of CHRON_CTRL (R401). -/
def R.CHRON_CTRL : Nat := 0x000
/-- CHRON_CTRL.FREEZE [1:1]. -/
def F.CHRON_CTRL_FREEZE : Fld := ⟨0x000, 4, 1, 1, .rw, 0, .value, .any⟩
/-- CHRON_CTRL.EN [0:0]. -/
def F.CHRON_CTRL_EN : Fld := ⟨0x000, 4, 0, 0, .rw, 1, .keep, .any⟩
/-- Byte offset of CHRON_STATUS (R401). -/
def R.CHRON_STATUS : Nat := 0x004
/-- CHRON_STATUS.HOLD_LEVEL [23:17]. -/
def F.CHRON_STATUS_HOLD_LEVEL : Fld := ⟨0x004, 4, 23, 17, .ro, 0, .value, .any⟩
/-- CHRON_STATUS.FREE_SECTORS [16:7]. -/
def F.CHRON_STATUS_FREE_SECTORS : Fld := ⟨0x004, 4, 16, 7, .ro, 0, .value, .any⟩
/-- CHRON_STATUS.DEVICE_OK [6:6]. -/
def F.CHRON_STATUS_DEVICE_OK : Fld := ⟨0x004, 4, 6, 6, .ro, 0, .value, .any⟩
/-- CHRON_STATUS.FULL [5:5]. -/
def F.CHRON_STATUS_FULL : Fld := ⟨0x004, 4, 5, 5, .ro, 0, .value, .any⟩
/-- CHRON_STATUS.STATE [1:0]. -/
def F.CHRON_STATUS_STATE : Fld := ⟨0x004, 4, 1, 0, .ro, 0, .value, .any⟩
/-- Byte offset of CHRON_EVENT (R401). -/
def R.CHRON_EVENT : Nat := 0x008
/-- CHRON_EVENT.FREEZE_EXPIRED [5:5]. -/
def F.CHRON_EVENT_FREEZE_EXPIRED : Fld := ⟨0x008, 4, 5, 5, .w1c, 0, .keep, .any⟩
/-- CHRON_EVENT.DEVICE_LOST [4:4]. -/
def F.CHRON_EVENT_DEVICE_LOST : Fld := ⟨0x008, 4, 4, 4, .w1c, 0, .keep, .any⟩
/-- CHRON_EVENT.REERASED [3:3]. -/
def F.CHRON_EVENT_REERASED : Fld := ⟨0x008, 4, 3, 3, .w1c, 0, .keep, .any⟩
/-- CHRON_EVENT.DROP [2:2]. -/
def F.CHRON_EVENT_DROP : Fld := ⟨0x008, 4, 2, 2, .w1c, 0, .keep, .any⟩
/-- CHRON_EVENT.HOLD_OVERFLOW [1:1]. -/
def F.CHRON_EVENT_HOLD_OVERFLOW : Fld := ⟨0x008, 4, 1, 1, .w1c, 0, .keep, .any⟩
/-- CHRON_EVENT.FULL [0:0]. -/
def F.CHRON_EVENT_FULL : Fld := ⟨0x008, 4, 0, 0, .w1c, 0, .keep, .any⟩
/-- Byte offset of CHRON_CNT_CLR (R401). -/
def R.CHRON_CNT_CLR : Nat := 0x00C
/-- CHRON_CNT_CLR.COUNTERS [7:0]. -/
def F.CHRON_CNT_CLR_COUNTERS : Fld := ⟨0x00C, 4, 7, 0, .wo, 0, .value, .any⟩
/-- Byte offset of CHRON_SEQ_NEXT (R401). -/
def R.CHRON_SEQ_NEXT : Nat := 0x010
/-- CHRON_SEQ_NEXT.SEQ [31:0]. -/
def F.CHRON_SEQ_NEXT_SEQ : Fld := ⟨0x010, 4, 31, 0, .ro, 0, .keep, .any⟩
/-- Byte offset of CHRON_SEQ_OLDEST (R401). -/
def R.CHRON_SEQ_OLDEST : Nat := 0x014
/-- CHRON_SEQ_OLDEST.SEQ [31:0]. -/
def F.CHRON_SEQ_OLDEST_SEQ : Fld := ⟨0x014, 4, 31, 0, .ro, 0, .keep, .any⟩
/-- Byte offset of CHRON_CURSOR (R401). -/
def R.CHRON_CURSOR : Nat := 0x018
/-- CHRON_CURSOR.SEQ [31:0]. -/
def F.CHRON_CURSOR_SEQ : Fld := ⟨0x018, 4, 31, 0, .rw, 0, .value, .any⟩
/-- Byte offset of CHRON_RD_CMD (R401). -/
def R.CHRON_RD_CMD : Nat := 0x01C
/-- CHRON_RD_CMD.CMD [1:0]. -/
def F.CHRON_RD_CMD_CMD : Fld := ⟨0x01C, 4, 1, 0, .wo, 0, .value, .range 0 2⟩
/-- Byte offset of CHRON_RD_STATUS (R401). -/
def R.CHRON_RD_STATUS : Nat := 0x020
/-- CHRON_RD_STATUS.FOUND [1:1]. -/
def F.CHRON_RD_STATUS_FOUND : Fld := ⟨0x020, 4, 1, 1, .ro, 0, .value, .any⟩
/-- CHRON_RD_STATUS.READY [0:0]. -/
def F.CHRON_RD_STATUS_READY : Fld := ⟨0x020, 4, 0, 0, .ro, 0, .value, .any⟩
/-- Byte offset of CHRON_RETIRE_SEQ (R401). -/
def R.CHRON_RETIRE_SEQ : Nat := 0x024
/-- CHRON_RETIRE_SEQ.SEQ [31:0]. -/
def F.CHRON_RETIRE_SEQ_SEQ : Fld := ⟨0x024, 4, 31, 0, .rw, 0, .keep, .any⟩
/-- Byte offset of CHRON_CMD (R401). -/
def R.CHRON_CMD : Nat := 0x028
/-- CHRON_CMD.RETIRE_TO [0:0]. -/
def F.CHRON_CMD_RETIRE_TO : Fld := ⟨0x028, 4, 0, 0, .wo, 0, .value, .any⟩
/-- Byte offset of CHRON_FREEZE_MAX (R401). -/
def R.CHRON_FREEZE_MAX : Nat := 0x02C
/-- CHRON_FREEZE_MAX.MS [15:0]. -/
def F.CHRON_FREEZE_MAX_MS : Fld := ⟨0x02C, 4, 15, 0, .rw, 1000, .keep, .range 1 65535⟩
/-- Byte offset of CHRON_SW_CMD (R401). -/
def R.CHRON_SW_CMD : Nat := 0x030
/-- CHRON_SW_CMD.SUBMIT [0:0]. -/
def F.CHRON_SW_CMD_SUBMIT : Fld := ⟨0x030, 4, 0, 0, .wo, 0, .value, .any⟩
/-- Byte offset of CHRON_WIN (R401). -/
def R.CHRON_WIN : Nat := 0x040
/-- CHRON_WIN.WORD [31:0]. -/
def F.CHRON_WIN_WORD : Fld := ⟨0x040, 4, 31, 0, .ro, 0, .value, .any⟩
/-- Byte offset of CHRON_SW (R401). -/
def R.CHRON_SW : Nat := 0x060
/-- CHRON_SW.WORD [31:0]. -/
def F.CHRON_SW_WORD : Fld := ⟨0x060, 4, 31, 0, .rw, 0, .value, .any⟩
/-- Byte offset of CHRON_DROP (R401). -/
def R.CHRON_DROP : Nat := 0x080
/-- Byte offset of CHRON_SUPPRESSED (R401). -/
def R.CHRON_SUPPRESSED : Nat := 0x0A0
/-- Byte offset of CHRON_HOLD_LOST (R401). -/
def R.CHRON_HOLD_LOST : Nat := 0x0A8
/-- Byte offset of CHRON_DISPLACED (R401). -/
def R.CHRON_DISPLACED : Nat := 0x0B0
/-- Byte offset of CHRON_COMPACTIONS (R401). -/
def R.CHRON_COMPACTIONS : Nat := 0x0B8
/-- Byte offset of PROBE_CTRL (R401). -/
def R.PROBE_CTRL : Nat := 0x000
/-- PROBE_CTRL.EN [31:31]. -/
def F.PROBE_CTRL_EN : Fld := ⟨0x000, 4, 31, 31, .rw, 0, .image, .any⟩
/-- PROBE_CTRL.TRACE [30:30]. -/
def F.PROBE_CTRL_TRACE : Fld := ⟨0x000, 4, 30, 30, .rw, 0, .image, .any⟩
/-- PROBE_CTRL.TRIG_EN [29:29]. -/
def F.PROBE_CTRL_TRIG_EN : Fld := ⟨0x000, 4, 29, 29, .rw, 0, .image, .any⟩
/-- PROBE_CTRL.HIST_SRC [28:28]. -/
def F.PROBE_CTRL_HIST_SRC : Fld := ⟨0x000, 4, 28, 28, .rw, 0, .image, .any⟩
/-- PROBE_CTRL.OUT [27:22]. -/
def F.PROBE_CTRL_OUT : Fld := ⟨0x000, 4, 27, 22, .rw, 63, .image, .any⟩
/-- PROBE_CTRL.VC_MASK [21:18]. -/
def F.PROBE_CTRL_VC_MASK : Fld := ⟨0x000, 4, 21, 18, .rw, 15, .image, .any⟩
/-- PROBE_CTRL.WORD [2:0]. -/
def F.PROBE_CTRL_WORD : Fld := ⟨0x000, 4, 2, 0, .rw, 0, .image, .any⟩
/-- Byte offset of PROBE_MATCH (R401). -/
def R.PROBE_MATCH : Nat := 0x040
/-- PROBE_MATCH.VALUE [31:0]. -/
def F.PROBE_MATCH_VALUE : Fld := ⟨0x040, 8, 31, 0, .rw, 0, .image, .any⟩
/-- Byte offset of PROBE_MASK (R401). -/
def R.PROBE_MASK : Nat := 0x0C0
/-- PROBE_MASK.VALUE [31:0]. -/
def F.PROBE_MASK_VALUE : Fld := ⟨0x0C0, 8, 31, 0, .rw, 0, .image, .any⟩
/-- Byte offset of PROBE_FRAMES (R401). -/
def R.PROBE_FRAMES : Nat := 0x140
/-- Byte offset of PROBE_BYTES (R401). -/
def R.PROBE_BYTES : Nat := 0x1C0
/-- Byte offset of PROBE_TRACE_DROP (R401). -/
def R.PROBE_TRACE_DROP : Nat := 0x240
/-- Byte offset of PROBE_CNT_CLR (R401). -/
def R.PROBE_CNT_CLR : Nat := 0x260
/-- PROBE_CNT_CLR.TRACE_DROP [19:16]. -/
def F.PROBE_CNT_CLR_TRACE_DROP : Fld := ⟨0x260, 4, 19, 16, .wo, 0, .value, .any⟩
/-- PROBE_CNT_CLR.PROBES [15:0]. -/
def F.PROBE_CNT_CLR_PROBES : Fld := ⟨0x260, 4, 15, 0, .wo, 0, .value, .any⟩
/-- Byte offset of PROBE_HIST (R401). -/
def R.PROBE_HIST : Nat := 0x400
/-- PROBE_HIST.COUNT [31:0]. -/
def F.PROBE_HIST_COUNT : Fld := ⟨0x400, 4, 31, 0, .ro, 0, .value, .any⟩
/-- Byte offset of TRACE_DIARY_CTRL (R401). -/
def R.TRACE_DIARY_CTRL : Nat := 0x000
/-- TRACE_DIARY_CTRL.MIRROR_EN [2:2]. -/
def F.TRACE_DIARY_CTRL_MIRROR_EN : Fld := ⟨0x000, 4, 2, 2, .rw, 0, .image, .any⟩
/-- TRACE_DIARY_CTRL.NO_OVERWRITE [1:1]. -/
def F.TRACE_DIARY_CTRL_NO_OVERWRITE : Fld := ⟨0x000, 4, 1, 1, .rw, 0, .image, .any⟩
/-- TRACE_DIARY_CTRL.EN [0:0]. -/
def F.TRACE_DIARY_CTRL_EN : Fld := ⟨0x000, 4, 0, 0, .rw, 0, .keep, .any⟩
/-- Byte offset of TRACE_DIARY_EVENT (R401). -/
def R.TRACE_DIARY_EVENT : Nat := 0x004
/-- TRACE_DIARY_EVENT.DISAGREE [3:3]. -/
def F.TRACE_DIARY_EVENT_DISAGREE : Fld := ⟨0x004, 4, 3, 3, .w1c, 0, .keep, .any⟩
/-- TRACE_DIARY_EVENT.STATS_LOST [2:2]. -/
def F.TRACE_DIARY_EVENT_STATS_LOST : Fld := ⟨0x004, 4, 2, 2, .w1c, 0, .keep, .any⟩
/-- TRACE_DIARY_EVENT.LOST [1:1]. -/
def F.TRACE_DIARY_EVENT_LOST : Fld := ⟨0x004, 4, 1, 1, .w1c, 0, .keep, .any⟩
/-- TRACE_DIARY_EVENT.OVERWRITTEN [0:0]. -/
def F.TRACE_DIARY_EVENT_OVERWRITTEN : Fld := ⟨0x004, 4, 0, 0, .w1c, 0, .keep, .any⟩
/-- Byte offset of TRACE_DIARY_CNT_CLR (R401). -/
def R.TRACE_DIARY_CNT_CLR : Nat := 0x008
/-- TRACE_DIARY_CNT_CLR.STATS_LOST [2:2]. -/
def F.TRACE_DIARY_CNT_CLR_STATS_LOST : Fld := ⟨0x008, 4, 2, 2, .wo, 0, .value, .any⟩
/-- TRACE_DIARY_CNT_CLR.OVERWRITTEN [1:1]. -/
def F.TRACE_DIARY_CNT_CLR_OVERWRITTEN : Fld := ⟨0x008, 4, 1, 1, .wo, 0, .value, .any⟩
/-- TRACE_DIARY_CNT_CLR.LOST [0:0]. -/
def F.TRACE_DIARY_CNT_CLR_LOST : Fld := ⟨0x008, 4, 0, 0, .wo, 0, .value, .any⟩
/-- Byte offset of TRACE_DIARY_STATUS (R401). -/
def R.TRACE_DIARY_STATUS : Nat := 0x00C
/-- TRACE_DIARY_STATUS.PENDING [15:0]. -/
def F.TRACE_DIARY_STATUS_PENDING : Fld := ⟨0x00C, 4, 15, 0, .ro, 0, .value, .any⟩
/-- Byte offset of TRACE_DIARY_BASE (R401). -/
def R.TRACE_DIARY_BASE : Nat := 0x010
/-- TRACE_DIARY_BASE.ADDR [31:0]. -/
def F.TRACE_DIARY_BASE_ADDR : Fld := ⟨0x010, 8, 31, 0, .rwl, 0, .image, .any⟩
/-- Byte offset of TRACE_DIARY_SIZE (R401). -/
def R.TRACE_DIARY_SIZE : Nat := 0x018
/-- TRACE_DIARY_SIZE.ENTRIES [31:0]. -/
def F.TRACE_DIARY_SIZE_ENTRIES : Fld := ⟨0x018, 4, 31, 0, .rwl, 1048576, .image, .any⟩
/-- Byte offset of TRACE_DIARY_WR (R401). -/
def R.TRACE_DIARY_WR : Nat := 0x020
/-- TRACE_DIARY_WR.COUNT [31:0]. -/
def F.TRACE_DIARY_WR_COUNT : Fld := ⟨0x020, 8, 31, 0, .ro, 0, .keep, .any⟩
/-- Byte offset of TRACE_DIARY_RD (R401). -/
def R.TRACE_DIARY_RD : Nat := 0x028
/-- TRACE_DIARY_RD.COUNT [31:0]. -/
def F.TRACE_DIARY_RD_COUNT : Fld := ⟨0x028, 8, 31, 0, .rw, 0, .keep, .any⟩
/-- Byte offset of TRACE_STATS_BASE (R401). -/
def R.TRACE_STATS_BASE : Nat := 0x030
/-- TRACE_STATS_BASE.ADDR [31:0]. -/
def F.TRACE_STATS_BASE_ADDR : Fld := ⟨0x030, 8, 31, 0, .rwl, 0, .image, .any⟩
/-- Byte offset of TRACE_STATS_SIZE (R401). -/
def R.TRACE_STATS_SIZE : Nat := 0x038
/-- TRACE_STATS_SIZE.BYTES [31:0]. -/
def F.TRACE_STATS_SIZE_BYTES : Fld := ⟨0x038, 4, 31, 0, .rwl, 0, .image, .mult 64⟩
/-- Byte offset of TRACE_STATS_WR (R401). -/
def R.TRACE_STATS_WR : Nat := 0x040
/-- TRACE_STATS_WR.BYTES [31:0]. -/
def F.TRACE_STATS_WR_BYTES : Fld := ⟨0x040, 8, 31, 0, .ro, 0, .keep, .any⟩
/-- Byte offset of TRACE_STATS_RD (R401). -/
def R.TRACE_STATS_RD : Nat := 0x048
/-- TRACE_STATS_RD.BYTES [31:0]. -/
def F.TRACE_STATS_RD_BYTES : Fld := ⟨0x048, 8, 31, 0, .rw, 0, .keep, .any⟩
/-- Byte offset of TRACE_DIARY_LOST (R401). -/
def R.TRACE_DIARY_LOST : Nat := 0x050
/-- Byte offset of TRACE_DIARY_OVERWRITTEN (R401). -/
def R.TRACE_DIARY_OVERWRITTEN : Nat := 0x058
/-- Byte offset of TRACE_DIARY_STATS_LOST (R401). -/
def R.TRACE_DIARY_STATS_LOST : Nat := 0x060
/-- Byte offset of TRACE_HOLIDAY_CTRL (R401). -/
def R.TRACE_HOLIDAY_CTRL : Nat := 0x000
/-- TRACE_HOLIDAY_CTRL.RESUME_DELAY [31:16]. -/
def F.TRACE_HOLIDAY_CTRL_RESUME_DELAY : Fld := ⟨0x000, 4, 31, 16, .rw, 2048, .image, .range 1024 65535⟩
/-- TRACE_HOLIDAY_CTRL.PIN_EN [3:3]. -/
def F.TRACE_HOLIDAY_CTRL_PIN_EN : Fld := ⟨0x000, 4, 3, 3, .rw, 0, .image, .any⟩
/-- TRACE_HOLIDAY_CTRL.FAULT_SCOPE [2:2]. -/
def F.TRACE_HOLIDAY_CTRL_FAULT_SCOPE : Fld := ⟨0x000, 4, 2, 2, .rw, 0, .image, .any⟩
/-- TRACE_HOLIDAY_CTRL.FORWARD [1:1]. -/
def F.TRACE_HOLIDAY_CTRL_FORWARD : Fld := ⟨0x000, 4, 1, 1, .rw, 1, .image, .any⟩
/-- TRACE_HOLIDAY_CTRL.ACCEPT [0:0]. -/
def F.TRACE_HOLIDAY_CTRL_ACCEPT : Fld := ⟨0x000, 4, 0, 0, .rw, 1, .image, .any⟩
/-- Byte offset of TRACE_HOLIDAY_CMD (R401). -/
def R.TRACE_HOLIDAY_CMD : Nat := 0x004
/-- TRACE_HOLIDAY_CMD.CMD [2:0]. -/
def F.TRACE_HOLIDAY_CMD_CMD : Fld := ⟨0x004, 4, 2, 0, .wo, 0, .value, .range 0 4⟩
/-- Byte offset of TRACE_HOLIDAY_STATUS (R401). -/
def R.TRACE_HOLIDAY_STATUS : Nat := 0x008
/-- TRACE_HOLIDAY_STATUS.ID [31:16]. -/
def F.TRACE_HOLIDAY_STATUS_ID : Fld := ⟨0x008, 4, 31, 16, .ro, 0, .value, .any⟩
/-- TRACE_HOLIDAY_STATUS.CAUSE [15:12]. -/
def F.TRACE_HOLIDAY_STATUS_CAUSE : Fld := ⟨0x008, 4, 15, 12, .ro, 0, .value, .any⟩
/-- TRACE_HOLIDAY_STATUS.SCAN_READY [3:3]. -/
def F.TRACE_HOLIDAY_STATUS_SCAN_READY : Fld := ⟨0x008, 4, 3, 3, .ro, 0, .value, .any⟩
/-- TRACE_HOLIDAY_STATUS.RESUMING [2:2]. -/
def F.TRACE_HOLIDAY_STATUS_RESUMING : Fld := ⟨0x008, 4, 2, 2, .ro, 0, .value, .any⟩
/-- TRACE_HOLIDAY_STATUS.STOPPED [1:1]. -/
def F.TRACE_HOLIDAY_STATUS_STOPPED : Fld := ⟨0x008, 4, 1, 1, .ro, 0, .value, .any⟩
/-- TRACE_HOLIDAY_STATUS.ACTIVE [0:0]. -/
def F.TRACE_HOLIDAY_STATUS_ACTIVE : Fld := ⟨0x008, 4, 0, 0, .ro, 0, .value, .any⟩
/-- Byte offset of TRACE_HOLIDAY_EVENT (R401). -/
def R.TRACE_HOLIDAY_EVENT : Nat := 0x00C
/-- TRACE_HOLIDAY_EVENT.RELEASE_IGNORED [4:4]. -/
def F.TRACE_HOLIDAY_EVENT_RELEASE_IGNORED : Fld := ⟨0x00C, 4, 4, 4, .w1c, 0, .keep, .any⟩
/-- TRACE_HOLIDAY_EVENT.CMD_REJECT [3:3]. -/
def F.TRACE_HOLIDAY_EVENT_CMD_REJECT : Fld := ⟨0x00C, 4, 3, 3, .w1c, 0, .keep, .any⟩
/-- TRACE_HOLIDAY_EVENT.RESUMED [2:2]. -/
def F.TRACE_HOLIDAY_EVENT_RESUMED : Fld := ⟨0x00C, 4, 2, 2, .w1c, 0, .keep, .any⟩
/-- TRACE_HOLIDAY_EVENT.STOPPED [1:1]. -/
def F.TRACE_HOLIDAY_EVENT_STOPPED : Fld := ⟨0x00C, 4, 1, 1, .w1c, 0, .keep, .any⟩
/-- TRACE_HOLIDAY_EVENT.ENTERED [0:0]. -/
def F.TRACE_HOLIDAY_EVENT_ENTERED : Fld := ⟨0x00C, 4, 0, 0, .w1c, 0, .keep, .any⟩
/-- Byte offset of TRACE_HOLIDAY_LAST_ID (R401). -/
def R.TRACE_HOLIDAY_LAST_ID : Nat := 0x010
/-- Byte offset of TRACE_HOLIDAY_SCAN_SEL (R401). -/
def R.TRACE_HOLIDAY_SCAN_SEL : Nat := 0x014
/-- TRACE_HOLIDAY_SCAN_SEL.VC [29:28]. -/
def F.TRACE_HOLIDAY_SCAN_SEL_VC : Fld := ⟨0x014, 4, 29, 28, .rw, 0, .value, .any⟩
/-- TRACE_HOLIDAY_SCAN_SEL.INPUT [27:22]. -/
def F.TRACE_HOLIDAY_SCAN_SEL_INPUT : Fld := ⟨0x014, 4, 27, 22, .rw, 0, .value, .any⟩
/-- TRACE_HOLIDAY_SCAN_SEL.PLANE [21:20]. -/
def F.TRACE_HOLIDAY_SCAN_SEL_PLANE : Fld := ⟨0x014, 4, 21, 20, .rw, 0, .value, .any⟩
/-- TRACE_HOLIDAY_SCAN_SEL.UNIT [19:0]. -/
def F.TRACE_HOLIDAY_SCAN_SEL_UNIT : Fld := ⟨0x014, 4, 19, 0, .rw, 0, .value, .any⟩
/-- Byte offset of TRACE_HOLIDAY_SCAN_DATA (R401). -/
def R.TRACE_HOLIDAY_SCAN_DATA : Nat := 0x020
/-- TRACE_HOLIDAY_SCAN_DATA.WORD [31:0]. -/
def F.TRACE_HOLIDAY_SCAN_DATA_WORD : Fld := ⟨0x020, 4, 31, 0, .ro, 0, .value, .any⟩
/-- Byte offset of TRACE_CTRL (R401). -/
def R.TRACE_CTRL : Nat := 0x000
/-- TRACE_CTRL.ONE_SHOT [1:1]. -/
def F.TRACE_CTRL_ONE_SHOT : Fld := ⟨0x000, 4, 1, 1, .rw, 1, .image, .any⟩
/-- TRACE_CTRL.PORT_EN [0:0]. -/
def F.TRACE_CTRL_PORT_EN : Fld := ⟨0x000, 4, 0, 0, .rw, 0, .image, .any⟩
/-- Byte offset of TRACE_TRIG_CFG (R401). -/
def R.TRACE_TRIG_CFG : Nat := 0x004
/-- TRACE_TRIG_CFG.HOL_MACHINE [7:7]. -/
def F.TRACE_TRIG_CFG_HOL_MACHINE : Fld := ⟨0x004, 4, 7, 7, .rw, 0, .image, .any⟩
/-- TRACE_TRIG_CFG.HOLIDAY [6:6]. -/
def F.TRACE_TRIG_CFG_HOLIDAY : Fld := ⟨0x004, 4, 6, 6, .rw, 0, .image, .any⟩
/-- TRACE_TRIG_CFG.FAULT_SEV [5:4]. -/
def F.TRACE_TRIG_CFG_FAULT_SEV : Fld := ⟨0x004, 4, 5, 4, .rw, 0, .image, .any⟩
/-- TRACE_TRIG_CFG.HOLIDAY_SRC [3:3]. -/
def F.TRACE_TRIG_CFG_HOLIDAY_SRC : Fld := ⟨0x004, 4, 3, 3, .rw, 0, .image, .any⟩
/-- TRACE_TRIG_CFG.PROBE_SRC [2:2]. -/
def F.TRACE_TRIG_CFG_PROBE_SRC : Fld := ⟨0x004, 4, 2, 2, .rw, 0, .image, .any⟩
/-- Byte offset of TRACE_POST (R401). -/
def R.TRACE_POST : Nat := 0x008
/-- TRACE_POST.KIB4 [11:0]. -/
def F.TRACE_POST_KIB4 : Fld := ⟨0x008, 4, 11, 0, .rw, 1024, .image, .range 1 3840⟩
/-- Byte offset of TRACE_CMD (R401). -/
def R.TRACE_CMD : Nat := 0x00C
/-- TRACE_CMD.CMD [1:0]. -/
def F.TRACE_CMD_CMD : Fld := ⟨0x00C, 4, 1, 0, .wo, 0, .value, .any⟩
/-- Byte offset of TRACE_STATUS (R401). -/
def R.TRACE_STATUS : Nat := 0x010
/-- TRACE_STATUS.STATE [16:15]. -/
def F.TRACE_STATUS_STATE : Fld := ⟨0x010, 4, 16, 15, .ro, 0, .value, .any⟩
/-- TRACE_STATUS.LEVEL_KIB [14:0]. -/
def F.TRACE_STATUS_LEVEL_KIB : Fld := ⟨0x010, 4, 14, 0, .ro, 0, .value, .any⟩
/-- Byte offset of TRACE_EVENT (R401). -/
def R.TRACE_EVENT : Nat := 0x014
/-- TRACE_EVENT.TRIG_IGNORED [3:3]. -/
def F.TRACE_EVENT_TRIG_IGNORED : Fld := ⟨0x014, 4, 3, 3, .w1c, 0, .keep, .any⟩
/-- TRACE_EVENT.OVERFLOW [2:2]. -/
def F.TRACE_EVENT_OVERFLOW : Fld := ⟨0x014, 4, 2, 2, .w1c, 0, .keep, .any⟩
/-- TRACE_EVENT.DONE [1:1]. -/
def F.TRACE_EVENT_DONE : Fld := ⟨0x014, 4, 1, 1, .w1c, 0, .keep, .any⟩
/-- TRACE_EVENT.TRIGGERED [0:0]. -/
def F.TRACE_EVENT_TRIGGERED : Fld := ⟨0x014, 4, 0, 0, .w1c, 0, .keep, .any⟩
/-- Byte offset of TRACE_CNT_CLR (R401). -/
def R.TRACE_CNT_CLR : Nat := 0x018
/-- TRACE_CNT_CLR.DROPPED_BYTES [2:2]. -/
def F.TRACE_CNT_CLR_DROPPED_BYTES : Fld := ⟨0x018, 4, 2, 2, .wo, 0, .value, .any⟩
/-- TRACE_CNT_CLR.DROPPED [1:1]. -/
def F.TRACE_CNT_CLR_DROPPED : Fld := ⟨0x018, 4, 1, 1, .wo, 0, .value, .any⟩
/-- TRACE_CNT_CLR.OVERWRITTEN [0:0]. -/
def F.TRACE_CNT_CLR_OVERWRITTEN : Fld := ⟨0x018, 4, 0, 0, .wo, 0, .value, .any⟩
/-- Byte offset of TRACE_TRIG_FT (R401). -/
def R.TRACE_TRIG_FT : Nat := 0x020
/-- TRACE_TRIG_FT.FT [31:0]. -/
def F.TRACE_TRIG_FT_FT : Fld := ⟨0x020, 8, 31, 0, .ro, 0, .keep, .any⟩
/-- Byte offset of TRACE_OVERWRITTEN (R401). -/
def R.TRACE_OVERWRITTEN : Nat := 0x028
/-- Byte offset of TRACE_DROPPED (R401). -/
def R.TRACE_DROPPED : Nat := 0x030
/-- Byte offset of TRACE_DROPPED_BYTES (R401). -/
def R.TRACE_DROPPED_BYTES : Nat := 0x038
/-- Byte offset of TRACE_WIN (R401). -/
def R.TRACE_WIN : Nat := 0x040
/-- TRACE_WIN.WORD [31:0]. -/
def F.TRACE_WIN_WORD : Fld := ⟨0x040, 4, 31, 0, .ro, 0, .value, .any⟩
/-- Byte offset of POWER_DIE_CTRL (R401). -/
def R.POWER_DIE_CTRL : Nat := 0x000
/-- POWER_DIE_CTRL.CMD [1:0]. -/
def F.POWER_DIE_CTRL_CMD : Fld := ⟨0x000, 4, 1, 0, .wo, 0, .value, .range 0 2⟩
/-- Byte offset of POWER_DIE_STATUS (R401). -/
def R.POWER_DIE_STATUS : Nat := 0x004
/-- POWER_DIE_STATUS.USED [3:3]. -/
def F.POWER_DIE_STATUS_USED : Fld := ⟨0x004, 4, 3, 3, .ro, 0, .keep, .any⟩
/-- POWER_DIE_STATUS.STATE [2:0]. -/
def F.POWER_DIE_STATUS_STATE : Fld := ⟨0x004, 4, 2, 0, .ro, 0, .keep, .any⟩
/-- Byte offset of POWER_EVENT (R401). -/
def R.POWER_EVENT : Nat := 0x008
/-- POWER_EVENT.RAMP_MISSING [9:9]. -/
def F.POWER_EVENT_RAMP_MISSING : Fld := ⟨0x008, 4, 9, 9, .w1c, 0, .keep, .any⟩
/-- POWER_EVENT.LEVEL_CHANGE [8:8]. -/
def F.POWER_EVENT_LEVEL_CHANGE : Fld := ⟨0x008, 4, 8, 8, .w1c, 0, .keep, .any⟩
/-- POWER_EVENT.THROTTLE_OFF [7:7]. -/
def F.POWER_EVENT_THROTTLE_OFF : Fld := ⟨0x008, 4, 7, 7, .w1c, 0, .keep, .any⟩
/-- POWER_EVENT.THROTTLE_ON [6:6]. -/
def F.POWER_EVENT_THROTTLE_ON : Fld := ⟨0x008, 4, 6, 6, .w1c, 0, .keep, .any⟩
/-- POWER_EVENT.RAMP_SHORT [5:5]. -/
def F.POWER_EVENT_RAMP_SHORT : Fld := ⟨0x008, 4, 5, 5, .w1c, 0, .keep, .any⟩
/-- POWER_EVENT.GATE_DONE [4:4]. -/
def F.POWER_EVENT_GATE_DONE : Fld := ⟨0x008, 4, 4, 4, .w1c, 0, .keep, .any⟩
/-- POWER_EVENT.GATE_REJECT [3:3]. -/
def F.POWER_EVENT_GATE_REJECT : Fld := ⟨0x008, 4, 3, 3, .w1c, 0, .keep, .any⟩
/-- POWER_EVENT.BELOW_FMIN [2:2]. -/
def F.POWER_EVENT_BELOW_FMIN : Fld := ⟨0x008, 4, 2, 2, .w1c, 0, .keep, .any⟩
/-- POWER_EVENT.OVERRUN [1:1]. -/
def F.POWER_EVENT_OVERRUN : Fld := ⟨0x008, 4, 1, 1, .w1c, 0, .keep, .any⟩
/-- POWER_EVENT.LOCK_LOST [0:0]. -/
def F.POWER_EVENT_LOCK_LOST : Fld := ⟨0x008, 4, 0, 0, .w1c, 0, .keep, .any⟩
/-- Byte offset of POWER_CTRL (R401). -/
def R.POWER_CTRL : Nat := 0x00C
/-- POWER_CTRL.FORCE_THROTTLE [1:1]. -/
def F.POWER_CTRL_FORCE_THROTTLE : Fld := ⟨0x00C, 4, 1, 1, .rw, 0, .keep, .any⟩
/-- POWER_CTRL.KWARN_EN [0:0]. -/
def F.POWER_CTRL_KWARN_EN : Fld := ⟨0x00C, 4, 0, 0, .rw, 0, .image, .any⟩
/-- Byte offset of POWER_STATUS (R401). -/
def R.POWER_STATUS : Nat := 0x010
/-- POWER_STATUS.S [28:24]. -/
def F.POWER_STATUS_S : Fld := ⟨0x010, 4, 28, 24, .ro, 16, .value, .any⟩
/-- POWER_STATUS.LEVEL [20:18]. -/
def F.POWER_STATUS_LEVEL : Fld := ⟨0x010, 4, 20, 18, .ro, 7, .keep, .any⟩
/-- POWER_STATUS.PC_VALID [17:17]. -/
def F.POWER_STATUS_PC_VALID : Fld := ⟨0x010, 4, 17, 17, .ro, 0, .value, .any⟩
/-- POWER_STATUS.THROTTLE_N [16:16]. -/
def F.POWER_STATUS_THROTTLE_N : Fld := ⟨0x010, 4, 16, 16, .ro, 1, .value, .any⟩
/-- POWER_STATUS.CAUSE [15:12]. -/
def F.POWER_STATUS_CAUSE : Fld := ⟨0x010, 4, 15, 12, .ro, 0, .value, .any⟩
/-- POWER_STATUS.HOLDING [1:1]. -/
def F.POWER_STATUS_HOLDING : Fld := ⟨0x010, 4, 1, 1, .ro, 0, .value, .any⟩
/-- POWER_STATUS.THROTTLE [0:0]. -/
def F.POWER_STATUS_THROTTLE : Fld := ⟨0x010, 4, 0, 0, .ro, 0, .value, .any⟩
/-- Byte offset of POWER_RAMP (R401). -/
def R.POWER_RAMP : Nat := 0x014
/-- POWER_RAMP.USED [27:16]. -/
def F.POWER_RAMP_USED : Fld := ⟨0x014, 4, 27, 16, .ro, 500, .image, .any⟩
/-- POWER_RAMP.IN [11:0]. -/
def F.POWER_RAMP_IN : Fld := ⟨0x014, 4, 11, 0, .ro, 0, .value, .any⟩
/-- Byte offset of POWER_ISL_CTRL (R401). -/
def R.POWER_ISL_CTRL : Nat := 0x100
/-- POWER_ISL_CTRL.STOP [8:8]. -/
def F.POWER_ISL_CTRL_STOP : Fld := ⟨0x100, 4, 8, 8, .rw, 0, .keep, .any⟩
/-- POWER_ISL_CTRL.FREQ [6:0]. -/
def F.POWER_ISL_CTRL_FREQ : Fld := ⟨0x100, 4, 6, 0, .rw, 80, .keep, .range 48 88⟩
/-- Byte offset of POWER_ISL_STATUS (R401). -/
def R.POWER_ISL_STATUS : Nat := 0x200
/-- POWER_ISL_STATUS.OVERRUN [21:16]. -/
def F.POWER_ISL_STATUS_OVERRUN : Fld := ⟨0x200, 4, 21, 16, .w1c, 0, .keep, .any⟩
/-- POWER_ISL_STATUS.LOCK_LOST [10:10]. -/
def F.POWER_ISL_STATUS_LOCK_LOST : Fld := ⟨0x200, 4, 10, 10, .w1c, 0, .keep, .any⟩
/-- POWER_ISL_STATUS.GLIDING [9:9]. -/
def F.POWER_ISL_STATUS_GLIDING : Fld := ⟨0x200, 4, 9, 9, .ro, 0, .value, .any⟩
/-- POWER_ISL_STATUS.RUNNING [8:8]. -/
def F.POWER_ISL_STATUS_RUNNING : Fld := ⟨0x200, 4, 8, 8, .ro, 0, .value, .any⟩
/-- POWER_ISL_STATUS.FREQ [6:0]. -/
def F.POWER_ISL_STATUS_FREQ : Fld := ⟨0x200, 4, 6, 0, .ro, 0, .keep, .any⟩
/-- Byte offset of MBX_CTRL (R401). -/
def R.MBX_CTRL : Nat := 0x000
/-- MBX_CTRL.ALERT_MIN [4:3]. -/
def F.MBX_CTRL_ALERT_MIN : Fld := ⟨0x000, 4, 4, 3, .rw, 2, .keep, .range 1 3⟩
/-- MBX_CTRL.SPACE_INT [2:2]. -/
def F.MBX_CTRL_SPACE_INT : Fld := ⟨0x000, 4, 2, 2, .rw, 0, .keep, .any⟩
/-- MBX_CTRL.EN [0:0]. -/
def F.MBX_CTRL_EN : Fld := ⟨0x000, 4, 0, 0, .rw, 0, .value, .any⟩
/-- Byte offset of MBX_STATUS (R401). -/
def R.MBX_STATUS : Nat := 0x004
/-- MBX_STATUS.UNANSWERED [24:16]. -/
def F.MBX_STATUS_UNANSWERED : Fld := ⟨0x004, 4, 24, 16, .ro, 0, .keep, .any⟩
/-- MBX_STATUS.FM_ACTIVE [2:2]. -/
def F.MBX_STATUS_FM_ACTIVE : Fld := ⟨0x004, 4, 2, 2, .ro, 0, .value, .any⟩
/-- MBX_STATUS.CMD_FULL [1:1]. -/
def F.MBX_STATUS_CMD_FULL : Fld := ⟨0x004, 4, 1, 1, .ro, 0, .keep, .any⟩
/-- MBX_STATUS.RSP_FULL [0:0]. -/
def F.MBX_STATUS_RSP_FULL : Fld := ⟨0x004, 4, 0, 0, .ro, 0, .keep, .any⟩
/-- Byte offset of MBX_EVENT (R401). -/
def R.MBX_EVENT : Nat := 0x008
/-- MBX_EVENT.EVENTS_LOST [3:3]. -/
def F.MBX_EVENT_EVENTS_LOST : Fld := ⟨0x008, 4, 3, 3, .w1c, 0, .keep, .any⟩
/-- MBX_EVENT.IDX_ERR [2:2]. -/
def F.MBX_EVENT_IDX_ERR : Fld := ⟨0x008, 4, 2, 2, .w1c, 0, .keep, .any⟩
/-- MBX_EVENT.TAKEOVER [1:1]. -/
def F.MBX_EVENT_TAKEOVER : Fld := ⟨0x008, 4, 1, 1, .w1c, 0, .keep, .any⟩
/-- MBX_EVENT.ABORTED [0:0]. -/
def F.MBX_EVENT_ABORTED : Fld := ⟨0x008, 4, 0, 0, .w1c, 0, .keep, .any⟩
/-- Byte offset of MBX_CNT_CLR (R401). -/
def R.MBX_CNT_CLR : Nat := 0x00C
/-- MBX_CNT_CLR.EVENTS_LOST [0:0]. -/
def F.MBX_CNT_CLR_EVENTS_LOST : Fld := ⟨0x00C, 4, 0, 0, .wo, 0, .value, .any⟩
/-- Byte offset of MBX_CMD_PROD (R401). -/
def R.MBX_CMD_PROD : Nat := 0x010
/-- MBX_CMD_PROD.INDEX [15:0]. -/
def F.MBX_CMD_PROD_INDEX : Fld := ⟨0x010, 4, 15, 0, .rw, 0, .keep, .any⟩
/-- Byte offset of MBX_CMD_CONS (R401). -/
def R.MBX_CMD_CONS : Nat := 0x014
/-- MBX_CMD_CONS.INDEX [15:0]. -/
def F.MBX_CMD_CONS_INDEX : Fld := ⟨0x014, 4, 15, 0, .ro, 0, .keep, .any⟩
/-- Byte offset of MBX_RSP_PROD (R401). -/
def R.MBX_RSP_PROD : Nat := 0x018
/-- MBX_RSP_PROD.INDEX [15:0]. -/
def F.MBX_RSP_PROD_INDEX : Fld := ⟨0x018, 4, 15, 0, .ro, 0, .keep, .any⟩
/-- Byte offset of MBX_RSP_CONS (R401). -/
def R.MBX_RSP_CONS : Nat := 0x01C
/-- MBX_RSP_CONS.INDEX [15:0]. -/
def F.MBX_RSP_CONS_INDEX : Fld := ⟨0x01C, 4, 15, 0, .rw, 0, .keep, .any⟩
/-- Byte offset of MBX_HOST_SEQ_SEEN (R401). -/
def R.MBX_HOST_SEQ_SEEN : Nat := 0x020
/-- MBX_HOST_SEQ_SEEN.HSEQ [31:0]. -/
def F.MBX_HOST_SEQ_SEEN_HSEQ : Fld := ⟨0x020, 4, 31, 0, .ro, 0, .keep, .any⟩
/-- Byte offset of MBX_FM_SEQ_SENT (R401). -/
def R.MBX_FM_SEQ_SENT : Nat := 0x024
/-- MBX_FM_SEQ_SENT.FSEQ [31:0]. -/
def F.MBX_FM_SEQ_SENT_FSEQ : Fld := ⟨0x024, 4, 31, 0, .ro, 0, .keep, .any⟩
/-- Byte offset of MBX_INT_HOLDOFF (R401). -/
def R.MBX_INT_HOLDOFF : Nat := 0x028
/-- MBX_INT_HOLDOFF.US [15:0]. -/
def F.MBX_INT_HOLDOFF_US : Fld := ⟨0x028, 4, 15, 0, .rw, 4, .keep, .any⟩
/-- Byte offset of MBX_EVENTS_LOST (R401). -/
def R.MBX_EVENTS_LOST : Nat := 0x030
/-- Byte offset of BOOT_CTRL (R401). -/
def R.BOOT_CTRL : Nat := 0x000
/-- BOOT_CTRL.FAST_EN [2:2]. -/
def F.BOOT_CTRL_FAST_EN : Fld := ⟨0x000, 4, 2, 2, .rw, 1, .keep, .any⟩
/-- BOOT_CTRL.IMAGE_SRC [1:1]. -/
def F.BOOT_CTRL_IMAGE_SRC : Fld := ⟨0x000, 4, 1, 1, .rw, 0, .keep, .any⟩
/-- BOOT_CTRL.AUTO_WARM [0:0]. -/
def F.BOOT_CTRL_AUTO_WARM : Fld := ⟨0x000, 4, 0, 0, .rw, 1, .keep, .any⟩
/-- Byte offset of BOOT_CMD (R401). -/
def R.BOOT_CMD : Nat := 0x004
/-- BOOT_CMD.CMD [2:0]. -/
def F.BOOT_CMD_CMD : Fld := ⟨0x004, 4, 2, 0, .wo, 0, .value, .range 0 5⟩
/-- Byte offset of BOOT_STATUS (R401). -/
def R.BOOT_STATUS : Nat := 0x008
/-- BOOT_STATUS.MIRROR_STALE [26:26]. -/
def F.BOOT_STATUS_MIRROR_STALE : Fld := ⟨0x008, 4, 26, 26, .ro, 0, .value, .any⟩
/-- BOOT_STATUS.SYNCED [25:25]. -/
def F.BOOT_STATUS_SYNCED : Fld := ⟨0x008, 4, 25, 25, .ro, 0, .value, .any⟩
/-- BOOT_STATUS.ACTIVE [24:24]. -/
def F.BOOT_STATUS_ACTIVE : Fld := ⟨0x008, 4, 24, 24, .ro, 0, .value, .any⟩
/-- BOOT_STATUS.RESET_KIND [23:22]. -/
def F.BOOT_STATUS_RESET_KIND : Fld := ⟨0x008, 4, 23, 22, .ro, 0, .value, .any⟩
/-- BOOT_STATUS.FAST [21:21]. -/
def F.BOOT_STATUS_FAST : Fld := ⟨0x008, 4, 21, 21, .ro, 0, .value, .any⟩
/-- BOOT_STATUS.REDUCED [20:20]. -/
def F.BOOT_STATUS_REDUCED : Fld := ⟨0x008, 4, 20, 20, .ro, 0, .value, .any⟩
/-- BOOT_STATUS.LEVEL [19:18]. -/
def F.BOOT_STATUS_LEVEL : Fld := ⟨0x008, 4, 19, 18, .ro, 0, .value, .any⟩
/-- BOOT_STATUS.STEP [17:15]. -/
def F.BOOT_STATUS_STEP : Fld := ⟨0x008, 4, 17, 15, .ro, 0, .value, .any⟩
/-- BOOT_STATUS.STATE [14:12]. -/
def F.BOOT_STATUS_STATE : Fld := ⟨0x008, 4, 14, 12, .ro, 0, .value, .any⟩
/-- Byte offset of BOOT_EVENT (R401). -/
def R.BOOT_EVENT : Nat := 0x00C
/-- BOOT_EVENT.CMD_REJECT [9:9]. -/
def F.BOOT_EVENT_CMD_REJECT : Fld := ⟨0x00C, 4, 9, 9, .w1c, 0, .value, .any⟩
/-- BOOT_EVENT.STANDBY_SYNCED [8:8]. -/
def F.BOOT_EVENT_STANDBY_SYNCED : Fld := ⟨0x00C, 4, 8, 8, .w1c, 0, .value, .any⟩
/-- BOOT_EVENT.STANDBY_LOST [7:7]. -/
def F.BOOT_EVENT_STANDBY_LOST : Fld := ⟨0x00C, 4, 7, 7, .w1c, 0, .value, .any⟩
/-- BOOT_EVENT.LEASE_LOST [6:6]. -/
def F.BOOT_EVENT_LEASE_LOST : Fld := ⟨0x00C, 4, 6, 6, .w1c, 0, .value, .any⟩
/-- BOOT_EVENT.TAKEOVER [5:5]. -/
def F.BOOT_EVENT_TAKEOVER : Fld := ⟨0x00C, 4, 5, 5, .w1c, 0, .value, .any⟩
/-- BOOT_EVENT.WAIT_IMAGE [4:4]. -/
def F.BOOT_EVENT_WAIT_IMAGE : Fld := ⟨0x00C, 4, 4, 4, .w1c, 0, .value, .any⟩
/-- BOOT_EVENT.LATE [3:3]. -/
def F.BOOT_EVENT_LATE : Fld := ⟨0x00C, 4, 3, 3, .w1c, 0, .value, .any⟩
/-- BOOT_EVENT.ALTERNATE [2:2]. -/
def F.BOOT_EVENT_ALTERNATE : Fld := ⟨0x00C, 4, 2, 2, .w1c, 0, .value, .any⟩
/-- BOOT_EVENT.STEP_FAILED [1:1]. -/
def F.BOOT_EVENT_STEP_FAILED : Fld := ⟨0x00C, 4, 1, 1, .w1c, 0, .value, .any⟩
/-- BOOT_EVENT.READY [0:0]. -/
def F.BOOT_EVENT_READY : Fld := ⟨0x00C, 4, 0, 0, .w1c, 0, .value, .any⟩
/-- Byte offset of BOOT_NO (R401). -/
def R.BOOT_NO : Nat := 0x010
/-- BOOT_NO.COUNT [31:0]. -/
def F.BOOT_NO_COUNT : Fld := ⟨0x010, 4, 31, 0, .ro, 0, .value, .any⟩
/-- Byte offset of BOOT_LEVELS (R401). -/
def R.BOOT_LEVELS : Nat := 0x014
/-- BOOT_LEVELS.LEVELS [15:0]. -/
def F.BOOT_LEVELS_LEVELS : Fld := ⟨0x014, 4, 15, 0, .ro, 0, .value, .any⟩
/-- Byte offset of BOOT_DEADLINE (R401). -/
def R.BOOT_DEADLINE : Nat := 0x018
/-- BOOT_DEADLINE.S [15:0]. -/
def F.BOOT_DEADLINE_S : Fld := ⟨0x018, 4, 15, 0, .rw, 60, .keep, .any⟩
/-- Byte offset of BOOT_COORD (R401). -/
def R.BOOT_COORD : Nat := 0x01C
/-- BOOT_COORD.COORD [16:0]. -/
def F.BOOT_COORD_COORD : Fld := ⟨0x01C, 4, 16, 0, .rwl, 0, .image, .any⟩
/-- Byte offset of BOOT_HB_CFG (R401). -/
def R.BOOT_HB_CFG : Nat := 0x020
/-- BOOT_HB_CFG.LEASE_US [31:16]. -/
def F.BOOT_HB_CFG_LEASE_US : Fld := ⟨0x020, 4, 31, 16, .rw, 1000, .keep, .range 500 65535⟩
/-- BOOT_HB_CFG.HB_MISS [3:0]. -/
def F.BOOT_HB_CFG_HB_MISS : Fld := ⟨0x020, 4, 3, 0, .rw, 5, .keep, .range 2 15⟩
/-- Byte offset of BOOT_HB_KICK (R401). -/
def R.BOOT_HB_KICK : Nat := 0x024
/-- BOOT_HB_KICK.KICK [0:0]. -/
def F.BOOT_HB_KICK_KICK : Fld := ⟨0x024, 4, 0, 0, .wo, 0, .value, .any⟩
/-- Byte offset of BOOT_LEASE (R401). -/
def R.BOOT_LEASE : Nat := 0x028
/-- BOOT_LEASE.EPOCH [31:16]. -/
def F.BOOT_LEASE_EPOCH : Fld := ⟨0x028, 4, 31, 16, .ro, 0, .value, .any⟩
/-- BOOT_LEASE.VOTES [7:4]. -/
def F.BOOT_LEASE_VOTES : Fld := ⟨0x028, 4, 7, 4, .ro, 0, .value, .any⟩
/-- BOOT_LEASE.HOLDER [0:0]. -/
def F.BOOT_LEASE_HOLDER : Fld := ⟨0x028, 4, 0, 0, .ro, 0, .value, .any⟩
/-- Byte offset of BOOT_MIRROR_STATUS (R401). -/
def R.BOOT_MIRROR_STATUS : Nat := 0x02C
/-- BOOT_MIRROR_STATUS.FENCE_PENDING [16:16]. -/
def F.BOOT_MIRROR_STATUS_FENCE_PENDING : Fld := ⟨0x02C, 4, 16, 16, .ro, 0, .value, .any⟩
/-- BOOT_MIRROR_STATUS.BACKLOG_KIB [15:0]. -/
def F.BOOT_MIRROR_STATUS_BACKLOG_KIB : Fld := ⟨0x02C, 4, 15, 0, .ro, 0, .value, .any⟩
/-- Byte offset of BOOT_MIRROR_FENCE (R401). -/
def R.BOOT_MIRROR_FENCE : Nat := 0x030
/-- BOOT_MIRROR_FENCE.FENCE [0:0]. -/
def F.BOOT_MIRROR_FENCE_FENCE : Fld := ⟨0x030, 4, 0, 0, .wo, 0, .value, .any⟩
/-- Byte offset of BOOT_FUSE_VARIANT (R401). -/
def R.BOOT_FUSE_VARIANT : Nat := 0x100
/-- BOOT_FUSE_VARIANT.PREF [20:20]. -/
def F.BOOT_FUSE_VARIANT_PREF : Fld := ⟨0x100, 4, 20, 20, .ro, 0, .fuse, .any⟩
/-- BOOT_FUSE_VARIANT.VARIANT [19:16]. -/
def F.BOOT_FUSE_VARIANT_VARIANT : Fld := ⟨0x100, 4, 19, 16, .ro, 0, .fuse, .any⟩
/-- BOOT_FUSE_VARIANT.CDIE_OFF [15:0]. -/
def F.BOOT_FUSE_VARIANT_CDIE_OFF : Fld := ⟨0x100, 4, 15, 0, .ro, 0, .fuse, .any⟩
/-- Byte offset of BOOT_FUSE_HASH (R401). -/
def R.BOOT_FUSE_HASH : Nat := 0x104
/-- BOOT_FUSE_HASH.CRC [31:0]. -/
def F.BOOT_FUSE_HASH_CRC : Fld := ⟨0x104, 4, 31, 0, .ro, 0, .fuse, .any⟩
/-- Byte offset of BOOT_FUSE_PORT_OFF (R401). -/
def R.BOOT_FUSE_PORT_OFF : Nat := 0x108
/-- BOOT_FUSE_PORT_OFF.PORTS [31:0]. -/
def F.BOOT_FUSE_PORT_OFF_PORTS : Fld := ⟨0x108, 8, 31, 0, .ro, 0, .fuse, .any⟩
/-- Byte offset of BOOT_FUSE_SERIAL (R401). -/
def R.BOOT_FUSE_SERIAL : Nat := 0x110
/-- BOOT_FUSE_SERIAL.SERIAL [31:0]. -/
def F.BOOT_FUSE_SERIAL_SERIAL : Fld := ⟨0x110, 8, 31, 0, .ro, 0, .fuse, .any⟩
/-- Byte offset of BOOT_FUSE_STN_SEL (R401). -/
def R.BOOT_FUSE_STN_SEL : Nat := 0x118
/-- BOOT_FUSE_STN_SEL.DIE [8:4]. -/
def F.BOOT_FUSE_STN_SEL_DIE : Fld := ⟨0x118, 4, 8, 4, .rw, 0, .value, .any⟩
/-- BOOT_FUSE_STN_SEL.WORD [3:0]. -/
def F.BOOT_FUSE_STN_SEL_WORD : Fld := ⟨0x118, 4, 3, 0, .rw, 0, .value, .range 0 11⟩
/-- Byte offset of BOOT_FUSE_STN (R401). -/
def R.BOOT_FUSE_STN : Nat := 0x11C
/-- BOOT_FUSE_STN.BAD [31:0]. -/
def F.BOOT_FUSE_STN_BAD : Fld := ⟨0x11C, 4, 31, 0, .ro, 0, .fuse, .any⟩
/-- Byte offset of BOOT_FUSE_KEYHASH (R401). -/
def R.BOOT_FUSE_KEYHASH : Nat := 0x140
/-- BOOT_FUSE_KEYHASH.WORD [31:0]. -/
def F.BOOT_FUSE_KEYHASH_WORD : Fld := ⟨0x140, 4, 31, 0, .ro, 0, .fuse, .any⟩
/-- Byte offset of NI_INJ (R401). -/
def R.NI_INJ : Nat := 0xFF8
/-- NI_INJ.ARM [31:31]. -/
def F.NI_INJ_ARM : Fld := ⟨0xFF8, 4, 31, 31, .rw, 0, .value, .any⟩
/-- NI_INJ.CONT [30:30]. -/
def F.NI_INJ_CONT : Fld := ⟨0xFF8, 4, 30, 30, .rw, 0, .value, .any⟩
/-- NI_INJ.SRAM [29:24]. -/
def F.NI_INJ_SRAM : Fld := ⟨0xFF8, 4, 29, 24, .rw, 0, .value, .any⟩
/-- NI_INJ.FLIP [15:8]. -/
def F.NI_INJ_FLIP : Fld := ⟨0xFF8, 4, 15, 8, .rw, 0, .value, .any⟩
/-- Byte offset of ROUTER_INJ (R401). -/
def R.ROUTER_INJ : Nat := 0xFF8
/-- ROUTER_INJ.ARM [31:31]. -/
def F.ROUTER_INJ_ARM : Fld := ⟨0xFF8, 4, 31, 31, .rw, 0, .value, .any⟩
/-- ROUTER_INJ.CONT [30:30]. -/
def F.ROUTER_INJ_CONT : Fld := ⟨0xFF8, 4, 30, 30, .rw, 0, .value, .any⟩
/-- ROUTER_INJ.SRAM [29:24]. -/
def F.ROUTER_INJ_SRAM : Fld := ⟨0xFF8, 4, 29, 24, .rw, 0, .value, .any⟩
/-- ROUTER_INJ.FLIP [15:8]. -/
def F.ROUTER_INJ_FLIP : Fld := ⟨0xFF8, 4, 15, 8, .rw, 0, .value, .any⟩
/-- Byte offset of MEMST_INJ (R401). -/
def R.MEMST_INJ : Nat := 0xFF8
/-- MEMST_INJ.ARM [31:31]. -/
def F.MEMST_INJ_ARM : Fld := ⟨0xFF8, 4, 31, 31, .rw, 0, .value, .any⟩
/-- MEMST_INJ.CONT [30:30]. -/
def F.MEMST_INJ_CONT : Fld := ⟨0xFF8, 4, 30, 30, .rw, 0, .value, .any⟩
/-- MEMST_INJ.SRAM [29:24]. -/
def F.MEMST_INJ_SRAM : Fld := ⟨0xFF8, 4, 29, 24, .rw, 0, .value, .any⟩
/-- MEMST_INJ.FLIP [15:8]. -/
def F.MEMST_INJ_FLIP : Fld := ⟨0xFF8, 4, 15, 8, .rw, 0, .value, .any⟩
/-- Byte offset of DLINK_INJ (R401). -/
def R.DLINK_INJ : Nat := 0xFF8
/-- DLINK_INJ.ARM [31:31]. -/
def F.DLINK_INJ_ARM : Fld := ⟨0xFF8, 4, 31, 31, .rw, 0, .value, .any⟩
/-- DLINK_INJ.CONT [30:30]. -/
def F.DLINK_INJ_CONT : Fld := ⟨0xFF8, 4, 30, 30, .rw, 0, .value, .any⟩
/-- DLINK_INJ.SRAM [29:24]. -/
def F.DLINK_INJ_SRAM : Fld := ⟨0xFF8, 4, 29, 24, .rw, 0, .value, .any⟩
/-- DLINK_INJ.FLIP [15:8]. -/
def F.DLINK_INJ_FLIP : Fld := ⟨0xFF8, 4, 15, 8, .rw, 0, .value, .any⟩
/-- Byte offset of POOL_INJ (R401). -/
def R.POOL_INJ : Nat := 0xFF8
/-- POOL_INJ.ARM [31:31]. -/
def F.POOL_INJ_ARM : Fld := ⟨0xFF8, 4, 31, 31, .rw, 0, .value, .any⟩
/-- POOL_INJ.CONT [30:30]. -/
def F.POOL_INJ_CONT : Fld := ⟨0xFF8, 4, 30, 30, .rw, 0, .value, .any⟩
/-- POOL_INJ.SRAM [29:24]. -/
def F.POOL_INJ_SRAM : Fld := ⟨0xFF8, 4, 29, 24, .rw, 0, .value, .any⟩
/-- POOL_INJ.FLIP [15:8]. -/
def F.POOL_INJ_FLIP : Fld := ⟨0xFF8, 4, 15, 8, .rw, 0, .value, .any⟩
/-- Byte offset of PORT_INJ (R401). -/
def R.PORT_INJ : Nat := 0xFF8
/-- PORT_INJ.ARM [31:31]. -/
def F.PORT_INJ_ARM : Fld := ⟨0xFF8, 4, 31, 31, .rw, 0, .value, .any⟩
/-- PORT_INJ.CONT [30:30]. -/
def F.PORT_INJ_CONT : Fld := ⟨0xFF8, 4, 30, 30, .rw, 0, .value, .any⟩
/-- PORT_INJ.SRAM [29:24]. -/
def F.PORT_INJ_SRAM : Fld := ⟨0xFF8, 4, 29, 24, .rw, 0, .value, .any⟩
/-- PORT_INJ.FLIP [15:8]. -/
def F.PORT_INJ_FLIP : Fld := ⟨0xFF8, 4, 15, 8, .rw, 0, .value, .any⟩
/-- Byte offset of REDUCE_INJ (R401). -/
def R.REDUCE_INJ : Nat := 0xFF8
/-- REDUCE_INJ.ARM [31:31]. -/
def F.REDUCE_INJ_ARM : Fld := ⟨0xFF8, 4, 31, 31, .rw, 0, .value, .any⟩
/-- REDUCE_INJ.CONT [30:30]. -/
def F.REDUCE_INJ_CONT : Fld := ⟨0xFF8, 4, 30, 30, .rw, 0, .value, .any⟩
/-- REDUCE_INJ.SRAM [29:24]. -/
def F.REDUCE_INJ_SRAM : Fld := ⟨0xFF8, 4, 29, 24, .rw, 0, .value, .any⟩
/-- REDUCE_INJ.FLIP [15:8]. -/
def F.REDUCE_INJ_FLIP : Fld := ⟨0xFF8, 4, 15, 8, .rw, 0, .value, .any⟩
/-- Byte offset of ALM_INJ (R401). -/
def R.ALM_INJ : Nat := 0xFF8
/-- ALM_INJ.ARM [31:31]. -/
def F.ALM_INJ_ARM : Fld := ⟨0xFF8, 4, 31, 31, .rw, 0, .value, .any⟩
/-- ALM_INJ.CONT [30:30]. -/
def F.ALM_INJ_CONT : Fld := ⟨0xFF8, 4, 30, 30, .rw, 0, .value, .any⟩
/-- ALM_INJ.SRAM [29:24]. -/
def F.ALM_INJ_SRAM : Fld := ⟨0xFF8, 4, 29, 24, .rw, 0, .value, .any⟩
/-- ALM_INJ.FLIP [15:8]. -/
def F.ALM_INJ_FLIP : Fld := ⟨0xFF8, 4, 15, 8, .rw, 0, .value, .any⟩
/-- Byte offset of GLOBAL_ID (R401). -/
def R.GLOBAL_ID : Nat := 0xFFC
/-- Byte offset of ROUTER_ID (R401). -/
def R.ROUTER_ID : Nat := 0xFFC
/-- Byte offset of NI_ID (R401). -/
def R.NI_ID : Nat := 0xFFC
/-- Byte offset of MEMST_ID (R401). -/
def R.MEMST_ID : Nat := 0xFFC
/-- Byte offset of PORT_ID (R401). -/
def R.PORT_ID : Nat := 0xFFC
/-- Byte offset of DLINK_ID (R401). -/
def R.DLINK_ID : Nat := 0xFFC
/-- Byte offset of REDUCE_ID (R401). -/
def R.REDUCE_ID : Nat := 0xFFC
/-- Byte offset of TIME_ID (R401). -/
def R.TIME_ID : Nat := 0xFFC
/-- Byte offset of ALM_ID (R401). -/
def R.ALM_ID : Nat := 0xFFC
/-- Byte offset of ALMC_ID (R401). -/
def R.ALMC_ID : Nat := 0xFFC
/-- Byte offset of FAULT_ID (R401). -/
def R.FAULT_ID : Nat := 0xFFC
/-- Byte offset of CHRON_ID (R401). -/
def R.CHRON_ID : Nat := 0xFFC
/-- Byte offset of PROBE_ID (R401). -/
def R.PROBE_ID : Nat := 0xFFC
/-- Byte offset of DIARY_ID (R401). -/
def R.DIARY_ID : Nat := 0xFFC
/-- Byte offset of HOLIDAY_ID (R401). -/
def R.HOLIDAY_ID : Nat := 0xFFC
/-- Byte offset of TRACE_ID (R401). -/
def R.TRACE_ID : Nat := 0xFFC
/-- Byte offset of POOL_ID (R401). -/
def R.POOL_ID : Nat := 0xFFC
/-- Byte offset of POWER_ID (R401). -/
def R.POWER_ID : Nat := 0xFFC
/-- Byte offset of MBX_ID (R401). -/
def R.MBX_ID : Nat := 0xFFC
/-- Byte offset of BOOT_ID (R401). -/
def R.BOOT_ID : Nat := 0xFFC
/-- The registers of a global instance. -/
def rowsGlobal : List RegRow :=
  [
   ⟨R.GLOBAL_DIE, 1, 4, .single, [F.GLOBAL_DIE_DIE, F.GLOBAL_DIE_KIND, F.GLOBAL_DIE_ROOT_CAPABLE, F.GLOBAL_DIE_ENABLED]⟩,
   ⟨R.GLOBAL_TREE_CTRL, 1, 4, .single, [F.GLOBAL_TREE_CTRL_TIMEOUT_US]⟩,
   ⟨R.GLOBAL_TREE_STATUS, 1, 4, .single, [F.GLOBAL_TREE_STATUS_EPOCH, F.GLOBAL_TREE_STATUS_OUTSTANDING]⟩,
   ⟨R.GLOBAL_TREE_EVENT, 1, 4, .single, [F.GLOBAL_TREE_EVENT_RESERVED_ACCESS, F.GLOBAL_TREE_EVENT_EPOCH_DROP, F.GLOBAL_TREE_EVENT_TIMEOUT]⟩,
   ⟨R.GLOBAL_TREE_ERR_INFO, 1, 4, .single, [F.GLOBAL_TREE_ERR_INFO_VALID, F.GLOBAL_TREE_ERR_INFO_WRITE, F.GLOBAL_TREE_ERR_INFO_STATUS]⟩,
   ⟨R.GLOBAL_TREE_ERR_ADDR, 1, 4, .single, [F.GLOBAL_TREE_ERR_ADDR_ADDR]⟩,
   ⟨R.GLOBAL_CNT_CLR, 1, 4, .single, [F.GLOBAL_CNT_CLR_RESERVED, F.GLOBAL_CNT_CLR_TIMEOUTS]⟩,
   ⟨R.GLOBAL_TREE_TIMEOUTS, 1, 8, .counter, []⟩,
   ⟨R.GLOBAL_TREE_RESERVED, 1, 8, .counter, []⟩,
   ⟨R.GLOBAL_ID, 1, 4, .single, []⟩]
/-- The registers of a router instance. -/
def rowsRouter : List RegRow :=
  [
   ⟨R.ROUTER_FLOW, 1, 4, .single, [F.ROUTER_FLOW_DLINK_HEADROOM, F.ROUTER_FLOW_MESH_HEADROOM]⟩,
   ⟨R.ROUTER_CNT_CLR, 1, 4, .single, [F.ROUTER_CNT_CLR_ROUTE_ERR, F.ROUTER_CNT_CLR_MALFORMED, F.ROUTER_CNT_CLR_PKEY_DROP]⟩,
   ⟨R.ROUTER_PKEY_DROP, 1, 8, .counter, []⟩,
   ⟨R.ROUTER_MALFORMED, 1, 8, .counter, []⟩,
   ⟨R.ROUTER_ROUTE_ERR, 1, 8, .counter, []⟩,
   ⟨R.ROUTER_INJ, 1, 4, .single, [F.ROUTER_INJ_ARM, F.ROUTER_INJ_CONT, F.ROUTER_INJ_SRAM, F.ROUTER_INJ_FLIP]⟩,
   ⟨R.ROUTER_ID, 1, 4, .single, []⟩]
/-- The registers of a ni instance. -/
def rowsNi : List RegRow :=
  [
   ⟨R.NI_CTRL, 1, 4, .single, [F.NI_CTRL_XLAT_FLUSH, F.NI_CTRL_TRIG_CLEAR_ALL, F.NI_CTRL_DIRECT_EN, F.NI_CTRL_KEY0_EN, F.NI_CTRL_CMD_EN, F.NI_CTRL_RX_EN]⟩,
   ⟨R.NI_STATUS, 1, 4, .single, [F.NI_STATUS_CPL_LEVEL, F.NI_STATUS_CMD_STALLED, F.NI_STATUS_SEQ_GAP, F.NI_STATUS_KEY_VIOLATION]⟩,
   ⟨R.NI_CNT_CLR, 1, 4, .single, [F.NI_CNT_CLR_STREAM_IDLE_RUN, F.NI_CNT_CLR_SEQ_GAP, F.NI_CNT_CLR_XLAT_MISS, F.NI_CNT_CLR_WIN_DROP, F.NI_CNT_CLR_PKEY_DROP]⟩,
   ⟨R.NI_ROUTE_CFG, 1, 4, .single, [F.NI_ROUTE_CFG_OVERRIDE_EN, F.NI_ROUTE_CFG_DIE_MASK]⟩,
   ⟨R.NI_PKEY_DROP, 1, 8, .counter, []⟩,
   ⟨R.NI_WIN_DROP, 1, 8, .counter, []⟩,
   ⟨R.NI_XLAT_MISS, 1, 8, .counter, []⟩,
   ⟨R.NI_SEQ_GAP, 1, 8, .counter, []⟩,
   ⟨R.NI_STREAM_IDLE_RUN, 1, 8, .counter, []⟩,
   ⟨R.NI_Q_EVENT, 1, 4, .single, [F.NI_Q_EVENT_DELAY, F.NI_Q_EVENT_DEPTH]⟩,
   ⟨R.NI_SHAPE_STATUS, 1, 4, .single, [F.NI_SHAPE_STATUS_YELLOW_FULL, F.NI_SHAPE_STATUS_YELLOW_LEVEL]⟩,
   ⟨R.NI_SHAPE_CNT_CLR, 1, 4, .single, [F.NI_SHAPE_CNT_CLR_HWM, F.NI_SHAPE_CNT_CLR_EXPIRED, F.NI_SHAPE_CNT_CLR_YELLOW, F.NI_SHAPE_CNT_CLR_RED]⟩,
   ⟨R.NI_POLICE_RED, 1, 8, .counter, []⟩,
   ⟨R.NI_POLICE_YELLOW, 1, 8, .counter, []⟩,
   ⟨R.NI_POLICE_EXPIRED, 1, 8, .counter, []⟩,
   ⟨R.NI_JRNL_CTRL, 1, 4, .single, [F.NI_JRNL_CTRL_MODE]⟩,
   ⟨R.NI_JRNL_EVENT, 1, 4, .single, [F.NI_JRNL_EVENT_REPLAY_END, F.NI_JRNL_EVENT_DIVERGED, F.NI_JRNL_EVENT_OVERFLOW]⟩,
   ⟨R.NI_JRNL_CNT_CLR, 1, 4, .single, [F.NI_JRNL_CNT_CLR_STATS_LOST, F.NI_JRNL_CNT_CLR_HELD, F.NI_JRNL_CNT_CLR_LOST]⟩,
   ⟨R.NI_JRNL_SIZE, 1, 4, .single, [F.NI_JRNL_SIZE_ENTRIES]⟩,
   ⟨R.NI_JRNL_BASE, 1, 8, .rwPair, [F.NI_JRNL_BASE_ADDR]⟩,
   ⟨R.NI_JRNL_WR, 1, 8, .roPair, [F.NI_JRNL_WR_COUNT]⟩,
   ⟨R.NI_JRNL_RD, 1, 8, .rwPair, [F.NI_JRNL_RD_COUNT]⟩,
   ⟨R.NI_JRNL_RBASE, 1, 8, .rwPair, [F.NI_JRNL_RBASE_ADDR]⟩,
   ⟨R.NI_JRNL_REPLAY_HEAD, 1, 4, .single, [F.NI_JRNL_REPLAY_HEAD_INDEX]⟩] ++
  [
   ⟨R.NI_JRNL_REPLAY_END, 1, 4, .single, [F.NI_JRNL_REPLAY_END_INDEX]⟩,
   ⟨R.NI_JRNL_DIVERGE_POS, 1, 4, .single, [F.NI_JRNL_DIVERGE_POS_INDEX]⟩,
   ⟨R.NI_JRNL_DIVERGE_LIMIT, 1, 4, .single, [F.NI_JRNL_DIVERGE_LIMIT_SLOTS]⟩,
   ⟨R.NI_JRNL_LOST, 1, 8, .counter, []⟩,
   ⟨R.NI_JRNL_HELD, 1, 8, .counter, []⟩,
   ⟨R.NI_STATS_BASE, 1, 8, .rwPair, [F.NI_STATS_BASE_ADDR]⟩,
   ⟨R.NI_STATS_SIZE, 1, 4, .single, [F.NI_STATS_SIZE_RECORDS]⟩,
   ⟨R.NI_STATS_WR, 1, 8, .roPair, [F.NI_STATS_WR_COUNT]⟩,
   ⟨R.NI_STATS_RD, 1, 8, .rwPair, [F.NI_STATS_RD_COUNT]⟩,
   ⟨R.NI_STATS_LOST, 1, 8, .counter, []⟩,
   ⟨R.NI_FAULT_STATUS, 1, 4, .single, [F.NI_FAULT_STATUS_INC, F.NI_FAULT_STATUS_WR_OUT, F.NI_FAULT_STATUS_TXN_OUT, F.NI_FAULT_STATUS_TXN_RETIRED, F.NI_FAULT_STATUS_GRANTS]⟩,
   ⟨R.NI_VIGIL_PKG, 1, 4, .single, [F.NI_VIGIL_PKG_US]⟩,
   ⟨R.NI_VIGIL_MACH, 1, 4, .single, [F.NI_VIGIL_MACH_US]⟩,
   ⟨R.NI_VIGIL_RETIRE, 1, 4, .single, [F.NI_VIGIL_RETIRE_MS]⟩,
   ⟨R.NI_PFENCE_CMD, 1, 4, .single, [F.NI_PFENCE_CMD_SET, F.NI_PFENCE_CMD_CLEAR, F.NI_PFENCE_CMD_PKEY]⟩,
   ⟨R.NI_FAULT_CNT_CLR, 1, 4, .single, [F.NI_FAULT_CNT_CLR_GRANT_EXPIRED, F.NI_FAULT_CNT_CLR_STALE_DROP]⟩,
   ⟨R.NI_STALE_DROP, 1, 8, .counter, []⟩,
   ⟨R.NI_GRANT_EXPIRED, 1, 8, .counter, []⟩,
   ⟨R.NI_Q_CFG, 16, 32, .single, [F.NI_Q_CFG_SHAPER_EN, F.NI_Q_CFG_PRECOLOUR, F.NI_Q_CFG_QUANTUM]⟩,
   ⟨R.NI_Q_RATE, 16, 32, .single, [F.NI_Q_RATE_RATE]⟩,
   ⟨R.NI_Q_BURST, 16, 32, .single, [F.NI_Q_BURST_BURST]⟩,
   ⟨R.NI_Q_HWM, 16, 32, .single, [F.NI_Q_HWM_DELAY, F.NI_Q_HWM_DEPTH]⟩,
   ⟨R.NI_Q_HWM_LIMIT, 16, 32, .single, [F.NI_Q_HWM_LIMIT_DELAY, F.NI_Q_HWM_LIMIT_DEPTH]⟩,
   ⟨R.NI_WIN_BASE, 64, 32, .rwPair, [F.NI_WIN_BASE_ADDR]⟩] ++
  [
   ⟨R.NI_WIN_LIMIT, 64, 32, .rwPair, [F.NI_WIN_LIMIT_ADDR]⟩,
   ⟨R.NI_WIN_ATTR, 64, 32, .single, [F.NI_WIN_ATTR_VALID, F.NI_WIN_ATTR_PKEY, F.NI_WIN_ATTR_IDX, F.NI_WIN_ATTR_ATOMIC, F.NI_WIN_ATTR_WRITE, F.NI_WIN_ATTR_READ]⟩,
   ⟨R.NI_INJ, 1, 4, .single, [F.NI_INJ_ARM, F.NI_INJ_CONT, F.NI_INJ_SRAM, F.NI_INJ_FLIP]⟩,
   ⟨R.NI_ID, 1, 4, .single, []⟩]
/-- The registers of a memst instance. -/
def rowsMemst : List RegRow :=
  [
   ⟨R.MEMST_INJ, 1, 4, .single, [F.MEMST_INJ_ARM, F.MEMST_INJ_CONT, F.MEMST_INJ_SRAM, F.MEMST_INJ_FLIP]⟩,
   ⟨R.MEMST_ID, 1, 4, .single, []⟩]
/-- The registers of a port instance. -/
def rowsPort : List RegRow :=
  [
   ⟨R.PORT_CTRL, 1, 4, .single, [F.PORT_CTRL_FULL_RETRAIN, F.PORT_CTRL_RETRAIN, F.PORT_CTRL_COLD, F.PORT_CTRL_AUTO_RETRY, F.PORT_CTRL_AUTO_DEGRADE, F.PORT_CTRL_QUAL_EN, F.PORT_CTRL_USE_SAVED, F.PORT_CTRL_EN]⟩,
   ⟨R.PORT_STATUS, 1, 4, .single, [F.PORT_STATUS_DOWN_CAUSE, F.PORT_STATUS_INHERITED, F.PORT_STATUS_QUAL, F.PORT_STATUS_LAYOUT, F.PORT_STATUS_STATE, F.PORT_STATUS_EFF_MASK]⟩,
   ⟨R.PORT_EVENT, 1, 4, .single, [F.PORT_EVENT_SAVED_REJECT, F.PORT_EVENT_REPLAY_EXHAUST, F.PORT_EVENT_BER_HIGH, F.PORT_EVENT_MISCABLED, F.PORT_EVENT_QUAL_DONE, F.PORT_EVENT_DEGRADE, F.PORT_EVENT_RETRAIN, F.PORT_EVENT_DOWN, F.PORT_EVENT_ACTIVE]⟩,
   ⟨R.PORT_CNT_CLR, 1, 4, .single, [F.PORT_CNT_CLR_RETRAINS, F.PORT_CNT_CLR_LANE_SYMERR, F.PORT_CNT_CLR_DOWN_DROP, F.PORT_CNT_CLR_FLOW_OVERRUN, F.PORT_CNT_CLR_ROUTE_ERR, F.PORT_CNT_CLR_REPLAY_DISCARD, F.PORT_CNT_CLR_REPLAY, F.PORT_CNT_CLR_NAK_TX, F.PORT_CNT_CLR_MALFORMED, F.PORT_CNT_CLR_CRC_ERR, F.PORT_CNT_CLR_CW_HIGH, F.PORT_CNT_CLR_CW, F.PORT_CNT_CLR_FEC_BITS, F.PORT_CNT_CLR_FEC_SYM, F.PORT_CNT_CLR_FEC_UNCORR]⟩,
   ⟨R.PORT_LANE_MAP, 1, 8, .roPair, [F.PORT_LANE_MAP_MAP]⟩,
   ⟨R.PORT_LANE_FUSE, 1, 4, .single, [F.PORT_LANE_FUSE_BAD, F.PORT_LANE_FUSE_TX_INVERT]⟩,
   ⟨R.PORT_QUAL_CFG, 1, 4, .single, [F.PORT_QUAL_CFG_HIGH_MAX, F.PORT_QUAL_CFG_LAMBDA_MAX]⟩,
   ⟨R.PORT_REPLAY_CFG, 1, 4, .single, [F.PORT_REPLAY_CFG_LIMIT, F.PORT_REPLAY_CFG_TIMEOUT_NS]⟩,
   ⟨R.PORT_REPLAY_STATUS, 1, 4, .single, [F.PORT_REPLAY_STATUS_FRAMES, F.PORT_REPLAY_STATUS_UNITS]⟩,
   ⟨R.PORT_PEER_INFO, 1, 4, .single, [F.PORT_PEER_INFO_VALID, F.PORT_PEER_INFO_VERSION, F.PORT_PEER_INFO_SWITCH, F.PORT_PEER_INFO_PORT]⟩,
   ⟨R.PORT_PEER_COORD, 1, 4, .single, [F.PORT_PEER_COORD_COORD]⟩,
   ⟨R.PORT_PEER_SERIAL, 1, 8, .roPair, [F.PORT_PEER_SERIAL_SERIAL]⟩,
   ⟨R.PORT_EXPECT, 1, 4, .single, [F.PORT_EXPECT_KIND, F.PORT_EXPECT_COORD]⟩,
   ⟨R.PORT_VC_CFG, 16, 4, .single, [F.PORT_VC_CFG_CAPACITY, F.PORT_VC_CFG_HEADROOM]⟩,
   ⟨R.PORT_SAVED, 36, 4, .single, [F.PORT_SAVED_WORD]⟩,
   ⟨R.PORT_FEC_UNCORR, 1, 8, .counter, []⟩,
   ⟨R.PORT_FEC_SYM, 1, 8, .counter, []⟩,
   ⟨R.PORT_FEC_BITS, 1, 8, .counter, []⟩,
   ⟨R.PORT_CW, 1, 8, .counter, []⟩,
   ⟨R.PORT_CW_HIGH, 1, 8, .counter, []⟩,
   ⟨R.PORT_CRC_ERR, 1, 8, .counter, []⟩,
   ⟨R.PORT_MALFORMED, 1, 8, .counter, []⟩,
   ⟨R.PORT_NAK_TX, 1, 8, .counter, []⟩,
   ⟨R.PORT_REPLAY, 1, 8, .counter, []⟩] ++
  [
   ⟨R.PORT_REPLAY_DISCARD, 1, 8, .counter, []⟩,
   ⟨R.PORT_ROUTE_ERR, 1, 8, .counter, []⟩,
   ⟨R.PORT_FLOW_OVERRUN, 1, 8, .counter, []⟩,
   ⟨R.PORT_DOWN_DROP, 1, 8, .counter, []⟩,
   ⟨R.PORT_RETRAINS, 1, 8, .counter, []⟩,
   ⟨R.PORT_LANE_SYMERR, 16, 8, .counter, []⟩,
   ⟨R.PORT_Q_EVENT, 4, 4, .single, [F.PORT_Q_EVENT_DELAY, F.PORT_Q_EVENT_DEPTH]⟩,
   ⟨R.PORT_SHAPE_CNT_CLR, 1, 4, .single, [F.PORT_SHAPE_CNT_CLR_HWM]⟩,
   ⟨R.PORT_Q_CFG, 32, 32, .single, [F.PORT_Q_CFG_SHAPER_EN, F.PORT_Q_CFG_QUANTUM]⟩,
   ⟨R.PORT_Q_RATE, 32, 32, .single, [F.PORT_Q_RATE_RATE]⟩,
   ⟨R.PORT_Q_BURST, 32, 32, .single, [F.PORT_Q_BURST_BURST]⟩,
   ⟨R.PORT_Q_HWM, 32, 32, .single, [F.PORT_Q_HWM_DELAY, F.PORT_Q_HWM_DEPTH]⟩,
   ⟨R.PORT_Q_HWM_LIMIT, 32, 32, .single, [F.PORT_Q_HWM_LIMIT_DELAY, F.PORT_Q_HWM_LIMIT_DEPTH]⟩,
   ⟨R.PORT_INJ, 1, 4, .single, [F.PORT_INJ_ARM, F.PORT_INJ_CONT, F.PORT_INJ_SRAM, F.PORT_INJ_FLIP]⟩,
   ⟨R.PORT_ID, 1, 4, .single, []⟩]
/-- The registers of a dlink instance. -/
def rowsDlink : List RegRow :=
  [
   ⟨R.DLINK_CTRL, 1, 4, .single, [F.DLINK_CTRL_HALF_ALLOW, F.DLINK_CTRL_RETRAIN, F.DLINK_CTRL_QUAL_EN, F.DLINK_CTRL_EN]⟩,
   ⟨R.DLINK_STATUS, 1, 4, .single, [F.DLINK_STATUS_REPAIRED, F.DLINK_STATUS_MODULE_OK, F.DLINK_STATUS_INHERITED, F.DLINK_STATUS_QUAL, F.DLINK_STATUS_STATE]⟩,
   ⟨R.DLINK_EVENT, 1, 4, .single, [F.DLINK_EVENT_QUAL_DONE, F.DLINK_EVENT_RETRY_EXHAUST, F.DLINK_EVENT_REPAIR, F.DLINK_EVENT_HALF, F.DLINK_EVENT_DOWN, F.DLINK_EVENT_ACTIVE]⟩,
   ⟨R.DLINK_RETRY_CFG, 1, 4, .single, [F.DLINK_RETRY_CFG_LIMIT, F.DLINK_RETRY_CFG_TIMEOUT_NS]⟩,
   ⟨R.DLINK_CNT_CLR, 1, 4, .single, [F.DLINK_CNT_CLR_CUT, F.DLINK_CNT_CLR_CONTAINERS, F.DLINK_CNT_CLR_RETRY, F.DLINK_CNT_CLR_CRC_ERR]⟩,
   ⟨R.DLINK_CRC_ERR, 1, 8, .counter, []⟩,
   ⟨R.DLINK_RETRY, 1, 8, .counter, []⟩,
   ⟨R.DLINK_CONTAINERS, 1, 8, .counter, []⟩,
   ⟨R.DLINK_CUT, 1, 8, .counter, []⟩,
   ⟨R.DLINK_INJ, 1, 4, .single, [F.DLINK_INJ_ARM, F.DLINK_INJ_CONT, F.DLINK_INJ_SRAM, F.DLINK_INJ_FLIP]⟩,
   ⟨R.DLINK_ID, 1, 4, .single, []⟩]
/-- The registers of a reduce instance. -/
def rowsReduce : List RegRow :=
  [
   ⟨R.REDUCE_CTRL, 1, 4, .single, [F.REDUCE_CTRL_HOLIDAY_CANCEL, F.REDUCE_CTRL_EN]⟩,
   ⟨R.REDUCE_STATUS, 1, 4, .single, [F.REDUCE_STATUS_RSV_USED, F.REDUCE_STATUS_STAGE_FREE]⟩,
   ⟨R.REDUCE_EVENT, 1, 4, .single, [F.REDUCE_EVENT_SORT_ERR, F.REDUCE_EVENT_SHAPE_MISMATCH, F.REDUCE_EVENT_STEP_MISMATCH, F.REDUCE_EVENT_CANCEL_DROP, F.REDUCE_EVENT_CANCELLED, F.REDUCE_EVENT_LATE]⟩,
   ⟨R.REDUCE_CNT_CLR, 1, 4, .single, [F.REDUCE_CNT_CLR_ROWS_DROPPED, F.REDUCE_CNT_CLR_SORT_ERR, F.REDUCE_CNT_CLR_CANCEL_DROP, F.REDUCE_CNT_CLR_CANCELLED, F.REDUCE_CNT_CLR_CHUNKS]⟩,
   ⟨R.REDUCE_LATE_SEL, 1, 4, .single, [F.REDUCE_LATE_SEL_GROUP]⟩,
   ⟨R.REDUCE_LATE_MEMBER, 1, 4, .single, [F.REDUCE_LATE_MEMBER_MEMBER]⟩,
   ⟨R.REDUCE_LATE_SLOTS, 1, 4, .single, [F.REDUCE_LATE_SLOTS_SLOTS]⟩,
   ⟨R.REDUCE_LATE_STEP, 1, 4, .single, [F.REDUCE_LATE_STEP_STEP]⟩,
   ⟨R.REDUCE_LATE_LIMIT, 1, 4, .single, [F.REDUCE_LATE_LIMIT_SLOTS]⟩,
   ⟨R.REDUCE_CHUNKS, 1, 8, .counter, []⟩,
   ⟨R.REDUCE_CANCELLED, 1, 8, .counter, []⟩,
   ⟨R.REDUCE_CANCEL_DROP, 1, 8, .counter, []⟩,
   ⟨R.REDUCE_SORT_ERR, 1, 8, .counter, []⟩,
   ⟨R.REDUCE_ROWS_DROPPED, 1, 8, .counter, []⟩,
   ⟨R.REDUCE_PROMO_STATUS, 1, 4, .single, [F.REDUCE_PROMO_STATUS_HWM, F.REDUCE_PROMO_STATUS_IN_USE]⟩,
   ⟨R.REDUCE_PROMO_CNT_CLR, 1, 4, .single, [F.REDUCE_PROMO_CNT_CLR_HWM, F.REDUCE_PROMO_CNT_CLR_SATURATIONS, F.REDUCE_PROMO_CNT_CLR_PROMO_STALLS, F.REDUCE_PROMO_CNT_CLR_PROMOTIONS]⟩,
   ⟨R.REDUCE_PROMOTIONS, 1, 8, .counter, []⟩,
   ⟨R.REDUCE_PROMO_STALLS, 1, 8, .counter, []⟩,
   ⟨R.REDUCE_SATURATIONS, 1, 8, .counter, []⟩,
   ⟨R.REDUCE_INJ, 1, 4, .single, [F.REDUCE_INJ_ARM, F.REDUCE_INJ_CONT, F.REDUCE_INJ_SRAM, F.REDUCE_INJ_FLIP]⟩,
   ⟨R.REDUCE_ID, 1, 4, .single, []⟩]
/-- The registers of a time instance. -/
def rowsTime : List RegRow :=
  [
   ⟨R.TIME_CTRL, 1, 4, .single, [F.TIME_CTRL_PPS_WIDTH, F.TIME_CTRL_NBR_MON, F.TIME_CTRL_PPS_OUT_EN, F.TIME_CTRL_SYNC_RATE, F.TIME_CTRL_ROLE]⟩,
   ⟨R.TIME_STATUS, 1, 4, .single, [F.TIME_STATUS_NBR_PORT, F.TIME_STATUS_REALIGN_ARMED, F.TIME_STATUS_REF10M_OK, F.TIME_STATUS_PPS_IN_OK, F.TIME_STATUS_TIME_VALID, F.TIME_STATUS_STEPS_REMOVED, F.TIME_STATUS_UPSTREAM_VALID, F.TIME_STATUS_UPSTREAM, F.TIME_STATUS_STATE, F.TIME_STATUS_QUALITY]⟩,
   ⟨R.TIME_EVENT, 1, 4, .single, [F.TIME_EVENT_GM_CONFLICT, F.TIME_EVENT_DEPTH_MISMATCH, F.TIME_EVENT_LATTICE_FAULT, F.TIME_EVENT_NBR_OFFSET, F.TIME_EVENT_REALIGN_MISSED, F.TIME_EVENT_REALIGN_REJECT, F.TIME_EVENT_TIME_INVALID, F.TIME_EVENT_HOLDOVER_ENTERED, F.TIME_EVENT_STEP_DETECTED, F.TIME_EVENT_UPSTREAM_CHANGED]⟩,
   ⟨R.TIME_REALIGN, 1, 4, .single, [F.TIME_REALIGN_ARM]⟩,
   ⟨R.TIME_NOW, 1, 8, .roPair, [F.TIME_NOW_FT]⟩,
   ⟨R.TIME_EPOCH_SET, 1, 8, .rwPair, [F.TIME_EPOCH_SET_FT]⟩,
   ⟨R.TIME_PPS_FT, 1, 8, .rwPair, [F.TIME_PPS_FT_FT]⟩,
   ⟨R.TIME_ACCEPTED_OFFSET, 1, 8, .roPair, [F.TIME_ACCEPTED_OFFSET_QUANTA]⟩,
   ⟨R.TIME_STEP_THRESH, 1, 4, .single, [F.TIME_STEP_THRESH_QUANTA]⟩,
   ⟨R.TIME_VALID_LIMIT, 1, 4, .single, [F.TIME_VALID_LIMIT_QUANTA]⟩,
   ⟨R.TIME_HOLDOVER, 1, 4, .single, [F.TIME_HOLDOVER_DRIFT_PPB]⟩,
   ⟨R.TIME_ERR_EST, 1, 4, .single, [F.TIME_ERR_EST_QUANTA]⟩,
   ⟨R.TIME_OFFSET, 1, 4, .single, [F.TIME_OFFSET_QUANTA]⟩,
   ⟨R.TIME_NOW_QUAL, 1, 4, .single, [F.TIME_NOW_QUAL_QUALITY]⟩,
   ⟨R.TIME_SLEW_LIMIT, 1, 4, .single, [F.TIME_SLEW_LIMIT_PPM]⟩,
   ⟨R.TIME_NBR_LIMIT, 1, 4, .single, [F.TIME_NBR_LIMIT_QUANTA]⟩,
   ⟨R.TIME_DEPTH, 1, 4, .single, [F.TIME_DEPTH_DEPTH]⟩,
   ⟨R.TIME_UPSTREAM, 1, 4, .single, [F.TIME_UPSTREAM_COUNT, F.TIME_UPSTREAM_PORTS]⟩,
   ⟨R.TIME_REALIGN_D, 1, 8, .roPair, [F.TIME_REALIGN_D_QUANTA]⟩,
   ⟨R.TIME_PORT_ASYM, 64, 4, .single, [F.TIME_PORT_ASYM_QUANTA]⟩,
   ⟨R.TIME_ID, 1, 4, .single, []⟩]
/-- The registers of a almRouter instance. -/
def rowsAlmRouter : List RegRow :=
  [
   ⟨R.ALM_CNT_CLR, 1, 4, .single, [F.ALM_CNT_CLR_EPOCH_DROP, F.ALM_CNT_CLR_EPOCH_CARRY, F.ALM_CNT_CLR_NOWIN, F.ALM_CNT_CLR_SLIP, F.ALM_CNT_CLR_DEFER]⟩,
   ⟨R.ALM_LINK_STATUS, 1, 4, .single, [F.ALM_LINK_STATUS_LAST_MAP]⟩,
   ⟨R.ALM_DEFER, 1, 8, .counter, []⟩,
   ⟨R.ALM_SLIP, 1, 8, .counter, []⟩,
   ⟨R.ALM_NOWIN, 1, 8, .counter, []⟩,
   ⟨R.ALM_EPOCH_CARRY, 1, 8, .counter, []⟩,
   ⟨R.ALM_EPOCH_DROP, 1, 8, .counter, []⟩,
   ⟨R.ALM_INJ, 1, 4, .single, [F.ALM_INJ_ARM, F.ALM_INJ_CONT, F.ALM_INJ_SRAM, F.ALM_INJ_FLIP]⟩,
   ⟨R.ALM_ID, 1, 4, .single, []⟩]
/-- The registers of a almCtl instance. -/
def rowsAlmCtl : List RegRow :=
  [
   ⟨R.ALM_BANK_CTRL, 1, 4, .single, [F.ALM_BANK_CTRL_VARIANT, F.ALM_BANK_CTRL_CMD]⟩,
   ⟨R.ALM_BANK_STATUS, 1, 4, .single, [F.ALM_BANK_STATUS_COOL_PENDING, F.ALM_BANK_STATUS_LEAP_ACTIVE, F.ALM_BANK_STATUS_OTHER_STATE, F.ALM_BANK_STATUS_IN_FORCE]⟩,
   ⟨R.ALM_EVENT, 1, 4, .single, [F.ALM_EVENT_MAP_FAULT, F.ALM_EVENT_EPOCH_DROP, F.ALM_EVENT_NO_WINDOW, F.ALM_EVENT_SLIP, F.ALM_EVENT_LEAP_DONE, F.ALM_EVENT_LOAD_FAIL, F.ALM_EVENT_LOAD_DONE, F.ALM_EVENT_CMD_REJECT, F.ALM_EVENT_EQX_REJECT, F.ALM_EVENT_EQX_TAKEN]⟩,
   ⟨R.ALM_VARIANT, 1, 4, .single, [F.ALM_VARIANT_OTHER, F.ALM_VARIANT_IN_FORCE]⟩,
   ⟨R.ALM_EQX_AT, 1, 8, .rwPair, [F.ALM_EQX_AT_SS]⟩,
   ⟨R.ALM_POS, 1, 4, .single, [F.ALM_POS_LOG2N, F.ALM_POS_SLOT]⟩,
   ⟨R.ALM_LEAP_PENDING, 1, 4, .single, [F.ALM_LEAP_PENDING_P]⟩,
   ⟨R.ALM_CYCLE, 1, 8, .roPair, [F.ALM_CYCLE_COUNT]⟩,
   ⟨R.ALM_SPACING, 1, 4, .single, [F.ALM_SPACING_QUANTA]⟩,
   ⟨R.ALMC_ID, 1, 4, .single, []⟩]
/-- The registers of a fault instance. -/
def rowsFault : List RegRow :=
  [
   ⟨R.FAULT_CTRL, 1, 4, .single, [F.FAULT_CTRL_JUBILEE_MAX, F.FAULT_CTRL_FIRST_MIN, F.FAULT_CTRL_INJ_EN, F.FAULT_CTRL_EN]⟩,
   ⟨R.FAULT_EVENT, 1, 4, .single, [F.FAULT_EVENT_FENCE_APPLIED, F.FAULT_EVENT_CMD_REJECT, F.FAULT_EVENT_JUBILEE_LIMIT, F.FAULT_EVENT_RECORD_LOST, F.FAULT_EVENT_FAULT]⟩,
   ⟨R.FAULT_FIRST_INFO, 1, 4, .single, [F.FAULT_FIRST_INFO_VALID, F.FAULT_FIRST_INFO_QUALITY, F.FAULT_FIRST_INFO_SEVERITY, F.FAULT_FIRST_INFO_CLASS, F.FAULT_FIRST_INFO_UNIT]⟩,
   ⟨R.FAULT_FIRST_DETAIL, 1, 4, .single, [F.FAULT_FIRST_DETAIL_DETAIL]⟩,
   ⟨R.FAULT_FIRST_FT, 1, 8, .roPair, [F.FAULT_FIRST_FT_FT]⟩,
   ⟨R.FAULT_ALSO, 1, 4, .single, [F.FAULT_ALSO_CLASSES]⟩,
   ⟨R.FAULT_UNIT_SEL, 1, 4, .single, [F.FAULT_UNIT_SEL_UNIT]⟩,
   ⟨R.FAULT_UNIT_CMD, 1, 4, .single, [F.FAULT_UNIT_CMD_CMD]⟩,
   ⟨R.FAULT_UNIT_STATE, 1, 4, .single, [F.FAULT_UNIT_STATE_SEVERITY, F.FAULT_UNIT_STATE_ISOLATED, F.FAULT_UNIT_STATE_JUBILEE, F.FAULT_UNIT_STATE_ACTIVE]⟩,
   ⟨R.FAULT_CNT_CLR, 1, 4, .single, [F.FAULT_CNT_CLR_CLASSES]⟩,
   ⟨R.FAULT_CLASS_CFG, 16, 4, .single, [F.FAULT_CLASS_CFG_BASE, F.FAULT_CLASS_CFG_AUTO_RESTORE, F.FAULT_CLASS_CFG_N_SEV, F.FAULT_CLASS_CFG_N_DEG]⟩,
   ⟨R.FAULT_CLASS_T, 16, 4, .single, [F.FAULT_CLASS_T_US]⟩,
   ⟨R.FAULT_CLASS_Q, 16, 4, .single, [F.FAULT_CLASS_Q_US]⟩,
   ⟨R.FAULT_REACT, 16, 4, .single, [F.FAULT_REACT_SEVERE, F.FAULT_REACT_DEGRADED, F.FAULT_REACT_NOTE]⟩,
   ⟨R.FAULT_CNT, 16, 8, .counter, []⟩,
   ⟨R.FAULT_ID, 1, 4, .single, []⟩]
/-- The registers of a chron instance. -/
def rowsChron : List RegRow :=
  [
   ⟨R.CHRON_CTRL, 1, 4, .single, [F.CHRON_CTRL_FREEZE, F.CHRON_CTRL_EN]⟩,
   ⟨R.CHRON_STATUS, 1, 4, .single, [F.CHRON_STATUS_HOLD_LEVEL, F.CHRON_STATUS_FREE_SECTORS, F.CHRON_STATUS_DEVICE_OK, F.CHRON_STATUS_FULL, F.CHRON_STATUS_STATE]⟩,
   ⟨R.CHRON_EVENT, 1, 4, .single, [F.CHRON_EVENT_FREEZE_EXPIRED, F.CHRON_EVENT_DEVICE_LOST, F.CHRON_EVENT_REERASED, F.CHRON_EVENT_DROP, F.CHRON_EVENT_HOLD_OVERFLOW, F.CHRON_EVENT_FULL]⟩,
   ⟨R.CHRON_CNT_CLR, 1, 4, .single, [F.CHRON_CNT_CLR_COUNTERS]⟩,
   ⟨R.CHRON_SEQ_NEXT, 1, 4, .single, [F.CHRON_SEQ_NEXT_SEQ]⟩,
   ⟨R.CHRON_SEQ_OLDEST, 1, 4, .single, [F.CHRON_SEQ_OLDEST_SEQ]⟩,
   ⟨R.CHRON_CURSOR, 1, 4, .single, [F.CHRON_CURSOR_SEQ]⟩,
   ⟨R.CHRON_RD_CMD, 1, 4, .single, [F.CHRON_RD_CMD_CMD]⟩,
   ⟨R.CHRON_RD_STATUS, 1, 4, .single, [F.CHRON_RD_STATUS_FOUND, F.CHRON_RD_STATUS_READY]⟩,
   ⟨R.CHRON_RETIRE_SEQ, 1, 4, .single, [F.CHRON_RETIRE_SEQ_SEQ]⟩,
   ⟨R.CHRON_CMD, 1, 4, .single, [F.CHRON_CMD_RETIRE_TO]⟩,
   ⟨R.CHRON_FREEZE_MAX, 1, 4, .single, [F.CHRON_FREEZE_MAX_MS]⟩,
   ⟨R.CHRON_SW_CMD, 1, 4, .single, [F.CHRON_SW_CMD_SUBMIT]⟩,
   ⟨R.CHRON_WIN, 8, 4, .single, [F.CHRON_WIN_WORD]⟩,
   ⟨R.CHRON_SW, 8, 4, .single, [F.CHRON_SW_WORD]⟩,
   ⟨R.CHRON_DROP, 4, 8, .counter, []⟩,
   ⟨R.CHRON_SUPPRESSED, 1, 8, .counter, []⟩,
   ⟨R.CHRON_HOLD_LOST, 1, 8, .counter, []⟩,
   ⟨R.CHRON_DISPLACED, 1, 8, .counter, []⟩,
   ⟨R.CHRON_COMPACTIONS, 1, 8, .counter, []⟩,
   ⟨R.CHRON_ID, 1, 4, .single, []⟩]
/-- The registers of a probe instance. -/
def rowsProbe : List RegRow :=
  [
   ⟨R.PROBE_CTRL, 16, 4, .single, [F.PROBE_CTRL_EN, F.PROBE_CTRL_TRACE, F.PROBE_CTRL_TRIG_EN, F.PROBE_CTRL_HIST_SRC, F.PROBE_CTRL_OUT, F.PROBE_CTRL_VC_MASK, F.PROBE_CTRL_WORD]⟩,
   ⟨R.PROBE_MATCH, 16, 8, .rwPair, [F.PROBE_MATCH_VALUE]⟩,
   ⟨R.PROBE_MASK, 16, 8, .rwPair, [F.PROBE_MASK_VALUE]⟩,
   ⟨R.PROBE_FRAMES, 16, 8, .counter, []⟩,
   ⟨R.PROBE_BYTES, 16, 8, .counter, []⟩,
   ⟨R.PROBE_TRACE_DROP, 4, 8, .counter, []⟩,
   ⟨R.PROBE_CNT_CLR, 1, 4, .single, [F.PROBE_CNT_CLR_TRACE_DROP, F.PROBE_CNT_CLR_PROBES]⟩,
   ⟨R.PROBE_HIST, 256, 4, .single, [F.PROBE_HIST_COUNT]⟩,
   ⟨R.PROBE_ID, 1, 4, .single, []⟩]
/-- The registers of a diary instance. -/
def rowsDiary : List RegRow :=
  [
   ⟨R.TRACE_DIARY_CTRL, 1, 4, .single, [F.TRACE_DIARY_CTRL_MIRROR_EN, F.TRACE_DIARY_CTRL_NO_OVERWRITE, F.TRACE_DIARY_CTRL_EN]⟩,
   ⟨R.TRACE_DIARY_EVENT, 1, 4, .single, [F.TRACE_DIARY_EVENT_DISAGREE, F.TRACE_DIARY_EVENT_STATS_LOST, F.TRACE_DIARY_EVENT_LOST, F.TRACE_DIARY_EVENT_OVERWRITTEN]⟩,
   ⟨R.TRACE_DIARY_CNT_CLR, 1, 4, .single, [F.TRACE_DIARY_CNT_CLR_STATS_LOST, F.TRACE_DIARY_CNT_CLR_OVERWRITTEN, F.TRACE_DIARY_CNT_CLR_LOST]⟩,
   ⟨R.TRACE_DIARY_STATUS, 1, 4, .single, [F.TRACE_DIARY_STATUS_PENDING]⟩,
   ⟨R.TRACE_DIARY_BASE, 1, 8, .rwPair, [F.TRACE_DIARY_BASE_ADDR]⟩,
   ⟨R.TRACE_DIARY_SIZE, 1, 4, .single, [F.TRACE_DIARY_SIZE_ENTRIES]⟩,
   ⟨R.TRACE_DIARY_WR, 1, 8, .roPair, [F.TRACE_DIARY_WR_COUNT]⟩,
   ⟨R.TRACE_DIARY_RD, 1, 8, .rwPair, [F.TRACE_DIARY_RD_COUNT]⟩,
   ⟨R.TRACE_STATS_BASE, 1, 8, .rwPair, [F.TRACE_STATS_BASE_ADDR]⟩,
   ⟨R.TRACE_STATS_SIZE, 1, 4, .single, [F.TRACE_STATS_SIZE_BYTES]⟩,
   ⟨R.TRACE_STATS_WR, 1, 8, .roPair, [F.TRACE_STATS_WR_BYTES]⟩,
   ⟨R.TRACE_STATS_RD, 1, 8, .rwPair, [F.TRACE_STATS_RD_BYTES]⟩,
   ⟨R.TRACE_DIARY_LOST, 1, 8, .counter, []⟩,
   ⟨R.TRACE_DIARY_OVERWRITTEN, 1, 8, .counter, []⟩,
   ⟨R.TRACE_DIARY_STATS_LOST, 1, 8, .counter, []⟩,
   ⟨R.DIARY_ID, 1, 4, .single, []⟩]
/-- The registers of a holiday instance. -/
def rowsHoliday : List RegRow :=
  [
   ⟨R.TRACE_HOLIDAY_CTRL, 1, 4, .single, [F.TRACE_HOLIDAY_CTRL_RESUME_DELAY, F.TRACE_HOLIDAY_CTRL_PIN_EN, F.TRACE_HOLIDAY_CTRL_FAULT_SCOPE, F.TRACE_HOLIDAY_CTRL_FORWARD, F.TRACE_HOLIDAY_CTRL_ACCEPT]⟩,
   ⟨R.TRACE_HOLIDAY_CMD, 1, 4, .single, [F.TRACE_HOLIDAY_CMD_CMD]⟩,
   ⟨R.TRACE_HOLIDAY_STATUS, 1, 4, .single, [F.TRACE_HOLIDAY_STATUS_ID, F.TRACE_HOLIDAY_STATUS_CAUSE, F.TRACE_HOLIDAY_STATUS_SCAN_READY, F.TRACE_HOLIDAY_STATUS_RESUMING, F.TRACE_HOLIDAY_STATUS_STOPPED, F.TRACE_HOLIDAY_STATUS_ACTIVE]⟩,
   ⟨R.TRACE_HOLIDAY_EVENT, 1, 4, .single, [F.TRACE_HOLIDAY_EVENT_RELEASE_IGNORED, F.TRACE_HOLIDAY_EVENT_CMD_REJECT, F.TRACE_HOLIDAY_EVENT_RESUMED, F.TRACE_HOLIDAY_EVENT_STOPPED, F.TRACE_HOLIDAY_EVENT_ENTERED]⟩,
   ⟨R.TRACE_HOLIDAY_LAST_ID, 1, 4, .single, []⟩,
   ⟨R.TRACE_HOLIDAY_SCAN_SEL, 1, 4, .single, [F.TRACE_HOLIDAY_SCAN_SEL_VC, F.TRACE_HOLIDAY_SCAN_SEL_INPUT, F.TRACE_HOLIDAY_SCAN_SEL_PLANE, F.TRACE_HOLIDAY_SCAN_SEL_UNIT]⟩,
   ⟨R.TRACE_HOLIDAY_SCAN_DATA, 8, 4, .single, [F.TRACE_HOLIDAY_SCAN_DATA_WORD]⟩,
   ⟨R.HOLIDAY_ID, 1, 4, .single, []⟩]
/-- The registers of a trace instance. -/
def rowsTrace : List RegRow :=
  [
   ⟨R.TRACE_CTRL, 1, 4, .single, [F.TRACE_CTRL_ONE_SHOT, F.TRACE_CTRL_PORT_EN]⟩,
   ⟨R.TRACE_TRIG_CFG, 1, 4, .single, [F.TRACE_TRIG_CFG_HOL_MACHINE, F.TRACE_TRIG_CFG_HOLIDAY, F.TRACE_TRIG_CFG_FAULT_SEV, F.TRACE_TRIG_CFG_HOLIDAY_SRC, F.TRACE_TRIG_CFG_PROBE_SRC]⟩,
   ⟨R.TRACE_POST, 1, 4, .single, [F.TRACE_POST_KIB4]⟩,
   ⟨R.TRACE_CMD, 1, 4, .single, [F.TRACE_CMD_CMD]⟩,
   ⟨R.TRACE_STATUS, 1, 4, .single, [F.TRACE_STATUS_STATE, F.TRACE_STATUS_LEVEL_KIB]⟩,
   ⟨R.TRACE_EVENT, 1, 4, .single, [F.TRACE_EVENT_TRIG_IGNORED, F.TRACE_EVENT_OVERFLOW, F.TRACE_EVENT_DONE, F.TRACE_EVENT_TRIGGERED]⟩,
   ⟨R.TRACE_CNT_CLR, 1, 4, .single, [F.TRACE_CNT_CLR_DROPPED_BYTES, F.TRACE_CNT_CLR_DROPPED, F.TRACE_CNT_CLR_OVERWRITTEN]⟩,
   ⟨R.TRACE_TRIG_FT, 1, 8, .roPair, [F.TRACE_TRIG_FT_FT]⟩,
   ⟨R.TRACE_OVERWRITTEN, 1, 8, .counter, []⟩,
   ⟨R.TRACE_DROPPED, 1, 8, .counter, []⟩,
   ⟨R.TRACE_DROPPED_BYTES, 1, 8, .counter, []⟩,
   ⟨R.TRACE_WIN, 16, 4, .single, [F.TRACE_WIN_WORD]⟩,
   ⟨R.TRACE_ID, 1, 4, .single, []⟩]
/-- The registers of a pool instance. -/
def rowsPool : List RegRow :=
  [
   ⟨R.POOL_CTRL, 1, 4, .single, [F.POOL_CTRL_EN, F.POOL_CTRL_WAIT_MAX]⟩,
   ⟨R.POOL_STATUS, 1, 4, .single, [F.POOL_STATUS_QUEUED, F.POOL_STATUS_FREE]⟩,
   ⟨R.POOL_PART_SEL, 1, 4, .single, [F.POOL_PART_SEL_PKEY]⟩,
   ⟨R.POOL_PART_USE, 1, 4, .single, [F.POOL_PART_USE_CEILING, F.POOL_PART_USE_IN_USE]⟩,
   ⟨R.POOL_CNT_CLR, 1, 4, .single, [F.POOL_CNT_CLR_WAITED, F.POOL_CNT_CLR_REFUSE_WAIT, F.POOL_CNT_CLR_REFUSE_CEIL]⟩,
   ⟨R.POOL_REFUSE_CEIL, 1, 8, .counter, []⟩,
   ⟨R.POOL_REFUSE_WAIT, 1, 8, .counter, []⟩,
   ⟨R.POOL_WAITED, 1, 8, .counter, []⟩,
   ⟨R.POOL_INJ, 1, 4, .single, [F.POOL_INJ_ARM, F.POOL_INJ_CONT, F.POOL_INJ_SRAM, F.POOL_INJ_FLIP]⟩,
   ⟨R.POOL_ID, 1, 4, .single, []⟩]
/-- The registers of a power instance. -/
def rowsPower : List RegRow :=
  [
   ⟨R.POWER_DIE_CTRL, 1, 4, .single, [F.POWER_DIE_CTRL_CMD]⟩,
   ⟨R.POWER_DIE_STATUS, 1, 4, .single, [F.POWER_DIE_STATUS_USED, F.POWER_DIE_STATUS_STATE]⟩,
   ⟨R.POWER_EVENT, 1, 4, .single, [F.POWER_EVENT_RAMP_MISSING, F.POWER_EVENT_LEVEL_CHANGE, F.POWER_EVENT_THROTTLE_OFF, F.POWER_EVENT_THROTTLE_ON, F.POWER_EVENT_RAMP_SHORT, F.POWER_EVENT_GATE_DONE, F.POWER_EVENT_GATE_REJECT, F.POWER_EVENT_BELOW_FMIN, F.POWER_EVENT_OVERRUN, F.POWER_EVENT_LOCK_LOST]⟩,
   ⟨R.POWER_CTRL, 1, 4, .single, [F.POWER_CTRL_FORCE_THROTTLE, F.POWER_CTRL_KWARN_EN]⟩,
   ⟨R.POWER_STATUS, 1, 4, .single, [F.POWER_STATUS_S, F.POWER_STATUS_LEVEL, F.POWER_STATUS_PC_VALID, F.POWER_STATUS_THROTTLE_N, F.POWER_STATUS_CAUSE, F.POWER_STATUS_HOLDING, F.POWER_STATUS_THROTTLE]⟩,
   ⟨R.POWER_RAMP, 1, 4, .single, [F.POWER_RAMP_USED, F.POWER_RAMP_IN]⟩,
   ⟨R.POWER_ISL_CTRL, 64, 4, .single, [F.POWER_ISL_CTRL_STOP, F.POWER_ISL_CTRL_FREQ]⟩,
   ⟨R.POWER_ISL_STATUS, 64, 4, .single, [F.POWER_ISL_STATUS_OVERRUN, F.POWER_ISL_STATUS_LOCK_LOST, F.POWER_ISL_STATUS_GLIDING, F.POWER_ISL_STATUS_RUNNING, F.POWER_ISL_STATUS_FREQ]⟩,
   ⟨R.POWER_ID, 1, 4, .single, []⟩]
/-- The registers of a mbx instance. -/
def rowsMbx : List RegRow :=
  [
   ⟨R.MBX_CTRL, 1, 4, .single, [F.MBX_CTRL_ALERT_MIN, F.MBX_CTRL_SPACE_INT, F.MBX_CTRL_EN]⟩,
   ⟨R.MBX_STATUS, 1, 4, .single, [F.MBX_STATUS_UNANSWERED, F.MBX_STATUS_FM_ACTIVE, F.MBX_STATUS_CMD_FULL, F.MBX_STATUS_RSP_FULL]⟩,
   ⟨R.MBX_EVENT, 1, 4, .single, [F.MBX_EVENT_EVENTS_LOST, F.MBX_EVENT_IDX_ERR, F.MBX_EVENT_TAKEOVER, F.MBX_EVENT_ABORTED]⟩,
   ⟨R.MBX_CNT_CLR, 1, 4, .single, [F.MBX_CNT_CLR_EVENTS_LOST]⟩,
   ⟨R.MBX_CMD_PROD, 1, 4, .single, [F.MBX_CMD_PROD_INDEX]⟩,
   ⟨R.MBX_CMD_CONS, 1, 4, .single, [F.MBX_CMD_CONS_INDEX]⟩,
   ⟨R.MBX_RSP_PROD, 1, 4, .single, [F.MBX_RSP_PROD_INDEX]⟩,
   ⟨R.MBX_RSP_CONS, 1, 4, .single, [F.MBX_RSP_CONS_INDEX]⟩,
   ⟨R.MBX_HOST_SEQ_SEEN, 1, 4, .single, [F.MBX_HOST_SEQ_SEEN_HSEQ]⟩,
   ⟨R.MBX_FM_SEQ_SENT, 1, 4, .single, [F.MBX_FM_SEQ_SENT_FSEQ]⟩,
   ⟨R.MBX_INT_HOLDOFF, 1, 4, .single, [F.MBX_INT_HOLDOFF_US]⟩,
   ⟨R.MBX_EVENTS_LOST, 1, 8, .counter, []⟩,
   ⟨R.MBX_ID, 1, 4, .single, []⟩]
/-- The registers of a boot instance. -/
def rowsBoot : List RegRow :=
  [
   ⟨R.BOOT_CTRL, 1, 4, .single, [F.BOOT_CTRL_FAST_EN, F.BOOT_CTRL_IMAGE_SRC, F.BOOT_CTRL_AUTO_WARM]⟩,
   ⟨R.BOOT_CMD, 1, 4, .single, [F.BOOT_CMD_CMD]⟩,
   ⟨R.BOOT_STATUS, 1, 4, .single, [F.BOOT_STATUS_MIRROR_STALE, F.BOOT_STATUS_SYNCED, F.BOOT_STATUS_ACTIVE, F.BOOT_STATUS_RESET_KIND, F.BOOT_STATUS_FAST, F.BOOT_STATUS_REDUCED, F.BOOT_STATUS_LEVEL, F.BOOT_STATUS_STEP, F.BOOT_STATUS_STATE]⟩,
   ⟨R.BOOT_EVENT, 1, 4, .single, [F.BOOT_EVENT_CMD_REJECT, F.BOOT_EVENT_STANDBY_SYNCED, F.BOOT_EVENT_STANDBY_LOST, F.BOOT_EVENT_LEASE_LOST, F.BOOT_EVENT_TAKEOVER, F.BOOT_EVENT_WAIT_IMAGE, F.BOOT_EVENT_LATE, F.BOOT_EVENT_ALTERNATE, F.BOOT_EVENT_STEP_FAILED, F.BOOT_EVENT_READY]⟩,
   ⟨R.BOOT_NO, 1, 4, .single, [F.BOOT_NO_COUNT]⟩,
   ⟨R.BOOT_LEVELS, 1, 4, .single, [F.BOOT_LEVELS_LEVELS]⟩,
   ⟨R.BOOT_DEADLINE, 1, 4, .single, [F.BOOT_DEADLINE_S]⟩,
   ⟨R.BOOT_COORD, 1, 4, .single, [F.BOOT_COORD_COORD]⟩,
   ⟨R.BOOT_HB_CFG, 1, 4, .single, [F.BOOT_HB_CFG_LEASE_US, F.BOOT_HB_CFG_HB_MISS]⟩,
   ⟨R.BOOT_HB_KICK, 1, 4, .single, [F.BOOT_HB_KICK_KICK]⟩,
   ⟨R.BOOT_LEASE, 1, 4, .single, [F.BOOT_LEASE_EPOCH, F.BOOT_LEASE_VOTES, F.BOOT_LEASE_HOLDER]⟩,
   ⟨R.BOOT_MIRROR_STATUS, 1, 4, .single, [F.BOOT_MIRROR_STATUS_FENCE_PENDING, F.BOOT_MIRROR_STATUS_BACKLOG_KIB]⟩,
   ⟨R.BOOT_MIRROR_FENCE, 1, 4, .single, [F.BOOT_MIRROR_FENCE_FENCE]⟩,
   ⟨R.BOOT_FUSE_VARIANT, 1, 4, .single, [F.BOOT_FUSE_VARIANT_PREF, F.BOOT_FUSE_VARIANT_VARIANT, F.BOOT_FUSE_VARIANT_CDIE_OFF]⟩,
   ⟨R.BOOT_FUSE_HASH, 1, 4, .single, [F.BOOT_FUSE_HASH_CRC]⟩,
   ⟨R.BOOT_FUSE_PORT_OFF, 1, 8, .roPair, [F.BOOT_FUSE_PORT_OFF_PORTS]⟩,
   ⟨R.BOOT_FUSE_SERIAL, 1, 8, .roPair, [F.BOOT_FUSE_SERIAL_SERIAL]⟩,
   ⟨R.BOOT_FUSE_STN_SEL, 1, 4, .single, [F.BOOT_FUSE_STN_SEL_DIE, F.BOOT_FUSE_STN_SEL_WORD]⟩,
   ⟨R.BOOT_FUSE_STN, 1, 4, .single, [F.BOOT_FUSE_STN_BAD]⟩,
   ⟨R.BOOT_FUSE_KEYHASH, 12, 4, .single, [F.BOOT_FUSE_KEYHASH_WORD]⟩,
   ⟨R.BOOT_ID, 1, 4, .single, []⟩]

/-- The register rows of each kind of instance (R401). -/
def rowsOf : UnitKind → List RegRow
  | .global => rowsGlobal
  | .router => rowsRouter
  | .ni => rowsNi
  | .memst => rowsMemst
  | .port => rowsPort
  | .dlink => rowsDlink
  | .reduce => rowsReduce
  | .time => rowsTime
  | .almRouter => rowsAlmRouter
  | .almCtl => rowsAlmCtl
  | .fault => rowsFault
  | .chron => rowsChron
  | .probe => rowsProbe
  | .diary => rowsDiary
  | .holiday => rowsHoliday
  | .trace => rowsTrace
  | .pool => rowsPool
  | .power => rowsPower
  | .mbx => rowsMbx
  | .boot => rowsBoot

/-- The counters that each bit of each clear register clears: offset of the clear register, bit, offset of the counter. -/
def clearsOf : UnitKind → List (Nat × Nat × Nat)
  | .global => [(R.GLOBAL_CNT_CLR, 1, R.GLOBAL_TREE_RESERVED), (R.GLOBAL_CNT_CLR, 0, R.GLOBAL_TREE_TIMEOUTS)]
  | .router => [(R.ROUTER_CNT_CLR, 2, R.ROUTER_ROUTE_ERR), (R.ROUTER_CNT_CLR, 1, R.ROUTER_MALFORMED), (R.ROUTER_CNT_CLR, 0, R.ROUTER_PKEY_DROP)]
  | .ni => [(R.NI_CNT_CLR, 4, R.NI_STREAM_IDLE_RUN), (R.NI_CNT_CLR, 3, R.NI_SEQ_GAP), (R.NI_CNT_CLR, 2, R.NI_XLAT_MISS), (R.NI_CNT_CLR, 1, R.NI_WIN_DROP), (R.NI_CNT_CLR, 0, R.NI_PKEY_DROP), (R.NI_SHAPE_CNT_CLR, 2, R.NI_POLICE_EXPIRED), (R.NI_SHAPE_CNT_CLR, 1, R.NI_POLICE_YELLOW), (R.NI_SHAPE_CNT_CLR, 0, R.NI_POLICE_RED), (R.NI_JRNL_CNT_CLR, 2, R.NI_STATS_LOST), (R.NI_JRNL_CNT_CLR, 1, R.NI_JRNL_HELD), (R.NI_JRNL_CNT_CLR, 0, R.NI_JRNL_LOST), (R.NI_FAULT_CNT_CLR, 1, R.NI_GRANT_EXPIRED), (R.NI_FAULT_CNT_CLR, 0, R.NI_STALE_DROP)]
  | .memst => []
  | .port => [(R.PORT_CNT_CLR, 14, R.PORT_RETRAINS), (R.PORT_CNT_CLR, 13, R.PORT_LANE_SYMERR + 8 * 0), (R.PORT_CNT_CLR, 13, R.PORT_LANE_SYMERR + 8 * 1), (R.PORT_CNT_CLR, 13, R.PORT_LANE_SYMERR + 8 * 2), (R.PORT_CNT_CLR, 13, R.PORT_LANE_SYMERR + 8 * 3), (R.PORT_CNT_CLR, 13, R.PORT_LANE_SYMERR + 8 * 4), (R.PORT_CNT_CLR, 13, R.PORT_LANE_SYMERR + 8 * 5), (R.PORT_CNT_CLR, 13, R.PORT_LANE_SYMERR + 8 * 6), (R.PORT_CNT_CLR, 13, R.PORT_LANE_SYMERR + 8 * 7), (R.PORT_CNT_CLR, 13, R.PORT_LANE_SYMERR + 8 * 8), (R.PORT_CNT_CLR, 13, R.PORT_LANE_SYMERR + 8 * 9), (R.PORT_CNT_CLR, 13, R.PORT_LANE_SYMERR + 8 * 10), (R.PORT_CNT_CLR, 13, R.PORT_LANE_SYMERR + 8 * 11), (R.PORT_CNT_CLR, 13, R.PORT_LANE_SYMERR + 8 * 12), (R.PORT_CNT_CLR, 13, R.PORT_LANE_SYMERR + 8 * 13), (R.PORT_CNT_CLR, 13, R.PORT_LANE_SYMERR + 8 * 14), (R.PORT_CNT_CLR, 13, R.PORT_LANE_SYMERR + 8 * 15), (R.PORT_CNT_CLR, 12, R.PORT_DOWN_DROP), (R.PORT_CNT_CLR, 11, R.PORT_FLOW_OVERRUN), (R.PORT_CNT_CLR, 10, R.PORT_ROUTE_ERR)] ++
    [(R.PORT_CNT_CLR, 9, R.PORT_REPLAY_DISCARD), (R.PORT_CNT_CLR, 8, R.PORT_REPLAY), (R.PORT_CNT_CLR, 7, R.PORT_NAK_TX), (R.PORT_CNT_CLR, 6, R.PORT_MALFORMED), (R.PORT_CNT_CLR, 5, R.PORT_CRC_ERR), (R.PORT_CNT_CLR, 4, R.PORT_CW_HIGH), (R.PORT_CNT_CLR, 3, R.PORT_CW), (R.PORT_CNT_CLR, 2, R.PORT_FEC_BITS), (R.PORT_CNT_CLR, 1, R.PORT_FEC_SYM), (R.PORT_CNT_CLR, 0, R.PORT_FEC_UNCORR)]
  | .dlink => [(R.DLINK_CNT_CLR, 3, R.DLINK_CUT), (R.DLINK_CNT_CLR, 2, R.DLINK_CONTAINERS), (R.DLINK_CNT_CLR, 1, R.DLINK_RETRY), (R.DLINK_CNT_CLR, 0, R.DLINK_CRC_ERR)]
  | .reduce => [(R.REDUCE_CNT_CLR, 4, R.REDUCE_ROWS_DROPPED), (R.REDUCE_CNT_CLR, 3, R.REDUCE_SORT_ERR), (R.REDUCE_CNT_CLR, 2, R.REDUCE_CANCEL_DROP), (R.REDUCE_CNT_CLR, 1, R.REDUCE_CANCELLED), (R.REDUCE_CNT_CLR, 0, R.REDUCE_CHUNKS), (R.REDUCE_PROMO_CNT_CLR, 2, R.REDUCE_SATURATIONS), (R.REDUCE_PROMO_CNT_CLR, 1, R.REDUCE_PROMO_STALLS), (R.REDUCE_PROMO_CNT_CLR, 0, R.REDUCE_PROMOTIONS)]
  | .time => []
  | .almRouter => [(R.ALM_CNT_CLR, 4, R.ALM_EPOCH_DROP), (R.ALM_CNT_CLR, 3, R.ALM_EPOCH_CARRY), (R.ALM_CNT_CLR, 2, R.ALM_NOWIN), (R.ALM_CNT_CLR, 1, R.ALM_SLIP), (R.ALM_CNT_CLR, 0, R.ALM_DEFER)]
  | .almCtl => []
  | .fault => [(R.FAULT_CNT_CLR, 0, R.FAULT_CNT + 8 * 0), (R.FAULT_CNT_CLR, 1, R.FAULT_CNT + 8 * 1), (R.FAULT_CNT_CLR, 2, R.FAULT_CNT + 8 * 2), (R.FAULT_CNT_CLR, 3, R.FAULT_CNT + 8 * 3), (R.FAULT_CNT_CLR, 4, R.FAULT_CNT + 8 * 4), (R.FAULT_CNT_CLR, 5, R.FAULT_CNT + 8 * 5), (R.FAULT_CNT_CLR, 6, R.FAULT_CNT + 8 * 6), (R.FAULT_CNT_CLR, 7, R.FAULT_CNT + 8 * 7), (R.FAULT_CNT_CLR, 8, R.FAULT_CNT + 8 * 8), (R.FAULT_CNT_CLR, 9, R.FAULT_CNT + 8 * 9), (R.FAULT_CNT_CLR, 10, R.FAULT_CNT + 8 * 10), (R.FAULT_CNT_CLR, 11, R.FAULT_CNT + 8 * 11), (R.FAULT_CNT_CLR, 12, R.FAULT_CNT + 8 * 12), (R.FAULT_CNT_CLR, 13, R.FAULT_CNT + 8 * 13), (R.FAULT_CNT_CLR, 14, R.FAULT_CNT + 8 * 14), (R.FAULT_CNT_CLR, 15, R.FAULT_CNT + 8 * 15)]
  | .chron => [(R.CHRON_CNT_CLR, 0, R.CHRON_DROP + 8 * 0), (R.CHRON_CNT_CLR, 1, R.CHRON_DROP + 8 * 1), (R.CHRON_CNT_CLR, 2, R.CHRON_DROP + 8 * 2), (R.CHRON_CNT_CLR, 3, R.CHRON_DROP + 8 * 3), (R.CHRON_CNT_CLR, 4, R.CHRON_SUPPRESSED), (R.CHRON_CNT_CLR, 5, R.CHRON_HOLD_LOST), (R.CHRON_CNT_CLR, 6, R.CHRON_DISPLACED), (R.CHRON_CNT_CLR, 7, R.CHRON_COMPACTIONS)]
  | .probe => [(R.PROBE_CNT_CLR, 16, R.PROBE_TRACE_DROP + 8 * 0), (R.PROBE_CNT_CLR, 17, R.PROBE_TRACE_DROP + 8 * 1), (R.PROBE_CNT_CLR, 18, R.PROBE_TRACE_DROP + 8 * 2), (R.PROBE_CNT_CLR, 19, R.PROBE_TRACE_DROP + 8 * 3), (R.PROBE_CNT_CLR, 0, R.PROBE_FRAMES + 8 * 0), (R.PROBE_CNT_CLR, 1, R.PROBE_FRAMES + 8 * 1), (R.PROBE_CNT_CLR, 2, R.PROBE_FRAMES + 8 * 2), (R.PROBE_CNT_CLR, 3, R.PROBE_FRAMES + 8 * 3), (R.PROBE_CNT_CLR, 4, R.PROBE_FRAMES + 8 * 4), (R.PROBE_CNT_CLR, 5, R.PROBE_FRAMES + 8 * 5), (R.PROBE_CNT_CLR, 6, R.PROBE_FRAMES + 8 * 6), (R.PROBE_CNT_CLR, 7, R.PROBE_FRAMES + 8 * 7), (R.PROBE_CNT_CLR, 8, R.PROBE_FRAMES + 8 * 8), (R.PROBE_CNT_CLR, 9, R.PROBE_FRAMES + 8 * 9), (R.PROBE_CNT_CLR, 10, R.PROBE_FRAMES + 8 * 10), (R.PROBE_CNT_CLR, 11, R.PROBE_FRAMES + 8 * 11), (R.PROBE_CNT_CLR, 12, R.PROBE_FRAMES + 8 * 12), (R.PROBE_CNT_CLR, 13, R.PROBE_FRAMES + 8 * 13), (R.PROBE_CNT_CLR, 14, R.PROBE_FRAMES + 8 * 14), (R.PROBE_CNT_CLR, 15, R.PROBE_FRAMES + 8 * 15)] ++
    [(R.PROBE_CNT_CLR, 0, R.PROBE_BYTES + 8 * 0), (R.PROBE_CNT_CLR, 1, R.PROBE_BYTES + 8 * 1), (R.PROBE_CNT_CLR, 2, R.PROBE_BYTES + 8 * 2), (R.PROBE_CNT_CLR, 3, R.PROBE_BYTES + 8 * 3), (R.PROBE_CNT_CLR, 4, R.PROBE_BYTES + 8 * 4), (R.PROBE_CNT_CLR, 5, R.PROBE_BYTES + 8 * 5), (R.PROBE_CNT_CLR, 6, R.PROBE_BYTES + 8 * 6), (R.PROBE_CNT_CLR, 7, R.PROBE_BYTES + 8 * 7), (R.PROBE_CNT_CLR, 8, R.PROBE_BYTES + 8 * 8), (R.PROBE_CNT_CLR, 9, R.PROBE_BYTES + 8 * 9), (R.PROBE_CNT_CLR, 10, R.PROBE_BYTES + 8 * 10), (R.PROBE_CNT_CLR, 11, R.PROBE_BYTES + 8 * 11), (R.PROBE_CNT_CLR, 12, R.PROBE_BYTES + 8 * 12), (R.PROBE_CNT_CLR, 13, R.PROBE_BYTES + 8 * 13), (R.PROBE_CNT_CLR, 14, R.PROBE_BYTES + 8 * 14), (R.PROBE_CNT_CLR, 15, R.PROBE_BYTES + 8 * 15)]
  | .diary => [(R.TRACE_DIARY_CNT_CLR, 2, R.TRACE_DIARY_STATS_LOST), (R.TRACE_DIARY_CNT_CLR, 1, R.TRACE_DIARY_OVERWRITTEN), (R.TRACE_DIARY_CNT_CLR, 0, R.TRACE_DIARY_LOST)]
  | .holiday => []
  | .trace => [(R.TRACE_CNT_CLR, 2, R.TRACE_DROPPED_BYTES), (R.TRACE_CNT_CLR, 1, R.TRACE_DROPPED), (R.TRACE_CNT_CLR, 0, R.TRACE_OVERWRITTEN)]
  | .pool => [(R.POOL_CNT_CLR, 2, R.POOL_WAITED), (R.POOL_CNT_CLR, 1, R.POOL_REFUSE_WAIT), (R.POOL_CNT_CLR, 0, R.POOL_REFUSE_CEIL)]
  | .power => []
  | .mbx => [(R.MBX_CNT_CLR, 0, R.MBX_EVENTS_LOST)]
  | .boot => []

end Sys2Proof.Machine
end

