-- ==== Sys2Proof/Machine/Topology.lean ====
section
/-! DEFINITION. Where everything sits: dies, stations, routers, ports and the instances of each unit class (R13, R24–R26, R32,
R35–R38, Tables 01-1 to 01-6, 18-2, 18-3). -/
namespace Sys2Proof.Machine

/-- The kinds of station (Table 01-4). -/
inductive StationKind where
  | compute | hbm | engine | port | lpddr | cxl | mgmt | host
  deriving DecidableEq, Repr

/-- Whether a die number names a die of the instance (Table 01-5). -/
def dieExists (p : Package) (d : Nat) : Bool := if p.isS then d == 0 else decide (d < 20)

/-- Whether a die is a compute die. -/
def dieCompute (p : Package) (d : Nat) : Bool := !p.isS && decide (d < 16)

/-- CDIE_OFF: only a Q20-L fuses compute dies off, and it fuses exactly two of its corners (R37). -/
def Package.cdieOff (p : Package) : W16 := if p.isS || p.variant != 1 then 0 else p.corners.bits

/-- Whether the fuses disable a compute die (R37, BOOT_FUSE_VARIANT.CDIE_OFF). -/
def dieFused (p : Package) (d : Nat) : Bool := dieCompute p d && p.cdieOff.getLsbD d

/-- The number of route ports (PORTS of the full instance: disabled ports keep their numbers, R37). -/
def portCount (p : Package) : Nat := if p.isS then 64 else 28

/-- The PORT unit of a route port number (R32, Table 18-3). -/
def portUnit (p : Package) (q : Nat) : Nat := if p.isS then unitAddr 0 4 q else unitAddr (16 + q / 7) 4 (q % 7)

/-- The route port number of a PORT unit. -/
def portOfUnit (p : Package) (u : Nat) : Nat := if p.isS then unitInst u else 7 * (unitDie u - 16) + unitInst u

/-- Whether the variant or the fuses disable a port (Table 01-6, BOOT_FUSE_PORT_OFF). -/
def portFused (p : Package) (q : Nat) : Bool :=
  p.portOff.getLsbD q ||
  (!p.isS && ((p.variant == 1 && q % 7 == 6) || (p.variant == 2 && (q % 7 == 4 || q % 7 == 5))))

/-- The kind of station at a station id; none where no station sits (R25, R26, Tables 01-2, 01-5). -/
def stationKind (p : Package) (st : Nat) : Option StationKind :=
  let d := st / 2048
  let l := st % 2048
  if p.isS then
    if d != 0 then none
    else if l == 110 || l == 112 then some .mgmt
    else if l == 111 then some .host
    else if 256 ≤ l ∧ l < 320 then some .port
    else if 320 ≤ l ∧ l < 384 then some .engine
    else none
  else if d < 16 then
    if l < 64 then some .compute
    else if l < 80 then some .hbm
    else if l < 84 then some .engine
    else none
  else if d < 20 then
    if 88 ≤ l ∧ l < 95 then some .engine
    else if 96 ≤ l ∧ l < 103 then some .port
    else if l == 104 then some .lpddr
    else if l == 105 then some .cxl
    else if l == 110 && (d == 16 || d == 18) then some .mgmt
    else if l == 111 && d == 16 then some .host
    else none
  else none

/-- The router instance a station attaches to (R25, R35, Table 01-2). On a Priberun-S the specification places only ports and
engines; the other stations' NIs are put at router 0 (DESIGN CHOICE, log 9). -/
def stationRouter (p : Package) (st : Nat) : Nat :=
  let l := st % 2048
  if p.isS then
    if 256 ≤ l ∧ l < 320 then l - 256 else if 320 ≤ l ∧ l < 384 then l - 320 else 0
  else if st / 2048 < 16 then
    if l < 64 then l
    else if l < 72 then (l - 64) * 8
    else if l < 80 then (l - 72) * 8 + 7
    else if l == 80 then 9 else if l == 81 then 14 else if l == 82 then 49 else 54
  else if 88 ≤ l ∧ l < 95 then 2 * (l - 88) + 1
  else if 96 ≤ l ∧ l < 103 then 2 * (l - 96) + 1
  else if l == 104 then 0 else if l == 105 then 15 else if l == 110 then 14 else 2

/-- The key of an island in the state: die × 1024 + router instance (R34). -/
def islKey (die inst : Nat) : Nat := die * 1024 + inst

/-- The island of a station's NI (R34). -/
def stationIsl (p : Package) (st : Nat) : Nat := islKey (st / 2048) (stationRouter p st)

/-- Whether an island exists (Table 01-5). -/
def islExists (p : Package) (die inst : Nat) : Bool :=
  dieExists p die && decide (inst < if p.isS || decide (die < 16) then 64 else 16)

/-- The router instance of a port (Table 01-2, R35). -/
def portRouter (p : Package) (q : Nat) : Nat := if p.isS then q else 2 * (q % 7) + 1

/-- The die of a port. -/
def portDie (p : Package) (q : Nat) : Nat := if p.isS then 0 else 16 + q / 7

/-- The port station of a port (Table 01-2, PORT_LOCAL). -/
def portStation (p : Package) (q : Nat) : Nat := if p.isS then 256 + q else (16 + q / 7) * 2048 + 96 + q % 7

/-- The engine station of a port (Table 01-2, ENGINE_LOCAL). -/
def portEngine (p : Package) (q : Nat) : Nat := if p.isS then 320 + q else (16 + q / 7) * 2048 + 88 + q % 7

/-- Whether a station is one that has an engine. -/
def isEngine (p : Package) (st : Nat) : Bool := stationKind p st == some .engine

/-- The port of a port station or port engine. -/
def portOfStation (p : Package) (st : Nat) : Option Nat :=
  let l := st % 2048
  if p.isS then
    if 256 ≤ l ∧ l < 320 then some (l - 256) else if 320 ≤ l ∧ l < 384 then some (l - 320) else none
  else if st / 2048 < 16 then none
  else if 96 ≤ l ∧ l < 103 then some (7 * (st / 2048 - 16) + l - 96)
  else if 88 ≤ l ∧ l < 95 then some (7 * (st / 2048 - 16) + l - 88) else none

/-- The die whose POOL instance serves a station (R168). -/
def poolDie (p : Package) (st : Nat) : Nat :=
  let d := st / 2048
  if p.isS then 0 else if d < 16 then d
  else if d == 16 then 1 else if d == 17 then 7 else if d == 18 then 14 else 8

/-- The buffers of a POOL instance (R168, POOL_BUFFERS). -/
def poolSize (p : Package) : Nat := if p.isS then 512 else 4096

/-- The kind of a unit instance; none where it is unassigned (R390, Tables 18-2, 18-3). -/
def unitKind (p : Package) (u : Nat) : Option UnitKind :=
  let d := unitDie u
  let c := unitClass u
  let i := unitInst u
  let routers := if p.isS || decide (d < 16) then 64 else 16
  let mgmtDie := d == 16 || d == 18
  if !dieExists p d then none
  else if c == 0 then (if i == 0 then some .global else none)
  else if c == 1 then (if i < routers then some .router else none)
  else if c == 2 then (if (stationKind p (d * 2048 + i)).isSome then some .ni else none)
  else if c == 3 then
    (if p.isS then none else if d < 16 then (if 64 ≤ i ∧ i < 80 then some .memst else none)
     else if i == 104 || i == 105 then some .memst else none)
  else if c == 4 then
    (if p.isS then (if i < 64 then some .port else none) else if 16 ≤ d ∧ i < 7 then some .port else none)
  else if c == 5 then
    (if p.isS then none else if i < 32 then some .dlink else none)
  else if c == 6 then (if isEngine p (d * 2048 + i) then some .reduce else none)
  else if c == 7 || c == 10 || c == 15 then
    (if (p.isS && decide (i < 2)) || (!p.isS && mgmtDie && i == 0) then
       some (if c == 7 then .time else if c == 10 then .chron else .boot) else none)
  else if c == 8 then (if i == 1023 then some .almCtl else if i < routers then some .almRouter else none)
  else if c == 9 then (if i == 0 then some .fault else none)
  else if c == 11 then
    (if i < routers then some .probe
     else if i == 1016 && (p.isS || mgmtDie) then some .diary
     else if i == 1017 && p.isS then some .diary
     else if i == 1018 && (p.isS || mgmtDie) then some .holiday
     else if i == 1019 && p.isS then some .holiday
     else if i == 1023 && (p.isS || d == 16) then some .trace else none)
  else if c == 12 then (if i == 0 && (p.isS || decide (d < 16)) then some .pool else none)
  else if c == 13 then (if i == 0 then some .power else none)
  else if c == 14 then (if i == 0 && (p.isS || d == 16) then some .mbx else none)
  else none

/-- The unit of a management side (R352, Table 18-3): side 0 is IO0 or 0:110, side 1 is IO2 or 0:112. -/
def sideUnit (p : Package) (cls side : Nat) : Nat :=
  if p.isS then unitAddr 0 cls side else unitAddr (if side = 0 then 16 else 18) cls 0

/-- The package's TIME unit registers; both sides read the same values (R63, R79, log 10). -/
def timeUnit (p : Package) : Nat := sideUnit p 7 0
/-- The package almanac controller; the other dies' controllers mirror it (R94, R109). -/
def almUnit (p : Package) : Nat := unitAddr (if p.isS then 0 else 16) 8 1023
/-- The Diary unit; the standby's registers read mirrored values (R252). -/
def diaryUnit (p : Package) : Nat := unitAddr (if p.isS then 0 else 16) 11 1016
/-- The package Holiday controller; the standby's registers read mirrored values (R387). -/
def holidayUnit (p : Package) : Nat := unitAddr (if p.isS then 0 else 16) 11 1018
/-- The trace unit (Table 18-3). -/
def traceUnit (p : Package) : Nat := unitAddr (if p.isS then 0 else 16) 11 1023
/-- The mailbox unit (Table 18-3). -/
def mbxUnit (p : Package) : Nat := unitAddr (if p.isS then 0 else 16) 14 0
/-- The package power controller's registers (R395): they exist on the root-capable dies and read the same. -/
def powerUnit (p : Package) : Nat := unitAddr (if p.isS then 0 else 16) 13 0
/-- The CHRON controller of a side. -/
def chronUnit (p : Package) (side : Nat) : Nat := sideUnit p 10 side
/-- The BOOT unit of a side. -/
def bootUnit (p : Package) (side : Nat) : Nat := sideUnit p 15 side
/-- The FAULT unit of a die. -/
def faultUnit (die : Nat) : Nat := unitAddr die 9 0
/-- The POWER unit of a die. -/
def dieUnit (die : Nat) : Nat := unitAddr die 13 0
/-- The ROUTER unit of an island. -/
def routerUnit (die inst : Nat) : Nat := unitAddr die 1 inst
/-- The ALM unit of an island. -/
def almRouterUnit (die inst : Nat) : Nat := unitAddr die 8 inst
/-- The PROBE unit of an island. -/
def probeUnit (die inst : Nat) : Nat := unitAddr die 11 inst
/-- The POOL unit of a die. -/
def poolUnit (die : Nat) : Nat := unitAddr die 12 0
/-- The DLINK unit of a crossing's end. -/
def dlinkUnit (die n : Nat) : Nat := unitAddr die 5 n
/-- The GLOBAL unit of a die. -/
def globalUnit (die : Nat) : Nat := unitAddr die 0 0
/-- The REDUCE unit of an engine station. -/
def reduceUnit (st : Nat) : Nat := unitAddr (st / 2048) 6 (st % 2048)

/-- The unit whose registers hold the value of a mirrored unit: the standby TIME, Diary and Holiday units and every die's almanac
controller read what the package's read (R63, R94, R109, R252, R387). -/
def homeUnit (p : Package) (u : Nat) : Nat :=
  let c := unitClass u
  if c == 7 then timeUnit p
  else if c == 8 && unitInst u == 1023 then almUnit p
  else if c == 11 && (unitInst u == 1016 || unitInst u == 1017) then diaryUnit p
  else if c == 11 && (unitInst u == 1018 || unitInst u == 1019) then holidayUnit p
  else u

end Sys2Proof.Machine
end

