-- ==== Sys2Proof/Machine/RegDefaults.lean ====
section
/-! DEFINITION. The value every register holds after a cold reset (the Cold columns, R16), and the lookups of the register
index. -/
namespace Sys2Proof.Machine

/-- Whether an offset lies in a row, and which word of the row it is. -/
def rowHolds (r : RegRow) (off : Nat) : Bool :=
  let w := if r.kind == .single then 4 else 8
  decide (r.off ≤ off) && decide (off < r.off + r.count * r.stride) && decide ((off - r.off) % r.stride < w) && off % 4 == 0

/-- The row of the register index that an offset of a kind of instance lies in (R401). PROBE_HIST's rows are packed words of
stride 4 in one row of 256. -/
def rowAt (k : UnitKind) (off : Nat) : Option RegRow := (rowsOf k).find? (fun r => rowHolds r off)

/-- The array index of an offset in its row. -/
def rowIndex (r : RegRow) (off : Nat) : Nat := (off - r.off) / r.stride

/-- Whether an offset is the high half of a pair. -/
def isHi (r : RegRow) (off : Nat) : Bool := r.kind != .single && (off - r.off) % r.stride == 4

/-- Whether the instance has the array entry or register (R395, Table 18-3): TIME_PORT_ASYM by PORTS, POWER's arrays by routers,
POWER's package registers on root-capable dies. -/
def regPresent (p : Package) (u : Nat) (off : Nat) : Bool :=
  match unitKind p u with
  | none => false
  | some k =>
    match rowAt k off with
    | none => false
    | some r =>
      let i := rowIndex r off
      match k with
      | .time => !(r.off == R.TIME_PORT_ASYM) || decide (i < portCount p)
      | .power =>
        (!(r.off == R.POWER_ISL_CTRL || r.off == R.POWER_ISL_STATUS) || islExists p (unitDie u) i) &&
        (!(r.off == R.POWER_CTRL || r.off == R.POWER_STATUS || r.off == R.POWER_RAMP) ||
          p.isS || unitDie u == 16 || unitDie u == 18)
      | _ => true

/-- One field's bits at its cold value. -/
def coldField (f : Fld) : W32 := BitVec.ofNat 32 ((f.cold % 2 ^ (f.hi - f.lo + 1)) <<< f.lo)

/-- The cold value that the fields of a row give one word. -/
def coldWord (r : RegRow) : W32 := r.flds.foldl (fun w f => w ||| coldField f) 0

/-- The default fault policy of a class (Table 13-1): BASE, N_DEG, N_SEV, T in µs, Q in µs, the reactions to NOTE, DEGRADED and
SEVERE, AUTO_RESTORE. -/
def faultDefault (c : Nat) : Nat × Nat × Nat × Nat × Nat × Nat × Nat × Nat × Nat :=
  match c with
  | 0 => (1, 16, 0, 1000000, 10000000, 0, 3, 0, 1)
  | 1 => (2, 0, 4, 1000000, 60000000, 0, 3, 7, 0)
  | 2 => (1, 64, 4095, 1000, 1000000, 0, 3, 3, 1)
  | 3 => (2, 0, 3, 10000000, 60000000, 0, 3, 7, 0)
  | 4 => (1, 64, 4095, 1000, 1000000, 0, 3, 3, 1)
  | 5 => (2, 0, 2, 10000000, 60000000, 0, 3, 7, 0)
  | 6 => (1, 8, 64, 10000, 1000000, 1, 3, 11, 1)
  | 7 => (1, 16, 256, 1000, 1000000, 0, 3, 11, 1)
  | 8 => (1, 1000, 0, 1000000, 1000000, 0, 1, 0, 1)
  | 9 => (1, 64, 1024, 10000, 1000000, 0, 3, 3, 1)
  | 10 => (2, 0, 4, 1000000, 60000000, 0, 3, 3, 1)
  | 11 => (2, 0, 3, 1000000, 60000000, 0, 3, 7, 0)
  | 12 => (2, 0, 0, 1000000, 10000000, 0, 3, 0, 1)
  | 13 => (2, 0, 3, 1000000, 60000000, 0, 3, 3, 1)
  | 14 => (1, 16, 256, 1000, 1000000, 1, 3, 3, 1)
  | _ => (0, 0, 0, 0, 0, 0, 0, 0, 0)

/-- The cold word of the four FAULT class registers (Tables 13-1, 13-11). -/
def coldFault (base c : Nat) : W32 :=
  let (b, nd, ns, t, q, rn, rd, rs, ar) := faultDefault c
  if base == R.FAULT_CLASS_CFG then BitVec.ofNat 32 ((b <<< 28) + (ar <<< 27) + (ns <<< 12) + nd)
  else if base == R.FAULT_CLASS_T then BitVec.ofNat 32 t
  else if base == R.FAULT_CLASS_Q then BitVec.ofNat 32 q
  else BitVec.ofNat 32 ((rs <<< 10) + (rd <<< 5) + rn)

/-- The default buffer capacity and headroom of a port VC, in 256 B units (Table 06-2, PORT_VC_CFG); plane coded 0 RQ, 1 RS, 2 BK,
3 CV (Table 05-7). -/
def coldVc (pl vc : Nat) : W32 :=
  let cap := if pl ≤ 1 then (if vc == 1 || vc == 2 then 128 else 0)
             else if vc == 0 then 640 else if vc == 2 || vc == 3 then 960 else 0
  let head := if cap = 0 then 0 else if pl ≤ 1 then 108 else 536
  BitVec.ofNat 32 ((cap <<< 16) + head)

/-- The kind of die, as GLOBAL_DIE.KIND codes it (Table 18-6). -/
def dieKindCode (p : Package) (d : Nat) : Nat := if p.isS then 2 else if d < 16 then 0 else 1

/-- The variant code of BOOT_FUSE_VARIANT (Table 15-10). -/
def variantCode (p : Package) : Nat := if p.isS then 8 else p.variant

/-- The identity lane map (R254: physical lane i for logical lane i). -/
def identityLanes : FT := 0xFEDCBA9876543210

/-- The lane map of a port (PORT_LANE_MAP). -/
def laneMapOf (p : Package) (q : Nat) : FT := ((p.laneMap.find? (fun e => e.1 == q)).map (·.2)).getD identityLanes

/-- The lane fuse word of a port (PORT_LANE_FUSE). -/
def laneFuseOf (p : Package) (q : Nat) : W32 := ((p.laneFuse.find? (fun e => e.1 == q)).map (·.2)).getD 0

/-- The cold value of the register word at a unit and offset (the Cold columns; fuse fields at the fuses' values). -/
def coldOf (p : Package) (u off : Nat) : W32 :=
  match unitKind p u with
  | none => 0
  | some k =>
    if off == 0xFFC then BitVec.ofNat 32 (u * 4096 + 1) else
    match rowAt k off with
    | none => 0
    | some r =>
      let i := rowIndex r off
      let half (v : FT) : W32 := if isHi r off then v.extractLsb' 32 32 else v.extractLsb' 0 32
      let plain := if isHi r off then 0 else coldWord r
      match k with
      | .global =>
        if r.off == R.GLOBAL_DIE then
          BitVec.ofNat 32 ((unitDie u <<< 19) + (dieKindCode p (unitDie u) <<< 16)
            + (if p.isS || unitDie u == 16 || unitDie u == 18 then 2 else 0) + (if dieFused p (unitDie u) then 0 else 1))
        else plain
      | .fault => if R.FAULT_CLASS_CFG ≤ r.off ∧ r.off ≤ R.FAULT_REACT then coldFault r.off i else plain
      | .port =>
        let q := portOfUnit p u
        if r.off == R.PORT_VC_CFG then coldVc (i / 4) (i % 4)
        else if r.off == R.PORT_LANE_MAP then half (laneMapOf p q)
        else if r.off == R.PORT_LANE_FUSE then laneFuseOf p q
        else plain
      | .reduce =>
        if r.off == R.REDUCE_STATUS then BitVec.ofNat 32 (if p.isS || decide (16 ≤ unitDie u) then 1024 else 512) else plain
      | .diary => if p.isS && r.off == R.TRACE_DIARY_SIZE then 131072 else plain
      | .pool => if r.off == R.POOL_STATUS then BitVec.ofNat 32 (poolSize p) else plain
      | .power => if r.off == R.POWER_DIE_STATUS && dieFused p (unitDie u) then 4 else plain
      | .boot =>
        if r.off == R.BOOT_FUSE_VARIANT then
          BitVec.ofNat 32 ((if p.pref then 1 <<< 20 else 0) + (variantCode p <<< 16) + p.cdieOff.toNat)
        else if r.off == R.BOOT_FUSE_HASH then p.hash
        else if r.off == R.BOOT_FUSE_PORT_OFF then half p.portOff
        else if r.off == R.BOOT_FUSE_SERIAL then half p.serial
        else if r.off == R.BOOT_FUSE_KEYHASH then p.keyHash.getD i 0
        else plain
      | _ => plain

end Sys2Proof.Machine
end

