-- ==== Sys2Proof/Machine/Ops.lean ====
section
/-! DEFINITION. The named operations over the state: finite maps in canonical form, registers and their fields, counters, events and
interrupts, outputs, free values, local time, and how a command's effect becomes an outcome. -/
namespace Sys2Proof.Machine

/-! ## Finite maps: strictly rising keys -/

/-- The value at a key. -/
def kfind {α : Type} (m : KMap α) (k : Nat) : Option α :=
  match m with
  | [] => none
  | e :: m => if e.1 = k then some e.2 else kfind m k

/-- The map with a value put at a key. -/
def kins {α : Type} (m : KMap α) (k : Nat) (v : α) : KMap α :=
  match m with
  | [] => [(k, v)]
  | e :: m => if k < e.1 then (k, v) :: e :: m else if e.1 = k then (k, v) :: m else e :: kins m k v

/-- The map with a key taken out. -/
def kdel {α : Type} (m : KMap α) (k : Nat) : KMap α :=
  match m with
  | [] => []
  | e :: m => if e.1 = k then kdel m k else e :: kdel m k

/-- The value at a key, or the value an absent key stands for. -/
def kget {α : Type} (d : α) (m : KMap α) (k : Nat) : α := (kfind m k).getD d

/-- The map with a value at a key; the value an absent key stands for is not listed. -/
def kput {α : Type} [DecidableEq α] (d : α) (m : KMap α) (k : Nat) (v : α) : KMap α :=
  if v = d then kdel m k else kins m k v

/-- Whether the keys of a map rise strictly. -/
def kwf {α : Type} (m : KMap α) : Bool :=
  match m with
  | [] => true
  | [_] => true
  | a :: b :: m => decide (a.1 < b.1) && kwf (b :: m)

/-- The lowest number below a bound that a map does not list. -/
def kfree {α : Type} (m : KMap α) (bound : Nat) : Option Nat := (List.range bound).find? (fun i => (kfind m i).isNone)

/-! ## Outcomes -/

/-- The outcome type of a command. -/
abbrev Res := Host.Outcome State Fault Refusal

/-- A command's effect on everything but the queue and the package's identity, which no command changes (log 5). -/
def done (s t : State) : Res := .next { t with pending := s.pending, pkg := s.pkg }

/-- A command of a unit: its effect where the unit is there; else it has no effect (R3; log 65). -/
def onUnit (ok : Bool) (s t : State) : Res := if ok then done s t else done s s

/-! ## Outputs, free values -/

/-- The state with an output added. -/
def State.emit (s : State) (o : Out) : State := { s with out := o :: s.out }

/-- The state with outputs added, in order. -/
def State.emits (s : State) (os : List Out) : State := os.foldl State.emit s

/-- The next free value, and the state after it is taken (log 2). -/
def State.takeFree (s : State) : FT × State := (Config.freeValue s.freeCtr, { s with freeCtr := s.freeCtr + 1 })

/-! ## Registers -/

/-- The word a register holds. -/
def State.reg (s : State) (u off : Nat) : W32 :=
  (kfind s.regs (regAddr (homeUnit s.pkg u) off)).getD (coldOf s.pkg (homeUnit s.pkg u) off)

/-- The state with a register word set; a word at its cold value is not listed. -/
def State.setReg (s : State) (u off : Nat) (v : W32) : State :=
  { s with regs := kput (coldOf s.pkg (homeUnit s.pkg u) off) s.regs (regAddr (homeUnit s.pkg u) off) v }

/-- A field of a register. -/
def State.fld (s : State) (u : Nat) (f : Fld) : Nat := getBits (s.reg u f.off) f.hi f.lo

/-- A field of entry i of a register array. -/
def State.fldAt (s : State) (u : Nat) (f : Fld) (i : Nat) : Nat := getBits (s.reg u (f.off + f.stride * i)) f.hi f.lo

/-- A one-bit field as a Bool. -/
def State.bit (s : State) (u : Nat) (f : Fld) : Bool := s.fld u f == 1

/-- The state with a field set. -/
def State.setFld (s : State) (u : Nat) (f : Fld) (v : Nat) : State :=
  s.setReg u f.off (setBits (s.reg u f.off) f.hi f.lo v)

/-- The state with a field of array entry i set. -/
def State.setFldAt (s : State) (u : Nat) (f : Fld) (i v : Nat) : State :=
  s.setReg u (f.off + f.stride * i) (setBits (s.reg u (f.off + f.stride * i)) f.hi f.lo v)

/-- A 64-bit pair (R394). -/
def State.pair (s : State) (u off : Nat) : FT := (s.reg u (off + 4)) ++ (s.reg u off)

/-- The state with a 64-bit pair set. -/
def State.setPair (s : State) (u off : Nat) (v : FT) : State :=
  (s.setReg u off (v.extractLsb' 0 32)).setReg u (off + 4) (v.extractLsb' 32 32)

/-! ## Counters, events, interrupts -/

/-- A 48-bit count after n more events: it saturates (R20). -/
def satAdd48 (v : W48) (n : Nat) : W48 := BitVec.ofNat 48 (min (v.toNat + n) (2 ^ 48 - 1))

/-- A counter (R20). -/
def State.ctrAt (s : State) (u off : Nat) : W48 := kget 0 s.ctrs (regAddr (homeUnit s.pkg u) off)

/-- The state with a counter set. -/
def State.setCtr (s : State) (u off : Nat) (v : W48) : State :=
  { s with ctrs := kput 0 s.ctrs (regAddr (homeUnit s.pkg u) off) v }

/-- The state with n events counted (R20). -/
def State.count (s : State) (u off n : Nat) : State := s.setCtr u off (satAdd48 (s.ctrAt u off) n)

/-- The state with an interrupt sent to the FM, or held while no core holds the lease (R407). -/
def State.interrupt (s : State) (addr bit : Nat) : State :=
  if s.holder.isSome then s.emit (.irq addr bit)
  else if s.irqHeld.contains (addr, bit) then s else { s with irqHeld := s.irqHeld ++ [(addr, bit)] }

/-- The state with an event bit set; no interrupt. -/
def State.mark (s : State) (u : Nat) (f : Fld) : State := s.setFld u f 1

/-- The state with an event bit of a W1C register set: one interrupt where the bit changes from 0 to 1 (R407). -/
def State.eventBit (s : State) (u off bit : Nat) : State :=
  let w := s.reg u off
  let t := s.setReg u off (setBits w bit bit 1)
  if w.getLsbD bit then t else t.interrupt (regAddr (homeUnit s.pkg u) off) bit

/-- The state with an event field set (R407). -/
def State.event (s : State) (u : Nat) (f : Fld) : State := s.eventBit u f.off f.lo

/-- A fault event of a unit: its count strobe and its report leave for the die's FAULT unit (R294). -/
def State.faultEvent (s : State) (unit cls : Nat) (detail : W32) : State := s.emit (.fault unit cls detail)

/-! ## Islands and local time -/

/-- An island. -/
def State.island (s : State) (die inst : Nat) : Isl := kget {} s.isl (islKey die inst)

/-- The state with an island set. -/
def State.setIsland (s : State) (die inst : Nat) (i : Isl) : State := { s with isl := kput {} s.isl (islKey die inst) i }

/-- An island's local FT (R65). -/
def State.islFt (s : State) (key : Nat) : FT :=
  s.time.ft + BitVec.ofInt 64 (Int.fdiv (s.time.frac + (kget {} s.isl key).off) (2 ^ 32))

/-- The local FT of a station's island (R34). -/
def State.stFt (s : State) (st : Nat) : FT := s.islFt (stationIsl s.pkg st)

/-! ## Holiday -/

/-- Whether Holiday holds a die stopped (R377, R381). -/
def State.dieFrozen (s : State) (die : Nat) : Bool := s.hol.active && !s.hol.resumed.contains die

/-- Whether a Holiday holds back isolations, fences, gating commands and Diary reports: until its release, before the first die resumes (R292, R381). -/
def State.holds (s : State) : Bool := s.hol.active && s.hol.resumed.isEmpty

/-- Whether Holiday holds a station's NI stopped. -/
def State.niFrozen (s : State) (st : Nat) : Bool := s.dieFrozen (st / 2048)

/-- Whether an island's clock runs and its FT is loaded (R67). -/
def State.islRuns (s : State) (key : Nat) : Bool := (kget {} s.isl key).running && (kget {} s.isl key).ftValid

/-- Whether a station's NI does nothing: Holiday has stopped it (R377), or its island's clock is stopped or its FT is not yet loaded, which holds
the NI in reset (R67). -/
def State.niStopped (s : State) (st : Nat) : Bool := s.niFrozen st || !s.islRuns (stationIsl s.pkg st)

/-! ## Units of the state -/

/-- A station's NI. -/
def State.getNi (s : State) (st : Nat) : Ni := kget {} s.ni st

/-- The state with a station's NI set. -/
def State.setNi (s : State) (st : Nat) (n : Ni) : State := { s with ni := kput {} s.ni st n }

/-- The state with a station's NI changed. -/
def State.updNi (s : State) (st : Nat) (f : Ni → Ni) : State := s.setNi st (f (s.getNi st))

/-- A pool instance. -/
def State.getPool (s : State) (die : Nat) : Pool := kget {} s.pools die

/-- The state with a pool instance set. -/
def State.setPool (s : State) (die : Nat) (p : Pool) : State := { s with pools := kput {} s.pools die p }

end Sys2Proof.Machine
end

