-- ==== Sys2Proof/Machine/Sram.lean ====
section
/-! DEFINITION. SRAM words and their check bits (R296–R299, R318): the errors that words have, what a read of one with an uncorrectable
error does, and what a write with an armed injector leaves. -/
namespace Sys2Proof.Machine

/-- The fault controllers changed. -/
def State.updFlt (s : State) (f : Flt → Flt) : State := { s with flt := f s.flt }

/-- The key of an SRAM word's error: what its check bits differ by from those of its data. -/
def eccKey (unit sram word : Nat) : Nat := (unit * 64 + sram) * 2 ^ 24 + word % 2 ^ 24

/-- The error of a word. -/
def State.eccAt (s : State) (unit sram word : Nat) : Byte := kget 0 s.flt.ecc (eccKey unit sram word)

/-- The error of a word set. -/
def State.setEcc (s : State) (unit sram word : Nat) (v : Byte) : State :=
  s.updFlt (fun t => { t with ecc := kput 0 t.ecc (eccKey unit sram word) v })

/-- The number of bits set in a byte. -/
def weight (b : Byte) : Nat := ((List.range 8).filter (fun i => b.getLsbD i)).length

/-- Whether a functional read of a word with this error finds it uncorrectable or poisoned (R296, R297): every error but one of a single check bit.
An error of three or more bits of odd number, whose syndrome the manual does not give, counts as uncorrectable here (log 37). -/
def uncorrectable (e : Byte) : Bool := e != 0 && weight e != 1

/-- DETAIL of an ECC event (Table 13-3). -/
def eccDetail (sram word : Nat) (partWrite scrub : Bool) : W32 :=
  BitVec.ofNat 32 (sram % 64 * 2 ^ 26 + bitNat partWrite * 2 ^ 25 + bitNat scrub * 2 ^ 24 + word % 2 ^ 24)

/-! ## What words hold (Table 13-2)

Where an SRAM keeps what, no rule says: Config.sramHolds is opaque (log 75). The kinds are numbered as follows; the item of a banked table has 65,536
times its bank's number added. -/

/-- A data word of a VC buffer, staging or replay buffer. -/
def srData : Nat := 0
/-- The entry of a key in an admit bitmap; banked. -/
def srAdmit : Nat := 1
/-- An entry of a window table; banked. -/
def srWindow : Nat := 2
/-- The entry of a key in a partition fence bitmap. -/
def srFence : Nat := 3
/-- An entry of a die-path, delivery, transit or switch table by its index, transit from 32 on; banked. -/
def srPath : Nat := 4
/-- The rank descriptor of a key; banked. -/
def srRank : Nat := 5
/-- An entry of a translation cache, by its place. -/
def srXlat : Nat := 6
/-- An event counter. -/
def srCounter : Nat := 7
/-- A triggered-descriptor slot. -/
def srTrigger : Nat := 8
/-- The reservation table and chunk state of an instance, by its place. -/
def srChunk : Nat := 9
/-- The window lanes and promotion slots of an open block, by its place. -/
def srLanes : Nat := 10
/-- A word of an almanac pool; banked. -/
def srMap : Nat := 12
/-- A head word of a VC buffer, staging or replay buffer. -/
def srHead : Nat := 13

/-- The error of a word of a unit that holds an item of a kind, where there is an uncorrectable one: the word's key and its error. -/
def State.badWord (s : State) (u kind item : Nat) : Option (Nat × Byte) :=
  s.flt.ecc.find? (fun e => decide (e.1 / 2 ^ 30 = u) && uncorrectable e.2 &&
    Config.sramHolds (unitClass u) (e.1 / 2 ^ 24 % 64) (e.1 % 2 ^ 24) == (kind, item))

/-- Whether the word of a unit that holds an item reads as poisoned (R297, R299). -/
def State.tableBad (s : State) (u kind item : Nat) : Bool := (s.badWord u kind item).isSome

/-- A functional read of an item: an uncorrectable word that is not poisoned is counted ECC_UNCORR (R297). -/
def State.readBad (s : State) (u kind item : Nat) : State := match s.badWord u kind item with
  | none => s
  | some (k, e) => if e = 3 then s else s.faultEvent u 1 (eccDetail (k / 2 ^ 24 % 64) (k % 2 ^ 24) false false)

/-- An item of a banked table. -/
def inBank (n item : Nat) : Nat := 65536 * n + item

/-! ## Writes (R298, R318) -/

/-- Where the inject register of a unit stands: its offset is the same in every class (R397). -/
def injFld (hi lo : Nat) : Fld := ⟨R.NI_INJ, 4, hi, lo, .rw, 0, .value, .any⟩

/-- Whether a kind of unit holds an inject register (R318, R397). -/
def injectKind : UnitKind → Bool
  | .ni => true
  | .memst => true
  | .router => true
  | .port => true
  | .dlink => true
  | .reduce => true
  | .almRouter => true
  | .pool => true
  | _ => false

/-- Whether a unit's injector is armed for an SRAM (R318). -/
def State.armedFor (s : State) (unit sram : Nat) : Bool :=
  ((unitKind s.pkg unit).map injectKind).getD false && s.fld unit (injFld 31 31) == 1 && s.fld unit (injFld 29 24) == sram

/-- A write of a word with fresh check bits: an armed injector strikes it (R298, R318), and disarms unless CONT is 1. -/
def State.sramWrite (s : State) (unit sram word : Nat) (v : Byte) : State :=
  if s.armedFor unit sram then
    let flip := BitVec.ofNat 8 (s.fld unit (injFld 15 8))
    let s := if s.fld unit (injFld 30 30) = 1 then s else s.setFld unit (injFld 31 31) 0
    s.setEcc unit sram word (v ^^^ flip)
  else s.setEcc unit sram word v

/-- A functional write of a word (R298): one that enables all eight bytes leaves fresh check bits; a byte-masked one reads the word first, corrects a
single error and counts it, and leaves an uncorrectable or poisoned word poisoned, a new uncorrectable error counted with DETAIL bit 25 set. -/
def State.wordWrite (s : State) (unit sram word : Nat) (masked : Bool) : State :=
  let e := s.eccAt unit sram word
  if !masked || e = 0 then s.sramWrite unit sram word 0
  else if weight e = 1 then (s.sramWrite unit sram word 0).faultEvent unit 0 (eccDetail sram word true false)
  else if e = 3 then s.sramWrite unit sram word 3
  else (s.sramWrite unit sram word 3).faultEvent unit 1 (eccDetail sram word true false)

end Sys2Proof.Machine
end

