-- ==== Sys2Proof/Machine/Tables.lean ====
section
/-! DEFINITION. The tables that an image loads: the records of the banks and of the committed image, and the lookups that the data
path makes in them (R42, R45, R46, R95, R96, R138–R141, R160, R166, R169, R366, Tables 16-9 to 16-11). -/
namespace Sys2Proof.Machine

/-- How closely a record's SCOPE covers a unit (Table 16-9): 3 this instance, 2 every instance of the class on the die, 1 every die,
0 the package; none where it does not cover it. A closer scope holds over a wider one (DESIGN CHOICE, log 11). -/
def scopeRank (scope : W32) (u : Nat) : Option Nat :=
  let su := getBits scope 19 0
  if scope.getLsbD 22 then some 0
  else if scope.getLsbD 21 then
    (if unitClass su == unitClass u && (scope.getLsbD 20 || unitInst su == unitInst u) then some 1 else none)
  else if scope.getLsbD 20 then (if unitDie su == unitDie u && unitClass su == unitClass u then some 2 else none)
  else if su == u then some 3 else none

/-- The better of two covering records: the closer scope, and of equals the later. -/
def betterRec (u : Nat) (best : Option Rec) (r : Rec) : Option Rec :=
  match scopeRank r.scope u with
  | none => best
  | some k =>
    match best with
    | none => some r
    | some b => if (scopeRank b.scope u).getD 0 ≤ k then some r else some b

/-- The record of a kind that holds for a unit. -/
def recFor (rs : List Rec) (kind u : Nat) : Option Rec :=
  (rs.filter (fun r => r.kind == kind)).foldl (betterRec u) none

/-- Whether a record kind is banked (Table 16-10). -/
def kindBanked (k : Nat) : Bool :=
  [0x0102, 0x0201, 0x0202, 0x0301, 0x0302, 0x0303, 0x0304, 0x0305, 0x0401, 0x0402, 0x0403, 0x0601, 0x0701].contains k

/-- The tables of variant v (R366): the banked records marked 0xFFFF, with every record of the same KIND and scope marked v put in
their place, and the records marked v that replace none. -/
def variantRecs (rs : List Rec) (v : W16) : List Rec :=
  let b := rs.filter (fun r => kindBanked r.kind)
  let mine := b.filter (fun r => r.variant == v && v != 0xFFFF)
  b.filter (fun r => r.variant == 0xFFFF && !mine.any (fun m => m.kind == r.kind && m.scope == r.scope)) ++ mine

/-- Whether the image holds a variant: BASE always, another only where a record carries its id (R100). -/
def variantExists (rs : List Rec) (v : W16) : Bool := v == 0 || rs.any (fun r => r.variant == v)

/-- The bank in force. -/
def State.bankIn (s : State) : Bank := if s.alm.inForce == 0 then s.alm.b0 else s.alm.b1

/-- The bank not in force. -/
def State.bankOther (s : State) : Bank := if s.alm.inForce == 0 then s.alm.b1 else s.alm.b0

/-- The bank that an epoch bit names, where it is in force or HELD (R95, R96). -/
def State.epochBank (s : State) (e : Bool) : Option Bank :=
  if e == (s.alm.inForce == 1) then some s.bankIn
  else if s.alm.other == .held then some s.bankOther else none

/-- The epoch bit of frames injected now (R95). -/
def State.epochNow (s : State) : Bool := s.alm.inForce == 1

/-- The unbanked records of the committed image. -/
def State.flatRecs (s : State) : List Rec := ((s.image.map (·.recs)).getD []).filter (fun r => !kindBanked r.kind)

/-! ## Admission and windows -/

/-- Whether a bank's bitmap of a unit admits a key (R45); key 0 is always admitted. -/
def bankAdmits (b : Bank) (u key : Nat) : Bool :=
  key == 0 ||
  match recFor b.recs 0x0202 u with
  | none => false
  | some r => (r.payload.getD (key / 8) 0).getLsbD (key % 8)

/-- Whether a unit's bitmap in a bank admits a key: not where the key's word is poisoned (R45, R299). -/
def State.admits (s : State) (n : Nat) (b : Bank) (u key : Nat) : Bool :=
  bankAdmits b u key && (key == 0 || !s.tableBad u srAdmit (inBank n key))

/-- The rights of a window entry (Table 02-9): bit 0 READ, 1 WRITE, 2 ATOMIC, 3 IDX. -/
def windowAllows (base limit : FT) (attr : W32) (key : Nat) (addr len : Nat) (right : Nat) : Bool :=
  attr.getLsbD 31 && getBits attr 27 16 == key && key != 0 && attr.getLsbD right &&
  decide (base.toNat ≤ addr) && decide (addr + len ≤ limit.toNat)

/-- Whether a window table in registers allows an access (R46): one entry covers every byte. -/
def State.regWindow (s : State) (u key addr len right : Nat) : Bool :=
  (List.range 64).any (fun n =>
    let o := 0x400 + 32 * n
    !s.tableBad u srWindow (inBank s.alm.inForce n) && windowAllows (s.pair u o) (s.pair u (o + 8)) (s.reg u (o + 16)) key addr len right)

/-- Whether a WINDOWS record in a bank allows an access (R46, R95: the HELD bank's windows). A poisoned entry does not match (R299). -/
def State.recWindow (s : State) (u bank : Nat) (r : Rec) (key addr len right : Nat) : Bool :=
  (List.range 64).any (fun n =>
    !s.tableBad u srWindow (inBank bank n) && windowAllows (BitVec.ofNat 64 (leAt r.payload (24 * n) 8)) (BitVec.ofNat 64 (leAt r.payload (24 * n + 8) 8))
      (BitVec.ofNat 32 (leAt r.payload (24 * n + 16) 4)) key addr len right)

/-- Whether an NI's windows allow an access under an epoch (R46, R95): key 0 passes; the bank that the epoch names holds the WINDOWS
record, and where the bank in force has none the NI_WIN registers hold. -/
def State.windowOk (s : State) (st : Nat) (epoch : Bool) (key addr len right : Nat) : Bool :=
  key == 0 ||
  if epoch == s.epochNow then
    match recFor s.bankIn.recs 0x0102 (niUnit st) with
    | some r => s.recWindow (niUnit st) s.alm.inForce r key addr len right
    | none => s.regWindow (niUnit st) key addr len right
  else match recFor s.bankOther.recs 0x0102 (niUnit st) with
       | none => false
       | some r => s.recWindow (niUnit st) (1 - s.alm.inForce) r key addr len right

/-! ## Partitions, ranks, streams -/

/-- The PARTITION record of a key (Table 16-10). -/
def partitionRec (b : Bank) (key : Nat) : Option Rec :=
  (b.recs.filter (fun r => r.kind == 0x0201 && leAt r.payload 0 2 == key)).getLast?

/-- A rank descriptor (R42): RANK_COUNT, log2 RANKS_PER_PACKAGE, and the addresses of the package table and of the station map. -/
structure RankDesc where
  count : Nat
  log2rpp : Nat
  pkgTable : FT
  stnMap : FT
  deriving DecidableEq, Repr

/-- The rank descriptor of a partition key (R42, Table 16-10 kind 0x0201). -/
def rankDesc (b : Bank) (key : Nat) : Option RankDesc :=
  (partitionRec b key).map (fun r =>
    { count := leAt r.payload 4 4, log2rpp := leAt r.payload 3 1, pkgTable := BitVec.ofNat 64 (leAt r.payload 8 8),
      stnMap := BitVec.ofNat 64 (leAt r.payload 16 8) })

/-- The addresses of the package-table and station-map entries of rank r (R42): 4 bytes for the package index, 2 for the local rank. -/
def RankDesc.entries (x : RankDesc) (r : Nat) : FT × FT :=
  (x.pkgTable + BitVec.ofNat 64 (4 * (r / 2 ^ x.log2rpp)), x.stnMap + BitVec.ofNat 64 (2 * (r % 2 ^ x.log2rpp)))

/-- Whether a partition is journalled (R246). -/
def journalled (b : Bank) (key : Nat) : Bool := ((partitionRec b key).map (fun r => leAt r.payload 2 1 % 2 == 1)).getD false

/-- A declared stream (R49, Table 16-10 kind 0x0403). -/
structure StreamDecl where
  id : Nat
  key : Nat
  positional : Bool
  onCv : Bool
  multicast : Bool
  source : Nat
  dest : Nat
  coord : Nat
  tile : Nat
  axis : Nat
  dirs : Nat
  mask : Nat
  deriving DecidableEq, Repr

/-- The declaration at entry i of a STREAM payload. -/
def streamEntry (p : List Byte) (i : Nat) : StreamDecl :=
  let o := 24 * i
  let k := leAt p (o + 2) 2
  { id := leAt p o 2, key := k % 4096, positional := k / 4096 % 2 == 1, onCv := k / 8192 % 2 == 1, multicast := k / 16384 % 2 == 1,
    source := leAt p (o + 4) 2, dest := leAt p (o + 6) 2, coord := leAt p (o + 8) 4, tile := leAt p (o + 12) 4,
    axis := leAt p (o + 16) 1 % 2, dirs := leAt p (o + 16) 1 / 2 % 4, mask := leAt p (o + 17) 1 }

/-- The streams of a bank. -/
def bankStreams (b : Bank) : List StreamDecl :=
  (b.recs.filter (fun r => r.kind == 0x0403)).flatMap
    (fun r => (List.range (r.payload.length / 24)).map (streamEntry r.payload))

/-- The declaration of a stream in a bank. -/
def findStream (b : Bank) (id : Nat) : Option StreamDecl := (bankStreams b).find? (fun d => d.id == id)

/-! ## Bank parameters (Table 04-10, kind 0x0401) -/

/-- The BANK record's payload of a bank. -/
def bankParams (b : Bank) : Option (List Byte) := (b.recs.filter (fun r => r.kind == 0x0401)).getLast?.map (·.payload)

/-- LOG2N; the null almanac's is 10 (R85). -/
def bankLog2N (b : Bank) : Nat := ((bankParams b).map (fun p => leAt p 0 1)).getD 10
/-- N, the cycle length in slots (R84). -/
def bankN (b : Bank) : Nat := 2 ^ bankLog2N b
/-- GUARD_SLOTS. -/
def bankGuard (b : Bank) : Nat := ((bankParams b).map (fun p => leAt p 1 1)).getD 2
/-- DIE_GUARD. -/
def bankDieGuard (b : Bank) : Nat := ((bankParams b).map (fun p => leAt p 2 1)).getD 0
/-- PROC_WAVES. -/
def bankWaves (b : Bank) : Nat := ((bankParams b).map (fun p => leAt p 3 1)).getD 1
/-- LEAP_MAX_INSERT; its default is N / 8 (Table 04-10). -/
def bankLeapInsert (b : Bank) : Nat := ((bankParams b).map (fun p => leAt p 4 4)).getD (bankN b / 8)
/-- LEAP_MAX_REMOVE. -/
def bankLeapRemove (b : Bank) : Nat := ((bankParams b).map (fun p => leAt p 8 4)).getD 0
/-- F_MIN_MHZ. -/
def bankFMin (b : Bank) : Nat := ((bankParams b).map (fun p => leAt p 12 2)).getD 2000
/-- BANK_HOLD_US. -/
def bankHoldUs (b : Bank) : Nat := ((bankParams b).map (fun p => leAt p 16 2)).getD 50
/-- PROC_CURRENT, in 0.1 A. -/
def bankCurrent (b : Bank) : Nat := ((bankParams b).map (fun p => leAt p 18 2)).getD 0
/-- SPACING_MIN. -/
def bankSpacingMin (b : Bank) : Nat := ((bankParams b).map (fun p => leAt p 20 2)).getD 0
/-- SPACING_MAX. -/
def bankSpacingMax (b : Bank) : Nat := ((bankParams b).map (fun p => leAt p 22 2)).getD 0

/-! ## Shaping tables (unbanked) -/

/-- The queue a unit's map gives a key (R160); an absent map sends every key to queue 0. -/
def State.queueOf (s : State) (u key : Nat) : Nat :=
  match recFor s.flatRecs 0x0501 u with
  | none => 0
  | some r => let b := (r.payload.getD (key / 2) 0).toNat; if key % 2 = 0 then b % 16 else b / 16

/-- A policer set (R166). -/
structure Policer where
  mode : Nat
  cir : Nat
  pir : Nat
  cbs : Nat
  pbs : Nat
  yellowMax : Nat
  deriving DecidableEq, Repr

/-- The policer set at entry i of a POLICER payload. -/
def policerEntry (p : List Byte) (i : Nat) : Nat × Policer :=
  let o := 24 * i
  (leAt p o 2, { mode := leAt p (o + 2) 1, cir := leAt p (o + 4) 4, pir := leAt p (o + 8) 4, cbs := leAt p (o + 12) 4,
                 pbs := leAt p (o + 16) 4, yellowMax := leAt p (o + 20) 4 })

/-- The policer sets of an NI, each with its key. -/
def State.policers (s : State) (u : Nat) : List (Nat × Policer) :=
  match recFor s.flatRecs 0x0502 u with
  | none => []
  | some r => (List.range (r.payload.length / 24)).map (policerEntry r.payload)

/-- The policer set of a key at an NI; none where the image has none, and the key is then not metered (R166). -/
def State.policerOf (s : State) (u key : Nat) : Option Policer :=
  ((s.policers u).find? (fun e => e.1 == key)).map (·.2)

/-- The ceiling of a key at a pool instance (R169, kind 0x0503); with no record it is 0 (an empty table). -/
def State.ceiling (s : State) (u key : Nat) : Nat :=
  match recFor s.flatRecs 0x0503 u with
  | none => 0
  | some r => leAt r.payload (2 * key) 2

/-! ## Die paths and routes -/

/-- A die path in the layout of H4: DPATH and DP_LEN. -/
def pathAt (p : List Byte) (i : Nat) : BitVec 40 × W4 :=
  let v := leAt p (8 * i) 8
  (BitVec.ofNat 40 (v / 2 ^ 24), BitVec.ofNat 4 v)

/-- The die path of an NI to a die (R141, NI_DPATH); the empty path where the bank holds none. -/
def niPath (b : Bank) (u die : Nat) : BitVec 40 × W4 := ((recFor b.recs 0x0301 u).map (fun r => pathAt r.payload die)).getD (0, 0)

/-- The delivery path of a port ingress to a die (R141). -/
def deliveryPath (b : Bank) (u die : Nat) : BitVec 40 × W4 := ((recFor b.recs 0x0302 u).map (fun r => pathAt r.payload die)).getD (0, 0)

/-- The transit path of a port ingress to an egress port (R141). -/
def transitPath (b : Bank) (u port : Nat) : BitVec 40 × W4 :=
  ((recFor b.recs 0x0303 u).map (fun r => pathAt r.payload port)).getD (0, 0)

/-- The DIE_MASK of an NI's DIEPATH record (R138, R366). -/
def niDieMask (b : Bank) (u : Nat) : Option Nat := (recFor b.recs 0x0301 u).map (fun r => leAt r.payload 160 1 % 16)

/-- The override route of an NI to a coordinate (R139). -/
def overrideRoute (b : Bank) (u coord : Nat) : Option (BitVec 160) :=
  match recFor b.recs 0x0305 u with
  | none => none
  | some r =>
    ((List.range (r.payload.length / 24)).find? (fun i => leAt r.payload (24 * i) 4 % 2 ^ 17 == coord)).map
      (fun i => BitVec.ofNat 160 (leAt r.payload (24 * i + 4) 20))

/-- A switch-table entry (R140). -/
def switchEntry (b : Bank) (coord : Nat) : Nat :=
  ((b.recs.filter (fun r => r.kind == 0x0304)).getLast?.map (fun r => leAt r.payload (8 + coord) 1)).getD 0

/-- UP_MASK (R140). -/
def upMask (b : Bank) : FT :=
  BitVec.ofNat 64 (((b.recs.filter (fun r => r.kind == 0x0304)).getLast?.map (fun r => leAt r.payload 0 8)).getD 0)

end Sys2Proof.Machine
end

