-- ==== Sys2Proof/Machine/Route.lean ====
section
/-! DEFINITION. Routes between packages and die paths within one (R36, R137–R141, R145), and the frames that a source NI forms
(R110, R118). -/
namespace Sys2Proof.Machine

/-- This package's coordinate (R33, BOOT_COORD). -/
def State.coord (s : State) : BitVec 17 := BitVec.ofNat 17 (s.fld (bootUnit s.pkg (s.holder.getD 0)) F.BOOT_COORD_COORD)

/-- Axis a of a coordinate: 0 x, 1 y, 2 z (R33). -/
def coordAxis (c : BitVec 17) (a : Nat) : Nat := c.toNat / 8 ^ a % 8

/-- The pod of a coordinate. -/
def coordPod (c : BitVec 17) : Nat := c.toNat / 512

/-- The plain path of an axis (R137): its direction, true for +, and its hops. -/
def plainMove (src dst : Nat) : Bool × Nat := if src ≤ dst then (true, dst - src) else (false, src - dst)

/-- What the wrap path of an axis saves against its plain path; 0 where it is not shorter (R137). -/
def wrapSaving (src dst : Nat) : Nat := let p := (plainMove src dst).2; if 8 - p < p then p - (8 - p) else 0

/-- The axis that takes its wrap path: the largest saving, the lowest axis on a tie; none where no wrap path is shorter. -/
def wrapAxis (sx sy sz : Nat) : Option Nat :=
  if sx = 0 ∧ sy = 0 ∧ sz = 0 then none
  else if sy ≤ sx ∧ sz ≤ sx then some 0
  else if sz ≤ sy then some 1 else some 2

/-- The move of axis a from src to dst: direction and hops. -/
def axisMove (src dst : BitVec 17) (a : Nat) : Bool × Nat :=
  let sv (i : Nat) := wrapSaving (coordAxis src i) (coordAxis dst i)
  let pl := plainMove (coordAxis src a) (coordAxis dst a)
  if wrapAxis (sv 0) (sv 1) (sv 2) = some a then (!pl.1, 8 - pl.2) else pl

/-- The torus route from src to dst over I/O die d (R137): + hops in axis order, then − hops in axis order, then 31. -/
def torusRoute (src dst : BitVec 17) (d : Nat) : List Nat :=
  let hop (plus : Bool) (a : Nat) : List Nat :=
    let m := axisMove src dst a
    if m.1 == plus then List.replicate m.2 (7 * d + 2 * a + (if plus then 0 else 1)) else []
  (List.range 3).flatMap (hop true) ++ (List.range 3).flatMap (hop false) ++ [31]

/-- The hash of R138 over source station, destination station and destination coordinate. -/
def routeHash (src dest : W16) (coord : BitVec 17) : Nat :=
  (crc32c (leBytes 2 src.toNat ++ leBytes 2 dest.toNat ++ leBytes 4 coord.toNat)).toNat

/-- The set bits of a mask below a width, in ascending order. -/
def setBitsOf (mask width : Nat) : List Nat := (List.range width).filter (fun i => mask.testBit i)

/-- The (h mod m)-th set bit of a mask (R138); 0 where none is set. -/
def chooseBit (h mask width : Nat) : Nat :=
  let l := setBitsOf mask width
  l.getD (h % max 1 l.length) 0

/-- Whether the effective enable map disables a compute die (R344). -/
def State.dieDisabled (s : State) (d : Nat) : Bool := dieFused s.pkg d || s.bootDis.contains (globalUnit d)

/-- Whether the image disables a port (R39, R344): the committed one, or at a boot the staged one. Which ports an image disables no record of it says
(log 74). -/
def State.imageOff (s : State) (q : Nat) : Bool := match s.image with
  | some i => Config.imageDisables i.bytes q
  | none => match s.staging with
    | some i => Config.imageDisables i.bytes q
    | none => false

/-- Whether the effective enable map enables a port (R38, R39, R344). -/
def State.portEnabled (s : State) (q : Nat) : Bool :=
  decide (q < portCount s.pkg) && !portFused s.pkg q && !s.bootDis.contains (portUnit s.pkg q) && !s.imageOff q

/-- The uplink that a route entry of 30 takes at its source package (R138): the (h mod m)-th enabled uplink. -/
def State.sourceUplink (s : State) (h : Nat) : Option Nat :=
  let ups := ([6, 13, 20, 27]).filter s.portEnabled
  if ups.isEmpty then none else ups[h % ups.length]?

/-- The route a source NI writes (R118, R137, R139). -/
def State.buildRoute (s : State) (st : Nat) (dest : W16) (coord : BitVec 17) : BitVec 160 :=
  if coord == s.coord then routeOf [31]
  else
    let u := niUnit st
    let ovr := if s.bit u F.NI_ROUTE_CFG_OVERRIDE_EN then overrideRoute s.bankIn u coord.toNat else none
    match ovr with
    | some r => r
    | none =>
      if coordPod coord != coordPod s.coord then routeOf [30, 30, 30, 30, 31]
      else routeOf (torusRoute s.coord coord
        (chooseBit (routeHash (BitVec.ofNat 16 st) dest coord) (s.fld u F.NI_ROUTE_CFG_DIE_MASK) 4))

/-- The die a frame leaves its source toward (R141): the destination's die, or the I/O die of the egress port. -/
def State.pathTarget (s : State) (st : Nat) (dest : W16) (coord : BitVec 17) (route : BitVec 160) : Nat :=
  let e := routeEntry route 0
  if e == 31 then dest.toNat / 2048
  else if e == 30 then
    portDie s.pkg ((s.sourceUplink (routeHash (BitVec.ofNat 16 st) dest coord)).getD 6)
  else portDie s.pkg e

/-- A frame that a source NI originates (R110, R114, R116, R118): head fields from the station, the task's destination, the
bank in force and the NI's incarnation. -/
def State.sourceFrame (s : State) (st : Nat) (cls : Nat) (key : Nat) (dest : W16) (coord : BitVec 17) (txn : Nat) : Frame :=
  let r := s.buildRoute st dest coord
  let p := niPath s.bankIn (niUnit st) (s.pathTarget st dest coord r)
  { destStation := dest, destCoord := coord, srcStation := BitVec.ofNat 16 st, srcCoord := s.coord, pkey := BitVec.ofNat 12 key,
    inc := BitVec.ofNat 4 (s.fld (niUnit st) F.NI_FAULT_STATUS_INC), cls := BitVec.ofNat 6 cls, epoch := s.epochNow,
    txn := BitVec.ofNat 8 txn, route := r, dpath := p.1, dpLen := p.2 }

/-- The VC of an unscheduled frame still in its source package (R145). -/
def sourceVc (plane : Nat) : Nat := if plane ≤ 1 then 0 else 1

/-- Whether a station cannot take frames: its die is disabled, it belongs to a disabled port, or it is a bad or boot-disabled
station (R3, R38, R41, R344). -/
def State.stationAbsent (s : State) (st : Nat) : Bool :=
  s.dieDisabled (st / 2048) || s.bootDis.contains (niUnit st) ||
  (kget 0 s.pkg.badStations (st / 2048 * 16 + st % 2048 / 32)).getLsbD (st % 32) ||
  match portOfStation s.pkg st with
  | some q => !s.portEnabled q
  | none => false

/-- Whether a compute die is gated off (R281). -/
def State.dieOff (s : State) (die : Nat) : Bool := s.fld (dieUnit die) F.POWER_DIE_STATUS_STATE == 2

/-- Whether a station of the package is there and its die has power (R37, R38, R281). -/
def State.stationOn (s : State) (st : Nat) : Bool :=
  (stationKind s.pkg st).isSome && !s.dieDisabled (st / 2048) && !s.dieOff (st / 2048)

end Sys2Proof.Machine
end

