-- ==== Sys2Proof/Machine/Time.lean ====
section
/-! DEFINITION. Fabric time: the root's count, the exchange between packages, the servo, realignment and the reference pins
(R60–R82). -/
namespace Sys2Proof.Machine

/-! ## The unit -/

/-- The state with the TIME unit changed. -/
def State.updTime (s : State) (f : Time → Time) : State := { s with time := f s.time }

/-- TIME_CTRL.ROLE (R68). -/
def State.role (s : State) : Nat := s.fld (timeUnit s.pkg) F.TIME_CTRL_ROLE

/-- A bit of TIME_EVENT; bits 1, 2 and 4 to 9 are also TIME faults with the bit as DETAIL (R82, Tables 13-1, 13-3). -/
def State.timeEvent (s : State) (f : Fld) : State :=
  let t := s.event (timeUnit s.pkg) f
  if f.lo = 0 ∨ f.lo = 3 then t else t.faultEvent (timeUnit s.pkg) 10 (BitVec.ofNat 32 (1 <<< f.lo))

/-- An interval between exchanges in quanta: 2^n of them in 4,000,000,000 (R70). -/
def State.exchangeInterval (s : State) : Nat := 4000000000 / 2 ^ s.fld (timeUnit s.pkg) F.TIME_CTRL_SYNC_RATE

/-- TIME_STEP_THRESH. -/
def State.stepThresh (s : State) : Nat := s.fld (timeUnit s.pkg) F.TIME_STEP_THRESH_QUANTA

/-- The ports of TIME_UPSTREAM in priority order (R69). -/
def State.upstreamList (s : State) : List Nat :=
  (List.range (min 4 (s.fld (timeUnit s.pkg) F.TIME_UPSTREAM_COUNT))).map
    (fun i => natBits (s.fld (timeUnit s.pkg) F.TIME_UPSTREAM_PORTS) (6 * i + 5) (6 * i))

/-- A port as a source of time. -/
def State.timePort (s : State) (q : Nat) : TimePort := kget {} s.time.ports q

/-- The exchange of a port. -/
def State.exch (s : State) (q : Nat) : Exch := kget {} s.time.exch q

/-- The state with a port's exchange set. -/
def State.setExch (s : State) (q : Nat) (e : Exch) : State := s.updTime (fun t => { t with exch := kput {} t.exch q e })

/-- The state with a port's record as a source of time changed. -/
def State.updTimePort (s : State) (q : Nat) (f : TimePort → TimePort) : State :=
  s.updTime (fun t => { t with ports := kput {} t.ports q (f (kget {} t.ports q)) })

/-- The local FT of a port's island (R70). -/
def State.portFt (s : State) (q : Nat) : FT := s.islFt (islKey (portDie s.pkg q) (portRouter s.pkg q))

/-- A port. -/
def State.getPort (s : State) (q : Nat) : Port := kget {} s.ports q

/-- A port that is changed. -/
def State.updPort (s : State) (q : Nat) (f : Port → Port) : State := { s with ports := kput {} s.ports q (f (kget {} s.ports q)) }

/-- The wire time of units, in quanta, rounded up: 0.16 ns a unit on 16 lanes, 0.32 ns on 8 (R123). -/
def unitTime (units layout : Nat) : Nat := (units * (if layout = 1 then 16 else 32) + 24) / 25

/-- LAYOUT of a port. -/
def State.portLayout (s : State) (q : Nat) : Nat := s.fld (portUnit s.pkg q) F.PORT_STATUS_LAYOUT

/-- A control unit leaves by a port's wire: it goes before every frame, and what it takes of the wire later frames wait for (R91, R126). -/
def State.sendCtl (s : State) (q : Nat) (c : PortCtl) : State :=
  let now := s.portFt q
  (s.updPort q (fun p => { p with
    busy := (if ftGe now p.busy then now else p.busy) + BitVec.ofNat 64 (unitTime 1 (s.portLayout q)), txUnits := p.txUnits ++ [ctlUnit c] })).emit (.portCtl q c)

/-- The PORT unit's training state (Table 11-8). -/
def State.portState (s : State) (q : Nat) : Nat := s.fld (portUnit s.pkg q) F.PORT_STATUS_STATE

/-- Whether a port is trained: its state is ACTIVE (R69). -/
def State.portTrained (s : State) (q : Nat) : Bool := s.portState q == 5

/-- Whether a port's island runs and has loaded FT: no timestamp is taken on it otherwise (R67). -/
def State.portLive (s : State) (q : Nat) : Bool := s.islRuns (islKey (portDie s.pkg q) (portRouter s.pkg q))

/-- Whether a port qualifies as an upstream: trained, and the last FOLLOW_UP since then advertises a quality other than FREE (R69). -/
def State.portQualifies (s : State) (q : Nat) : Bool :=
  s.portTrained q && (s.timePort q).heard && match (s.timePort q).adv with
    | none => false
    | some fu => fu.quality != 0

/-- A port leaves ACTIVE: its exchange is over, and it has to be heard again before it qualifies (R69). -/
def State.timePortDown (s : State) (q : Nat) : State :=
  let s := s.updTime (fun t => { t with exch := kput {} t.exch q { sendXid := (kget {} t.exch q).sendXid } })
  s.updTimePort q (fun p => { p with heard := false, good := 0 })

/-- Whether a reference is present: a qualifying upstream, pps_in on a GM_EXTERNAL package, or GM_FREE's own clock. -/
def State.refPresent (s : State) : Bool :=
  if s.role = 1 then true else if s.role = 2 then s.time.ppsInOk
  else match s.time.upstream with
    | none => false
    | some q => s.portQualifies q

/-- The quality that the package reports (R60): the smaller of its own state and its upstream's, at best HOLDOVER on a GM_EXTERNAL
package without ref10m_in (R80), and HOLD while it carries another's realignment record (R78). -/
def State.quality (s : State) : Nat :=
  let own := s.time.state
  let up := match s.time.upstream with
    | none => 3
    | some q => match (s.timePort q).adv with
      | none => 0
      | some fu => fu.quality.toNat
  let q := if s.role = 0 then min own up else own
  let q := if s.role = 2 ∧ s.time.ref10mOk = false then min q 2 else q
  if s.time.records.any (fun r => !r.own) then min q 1 else q

/-- TIME_ERR_EST (R76). -/
def State.errEst (s : State) : Nat :=
  let t := s.time
  let adv := match t.upstream with
    | none => 0
    | some q => ((s.timePort q).adv.map (fun fu => fu.errEst.toNat)).getD 0
  let v := if t.state = 3 then (if s.role = 1 then 0 else if s.role = 2 then t.lastO.natAbs else adv + t.lastO.natAbs + 1)
    else if t.state = 2 then
      t.entryEst + s.fld (timeUnit s.pkg) F.TIME_HOLDOVER_DRIFT_PPB * ftSince t.ft t.entryFt / 1000000000
    else if t.state = 1 then t.d.natAbs else 0xFFFFFFFF
  min v 0xFFFFFFFF

/-! ## The root's count -/

/-- The units of 2^-32 quanta in one tick: 40 quanta. -/
def tickUnits : Nat := 40 * 2 ^ 32

/-- The greatest correction of one tick under a slew limit (R75). -/
def slewMax (ppm : Nat) : Nat := tickUnits * ppm / 1000000

/-- A number within a bound. -/
def clampTo (m : Nat) (x : Int) : Int := if (m : Int) < x then m else if x < -(m : Int) then -(m : Int) else x

/-- The correction of one tick (R61, R74, R75): the learned frequency and what is left to slew, within the limit in force. The loop's gains are not
given, so the slew is linear (log 17). -/
def slewStep (rate slew : Int) (ppm : Nat) : Int := clampTo (slewMax ppm) (rate + slew)

/-- The increment of an island per clock cycle, u4.32 quanta, from its PLL setting in 25 MHz steps (R65): 2.0 at 2.0 GHz. -/
def islandInc (freq : Nat) : Nat := 160 * 2 ^ 32 / max 1 freq

/-- What an island's FT advances in one cycle of the reference, in 2^-32 quanta: freq / 4 of its cycles, less the trim it is under (R65). -/
def Isl.advance (i : Isl) : Int := (i.freq * islandInc i.freq / 4 : Nat) - (if i.trimLeft = 0 then 0 else i.trim)

/-- An island after one cycle of the reference in which the root advanced by some 2^-32 quanta. -/
def Isl.tick (root : Int) (i : Isl) : Isl :=
  if i.running && i.ftValid then { i with off := i.off + i.advance - root, trimLeft := i.trimLeft - 1 } else i

/-- One cycle of the 100 MHz reference: FT advances by 40 quanta less the correction (R63), and each running island by its own increments (R65). -/
def State.tick (s : State) : State :=
  let c := slewStep s.time.rate s.time.slew s.time.ppm
  let u := s.time.frac + (tickUnits - c).toNat
  { s.updTime (fun t => { t with ft := t.ft + BitVec.ofNat 64 (u / 2 ^ 32), frac := u % 2 ^ 32, slew := t.slew - (c - t.rate) }) with
    isl := s.isl.map (fun e => (e.1, e.2.tick (tickUnits - c))) }

/-- The slot boundary at or before an FT (R83). -/
def slotFloor (t : FT) : FT := BitVec.ofNat 64 (t.toNat / 128 * 128)

/-- After FT was loaded, the running islands count on from it and execute from their next slot boundary, and the Kalends lie at the multiples of the
cycle length in SS (R83, R85, R86). -/
def State.ftLoaded (s : State) : State :=
  let n : Int := 128 * bankN s.bankIn
  let k := Int.fdiv ((s.time.ft.toNat : Int) - s.time.accepted) n * n + s.time.accepted
  { s with alm := { s.alm with start := BitVec.ofInt 64 k },
           isl := s.isl.map (fun e => (e.1, if e.2.running && e.2.ftValid then { e.2 with slot := slotFloor (s.islFt e.1), fresh := true } else e.2)) }

/-! ## The servo (R74) -/

/-- The mean of offsets, truncated toward zero (R23, R74). -/
def meanOf (l : List Int) : Int := Int.tdiv (l.foldl (· + ·) 0) l.length

/-- The step check: four consecutive offsets that agree within 200 quanta give their mean. -/
def stepCheck (l : List Int) : Option Int :=
  if l.length < 4 then none
  else
    let m := l.take 4
    if decide (m.foldl max (m.headD 0) - m.foldl min (m.headD 0) ≤ 200) then some (meanOf m) else none

/-- The slew that removes an offset of whole quanta. -/
def slewOf (o : Int) : Int := o * 2 ^ 32

/-- A new limit of TIME_SLEW_LIMIT applies from an exchange on (R75). -/
def State.latchPpm (s : State) : State :=
  let ppm := s.fld (timeUnit s.pkg) F.TIME_SLEW_LIMIT_PPM
  s.updTime (fun t => { t with ppm := ppm, rate := clampTo (slewMax ppm) t.rate })

/-- The loop learns a frequency at an exchange in LOCKED (R74): its integral part, within the slew limit. Its gains are not given, so what it learns is
a free value (log 17). -/
def State.learn (s : State) : State :=
  let (v, s) := s.takeFree
  let m := slewMax s.time.ppm
  s.updTime (fun t => { t with rate := (v.toNat % (2 * m + 1) : Nat) - (m : Int) })

/-- Entry to HOLD or a new step in it: the frequency is held, D is recorded, STEP_DETECTED is set; an armed realignment not yet applied
is discarded with REALIGN_REJECT (R74, R79). -/
def State.enterHold (s : State) (d : Int) : State :=
  let armed := s.time.records.any (fun r => r.own && !r.applied)
  let s := (s.updTime (fun t => { t with state := 1, slew := 0, d := d })).timeEvent F.TIME_EVENT_STEP_DETECTED
  if armed then
    (s.updTime (fun t => { t with armed := none, records := t.records.filter (fun r => !r.own || r.applied) })).timeEvent F.TIME_EVENT_REALIGN_REJECT
  else s

/-- Entry to HOLDOVER (R74, R76). -/
def State.enterHoldover (s : State) : State :=
  let e := s.errEst
  (s.updTime (fun t => { t with state := 2, slew := 0, entryEst := e, entryFt := t.ft })).timeEvent F.TIME_EVENT_HOLDOVER_ENTERED

/-- Every reference is lost (Table 03-3): LOCKED goes to HOLDOVER, HOLD keeps D, FREE stays. -/
def State.refsLost (s : State) : State := if s.time.state = 3 then s.enterHoldover else s

/-- The package leaves FREE: pps_out begins at the first whole second of FT after it (R81). -/
def State.leaveFree (s : State) : State := s.updTime (fun t => { t with state := 3, slew := 0, ppsSec := some (t.ft.toNat / 4000000000) })

/-- Whether a realignment of this package's own has been applied and its leap slots are being taken (R77). -/
def Time.realigning (t : Time) : Bool := t.records.any (fun r => r.own && r.applied)

/-- An offset with the recent ones, newest first, moves the servo as Table 03-3 states. Between the Equinox that applies a realignment and its last
leap slot the package stays in HOLD and only slews: no step check runs (DESIGN CHOICE, log 72). -/
def State.servo (s : State) (o : Int) (recent : List Int) : State :=
  let th : Int := s.stepThresh
  let chk := stepCheck recent
  let s := s.latchPpm.updTime (fun t => { t with offset := o, lastO := o })
  let lock (s : State) : State := (s.updTime (fun t => { t with state := 3, slew := slewOf o })).learn
  match s.time.state with
  | 0 => (match chk with
    | none => s
    | some d => (s.updTime (fun t => { t with ft := t.ft - BitVec.ofInt 64 d, lastO := o - d })).leaveFree.ftLoaded)
  | 1 =>
    if s.time.realigning then s.updTime (fun t => { t with slew := slewOf o })
    else match chk with
    | none => s
    | some d => if (d - s.time.d).natAbs ≤ s.stepThresh then s.updTime (fun t => { t with d := d }) else s.enterHold d
  | _ =>
    match chk with
    | some d => if th < d.natAbs then s.enterHold d else if o.natAbs ≤ s.stepThresh then lock s else s
    | none => if o.natAbs ≤ s.stepThresh then lock s else s

/-! ## Upstreams (R69) -/

/-- A change of upstream: UPSTREAM_CHANGED, and the step check starts afresh (R69). -/
def State.setUpstream (s : State) (q : Option Nat) : State :=
  let s := (s.updTime (fun t => { t with upstream := q })).timeEvent F.TIME_EVENT_UPSTREAM_CHANGED
  match q with
  | some q => s.updTimePort q (fun p => { p with offsets := [] })
  | none => s

/-- The upstream is lost: the next qualifying port takes over, else every reference is lost (R69, R74). -/
def State.loseUpstream (s : State) : State :=
  match s.time.upstream with
  | none => s
  | some q =>
    let s := s.updTimePort q (fun p => { p with good := 0 })
    match (s.upstreamList.filter (fun r => r != q)).find? s.portQualifies with
    | some r => s.setUpstream (some r)
    | none => (s.setUpstream none).refsLost

/-- Whether n expected Syncs of a port have not come since its last one (R69). -/
def State.syncsMissed (s : State) (q n : Nat) : Bool := match (s.timePort q).last with
  | none => true
  | some t => decide (n * s.exchangeInterval ≤ ftSince (s.portFt q) t)

/-- UPSTREAM_LOSS (R69): the upstream misses its eighth expected Sync. -/
def execUpstreamLoss (s : State) : Res :=
  done s (if s.role = 0 && s.time.upstream.any (fun q => s.syncsMissed q 8) then s.loseUpstream else s)

/-- UPSTREAM_RETURN (R69): a higher-priority port that has qualified for 64 Syncs is taken; with no upstream in use, any port that
qualifies is. -/
def execUpstreamReturn (port : Nat) (s : State) : Res :=
  let l := s.upstreamList
  let take := s.role == 0 && l.contains port && s.portQualifies port &&
    match s.time.upstream with
    | none => true
    | some q => decide (l.idxOf port < l.idxOf q) && decide (64 ≤ (s.timePort port).good)
  onUnit (decide (port < portCount s.pkg)) s (if take then s.setUpstream (some port) else s)

/-! ## The exchange (R70) -/

/-- The realignment record that a FOLLOW_UP carries: of those that the package holds, one after the other (R78, log 72). The armed package's own says L
as D stands, until it is applied (R77). -/
def State.recordNow (s : State) (n : Nat) : Option Realign :=
  (s.time.records[n % max 1 s.time.records.length]?).map (fun r =>
    if r.own && !r.applied then { r with leap := Int.tdiv s.time.d 128 } else r)

/-- SYNC_EXCHANGE_START (R70, R78): SYNC leaves at t1 and FOLLOW_UP follows with t1, quality, steps, estimate and a realignment
record that the package holds. -/
def execSyncExchangeStart (port : Nat) (s : State) : Res :=
  let e := s.exch port
  let now := s.portFt port
  let rec_ := s.recordNow e.sendXid
  let fu : FollowUp := {
    xid := e.sendXid, t1 := now, quality := BitVec.ofNat 2 s.quality, steps := if s.role = 0 then s.time.steps else 0,
    gm := s.role != 0, realignValid := rec_.isSome, errEst := BitVec.ofNat 32 s.errEst,
    realignFt := (rec_.map (·.ft)).getD 0, leap := (rec_.map (·.leap)).getD 0 }
  onUnit (decide (port < portCount s.pkg)) s
    (if s.portTrained port && s.portLive port then
       ((s.setExch port { e with sendXid := (e.sendXid + 1) % 256, t1 := some now }).sendCtl port (.sync e.sendXid)).sendCtl port (.followUp fu)
     else s)

/-- A SYNC arrives (R68, R70): t2 is taken, and DELAY_REQ leaves at t3. Who sent the Sync its FOLLOW_UP tells: while the last one of the port
advertised a grandmaster, a grandmaster answers none of them. -/
def State.syncIn (s : State) (port xid : Nat) : State :=
  let gm := (s.timePort port).heard && match (s.timePort port).adv with
    | some fu => fu.gm
    | none => false
  let now := s.portFt port
  if !s.portTrained port || !s.portLive port then s
  else if s.role != 0 && gm then s.setExch port { s.exch port with xid := xid, t2 := some now, fu := none, t3 := none }
  else (s.setExch port { s.exch port with xid := xid, t2 := some now, fu := none, t3 := some now }).sendCtl port (.delayReq xid)

/-- SYNC_RECEIVE (R68, R70). -/
def execSyncReceive (port : Nat) (xid : Nat) (s : State) : Res := onUnit (decide (port < portCount s.pkg)) s (s.syncIn port xid)

/-- A realignment record arrives from the upstream (R78): a new one is carried, one that is carried takes its latest L until it is applied, and one
whose Equinox has been taken without it is REALIGN_MISSED: the package enters HOLD with D = L × 128. It does so from every state, sets no
STEP_DETECTED, and the servo steers on about the offset it had, D left out (DESIGN CHOICE, log 72). -/
def State.takeRecord (s : State) (fu : FollowUp) : State :=
  let t := s.time
  if !fu.realignValid || t.past.contains fu.realignFt then s
  else if t.records.any (fun r => r.ft == fu.realignFt) then
    s.updTime (fun t => { t with records := t.records.map (fun r => if r.ft = fu.realignFt ∧ r.own = false ∧ r.applied = false then { r with leap := fu.leap } else r) })
  else if t.eqxFt.any (fun e => ftGe e fu.realignFt) then
    let d := fu.leap * 128
    (s.updTime (fun t => { t with state := 1, slew := 0, d := d, target := t.target - d, past := t.past ++ [fu.realignFt] })).timeEvent
      F.TIME_EVENT_REALIGN_MISSED
  else s.updTime (fun t => { t with records := t.records ++ [{ ft := fu.realignFt, leap := fu.leap, own := false }] })

/-- What a FOLLOW_UP tells of its port, and the upstream it may make or lose (R69). A Sync that did not come in its interval ends a run of consecutive
ones. -/
def State.followUp (s : State) (port : Nat) (fu : FollowUp) : State :=
  let now := s.portFt port
  let gap := s.syncsMissed port 2
  let s := s.updTimePort port (fun p =>
    { p with adv := some fu, heard := true, last := some now, good := if fu.quality = 0 then 0 else if gap then 1 else p.good + 1 })
  if s.role != 0 then s
  else
    let s := if s.time.upstream == none && s.upstreamList.contains port && s.portQualifies port then s.setUpstream (some port) else s
    if s.time.upstream == some port then
      if fu.quality = 0 then s.loseUpstream
      else
        let s := s.updTime (fun t => { t with steps := (fu.steps + 1) % 64 })
        let depth := s.fld (timeUnit s.pkg) F.TIME_DEPTH_DEPTH
        let s := if fu.steps + 1 = depth then s else s.timeEvent F.TIME_EVENT_DEPTH_MISMATCH
        s.takeRecord fu
    else s

/-- An exchange that counts as missed (R127): what came of it is dropped, and its Sync is no consecutive one. -/
def State.exchMissed (s : State) (port : Nat) : State :=
  (s.setExch port { s.exch port with t2 := none, fu := none, t3 := none }).updTimePort port (fun p => { p with good := 0 })

/-- A FOLLOW_UP arrives (R70, R127): it is discarded unless its XID matches the pending exchange, which then counts as missed; a grandmaster ignores
another's and sets GM_CONFLICT (R68). -/
def State.followUpIn (s : State) (port : Nat) (fu : FollowUp) : State :=
  let e := s.exch port
  if !s.portTrained port || !s.portLive port then s
  else if s.role != 0 && fu.gm then
    ((s.exchMissed port).updTimePort port (fun p => { p with adv := some fu, heard := true })).timeEvent F.TIME_EVENT_GM_CONFLICT
  else if e.t2.isSome && e.xid == fu.xid then (s.setExch port { e with fu := some fu }).followUp port fu
  else s.exchMissed port

/-- FOLLOW_UP_RECEIVE (R70, R127). -/
def execFollowUpReceive (port : Nat) (fu : FollowUp) (s : State) : Res := onUnit (decide (port < portCount s.pkg)) s (s.followUpIn port fu)

/-- A DELAY_REQ arrives (R70): t4 is taken and DELAY_RESP returns it. -/
def State.delayReqIn (s : State) (port xid : Nat) : State :=
  if s.portTrained port && s.portLive port then s.sendCtl port (.delayResp xid (s.portFt port)) else s

/-- DELAY_REQ_RECEIVE (R70). -/
def execDelayReqReceive (port : Nat) (xid : Nat) (s : State) : Res := onUnit (decide (port < portCount s.pkg)) s (s.delayReqIn port xid)

/-- TIME_PORT_ASYM of a port, i32 (R71). -/
def State.portAsym (s : State) (q : Nat) : Int :=
  (BitVec.ofNat 32 (s.fldAt (timeUnit s.pkg) F.TIME_PORT_ASYM_QUANTA q)).toInt

/-- Whether a port is a torus port (R32, R73). -/
def torusPort (p : Package) (q : Nat) : Bool := !p.isS && q % 7 != 6

/-- An exchange of a port completes with a delay and an offset (R70, R73, R74): the filter drops one whose delay exceeds the least of
the last 16 by more than 1 ns; the upstream's goes to the servo, a monitored torus port's is compared with TIME_NBR_LIMIT. -/
def State.exchanged (s : State) (port : Nat) (delay offset : Int) : State :=
  let p := s.timePort port
  let ds := (delay :: p.delays).take 16
  let least := ds.foldl min delay
  if least + 4 < delay then s.updTimePort port (fun p => { p with delays := ds })
  else
    let up := s.role == 0 && s.time.upstream == some port
    let o := if up then offset - s.time.target else offset
    let os := (o :: p.offsets).take 4
    let s := s.updTimePort port (fun p => { p with delays := ds, offsets := os })
    if up then
      let locked := s.time.state != 0
      let s' := s.servo o os
      if locked then s' else s'.updTimePort port (fun p => if s'.time.state = 0 then p else { p with offsets := [] })
    else if s.bit (timeUnit s.pkg) F.TIME_CTRL_NBR_MON && torusPort s.pkg port &&
        decide (s.fld (timeUnit s.pkg) F.TIME_NBR_LIMIT_QUANTA < o.natAbs) then
      (s.updTime (fun t => { t with nbrPort := port })).timeEvent F.TIME_EVENT_NBR_OFFSET
    else s

/-- A DELAY_RESP arrives (R70, R127): with t1 to t4 the delay and the offset are computed; one with another XID is discarded, and the exchange counts as
missed. -/
def State.delayRespIn (s : State) (port xid : Nat) (t4 : FT) : State :=
  let e := s.exch port
  if !s.portTrained port || !s.portLive port then s
  else match e.t2, e.fu, e.t3 with
    | some t2, some fu, some t3 =>
      if e.xid = xid then
        let x := ftDiff t2 fu.t1
        let y := ftDiff t4 t3
        (s.setExch port { e with t2 := none, fu := none, t3 := none }).exchanged port (Int.tdiv (x + y) 2)
          (Int.tdiv (x - y) 2 - s.portAsym port)
      else s.exchMissed port
    | _, _, _ => s.exchMissed port

/-- DELAY_RESP_RECEIVE (R70, R127). -/
def execDelayRespReceive (port : Nat) (xid : Nat) (t4 : FT) (s : State) : Res := onUnit (decide (port < portCount s.pkg)) s (s.delayRespIn port xid t4)

/-! ## The reference pins (R74, R80) -/

/-- A whole second of FT in quanta. -/
def secondQuanta : Nat := 4000000000

/-- The side whose time pins govern: that of the active root (R63, R80). A Priberun-S has one root-capable die. -/
def State.pinSide (s : State) : Nat := if s.pkg.isS then 0 else s.time.root

/-- PPS_IN_EDGE (R74, R80): an edge at the governing pin. On a GM_EXTERNAL package, the first edge after TIME_PPS_FT was written loads FT; later edges
are compared with the nearest whole second. -/
def execPpsInEdge (s : State) : Res :=
  let s' := s.updTime (fun t => { t with ppsInOk := true })
  done s
    (if s.role != 2 then s'
     else if s.time.state = 0 then
       (if s.time.ppsWritten then
          (s'.latchPpm.updTime (fun t => { t with ft := s.pair (timeUnit s.pkg) R.TIME_PPS_FT, frac := 0, lastO := 0 })).leaveFree.ftLoaded
        else s')
     else
       let base : Int := s.time.ft.toNat - s.time.target
       let r := Int.emod base secondQuanta
       let o := if 2 * r ≤ secondQuanta then r else r - secondQuanta
       let os := (o :: s.time.ppsChecks).take 4
       (s'.updTime (fun t => { t with ppsChecks := os })).servo o os)

/-- PPS_IN_LOSS (R74): two expected edges are missing at the governing pin. -/
def execPpsInLoss (s : State) : Res :=
  let s' := s.updTime (fun t => { t with ppsInOk := false, ppsChecks := [] })
  done s (if s.role = 2 then s'.refsLost else s')

/-- REF10M_LOSS (R80): 1 µs without an edge at the governing pin; the quality is then at best HOLDOVER. -/
def execRef10mLoss (s : State) : Res := done s (s.updTime (fun t => { t with ref10mOk := false }))

/-- REF10M_RETURN (R80): an edge restores the frequency reference. -/
def execRef10mReturn (s : State) : Res := done s (s.updTime (fun t => { t with ref10mOk := true }))

/-- The whole second of FT that runs. -/
def State.second (s : State) : Nat := s.time.ft.toNat / secondQuanta

/-- How far the whole second has run, in quanta. -/
def State.inSecond (s : State) : Nat := s.time.ft.toNat % secondQuanta

/-- PPS_WIDTH in quanta. -/
def State.ppsWidth (s : State) : Nat := 4000 * s.fld (timeUnit s.pkg) F.TIME_CTRL_PPS_WIDTH

/-- PPS_OUT_RISE (R80, R81): pps_out of the active root rises where FT has reached a whole second it has not risen for since the package left FREE,
PPS_OUT_EN is 1 and the pulse's width is not over. -/
def execPpsOutRise (s : State) : Res :=
  done s
    (if s.bit (timeUnit s.pkg) F.TIME_CTRL_PPS_OUT_EN && s.time.state != 0 && !s.time.ppsOut && s.time.ppsSec != some s.second &&
        decide (s.inSecond < s.ppsWidth) then
       (s.updTime (fun t => { t with ppsOut := true, ppsSec := some s.second })).emit (.pin (.ppsOut s.pinSide) true)
     else s)

/-- PPS_OUT_FALL (R80): pps_out falls once PPS_WIDTH µs of FT have passed since the second began. -/
def execPpsOutFall (s : State) : Res :=
  done s (if s.time.ppsOut && (s.time.ppsSec != some s.second || decide (s.ppsWidth ≤ s.inSecond)) then
      (s.updTime (fun t => { t with ppsOut := false })).emit (.pin (.ppsOut s.pinSide) false) else s)

/-- Whether time_valid is due high (Table 03-5). -/
def State.timeValidNow (s : State) : Bool :=
  s.quality != 0 && decide (s.errEst ≤ s.fld (timeUnit s.pkg) F.TIME_VALID_LIMIT_QUANTA)

/-- TIME_VALID_CHANGE (R81): time_valid takes its level; a fall sets TIME_INVALID. -/
def execTimeValidChange (s : State) : Res :=
  let v := s.timeValidNow
  done s
    (if v == s.time.valid then s
     else
       let t := (s.updTime (fun t => { t with valid := v })).emit (.pin (.timeValid s.pinSide) v)
       if v then t else t.timeEvent F.TIME_EVENT_TIME_INVALID)

/-! ## Realignment (R77–R79) -/

/-- The bound of the leap count that a realignment carries (R77). -/
def leapBound : Nat := 2 ^ 31 - 1

/-- TIME_REALIGN.ARM: in HOLD the arming FT F is recorded and the record (F + 64 intervals, L) travels; elsewhere, or over the bound,
REALIGN_REJECT. A second write re-arms. side is the TIME unit written; the standby's is ignored (R79). A write while the leap slots of an applied
realignment are still being taken arms the next one, and the package then stays in HOLD at LEAP_DONE (DESIGN CHOICE, log 72). -/
def State.realignArm (s : State) (side : Nat) : State :=
  let f := s.time.ft
  if s.time.root != side then s
  else if s.time.state != 1 || decide (leapBound < (Int.tdiv s.time.d 128 + s.alm.leap).natAbs) then
    s.timeEvent F.TIME_EVENT_REALIGN_REJECT
  else s.updTime (fun t => { t with
    armed := some f,
    records := t.records.filter (fun r => !r.own || r.applied) ++
      [{ ft := f + BitVec.ofNat 64 (64 * s.exchangeInterval), leap := Int.tdiv t.d 128, own := true }] })

/-- TIME_REALIGN_ARM (R77, R79). -/
def execTimeRealignArm (side : Nat) (s : State) : Res := onUnit (decide (side < 2)) s (s.realignArm side)

/-- One record due at an Equinox, applied on top of the leap count handed over so far: its own package's under the bound of R77, and another's as it
says (R78). -/
def State.applyOne (s : State) (l : Int) (r : Realign) : State × Int :=
  let drop (s : State) : State := s.updTime (fun t => { t with records := t.records.filter (fun x => x.ft != r.ft || x.applied) })
  let put (s : State) (n : Int) : State := s.updTime (fun t => { t with
    accepted := t.accepted + n * 128, past := t.past ++ [r.ft],
    records := t.records.map (fun x => if x.ft = r.ft ∧ x.applied = false then { x with leap := n, applied := true } else x) })
  if r.own then
    let n := Int.tdiv s.time.d 128
    if leapBound < (n + s.alm.leap + l).natAbs then
      (((drop s).updTime (fun t => { t with armed := none })).timeEvent F.TIME_EVENT_REALIGN_REJECT, l)
    else
      ((put s n).updTime (fun t => { t with target := t.target + n * 128, slew := slewOf (t.d - n * 128), lastO := t.d - n * 128 }), l + n)
  else (put s r.leap, l + r.leap)

/-- The realignments due at an Equinox whose Kalends falls at FT k, applied: the state after them and the leap count handed to the almanac
(R77, R78). -/
def State.applyRealign (s : State) (k : FT) : State × Int :=
  let s := s.updTime (fun t => { t with eqxFt := some k })
  (s.time.records.filter (fun r => ftGe k r.ft && !r.applied)).foldl (fun a r => a.1.applyOne a.2 r) (s, 0)

/-- The last leap slot has been taken (R77, R78): the records applied are carried no longer, and a package that armed one of them leaves HOLD unless it
has armed another since. -/
def State.realignDone (s : State) : State :=
  let own := s.time.realigning
  let s := s.updTime (fun t => { t with records := t.records.filter (fun r => !r.applied) })
  if own && s.time.state == 1 && !s.time.records.any (·.own) then
    let s := s.updTime (fun t => { t with armed := none })
    (if s.refPresent then s.updTime (fun t => { t with state := 3, d := 0 }) else s.enterHoldover)
  else s

/-! ## The lattice (R64–R67) -/

/-- The lattice pulses that the root has sent: one each time its FT passes a multiple of 4,000 quanta (R64). -/
def State.pulses (s : State) : Nat := s.time.ft.toNat / 4000

/-- LATTICE_PULSE (R64–R66): a pulse reaches an island, whose local FT then stands seen quanta from the pulse's value. Less the lattice delay that B2
measured this is its difference from the root, which it trims away over the next microsecond, 100 cycles of the reference, within 1,000 ppm; a
second pulse in a row beyond 2 ns sets LATTICE_FAULT. -/
def execLatticePulse (isl : Island) (seen : Int) (s : State) : Res :=
  let i := s.island isl.die isl.inst
  let diff := seen - i.delay
  let beyond := decide (8 < diff.natAbs)
  let j := { i with trim := clampTo (tickUnits / 1000) (Int.tdiv (diff * 2 ^ 32) 100), trimLeft := 100, pulse := s.pulses,
                    beyond := if beyond then i.beyond + 1 else 0 }
  let t := s.setIsland isl.die isl.inst j
  onUnit (islExists s.pkg isl.die isl.inst) s
    (if i.running && i.ftValid && decide (i.pulse < s.pulses) then
       (if beyond && decide (1 ≤ i.beyond) then t.timeEvent F.TIME_EVENT_LATTICE_FAULT else t) else s)

/-- A restarted island takes the FT of a full-value word, its lattice delay made good: the root's. It executes from its next slot boundary (R64, R67,
R86). -/
def State.loadIsland (s : State) (die inst : Nat) : State :=
  s.setIsland die inst { s.island die inst with
    off := 0, beyond := 0, ftValid := true, slot := slotFloor s.time.ft, fresh := true, trim := 0, trimLeft := 0, pulse := s.pulses }

/-- The root moves to the other management die (R63): it goes on from the FT of that die's TIME unit, which is that of its island, without a step there
or at any island; the islands trim the difference away. The time pins of the new root govern, and the old one's outputs go low (R80). DESIGN CHOICE (log 78): no
command shows the standby's reference pins, so what the new governing ones show at the takeover is bits 0 and 1 of a free value. -/
def State.timeTakeover (s : State) (new : Nat) : State :=
  let old := s.time.root
  if s.pkg.isS || old == new then s.updTime (fun t => { t with root := new })
  else
    let o := (kget {} s.isl (islKey (16 + 2 * new) 14)).off
    let u : Int := s.time.frac + o
    let t := s.time
    let (v, s) := s.takeFree
    let s := { s with
      time := { t with ft := t.ft + BitVec.ofInt 64 (Int.fdiv u (2 ^ 32)), frac := (Int.fmod u (2 ^ 32)).toNat, root := new,
                       ppsInOk := v.getLsbD 0, ref10mOk := v.getLsbD 1 },
      isl := s.isl.map (fun e => (e.1, { e.2 with off := e.2.off - o })) }
    let move (s : State) (v : Bool) (p : Nat → Pin) : State := if v then (s.emit (.pin (p old) false)).emit (.pin (p new) true) else s
    move (move s t.ppsOut .ppsOut) t.valid .timeValid

end Sys2Proof.Machine
end

