-- ==== Sys2Proof/Machine/Almanac.lean ====
section
/-! DEFINITION. The almanac: slot maps and where each stands, the commands of the package controller, leap slots and cool variants
(R83–R109). -/
namespace Sys2Proof.Machine

/-! ## Slot maps (R87, R88, Tables 04-1 to 04-3) -/

/-- A run entry of a map: KIND, HANDLE and length in slots. -/
structure Run where
  kind : Nat
  handle : Nat
  len : Nat
  deriving DecidableEq, Repr

/-- A map: where it stands in its POOL record's directory, the pool words of its descriptor and of its first run, its runs, its stream-table words,
and the launch fields of an injection map. -/
structure SlotMap where
  index : Nat
  desc : Nat
  base : Nat
  runs : List Run
  streams : List Nat
  wave : Nat
  launchEn : Bool
  launchCtr : Nat
  deriving DecidableEq, Repr

/-- Pool word i of a POOL record with k maps in its directory. -/
def poolWord (p : List Byte) (k i : Nat) : Nat := leAt p (8 + 4 * k + 4 * i) 4

/-- The run of an entry word (Table 04-2). -/
def runOf (w : Nat) : Run := { kind := w / 2 ^ 30, handle := natBits w 29 20, len := w % 2 ^ 20 + 1 }

/-- The map whose descriptor stands at a word index of a POOL record (Table 04-1). -/
def mapAt (p : List Byte) (k index di : Nat) : SlotMap :=
  let lo := poolWord p k di
  let hi := poolWord p k (di + 1)
  let base := lo % 65536
  let entries := natBits lo 29 16 + 1
  { index := index, desc := di, base := base, runs := (List.range entries).map (fun i => runOf (poolWord p k (base + i))),
    streams := (List.range (natBits hi 12 2)).map (fun i => poolWord p k (base + entries + i)),
    wave := natBits hi 31 26, launchEn := hi.testBit 25, launchCtr := natBits hi 24 13 }

/-- The map of a plane and link of a router in a bank; none where the bank holds none (R87). -/
def findMap (b : Bank) (u plane link : Nat) : Option SlotMap :=
  match recFor b.recs 0x0402 u with
  | none => none
  | some r =>
    let k := leAt r.payload 0 2
    ((List.range k).find? (fun i => leAt r.payload (8 + 4 * i) 1 == plane && leAt r.payload (9 + 4 * i) 1 == link)).map
      (fun i => mapAt r.payload k i (leAt r.payload (10 + 4 * i) 2))

/-- Where a link direction stands in its cycle: the run kind in force (a reserved kind as QUIET), its stream, the frames it may start,
the 256 B units of each, the run's first slot and the slot at which the run, or the intercalary window, ends, whether its kind was reserved or a
pool word of it cannot be read (MAP_FAULT), and the pool words that it reads. -/
structure Stand where
  kind : Nat
  stream : Nat := 0
  frames : Nat := 0
  units : Nat := 0
  start : Nat
  stop : Nat
  reserved : Bool := false
  words : List Nat := []
  deriving DecidableEq, Repr

/-- The slot at which an intercalary window ends: the first following run that is not INTERCALARY, or the Kalends (Table 04-4). -/
def windowEnd : List Run → Nat → Int → Nat
  | [], at_, _ => at_
  | r :: rs, at_, t =>
    if r.kind = 0 then windowEnd rs (at_ + (if rs.isEmpty then ((r.len : Int) + t).toNat else r.len)) t else at_

/-- The run of a map that holds a slot position, runs starting at a slot and at a pool word; leap slots lengthen or shorten the last (R103). -/
def standIn (m : SlotMap) (t : Int) (pos : Nat) : List Run → Nat → Nat → Stand
  | [], at_, _ => { kind := 0, start := at_, stop := at_ }
  | r :: rs, at_, word =>
    let len := if rs.isEmpty then ((r.len : Int) + t).toNat else r.len
    if rs.isEmpty || decide (pos < at_ + len) then
      let w := m.streams.getD r.handle 0
      let read := [m.desc, m.desc + 1, word]
      if r.kind = 1 then
        { kind := 1, stream := w / 65536, frames := natBits w 15 8, units := w % 32, start := at_, stop := at_ + len,
          words := read ++ [m.base + m.runs.length + r.handle] }
      else if r.kind = 0 then { kind := 0, start := at_, stop := windowEnd (r :: rs) at_ t, words := read }
      else { kind := 2, start := at_, stop := at_ + len, reserved := r.kind == 3, words := read }
    else standIn m t pos rs (at_ + len) (word + 1)

/-- N + t of the running cycle (R84). -/
def State.cycleSlots (s : State) : Nat := ((bankN s.bankIn : Int) + s.alm.t).toNat

/-- An island's position in the running cycle, in slots, across the wrap of FT (R12). -/
def State.slotPos (s : State) (key : Nat) : Nat := slotsBetween s.alm.start (s.islFt key)

/-- Where a link direction of a router stands at a slot position. A direction without a map executes one INTERCALARY run (R87); a run
with an uncorrectable map word is QUIET (R87, R299). -/
def State.standAt (s : State) (key plane link pos : Nat) : Stand :=
  match findMap s.bankIn (routerUnit (key / 1024) (key % 1024)) plane link with
  | none => { kind := 0, start := 0, stop := s.cycleSlots }
  | some m =>
    let r := standIn m s.alm.t pos m.runs 0 m.base
    if r.words.any (fun w => s.tableBad (almRouterUnit (key / 1024) (key % 1024)) srMap (inBank s.alm.inForce w)) then { r with kind := 2, reserved := true } else r

/-- Whether the map of a link direction gives a stream a run (R96). -/
def State.hasRun (s : State) (key plane link stream : Nat) : Bool :=
  match findMap s.bankIn (routerUnit (key / 1024) (key % 1024)) plane link with
  | none => false
  | some m => m.runs.any (fun r => r.kind == 1 && m.streams.getD r.handle 0 / 65536 == stream)

/-- The FT at which a slot of the running cycle begins. -/
def State.slotFt (s : State) (pos : Nat) : FT := s.alm.start + BitVec.ofNat 64 (128 * pos)

/-! ## The controller (R94–R102) -/

/-- The state with the almanac controller changed. -/
def State.updAlm (s : State) (f : Alm → Alm) : State := { s with alm := f s.alm }

/-- An event of the almanac controller (R109). -/
def State.almEvent (s : State) (f : Fld) : State := s.event (almUnit s.pkg) f

/-- The schedule slot number at an FT (R83), as a signed number. -/
def State.ssAt (s : State) (t : FT) : Int := Int.fdiv ((t.toNat : Int) - s.time.accepted) 128

/-- SS now. -/
def State.ss (s : State) : Int := s.ssAt s.time.ft

/-- The state of the bank that is not in force, as ALM_BANK_STATUS codes it. -/
def otherCode : OtherState → Nat
  | .held => 1
  | .free => 2
  | .loading => 3
  | .ready => 4
  | .armed => 5

/-- The state with the content of the other bank set. -/
def State.setOther (s : State) (b : Bank) : State :=
  s.updAlm (fun a => if a.inForce == 0 then { a with b1 := b } else { a with b0 := b })

/-- A bank filled with a variant of an image's records (R366). -/
def bankOf (rs : List Rec) (v : W16) : Bank := { variant := v, recs := variantRecs rs v }

/-- A load of records into the FREE other bank begins (Table 04-5). -/
def State.startLoad (s : State) (b : Bank) : State := s.updAlm (fun a => { a with other := .loading, loading := some b })

/-- Whether a LOAD of a variant can succeed: its kind is not reserved and the committed image holds it (R100). -/
def State.loadable (s : State) (v : W16) : Bool :=
  decide (v.toNat / 4096 ≤ 10) && match s.image with
    | none => false
    | some i => variantExists i.recs v

/-- ALM_LOAD (R94, R100): the FREE other bank starts to load; an absent id or a reserved kind sets LOAD_FAIL at once; in another state
CMD_REJECT. -/
def State.almLoad (s : State) (v : W16) : State :=
  if s.alm.other != .free then s.almEvent F.ALM_EVENT_CMD_REJECT
  else if !s.loadable v then s.almEvent F.ALM_EVENT_LOAD_FAIL
  else s.startLoad (bankOf ((s.image.map (·.recs)).getD []) v)

/-- ALM_COPY (R94): the bank in force is copied into the FREE other bank. -/
def State.almCopy (s : State) : State :=
  if s.alm.other != .free then s.almEvent F.ALM_EVENT_CMD_REJECT else s.startLoad s.bankIn

/-- Whether a target SS may be armed: a multiple of both cycle lengths, and at least 2^15 slots ahead (R97). -/
def State.targetOk (s : State) (target : Nat) : Bool :=
  target % bankN s.bankIn == 0 && target % bankN s.bankOther == 0 && decide (s.ss + 32768 ≤ target)

/-- ARM of the READY other bank for a target SS (R97). -/
def State.almArmAt (s : State) (target : FT) (byPower : Bool) : State :=
  if s.alm.other != .ready then s.almEvent F.ALM_EVENT_CMD_REJECT
  else if !s.targetOk target.toNat then s.almEvent F.ALM_EVENT_EQX_REJECT
  else s.updAlm (fun a => { a with other := .armed, target := target, byPower := byPower })

/-- The first SS that may be armed: the first multiple of both cycle lengths at least 2^15 slots ahead (R97, R99, R102). -/
def State.firstTarget (s : State) : Nat :=
  let m := max (bankN s.bankIn) (bankN s.bankOther)
  ((s.ss.toNat + 32768 + m - 1) / m) * m

/-- The variant that the cool request wants in place of the one in force (R102, Table 04-6): the cool form, or the plain form; none
where the kind has no such form. -/
def coolVariant (v : W16) (cool : Bool) : Option W16 :=
  let k := v.toNat / 4096
  if cool then (if k ≤ 3 then some (v + 0x4000) else none) else (if 4 ≤ k ∧ k ≤ 7 then some (v - 0x4000) else none)

/-- A pending cool request goes on where the other bank is FREE: it loads the variant it wants, or is cleared where that is absent or
already in force (R102). -/
def State.coolTry (s : State) : State :=
  match s.alm.cool with
  | none => s
  | some c =>
    if s.alm.other != .free then s
    else match coolVariant s.bankIn.variant c with
    | none => s.updAlm (fun a => { a with cool := none })
    | some v =>
      if s.loadable v then (s.startLoad (bankOf ((s.image.map (·.recs)).getD []) v)).updAlm (fun a => { a with byPower := true })
      else s.updAlm (fun a => { a with cool := none })

/-- POWER requests the cool form of the variant in force, or the return to its plain form (R102). -/
def State.coolRequest (s : State) (cool : Bool) : State := (s.updAlm (fun a => { a with cool := some cool })).coolTry

/-- A LOAD or COPY ends (R94): READY with LOAD_DONE, after which a cool load arms the first eligible Kalends itself (R102); or FREE with
LOAD_FAIL. -/
def State.loadEnd (s : State) (ok : Bool) : State :=
  match s.alm.other, s.alm.loading with
  | .loading, some b =>
    if ok then
      let s := ((s.setOther b).updAlm (fun a => { a with other := .ready, loading := none })).almEvent F.ALM_EVENT_LOAD_DONE
      if s.alm.byPower then s.almArmAt (BitVec.ofNat 64 s.firstTarget) true else s
    else (s.updAlm (fun a => { a with other := .free, loading := none, byPower := false })).almEvent F.ALM_EVENT_LOAD_FAIL
  | _, _ => s

/-- A command of the almanac controller, with the parts it reaches. -/
def onAlm (s t : State) : Res :=
  done s { s with alm := t.alm, regs := t.regs, out := t.out, irqHeld := t.irqHeld }

/-- ALM_LOAD (R94, R100): the VARIANT field takes the id, and the load begins. -/
def execAlmLoad (variant : W16) (s : State) : Res :=
  onAlm s ((s.setFld (almUnit s.pkg) F.ALM_BANK_CTRL_VARIANT variant.toNat).almLoad variant)

/-- ALM_COPY (R94). -/
def execAlmCopy (s : State) : Res := onAlm s s.almCopy

/-- ALM_ARM (R97): the target is ALM_EQX_AT. -/
def execAlmArm (s : State) : Res := onAlm s (s.almArmAt (s.pair (almUnit s.pkg) R.ALM_EQX_AT) false)

/-- DISARM (R94): an ARMED bank is READY again; in another state CMD_REJECT. -/
def State.almDisarm (s : State) : State :=
  if s.alm.other == .armed then s.updAlm (fun a => { a with other := .ready, byPower := false }) else s.almEvent F.ALM_EVENT_CMD_REJECT

/-- ALM_DISARM (R94). -/
def execAlmDisarm (s : State) : Res := onAlm s s.almDisarm

/-- ALM_LOAD_COMPLETE (R94): a LOAD or COPY in progress ends. -/
def execAlmLoadComplete (ok : Bool) (s : State) : Res := onAlm s (s.loadEnd ok)

/-- COOL_REQUEST_RESUME (R102): a cool request that waited for the other bank goes on. -/
def execCoolRequestResume (s : State) : Res := onAlm s s.coolTry

/-- BANK_HOLD_EXPIRY (R94, R96): BANK_HOLD_US after its Equinox the HELD bank is FREE and empty. -/
def execBankHoldExpiry (s : State) : Res :=
  onAlm s (if s.alm.other == .held then ((s.setOther {}).updAlm (fun a => { a with other := .free })).coolTry else s)

/-- The link code of a station's injection at its router (Table 16-9): 8 for the lower-indexed of the router's stations, 10 for the other. -/
def injectLink (p : Package) (st : Nat) : Nat :=
  let l := st % 2048
  if p.isS then (if l < 320 then 8 else 10)
  else if st / 2048 < 16 then (if l < 64 then 8 else 10)
  else if 96 ≤ l ∧ l < 103 then 10 else 8

/-- The injection map of a station on a plane (R87). -/
def State.injectionMap (s : State) (st plane : Nat) : Option SlotMap :=
  findMap s.bankIn (routerUnit (st / 2048) (stationRouter s.pkg st)) plane (injectLink s.pkg st)

/-! ## The Equinox and the Kalends (R84, R97, R103) -/

/-- The stations of the package. -/
def allStations (p : Package) : List Nat :=
  (List.range 20).flatMap (fun d => ((List.range 400).map (fun l => d * 2048 + l)).filter (fun st => (stationKind p st).isSome))

/-- NI_ROUTE_CFG.DIE_MASK takes the DIEPATH record of the bank in force (R138, R366). -/
def State.loadDieMasks (s : State) : State :=
  if s.bankIn.recs.any (fun r => r.kind == 0x0301) then
    (allStations s.pkg).foldl (fun s st => match niDieMask s.bankIn (niUnit st) with
      | some m => s.setFld (niUnit st) F.NI_ROUTE_CFG_DIE_MASK m
      | none => s) s
  else s

/-- Every translation cache is invalidated (R43). -/
def State.flushXlat (s : State) : State := { s with ni := s.ni.map (fun e => (e.1, { e.2 with xlat := [] })) }

/-- The banks switch (R97): the other bank comes into force and the previous one is HELD; EQX_TAKEN. A cool request that the new bank meets is over
(R102). -/
def State.equinox (s : State) : State :=
  ((((s.updAlm (fun a => {
    a with
    inForce := 1 - a.inForce, other := .held, byPower := false,
    cool := a.cool.filter (fun c => (coolVariant s.bankOther.variant c).isSome) })).loadDieMasks).flushXlat).almEvent F.ALM_EVENT_EQX_TAKEN)

/-- The leap slots t that a Kalends takes of P, under the limits of the bank in force (R103). -/
def leapTake (p : Int) (insert remove : Nat) : Int := if 0 < p then min p insert else max p (-(remove : Int))

/-- A Kalends at FT k (R84, R97, R103): LEAP_DONE for the cycle that ends, the Equinox and the realignment due, then t, the count of
Kalends and the wave spacing in force. -/
def State.kalendsAt (s : State) (k : FT) : State :=
  let ended := s.alm.leap == 0 && s.alm.t != 0
  let s := if ended then (s.almEvent F.ALM_EVENT_LEAP_DONE).realignDone else s
  let eqx := s.alm.other == .armed && decide (s.alm.target.toNat < 2 ^ 57) &&
    ftGe k (BitVec.ofInt 64 (s.time.accepted + 128 * s.alm.target.toNat))
  let s := if eqx then
      let (s, l) := s.equinox.applyRealign k
      let s := s.updAlm (fun a => { a with leap := a.leap + l })
      if s.alm.leap == 0 then s.realignDone else s
    else s
  let t := leapTake s.alm.leap (bankLeapInsert s.bankIn) (bankLeapRemove s.bankIn)
  let s := s.updAlm (fun a => { a with leap := a.leap - t, t := t, start := k, cycles := a.cycles + 1, spacing := a.spacingNext })
  { s with rtr := s.rtr.map (fun e => (e.1, { e.2 with started := [] })),
           ports := s.ports.map (fun e => (e.1, { e.2 with started := [] })) }

/-- The FT of the next Kalends. -/
def State.nextKalends (s : State) : FT := s.alm.start + BitVec.ofNat 64 (128 * s.cycleSlots)

/-- Time has reached an FT: the root's count moves up to it where it lies ahead (log 18). -/
def State.reachFt (s : State) (t : FT) : State := if ftGe s.time.ft t then s else s.updTime (fun u => { u with ft := t, frac := 0 })

end Sys2Proof.Machine
end

