-- ==== Sys2Proof/Machine/Arith.lean ====
section
/-! DEFINITION. Reduction arithmetic bit for bit (chapter 09): element formats, the EXACT accumulator and its wire form, ORDERED, ARRIVAL and
selection folds, output conversion, stochastic rounding, and the statistics of output elements (R234). -/
namespace Sys2Proof.Machine

/-! ## Element formats (R205, R206) -/

/-- The parameters of a floating format (Table 09-1): exponent bits, fraction bits, bias, whether it has an infinity, and whether its only NaN is E4M3's. -/
structure FpFmt where
  ebits : Nat
  fbits : Nat
  bias : Nat
  inf : Bool
  e4m3 : Bool := false
  deriving DecidableEq, Repr

/-- The floating format of a format code, or of its MX elements (Tables 08-2, 09-1). -/
def fpFmt (code : Nat) : FpFmt :=
  if code = 0 then ⟨8, 23, 127, true, false⟩
  else if code = 1 then ⟨8, 7, 127, true, false⟩
  else if code = 2 then ⟨5, 10, 15, true, false⟩
  else if code = 3 ∨ code = 5 then ⟨4, 3, 7, false, true⟩
  else if code = 4 ∨ code = 6 then ⟨5, 2, 15, true, false⟩
  else if code = 7 then ⟨3, 2, 3, false, false⟩
  else if code = 8 then ⟨2, 3, 1, false, false⟩
  else ⟨2, 1, 1, false, false⟩

/-- Whether a format code is an MX format. -/
def fmtMx (code : Nat) : Bool := decide (5 ≤ code) && decide (code ≤ 9)

/-- Whether a format code is an integer format. -/
def fmtInt (code : Nat) : Bool := code == 10 || code == 11

/-- The bytes of 64 elements (Table 08-2). -/
def fmtB64 (code : Nat) : Nat :=
  if code = 0 ∨ code = 10 then 256
  else if code = 1 ∨ code = 2 then 128
  else if code = 3 ∨ code = 4 ∨ code = 11 then 64
  else if code = 5 ∨ code = 6 then 66
  else if code = 7 ∨ code = 8 then 50
  else 34

/-- The bytes of n elements (Table 08-2). -/
def fmtBytes (code n : Nat) : Nat := (n * fmtB64 code + 63) / 64

/-- Bits of an element of an MX format. -/
def mxBits (code : Nat) : Nat := if code ≤ 6 then 8 else if code ≤ 8 then 6 else 4

/-- The precision of a format, with the hidden bit. -/
def FpFmt.p (f : FpFmt) : Nat := f.fbits + 1

/-- The least exponent of a normal value. -/
def FpFmt.emin (f : FpFmt) : Int := 1 - (f.bias : Int)

/-- The greatest exponent of a normal value. -/
def FpFmt.emax (f : FpFmt) : Int := (2 ^ f.ebits : Nat) - (if f.inf then 2 else 1) - (f.bias : Int)

/-- The significand of the largest finite value, in units of its quantum. -/
def FpFmt.maxN (f : FpFmt) : Nat := 2 ^ f.p - (if f.e4m3 then 2 else 1)

/-- An exact value: a finite multiple of 2^−149 (of 1 for an integer) with the sign of a zero, an infinity, or NaN. -/
inductive Num where
  | fin (v : Int) (neg : Bool)
  | inf (neg : Bool)
  | nan
  deriving DecidableEq, Repr

/-- The exact value of an encoding under a format, times 2^up (R205). -/
def FpFmt.decode (f : FpFmt) (up : Int) (w : Nat) : Num :=
  let neg := w / 2 ^ (f.ebits + f.fbits) % 2 == 1
  let e := w / 2 ^ f.fbits % 2 ^ f.ebits
  let m := w % 2 ^ f.fbits
  if f.inf && e == 2 ^ f.ebits - 1 then (if m = 0 then .inf neg else .nan)
  else if f.e4m3 && e == 15 && m == 7 then .nan
  else
    let mag := (if e = 0 then m else 2 ^ f.fbits + m) * 2 ^ (((max e 1 : Nat) : Int) - f.bias - f.fbits + 149 + up).toNat
    .fin (if neg then -(mag : Int) else mag) neg

/-- An n-bit two's complement number. -/
def signedOf (n v : Nat) : Int := if 2 ^ (n - 1) ≤ v % 2 ^ n then (v % 2 ^ n : Nat) - (2 ^ n : Nat) else (v % 2 ^ n : Nat)

/-- The 32 values of an MX block (R206). -/
def decodeMx (code : Nat) (bs : List Byte) : List Num :=
  let b := mxBits code
  let x := leAt bs 0 1
  let field := ofLe (bs.drop 1)
  (List.range 32).map (fun i =>
    if x = 255 then .nan else (fpFmt code).decode ((x : Int) - 127) (field / 2 ^ (b * i) % 2 ^ b))

/-- The 64 values of B64 bytes (R205, R206); missing bytes read as zero. -/
def decodeBlock (code : Nat) (bs : List Byte) : List Num :=
  if fmtMx code then
    let h := fmtB64 code / 2
    decodeMx code (bs.take h) ++ decodeMx code ((bs.drop h).take h)
  else
    let n := fmtB64 code / 64
    (List.range 64).map (fun i =>
      let w := leAt bs (n * i) n
      if fmtInt code then .fin (signedOf (8 * n) w) false else (fpFmt code).decode 0 w)

/-! ## Rounding (R221, R222) -/

/-- mix of R222. -/
def mix (z : FT) : FT :=
  let z := (z ^^^ (z >>> 30)) * 0xBF58476D1CE4E5B9#64
  let z := (z ^^^ (z >>> 27)) * 0x94D049BB133111EB#64
  z ^^^ (z >>> 31)

/-- The 16 random bits of an output element (R222). -/
def rnd (seedKey step : W32) (index : Nat) : Nat :=
  let x : FT := seedKey ++ step
  (mix (x ^^^ mix (BitVec.ofNat 64 index + 0x9E3779B97F4A7C15#64)) >>> 48).toNat

/-- SEED_KEY of a SEED (R208). -/
def seedKey (seed : FT) : W32 := (mix seed).extractLsb' 32 32

/-- floor(log2(num / den)) of a positive rational. -/
def log2Q (num den : Nat) : Int :=
  let a : Int := (Nat.log2 num : Int) - Nat.log2 den
  if (if 0 ≤ a then den * 2 ^ a.toNat ≤ num else den ≤ num * 2 ^ (-a).toNat) then a else a - 1

/-- How a remainder rounds (R221): 0 nearest even, 1 toward zero, 2 stochastic with its 16 bits. n + r/d is the value in quanta. -/
def roundUp (round n r d bits : Nat) : Nat :=
  if round = 0 then (if d < 2 * r ∨ (2 * r = d ∧ n % 2 = 1) then n + 1 else n)
  else if round = 2 then (if 2 ^ 16 ≤ r * 2 ^ 16 / d + bits then n + 1 else n)
  else n

/-- A positive rational num/den × 2^−160 × 2^−scale rounded to a precision and least exponent (R221): the significand and its quantum exponent. -/
def roundQ (p : Nat) (emin : Int) (round bits : Nat) (scale : Int) (num den : Nat) : Nat × Int :=
  let e := max (log2Q num den - 160 - scale) emin - ((p : Int) - 1)
  let k := -160 - scale - e
  let n := if 0 ≤ k then num * 2 ^ k.toNat else num
  let d := if 0 ≤ k then den else den * 2 ^ (-k).toNat
  (roundUp round (n / d) (n % d) d bits, e)

/-- Whether a rounded magnitude exceeds the largest finite value. -/
def FpFmt.past (f : FpFmt) (n : Nat) (e : Int) : Bool :=
  let e0 := f.emax - ((f.p : Int) - 1)
  if e0 ≤ e then decide (f.maxN < n * 2 ^ (e - e0).toNat) else decide (f.maxN * 2 ^ (e0 - e).toNat < n)

/-- The encoding of a significand and quantum exponent that the format holds, without its sign. -/
def FpFmt.encode (f : FpFmt) (n : Nat) (e : Int) : Nat :=
  let (n, e) := if n = 2 ^ f.p then (2 ^ (f.p - 1), e + 1) else (n, e)
  if n < 2 ^ f.fbits then n
  else (e + ((f.p : Int) - 1) + f.bias).toNat * 2 ^ f.fbits + (n - 2 ^ f.fbits)

/-- The encoding with a sign. -/
def FpFmt.signed (f : FpFmt) (neg : Bool) (w : Nat) : Nat := w + (if neg then 2 ^ (f.ebits + f.fbits) else 0)

/-- The largest finite value. -/
def FpFmt.largest (f : FpFmt) : Nat := f.encode f.maxN (f.emax - ((f.p : Int) - 1))

/-- The canonical NaN of a scalar format (R223). -/
def FpFmt.nanWord (f : FpFmt) : Nat :=
  if f.e4m3 then 0x7F else (2 ^ f.ebits - 1) * 2 ^ f.fbits + 2 ^ (f.fbits - 1)

/-- The canonical NaN as R223 lists it; E5M2's is 0x7E. -/
def nanOf (code : Nat) : Nat := if code = 4 then 0x7E else (fpFmt code).nanWord

/-- The infinity of a format. -/
def FpFmt.infWord (f : FpFmt) : Nat := (2 ^ f.ebits - 1) * 2 ^ f.fbits

/-- A value to convert: the rational num/den × 2^−160 with the sign of a zero, an infinity, or NaN. -/
inductive Val where
  | fin (num : Int) (den : Nat) (neg : Bool)
  | inf (neg : Bool)
  | nan
  deriving DecidableEq, Repr

/-- The value of an exact number divided by m; a floating number counts in 2^−149. -/
def Num.val (m : Nat) : Num → Val
  | .fin v neg => .fin (v * 2 ^ 11) m neg
  | .inf neg => .inf neg
  | .nan => .nan

/-- An integer divided by m. -/
def intVal (v : Int) (m : Nat) : Val := .fin (v * 2 ^ 160) m false

/-- An infinite result under Table 09-8: its encoding, and whether it is counted. -/
def convInf (code ovf : Nat) (neg : Bool) : Nat × Bool :=
  let f := fpFmt code
  if f.e4m3 then (if ovf = 2 then (f.nanWord, false) else (f.signed neg f.largest, true))
  else if ovf = 1 then (f.signed neg f.largest, true) else (f.signed neg f.infWord, false)

/-- A result past the largest finite value under Table 09-8. -/
def convPast (code ovf round : Nat) (neg : Bool) : Nat × Bool :=
  let f := fpFmt code
  if f.e4m3 then (if ovf = 2 then (f.nanWord, false) else (f.signed neg f.largest, true))
  else if ovf = 1 then (f.signed neg f.largest, true)
  else if round = 1 then (f.signed neg f.largest, false)
  else (f.signed neg f.infWord, false)

/-- The conversion of a value to a scalar floating format (R221, R223, R224): its encoding, and whether it is counted. -/
def convFp (code ovf round bits : Nat) : Val → Nat × Bool
  | .nan => (nanOf code, false)
  | .inf neg => convInf code ovf neg
  | .fin num den neg =>
    let f := fpFmt code
    if num = 0 then (f.signed neg 0, false)
    else
      let (n, e) := roundQ f.p f.emin round bits 0 num.natAbs den
      if f.past n e then convPast code ovf round (decide (num < 0)) else (f.signed (decide (num < 0)) (f.encode n e), false)

/-- The conversion of a value to an integer of a width (R225). -/
def convInt (width round bits : Nat) : Val → Nat × Bool
  | .fin num den _ =>
    let d := den * 2 ^ 160
    let n : Nat := roundUp round (num.natAbs / d) (num.natAbs % d) d bits
    let v : Int := if num < 0 then -(n : Int) else n
    let hi : Int := 2 ^ (width - 1) - 1
    let lo : Int := -(2 ^ (width - 1))
    if hi < v then (hi.toNat, true)
    else if v < lo then (2 ^ (width - 1), true)
    else ((if v < 0 then v + 2 ^ width else v).toNat, false)
  | _ => (0, false)

/-- The magnitude of a value. -/
def Val.isInf : Val → Bool
  | .inf _ => true
  | _ => false

/-- Whether a value is NaN. -/
def Val.isNan : Val → Bool
  | .nan => true
  | _ => false

/-- floor(log2 amax) of the finite values, none where all are zero (R226). -/
def amaxLog (vs : List Val) : Option Int :=
  vs.foldl (fun a v => match v with
    | .fin num den _ => if num = 0 then a else
        let l := log2Q num.natAbs den - 160
        (match a with
         | none => some l
         | some b => some (max b l))
    | _ => a) none

/-- An element of an MX block under scale 2^s (R226, step 4): its encoding, and whether it is counted. -/
def convMxElem (code round bits : Nat) (s : Int) : Val → Nat × Bool
  | .fin num den neg =>
    let f := fpFmt code
    if num = 0 then (f.signed neg 0, false)
    else
      let (n, e) := roundQ f.p f.emin round bits s num.natAbs den
      if f.past n e then (f.signed (decide (num < 0)) f.largest, true) else (f.signed (decide (num < 0)) (f.encode n e), false)
  | .inf neg => ((fpFmt code).signed neg (fpFmt code).largest, true)
  | .nan => (0, false)

/-- The bit string of elements of b bits. -/
def packBits (b : Nat) : List Nat → Nat
  | [] => 0
  | x :: xs => x % 2 ^ b + 2 ^ b * packBits b xs

/-- An MX block of 32 values (R226): its bytes, and how many are counted. bits gives the random bits by element. -/
def convMx (code ovf round : Nat) (bits : Nat → Nat) (vs : List Val) : List Byte × Nat :=
  let b := mxBits code
  let whole (scale : Nat) (s : Int) : List Byte × Nat :=
    let es := vs.zipIdx.map (fun x => convMxElem code round (bits x.2) s x.1)
    (BitVec.ofNat 8 scale :: leBytes (4 * b) (packBits b (es.map (·.1))), (es.filter (·.2)).length)
  let void : List Byte × Nat := (0xFF :: List.replicate (4 * b) 0, 0)
  if vs.any Val.isNan then void
  else if vs.any Val.isInf then (if ovf = 1 then whole 0xFE 127 else void)
  else
    let s : Int := match amaxLog vs with
      | none => -127
      | some l => max (l - (fpFmt code).emax) (-127)
    if 127 < s then (if ovf = 1 then whole 254 127 else void) else whole (s + 127).toNat s

/-- The conversion of a block's values to an output format (R221–R226): its bytes, and how many values are counted. bits gives the random bits by
element; the values are those of the output, at most 64. -/
def convBlock (code ovf round : Nat) (bits : Nat → Nat) (vs : List Val) : List Byte × Nat :=
  if fmtMx code then
    let a := convMx code ovf round bits (vs.take 32)
    if vs.length ≤ 32 then a
    else
      let b := convMx code ovf round (fun i => bits (32 + i)) (vs.drop 32)
      (a.1 ++ b.1, a.2 + b.2)
  else
    let w := fmtB64 code / 64
    let es := vs.zipIdx.map (fun x => if fmtInt code then convInt (8 * w) round (bits x.2) x.1 else convFp code ovf round (bits x.2) x.1)
    (es.flatMap (fun e => leBytes w e.1), (es.filter (·.2)).length)

/-! ## The EXACT accumulator (R209–R214) -/

/-- A lane's non-finite states after another. -/
def Lane.join (nan pos neg : Bool) : Lane → Lane
  | .non a b c => .non (a || nan) (b || pos) (c || neg)
  | _ => .non nan pos neg

/-- A finite addend, in units of 2^−160, added to a lane under an anchor (R211). -/
def Lane.add (a : Int) (l : Lane) (x : Int) : Lane :=
  let unit : Int := 2 ^ (a + 65).toNat
  match l with
  | .win v =>
    if x % unit = 0 ∧ -(2 ^ 127) ≤ v + x / unit ∧ v + x / unit < 2 ^ 127 then .win (v + x / unit) else .pro (v * unit + x)
  | .pro v => .pro (v + x)
  | .non n p m => .non n p m

/-- An addend that may be non-finite (R211, R212). -/
def Lane.addNum (a : Int) (l : Lane) : Num → Lane
  | .fin v _ => l.add a (v * 2 ^ 11)
  | .inf neg => l.join false (!neg) neg
  | .nan => l.join true false false

/-- The anchor of a contribution (R210); none where no element is non-zero and finite. -/
def anchorOf (xs : List Num) : Option Int :=
  let m := xs.foldl (fun m x => match x with
    | .fin v _ => max m v.natAbs
    | _ => m) 0
  if m = 0 then none else some (max (-54) ((Nat.log2 m : Int) - 149 + 1))

/-- The promoted lanes of an accumulator. -/
def Blk.promoted : Blk → Nat
  | .exact _ ls => (ls.filter (fun l => match l with
    | .pro _ => true
    | _ => false)).length
  | _ => 0

/-- The lanes promoted in an accumulator that were not promoted before (R213, R230). -/
def Blk.promotions (old : Option Blk) : Blk → Nat
  | .exact _ ls =>
    let was : List Lane := match old with
      | some (.exact _ os) => os
      | _ => []
    (ls.zipIdx.filter (fun l => match l.1, was[l.2]? with
      | .pro _, some (.pro _) => false
      | .pro _, _ => true
      | _, _ => false)).length
  | _ => 0

/-- A new EXACT block (R209). -/
def blkNew : Blk := .exact none (List.replicate 64 (.win 0))

/-- A contribution folded into an EXACT floating accumulator (R210–R212). -/
def foldNums (acc : Option Int × List Lane) (xs : List Num) : Option Int × List Lane :=
  let a := acc.1.or (anchorOf xs)
  (a, List.zipWith (fun l x => l.addNum (a.getD (-54)) x) acc.2 xs)

/-- A partial block folded into an EXACT floating accumulator (R210–R212, R216): an UNANCHORED accumulator takes an input that holds a non-zero value
or a promoted lane as it stands, beside the non-finite states it has. -/
def foldPart (acc : Option Int × List Lane) (anchor : Option Int) (xs : List Lane) : Option Int × List Lane :=
  let live := xs.any (fun l => match l with
    | .win v => decide (v ≠ 0)
    | .pro _ => true
    | .non _ _ _ => false)
  match acc.1, live, anchor with
  | none, true, some a =>
    (some a, List.zipWith (fun l x => match l, x with
      | .non n p m, .non n' p' m' => .non (n || n') (p || p') (m || m')
      | .non n p m, _ => .non n p m
      | _, x => x) acc.2 xs)
  | _, _, _ =>
    let a := acc.1.getD (-54)
    let unit : Int := 2 ^ ((anchor.getD 0) + 65).toNat
    (acc.1, List.zipWith (fun l x => match x with
      | .win v => if v = 0 then l else l.add a (v * unit)
      | .pro v => l.add a v
      | .non n p m => l.join n p m) acc.2 xs)

/-! ## binary32 (R218) -/

/-- A value rounded to binary32 to nearest even; past the range it is an infinity, and every NaN is 0x7FC00000. -/
def toF32 (v : Val) : W32 := BitVec.ofNat 32 (convFp 0 0 0 0 v).1

/-- The exact value of a binary32. -/
def f32Num (w : W32) : Num := (fpFmt 0).decode 0 w.toNat

/-- binary32 addition, rounded to nearest even (R218). -/
def f32Add (a b : W32) : W32 :=
  match f32Num a, f32Num b with
  | .nan, _ => 0x7FC00000
  | _, .nan => 0x7FC00000
  | .inf x, .inf y => if x = y then toF32 (.inf x) else 0x7FC00000
  | .inf x, _ => toF32 (.inf x)
  | _, .inf y => toF32 (.inf y)
  | .fin x nx, .fin y ny => toF32 (.fin ((x + y) * 2 ^ 11) 1 (nx && ny))

/-! ## Selection and bitwise folds (R220) -/

/-- Whether one value stands below another, −0 below +0 (R220). -/
def numLt : Num → Num → Bool
  | .inf true, .inf true => false
  | .inf true, _ => true
  | _, .inf true => false
  | .inf false, _ => false
  | .fin _ _, .inf false => true
  | .fin a na, .fin b nb => decide (a < b) || (a == b && na && !nb)
  | _, _ => false

/-- Two elements under MIN, MAX, AND, OR or XOR; NaN wins a selection as the canonical NaN (R220, R223). -/
def pick (op code a b : Nat) : Nat :=
  if op = 4 then a &&& b
  else if op = 5 then a ||| b
  else if op = 6 then a ^^^ b
  else
    let w := fmtB64 code / 64
    let num (x : Nat) : Num := if fmtInt code then .fin (signedOf (8 * w) x) false else (fpFmt code).decode 0 x
    match num a, num b with
    | .nan, _ => nanOf code
    | _, .nan => nanOf code
    | x, y => if op = 2 then (if numLt y x then b else a) else (if numLt x y then b else a)

/-- Two blocks of elements under a selection or bitwise operator. -/
def pickBytes (op code : Nat) (a b : List Byte) : List Byte :=
  let w := fmtB64 code / 64
  (List.range 64).flatMap (fun i => leBytes w (pick op code (leAt a (w * i) w) (leAt b (w * i) w)))

/-- A block of scalar floating elements with each NaN as the canonical NaN (R223). -/
def canonBytes (code : Nat) (a : List Byte) : List Byte :=
  let w := fmtB64 code / 64
  (List.range 64).flatMap (fun i =>
    let x := leAt a (w * i) w
    leBytes w (if (fpFmt code).decode 0 x = .nan then nanOf code else x))

/-! ## The arithmetic word (R208, Table 08-4) -/

/-- IN_FMT. -/
def wIn (w : Nat) : Nat := w % 16
/-- OUT_FMT. -/
def wOut (w : Nat) : Nat := w / 16 % 16
/-- OPERATOR. -/
def wOp (w : Nat) : Nat := w / 256 % 8
/-- MODE: 0 EXACT, 1 ORDERED, 2 ARRIVAL. -/
def wMode (w : Nat) : Nat := w / 2 ^ 11 % 4
/-- ROUND. -/
def wRound (w : Nat) : Nat := w / 2 ^ 13 % 4
/-- OVF. -/
def wOvf (w : Nat) : Nat := w / 2 ^ 15 % 4
/-- CHUNK. -/
def wChunk (w : Nat) : Nat := w / 2 ^ 17 % 8
/-- RUNAHEAD, the number of chunks. -/
def wRun (w : Nat) : Nat := w / 2 ^ 20 % 4 + 1
/-- PATH. -/
def wPath (w : Nat) : Nat := w / 2 ^ 22 % 4
/-- SEED_KEY. -/
def wSeed (w : Nat) : W32 := BitVec.ofNat 32 (w / 2 ^ 32)
/-- CHUNK in bytes (Table 08-4). -/
def chunkBytes (w : Nat) : Nat := if wChunk w = 0 then 65536 else 2048 * 2 ^ wChunk w

/-- How a chunk's blocks are accumulated: EXACT floating, integers, binary32, selected elements, or the one input of an ALL_GATHER or BROADCAST (R187). -/
inductive AccKind where
  | exact | ints | f32 | raw | copy
  deriving DecidableEq, Repr

/-- The accumulation of an arithmetic word (R209, R214, R218, R220). -/
def accKind (w : Nat) (copies : Bool) : AccKind :=
  if copies then .copy
  else if decide (2 ≤ wOp w) then .raw
  else if fmtInt (wIn w) then .ints
  else if wMode w = 0 then .exact else .f32

/-- The empty accumulator. -/
def accNew (k : AccKind) (w : Nat) : Blk := match k with
  | .exact => blkNew
  | .ints => .ints (List.replicate 64 0)
  | .f32 => .f32 (List.replicate 64 0)
  | .raw | .copy => .raw (List.replicate (fmtB64 (wIn w)) 0)

/-- The integer value of a decoded integer element. -/
def numInt : Num → Int
  | .fin v _ => v
  | _ => 0

/-- A contribution of B64 bytes folded into an accumulator, none standing for one that nothing has been folded into (R210–R214, R218–R220). -/
def foldContribution (k : AccKind) (w : Nat) (acc : Option Blk) (bs : List Byte) : Blk :=
  let xs := decodeBlock (wIn w) bs
  match k with
  | .exact => match acc with
    | some (.exact a ls) => let r := foldNums (a, ls) xs; .exact r.1 r.2
    | _ => let r := foldNums (none, List.replicate 64 (.win 0)) xs; .exact r.1 r.2
  | .ints => match acc with
    | some (.ints ls) => .ints (List.zipWith (fun a x => a + numInt x) ls xs)
    | _ => .ints (xs.map numInt)
  | .f32 => match acc with
    | some (.f32 ls) => .f32 (List.zipWith (fun a x => f32Add a (toF32 (x.val 1))) ls xs)
    | _ => .f32 (xs.map (fun x => toF32 (x.val 1)))
  | .raw =>
    let bs := bs ++ List.replicate (fmtB64 (wIn w) - bs.length) 0
    match acc with
    | some (.raw a) => .raw (pickBytes (wOp w) (wIn w) a bs)
    | _ => .raw (if decide (wOp w < 4) && !fmtInt (wIn w) then canonBytes (wIn w) bs else bs)
  | .copy => .raw (bs ++ List.replicate (fmtB64 (wIn w) - bs.length) 0)

/-- A partial block folded into an accumulator (R216, R218–R220). -/
def foldPartial (k : AccKind) (w : Nat) (acc : Option Blk) (p : Blk) : Blk :=
  match acc, p with
  | some (.exact a ls), .exact b xs => let r := foldPart (a, ls) b xs; .exact r.1 r.2
  | none, .exact b xs => let r := foldPart (none, List.replicate 64 (.win 0)) b xs; .exact r.1 r.2
  | some (.ints ls), .ints xs => .ints (List.zipWith (· + ·) ls xs)
  | some (.f32 ls), .f32 xs => .f32 (List.zipWith f32Add ls xs)
  | some (.raw a), .raw b => if k = .raw then .raw (pickBytes (wOp w) (wIn w) a b) else .raw a
  | some a, _ => a
  | none, p => p

/-! ## Wire forms (R215, R216, R218, R220) -/

/-- The bits a signed number takes. -/
def signedBits (v : Int) : Nat := if v = 0 ∨ v = -1 then 1 else Nat.log2 (if v < 0 then -v - 1 else v).toNat + 2

/-- Trailing zero bits of a non-zero number; the fuel bounds them. -/
def trailing : Nat → Int → Nat
  | 0, _ => 0
  | k + 1, v => if v % 2 = 0 then trailing k (v / 2) + 1 else 0

/-- The low n bits of a number as two's complement. -/
def twosOf (n : Nat) (v : Int) : Nat := (v % (2 ^ n : Int)).toNat

/-- The window value of a lane. -/
def Lane.window : Lane → Int
  | .win v => v
  | _ => 0

/-- A block of window values, promoted and non-finite lanes in the anchored form (R215, Tables 09-2, 09-3). -/
def anchored (anchor : Option Int) (ls : List Lane) : List Byte :=
  let ws := ls.map Lane.window
  let nz := ws.filter (fun v => decide (v ≠ 0))
  let empty := nz.isEmpty
  let shift := if empty then 0 else (nz.map (trailing 127)).foldl min 127
  let need := (nz.map (fun v => signedBits (v / 2 ^ shift))).foldl max 1
  let wb := if empty then 0 else (need + 7) / 8
  let pros := ls.zipIdx.flatMap (fun x => match x.1 with
    | .pro v => leBytes 8 x.2 ++ leBytes 48 (twosOf 384 v)
    | _ => [])
  let nons := ls.zipIdx.flatMap (fun x => match x.1 with
    | .non n p m => leBytes 2 (x.2 + (if n then 64 else 0) + (if p then 128 else 0) + (if m then 256 else 0))
    | _ => [])
  let head := nons.length / 2 * 2 ^ 31 + pros.length / 56 * 2 ^ 24 + wb * 2 ^ 19 + shift * 2 ^ 12 + (if empty then 2 ^ 10 else 0) +
    twosOf 10 (anchor.getD 0)
  leBytes 8 head ++ (if empty then [] else leBytes (64 * wb) (packBits (8 * wb) (ws.map (fun v => twosOf (8 * wb) (v / 2 ^ shift))))) ++
    pros ++ nons ++ List.replicate ((8 - nons.length % 8) % 8) 0

/-- A block as its partial carries it (R215, R218, R220). -/
def blkBytes (w : Nat) : Blk → List Byte
  | .exact a ls => anchored a ls
  | .ints ls => if wMode w = 0 then anchored none (ls.map Lane.win) else ls.flatMap (fun v => leBytes 8 (twosOf 64 v))
  | .f32 ls => ls.flatMap (fun v => leBytes 4 v.toNat)
  | .raw bs => bs

/-- What a string begins with: a whole block and its bytes, a block that goes on past the string, or a malformed block (R216). -/
inductive Parsed where
  | ok (b : Blk) (used : Nat)
  | more
  | bad

/-- The lane records of a block: position, and the value the lane takes. -/
def setLanes (ls : List Lane) (rs : List (Nat × Lane)) : List Lane := rs.foldl (fun ls r => ls.set r.1 r.2) ls

/-- Whether numbers ascend strictly. -/
def ascending : List Nat → Bool
  | a :: b :: r => decide (a < b) && ascending (b :: r)
  | _ => true

/-- An anchored block read from a string (R216). -/
def parseAnchored (ints : Bool) (bs : List Byte) : Parsed :=
  if bs.length < 8 then .more
  else
    let h := leAt bs 0 8
    let anchor := signedOf 10 h
    let empty := h.testBit 10
    let shift := natBits h 18 12
    let wb := natBits h 23 19
    let pc := natBits h 30 24
    let nf := natBits h 37 31
    if h.testBit 11 || decide (2 ^ 38 ≤ h) || decide (64 < pc + nf) || decide (anchor < -54) || decide (143 < anchor) ||
       (ints && (decide (anchor ≠ 0) || pc != 0 || decide (12 < wb))) || decide (16 < wb) || (empty && (wb != 0 || shift != 0)) ||
       (!empty && wb == 0) || (ints && nf != 0) then .bad
    else
      let vals := 64 * wb
      let size := 8 + vals + 56 * pc + 8 * ((nf + 3) / 4)
      if bs.length < size then .more
      else
        let field := ofLe ((bs.drop 8).take vals)
        let ws := (List.range 64).map (fun i => if empty then (0 : Int) else signedOf (8 * wb) (field / 2 ^ (8 * wb * i)) * 2 ^ shift)
        let pos (i : Nat) : Nat := 8 + vals + 56 * i
        let nos (i : Nat) : Nat := 8 + vals + 56 * pc + 2 * i
        let pl := (List.range pc).map (fun i => leAt bs (pos i) 8)
        let nl := (List.range nf).map (fun i => leAt bs (nos i) 2)
        let nlanes := nl.map (· % 64)
        if pl.any (fun x => decide (64 ≤ x)) || nl.any (fun x => decide (512 ≤ x)) || !ascending pl || !ascending nlanes ||
           pl.any (fun x => nlanes.contains x) then .bad
        else if ints then .ok (.ints ws) size
        else
          let pros := (List.range pc).map (fun i => (pl.getD i 0, Lane.pro (signedOf 384 (leAt bs (pos i + 8) 48))))
          let nons := nl.map (fun x => (x % 64, Lane.non (x.testBit 6) (x.testBit 7) (x.testBit 8)))
          .ok (.exact (some anchor) (setLanes (setLanes (ws.map Lane.win) pros) nons)) size

/-- The next block of a partial string (R215, R216, R218, R220). -/
def parseBlk (k : AccKind) (w : Nat) (bs : List Byte) : Parsed :=
  match k with
  | .exact => parseAnchored false bs
  | .ints =>
    if wMode w = 0 then parseAnchored true bs
    else if bs.length < 512 then .more
    else .ok (.ints ((List.range 64).map (fun i => signedOf 64 (leAt bs (8 * i) 8)))) 512
  | .f32 => if bs.length < 256 then .more else .ok (.f32 ((List.range 64).map (fun i => BitVec.ofNat 32 (leAt bs (4 * i) 4)))) 256
  | .raw | .copy => let n := fmtB64 (wIn w); if bs.length < n then .more else .ok (.raw (bs.take n)) n

/-- The largest string of a chunk of n blocks (R215, R218, R220). -/
def maxString (k : AccKind) (w n : Nat) : Nat := n * match k with
  | .exact => 4560
  | .ints => if wMode w = 0 then 776 else 512
  | .f32 => 256
  | .raw | .copy => fmtB64 (wIn w)

/-! ## Final conversion (R221–R226) -/

/-- The value of a lane of an EXACT accumulator, divided by m (R221, R223, R224). -/
def laneVal (anchor : Int) (m : Nat) : Lane → Val
  | .win v => .fin (v * 2 ^ (anchor + 65).toNat) m false
  | .pro v => .fin v m false
  | .non nan pos neg => if nan || (pos && neg) then .nan else .inf neg

/-- The values of an accumulator: m divides a MEAN's (R175, R224). -/
def blkVals (w m : Nat) : Blk → List Val
  | .exact a ls => ls.map (laneVal (a.getD (-54)) m)
  | .ints ls => ls.map (fun v => intVal v m)
  | .f32 ls => ls.map (fun v => (f32Num v).val m)
  | .raw bs => (decodeBlock (wIn w) bs).map (fun x => if fmtInt (wIn w) then intVal (numInt x) 1 else x.val 1)

/-- The result bytes of the first n elements of an accumulator, and how many elements are counted (R221–R226). Elements that are only selected or
copied into their own format keep their bytes (R187, R220). base is the element index of the first. -/
def finish (w m : Nat) (step : W32) (base n : Nat) (b : Blk) : List Byte × Nat :=
  match b with
  | .raw bs =>
    if wIn w = wOut w then (bs.take (fmtBytes (wOut w) n), 0)
    else convBlock (wOut w) (wOvf w) (wRound w) (fun i => rnd (wSeed w) step (base + i)) ((blkVals w m b).take n)
  | b => convBlock (wOut w) (wOvf w) (wRound w) (fun i => rnd (wSeed w) step (base + i))
           ((blkVals w (if wOp w = 1 then m else 1) b).take n)

/-- The exact values of n output elements. -/
def outNums (code n : Nat) (bs : List Byte) : List Num :=
  ((List.range ((n + 63) / 64)).flatMap (fun i => decodeBlock code ((bs.drop (i * fmtB64 code)).take (fmtB64 code)))).take n

/-! ## Statistics of output elements (R234) -/

/-- A positive rational num × 2^−160 × 2^−scale as a binary64 without sign, rounded to nearest even. -/
def f64Mag (scale : Int) (num : Nat) : Nat :=
  if num = 0 then 0
  else
    let f : FpFmt := ⟨11, 52, 1023, true, false⟩
    let r := roundQ 53 (-1022) 0 0 scale num 1
    f.encode r.1 r.2

/-- A rational as a binary64 (R234). -/
def f64Of (scale : Int) (v : Int) (negZero : Bool) : FT :=
  BitVec.ofNat 64 (f64Mag scale v.natAbs + (if v < 0 ∨ (v = 0 ∧ negZero = true) then 2 ^ 63 else 0))

/-- The least or greatest finite value as a binary64. -/
def statEnd (ints greatest : Bool) (xs : List Num) : FT :=
  let best := xs.foldl (fun (b : Option Num) x => match x with
    | .fin _ _ => (match b with
      | none => some x
      | some y => if (if greatest then numLt y x else numLt x y) then some x else some y)
    | _ => b) none
  match best with
  | some (.fin v neg) => f64Of (if ints then -160 else -11) v neg
  | _ => 0x7FF8000000000000

/-- The statistics of values of an output format (R234, Table 10-1), without CHUNK, MEMBER and REF. -/
def statsOf (code : Nat) (xs : List Num) : StatsRec :=
  let ints := fmtInt code
  let cnt (p : Num → Bool) : W32 := BitVec.ofNat 32 (min (xs.filter p).length 0xFFFFFFFF)
  let sum := xs.foldl (fun a x => a + numInt x) 0
  let sq := xs.foldl (fun a x => a + numInt x * numInt x) 0
  { count := BitVec.ofNat 32 (min xs.length 0xFFFFFFFF), nan := cnt (· == .nan), posInf := cnt (· == .inf false), negInf := cnt (· == .inf true),
    min := statEnd ints false xs, max := statEnd ints true xs,
    sum := f64Of (if ints then -160 else -11) sum false, sumsq := f64Of (if ints then -160 else 138) sq false }

/-- The bytes of a statistics record (Table 10-1). -/
def statBytes (r : StatsRec) : List Byte :=
  leBytes 4 r.count.toNat ++ leBytes 4 r.nan.toNat ++ leBytes 4 r.posInf.toNat ++ leBytes 4 r.negInf.toNat ++ leBytes 8 r.min.toNat ++
  leBytes 8 r.max.toNat ++ leBytes 8 r.sum.toNat ++ leBytes 8 r.sumsq.toNat ++ leBytes 4 r.chunk.toNat ++ leBytes 4 r.member.toNat ++
  leBytes 8 r.ref.toNat

/-- A CRC state after n zero bytes: the shift of a digest to an earlier position (R232). -/
def crcZeros : Nat → FT → FT
  | 0, c => c
  | n + 1, c => crcZeros n (crc64Byte c 0)

/-- The digest of two byte strings one after the other from their digests and the second's length (R232, R237). -/
def crcJoin (a b : FT) (len : Nat) : FT := crcZeros len a ^^^ b

end Sys2Proof.Machine
end

