-- ==== Sys2Proof/Machine/Group.lean ====
section
/-! DEFINITION. Groups and plans: the GROUP record, member indices, chunks, and the edges of a chunk's plan at an engine or in the NI tree
(R178–R187, Tables 08-6, 16-11). -/
namespace Sys2Proof.Machine

/-- A group (Table 16-11); sw marks one at a Priberun-S, whose record lists member ports. -/
structure Group where
  num : Nat
  key : Nat
  levels : Nat
  ioMask : Nat
  depth : Nat
  sparse : Bool
  top : Bool
  origin : List Nat
  extent : List Nat
  stride : List Nat
  podStride : Nat
  podOrigin : Nat
  upPort : Nat
  pods : Nat
  members : List Nat
  quantum : Nat
  streams : List Nat
  sw : Bool := false
  deriving DecidableEq, Repr

/-- A group from the payload of its record. -/
def groupOf (p : List Byte) : Group :=
  let n := leAt p 22 2
  { num := leAt p 0 2, key := leAt p 2 2, levels := leAt p 4 1, ioMask := leAt p 5 1 % 16, depth := leAt p 6 1,
    sparse := (leAt p 7 1).testBit 0, top := (leAt p 7 1).testBit 1,
    origin := (List.range 3).map (fun i => leAt p (8 + i) 1), extent := (List.range 3).map (fun i => leAt p (11 + i) 1),
    stride := (List.range 3).map (fun i => leAt p (14 + i) 1), podStride := leAt p 17 1, podOrigin := leAt p 18 1, upPort := leAt p 19 1,
    pods := leAt p 20 2, members := (List.range n).map (fun i => leAt p (32 + 2 * i) 2), quantum := leAt p 24 4,
    streams := (List.range (leAt p 28 2)).map (fun i => leAt p (32 + 2 * n + 2 * i) 2) }

/-- The groups of a bank. -/
def bankGroups (b : Bank) : List Group := (b.recs.filter (fun r => r.kind == 0x0601)).map (fun r => groupOf r.payload)

/-- A group of a bank by its number (R177). -/
def findGroup (b : Bank) (n : Nat) : Option Group := (bankGroups b).find? (fun g => g.num == n)

/-- The extent along an axis. -/
def Group.ext (g : Group) (a : Nat) : Nat := g.extent.getD a 1

/-- M (R179); no record of a Priberun-S gives it there (log 42). -/
def Group.size (g : Group) : Nat :=
  if g.sw then (Config.switchMembers g.num).toNat else g.members.length * g.ext 0 * g.ext 1 * g.ext 2 * g.pods

/-- The position of a coordinate along an axis of the sub-block (R179). -/
def Group.axisPos (g : Group) (coord : BitVec 17) (a : Nat) : Option Nat :=
  (List.range (g.ext a)).find? (fun i => (g.origin.getD a 0 + i * g.stride.getD a 1) % 8 == coordAxis coord a)

/-- The pod ordinal of a coordinate. -/
def Group.podPos (g : Group) (coord : BitVec 17) : Option Nat :=
  (List.range g.pods).find? (fun i => g.podOrigin + i * g.podStride == coordPod coord)

/-- A package's position in a group: along X, Y and Z, and its pod ordinal (R179). -/
structure PkgPos where
  xyz : List Nat
  pod : Nat
  deriving DecidableEq, Repr

/-- The position of a package; none where it is no member. -/
def Group.pos (g : Group) (coord : BitVec 17) : Option PkgPos :=
  match g.axisPos coord 0, g.axisPos coord 1, g.axisPos coord 2, g.podPos coord with
  | some i, some j, some k, some p => some { xyz := [i, j, k], pod := p }
  | _, _, _, _ => none

/-- The coordinate of a position. -/
def Group.coordAt (g : Group) (p : PkgPos) : BitVec 17 :=
  let at_ (a : Nat) : Nat := (g.origin.getD a 0 + p.xyz.getD a 0 * g.stride.getD a 1) % 8
  BitVec.ofNat 17 ((g.podOrigin + p.pod * g.podStride) * 512 + at_ 2 * 64 + at_ 1 * 8 + at_ 0)

/-- The package index of a position (R179). -/
def Group.pkgIndex (g : Group) (p : PkgPos) : Nat :=
  ((p.pod * g.ext 2 + p.xyz.getD 2 0) * g.ext 1 + p.xyz.getD 1 0) * g.ext 0 + p.xyz.getD 0 0

/-- The position of a member's package. -/
def Group.memberPos (g : Group) (t : Nat) : PkgPos :=
  let k := t / max 1 g.members.length
  { xyz := [k % g.ext 0, k / g.ext 0 % g.ext 1, k / (g.ext 0 * g.ext 1) % g.ext 2], pod := k / (g.ext 0 * g.ext 1 * g.ext 2) }

/-- The station of a member. -/
def Group.memberSt (g : Group) (t : Nat) : Nat := g.members.getD (t % max 1 g.members.length) 0

/-- The member index of a station of a package (R179). -/
def Group.memberOf (g : Group) (coord : BitVec 17) (st : Nat) : Option Nat :=
  match g.pos coord, (List.range g.members.length).find? (fun i => g.members.getD i 0 == st) with
  | some p, some i => some (g.pkgIndex p * g.members.length + i)
  | _, _ => none

/-- Whether a group's levels stay within the package (R201). -/
def Group.local (g : Group) : Bool := g.levels / 4 == 0

/-! ## Chunks (R183) -/

/-- What a chunk is: the elements per slot or share, the elements per chunk, the chunks per slot or share, and how many there are in all. -/
structure Geo where
  len : Nat
  per : Nat
  k : Nat
  total : Nat
  deriving DecidableEq, Repr

/-- Operation codes (Table 08-1). -/
def opScatter : Nat := 0x21
/-- ALL_GATHER. -/
def opGather : Nat := 0x22
/-- REDUCE. -/
def opReduce : Nat := 0x23
/-- BROADCAST. -/
def opBroadcast : Nat := 0x24
/-- ALL_TO_ALL. -/
def opAllToAll : Nat := 0x25
/-- SPARSE_SUM. -/
def opSparse : Nat := 0x26
/-- BARRIER. -/
def opBarrier : Nat := 0x27

/-- Whether an operation copies and folds nothing (R187). -/
def opCopies (op : Nat) : Bool := op == opGather || op == opBroadcast || op == opAllToAll

/-- The chunks of an instance on the engine path, or on the NI path where a whole contribution is one chunk (R182, R183). -/
def geoOf (engine : Bool) (op cap m w : Nat) : Geo :=
  let len := if op = opScatter then cap / max 1 m else cap
  let per := if engine then chunkBytes w / fmtB64 (wIn w) * 64 else max 1 len
  let k := (len + per - 1) / per
  if op = opSparse then { len := cap, per := max 1 cap, k := 1, total := 1 }
  else if op = opBarrier then { len := 0, per := 1, k := 0, total := 0 }
  else { len := len, per := per, k := max 1 k, total := if op = opScatter ∨ op = opGather ∨ op = opAllToAll then m * max 1 k else max 1 k }

/-- The slot or share of a chunk. -/
def Geo.slot (g : Geo) (c : Nat) : Nat := c / max 1 g.k

/-- The first element of a chunk in its slot or share. -/
def Geo.start (g : Geo) (c : Nat) : Nat := c % max 1 g.k * g.per

/-- The elements of a chunk. -/
def Geo.count (g : Geo) (c : Nat) : Nat := min g.len (g.start c + g.per) - g.start c

/-- The element index of a chunk's first element for rnd (Table 09-7). -/
def Geo.index (g : Geo) (op c : Nat) : Nat := (if op = opScatter ∨ op = opGather then g.slot c * g.len else 0) + g.start c

/-- The member whose contribution alone a chunk carries, where it is one (R184). -/
def Geo.source (g : Geo) (op root c : Nat) : Option Nat :=
  if op = opGather then some (g.slot c) else if op = opBroadcast then some root else none

/-- The member that alone receives a chunk's result, where it is one (R187). -/
def Geo.dest (g : Geo) (op root c : Nat) : Option Nat :=
  if op = opScatter then some (g.slot c) else if op = opReduce then some root else none

/-- The byte offset of a chunk in a member's output (R187), and its element offset there. -/
def Geo.outElem (g : Geo) (op c : Nat) : Nat := (if op = opGather ∨ op = opAllToAll then g.slot c * g.len else 0) + g.start c

/-- The byte offset of a chunk in the output. -/
def Geo.outByte (g : Geo) (op fmt c : Nat) : Nat :=
  (if op = opGather ∨ op = opAllToAll then g.slot c * fmtBytes fmt g.len else 0) + fmtBytes fmt (g.start c)

/-! ## Plans -/

/-- An edge of a plan: the unit at its other end, the member it is where it is one, and the lowest member index it covers. ext marks an edge to a unit
that no table names: whoever outside the package sends on it (R186, log 42). -/
structure Edge where
  coord : BitVec 17
  st : Nat
  member : Option Nat := none
  low : Nat := 0
  ext : Bool := false
  deriving DecidableEq, Repr

/-- A unit of a chunk's plan: its in-edges in fold order, the edge its partial leaves on, the edge its result comes on, and the edges its result leaves
on (R184–R187). one tells that a single in-edge, whichever it is, brings the chunk. -/
structure Node where
  ins : List Edge
  up : Option Edge
  parent : Option Edge
  downs : List Edge
  one : Bool := false
  deriving DecidableEq, Repr

/-- Edges in ascending order of the lowest member index they cover (R187). -/
def sortLow (es : List Edge) : List Edge := es.mergeSort (fun a b => decide (a.low ≤ b.low))

/-- The edge toward a Priberun-S (R186, log 42). -/
def switchEdge (g : Group) (c : Nat) : Edge :=
  let v := Config.switchPeer g.num c
  { coord := BitVec.ofNat 17 v.toNat, st := v.toNat / 2 ^ 17 % 65536 }

/-- The torus axes that a group's LEVELS set, in order (R185). -/
def Group.axes (g : Group) : List Nat := (List.range 3).filter (fun a => g.levels.testBit (2 + a))

/-- The I/O die bits of a group. -/
def Group.ioDies (g : Group) : List Nat := setBitsOf g.ioMask 4

/-- d(c) (R185). -/
def Group.ioDie (g : Group) (c : Nat) : Nat := g.ioDies.getD (c % max 1 g.ioDies.length) 0

/-- Whether a chunk travels + (R185). -/
def Group.plus (g : Group) (c : Nat) : Bool := c / max 1 g.ioDies.length % 2 == 0

/-- o(c) on an axis (R185). -/
def Group.owner (g : Group) (c a : Nat) : Nat := c / (2 * max 1 g.ioDies.length) % max 1 (g.ext a)

/-- The place of a ring position in a chunk's chain: 0 first, n − 1 the owner (R185). -/
def Group.chain (g : Group) (c a r : Nat) : Nat :=
  let n := max 1 (g.ext a)
  if g.plus c then (r + 2 * n - g.owner c a - 1) % n else (g.owner c a + 2 * n - 1 - r) % n

/-- The ring position at a place of the chain. -/
def Group.chainPos (g : Group) (c a j : Nat) : Nat :=
  let n := max 1 (g.ext a)
  if g.plus c then (g.owner c a + 1 + j) % n else (g.owner c a + 2 * n - 1 - j) % n

/-- The engine of a chunk's ingress port on an axis (R185). -/
def ringEngine (p : Package) (g : Group) (c a : Nat) : Nat :=
  portEngine p (7 * g.ioDie c + 2 * a + (if g.plus c then 1 else 0))

/-- A package's position with another place along an axis. -/
def PkgPos.move (q : PkgPos) (a r : Nat) : PkgPos := { q with xyz := q.xyz.set a r }

/-- The dies that hold members, ascending (R184). -/
def Group.dies (g : Group) : List Nat := (List.range 16).filter (fun d => g.members.any (fun m => m / 2048 == d))

/-- The die engine of a chunk (R184). -/
def dieEngine (d c : Nat) : Nat := d * 2048 + 80 + c % 4

/-- D(c) (R184). -/
def Group.ownerDie (g : Group) (c : Nat) : Nat := g.dies.getD (c / 4 % max 1 g.dies.length) 0

/-- Whether a package and a member agree along the axes after one, and in the pod. -/
def sameLater (a : Nat) (q t : PkgPos) : Bool :=
  q.pod == t.pod && (List.range 3).all (fun b => decide (b ≤ a) || q.xyz.getD b 0 == t.xyz.getD b 0)

/-- The unit that takes a package's partial after the axes before one are done: the owner-die engine, or the last earlier axis's engine. -/
def levelEngine (p : Package) (g : Group) (c a : Nat) : Nat :=
  match (g.axes.filter (fun b => decide (b < a))).getLast? with
  | some b => ringEngine p g c b
  | none => dieEngine (g.ownerDie c) c

/-- The edge above an axis, or above the package level where a is none (R185, R186). -/
def levelUp (p : Package) (g : Group) (coord : BitVec 17) (c : Nat) (a : Option Nat) : Option Edge :=
  match (g.axes.filter (fun b => match a with
    | some x => decide (x < b)
    | none => true)).head? with
  | some b => some { coord := coord, st := ringEngine p g c b }
  | none => if g.levels.testBit 5 then some (switchEdge g c) else none

/-- Whether the chunk's chains of the axes before one end at this package, so that the axis runs through it (R185). -/
def ringReached (g : Group) (q : PkgPos) (c a : Nat) : Bool :=
  (g.axes.filter (fun b => decide (b < a))).all (fun b => q.xyz.getD b 0 == g.owner c b)

/-- The plan of a chunk at a die engine (R184). src and dst name the one contributor or receiver, where there is one. -/
def diePlan (p : Package) (g : Group) (coord : BitVec 17) (q : PkgPos) (c d : Nat) (src dst : Option Nat) : Node :=
  let L := g.members.length
  let base := g.pkgIndex q * L
  let mine := (List.range L).filter (fun i => g.members.getD i 0 / 2048 == d)
  let ms : List Edge := mine.map (fun i => { coord := coord, st := g.members.getD i 0, member := some (base + i), low := base + i })
  let here (t : Nat) : Bool := t / max 1 L == g.pkgIndex q
  let own := g.ownerDie c
  let ds : List Edge := if d = own then (g.dies.filter (· != own)).map (fun e =>
      { coord := coord, st := dieEngine e c,
        low := base + ((List.range L).find? (fun i => g.members.getD i 0 / 2048 == e)).getD 0 }) else []
  let leads (t : Nat) (e : Edge) : Bool := match e.member with
    | some m => m == t
    | none => here t && g.memberSt t / 2048 == e.st / 2048
  let keep (t : Option Nat) (es : List Edge) : List Edge := match t with
    | some x => es.filter (leads x)
    | none => es
  let up := if d = own then levelUp p g coord c none else some { coord := coord, st := dieEngine own c }
  { ins := sortLow (keep src (ms ++ ds)), up := up, parent := up, downs := sortLow (keep dst (ms ++ ds)) }

/-- The plan of a chunk at the engine of a ring (R185, R187). -/
def ringPlan (p : Package) (g : Group) (coord : BitVec 17) (q : PkgPos) (c a : Nat) (src dst : Option Nat) : Node :=
  let n := max 1 (g.ext a)
  let j := g.chain c a (q.xyz.getD a 0)
  let at_ (i : Nat) : Edge := { coord := g.coordAt (q.move a (g.chainPos c a i)), st := ringEngine p g c a }
  let loc : Edge := { coord := coord, st := levelEngine p g c a }
  let place (t : Nat) : Nat := g.chain c a ((g.memberPos t).xyz.getD a 0)
  let near (t : Nat) : Bool := sameLater a q (g.memberPos t)
  let want (o : Option Nat) (ok : Nat → Bool) : Bool := match o with
    | some t => near t && ok (place t)
    | none => true
  let last := j + 1 == n
  let above := levelUp p g coord c (some a)
  { ins := (if 0 < j ∧ want src (fun i => decide (i < j)) = true then [at_ (j - 1)] else []) ++ (if want src (· == j) then [loc] else []),
    up := if last then above else some (at_ (j + 1)),
    parent := if last then above else if j = 0 then some (at_ (n - 1)) else some (at_ (j - 1)),
    downs := (if last then (if 1 < n ∧ want dst (fun i => decide (i + 1 < n)) = true then [at_ 0] else [])
              else if j + 2 < n ∧ want dst (fun i => decide (j < i ∧ i + 1 < n)) = true then [at_ (j + 1)] else []) ++
             (if want dst (· == j) then [loc] else []) }

/-- The plan of a chunk at an engine of a Priberun-S: a chain in ascending member port number (R186). -/
def switchPlan (g : Group) (coord : BitVec 17) (c : Nat) (st : Nat) (one : Bool) : Option Node :=
  let ports := g.members.mergeSort (fun a b => decide (a ≤ b))
  match (List.range ports.length).find? (fun i => 320 + ports.getD i 0 == st) with
  | none => none
  | some i =>
    let at_ (k : Nat) : Edge := { coord := coord, st := 320 + ports.getD k 0 }
    let below : Edge := { coord := 0, st := 0, ext := true }
    let prev := if 0 < i then [at_ (i - 1)] else []
    let up := if i + 1 < ports.length then some (at_ (i + 1)) else if g.top then none else some (switchEdge g c)
    some { ins := prev ++ [below], up := up, parent := up, downs := prev ++ [below], one := one }

/-- The plan of a chunk at an engine (R184–R187); none where the engine has no part in it. -/
def enginePlan (p : Package) (g : Group) (coord : BitVec 17) (c st : Nat) (src dst : Option Nat) : Option Node :=
  if p.isS then switchPlan g coord c st src.isSome
  else match g.pos coord with
  | none => none
  | some q =>
    match g.dies.find? (fun d => dieEngine d c == st) with
    | some d => some (diePlan p g coord q c d src dst)
    | none =>
      match g.axes.find? (fun a => ringEngine p g c a == st && ringReached g q c a) with
      | some a => some (ringPlan p g coord q c a src dst)
      | none => none

/-- Whether a member stands in the NI tree below another, or is it (R182). The fuel bounds the depth of the 8-ary tree of 2^27 members. -/
def inSubtree : Nat → Nat → Nat → Bool
  | 0, top, t => top == t
  | k + 1, top, t => top == t || (decide (top < t) && inSubtree k top ((t - 1) / 8))

/-- The edge to a member. -/
def memberEdge (g : Group) (t : Nat) : Edge :=
  { coord := g.coordAt (g.memberPos t), st := g.memberSt t, member := some t, low := t }

/-- The plan of the NI tree at a member (R182). -/
def niPlan (g : Group) (me : Nat) (src dst : Option Nat) : Node :=
  let kids := ((List.range 8).map (fun i => 8 * me + 1 + i)).filter (fun t => decide (t < g.size))
  let keep (o : Option Nat) (ts : List Nat) : List Nat := match o with
    | some x => ts.filter (fun t => if t = me then x == me else inSubtree 12 t x)
    | none => ts
  let up := if me = 0 then none else some (memberEdge g ((me - 1) / 8))
  { ins := (keep src (me :: kids)).map (memberEdge g), up := up, parent := up, downs := (keep dst (me :: kids)).map (memberEdge g) }

/-- Whether an operation runs on the engine path (R181). w is the arithmetic word. -/
def enginePath (op cap w : Nat) : Bool :=
  if op = opAllToAll ∨ op = opBarrier then false
  else if op = opSparse then true
  else if wPath w = 1 then false
  else if wPath w = 2 then true
  else decide (65536 ≤ fmtBytes (wIn w) cap)

/-- The route of a ring segment: hops on the chunk's axis and direction only (R185, GV4). -/
def ringRoute (g : Group) (c a : Nat) (src dst : BitVec 17) : BitVec 160 :=
  let hops := if g.plus c then (coordAxis dst a + 8 - coordAxis src a) % 8 else (coordAxis src a + 8 - coordAxis dst a) % 8
  routeOf (List.replicate hops (7 * g.ioDie c + 2 * a + (if g.plus c then 0 else 1)) ++ [31])

end Sys2Proof.Machine
end

