-- ==== Sys2Proof/Machine/Flags.lean ====
section
/-! DEFINITION. The codes and the status and event bits that the block computes: completion statuses (Table 02-4), refusers
(R120), and the counters and bits that each drop of a frame sets at an NI (R45, R46, R96, R295). -/
namespace Sys2Proof.Machine

/-- OK. -/
def stOk : Nat := 0x00
/-- POLICED_RED. -/
def stRed : Nat := 0x01
/-- POOL_CEILING. -/
def stCeiling : Nat := 0x02
/-- NO_WINDOW. -/
def stNoWindow : Nat := 0x03
/-- PARTITION. -/
def stPartition : Nat := 0x04
/-- NOT_READY. -/
def stNotReady : Nat := 0x05
/-- VIGIL. -/
def stVigil : Nat := 0x08
/-- POISONED. -/
def stPoisoned : Nat := 0x09
/-- PARTIAL_ROWS. -/
def stPartialRows : Nat := 0x0A
/-- BAD_OPCODE. -/
def stBadOpcode : Nat := 0x10
/-- BAD_RANK. -/
def stBadRank : Nat := 0x11
/-- BAD_LENGTH. -/
def stBadLength : Nat := 0x12
/-- BAD_KEY. -/
def stBadKey : Nat := 0x13

/-- Tree completion statuses (Table 18-4). -/
def trOk : Nat := 0
/-- LOCKED. -/
def trLocked : Nat := 1
/-- RESERVED. -/
def trReserved : Nat := 2
/-- TIMEOUT. -/
def trTimeout : Nat := 3

/-- The first of RESERVED, LOCKED and OK that applies to a write (R18). -/
def worseStatus (a b : Nat) : Nat :=
  if a == trReserved || b == trReserved then trReserved else if a == trLocked || b == trLocked then trLocked else trOk

/-- DETAIL of a PARTITION event (Table 13-3): key, where (0 router, 1 port, 2 NI admit, 3 NI window), source station. -/
def partitionDetail (f : Frame) (place : Nat) : W32 :=
  BitVec.ofNat 32 ((f.pkey.toNat <<< 20) + (place <<< 16) + f.srcStation.toNat)

/-- DETAIL of a MALFORMED event (Table 13-3): key, and 1 class, 2 length, 3 DP_LEN, 4 route error. -/
def malformedDetail (f : Frame) (why : Nat) : W32 := BitVec.ofNat 32 ((f.pkey.toNat <<< 20) + why)

/-- Why a frame is malformed on a plane (R111): 1 class, 2 length, 3 DP_LEN; none where it is sound. -/
def malformedWhy (f : Frame) (plane : Nat) : Option Nat :=
  if classPlane f.cls.toNat != some plane then some 1
  else if !classLenOk f.cls.toNat f.length.toNat then some 2
  else if 8 < f.dpLen.toNat then some 3 else none

/-- The counts of an epoch drop at a router's ALM instance, and its event (R96, R109). -/
def State.epochDrop (s : State) (die inst : Nat) : State :=
  (s.count (almRouterUnit die inst) R.ALM_EPOCH_DROP 1).event (almUnit s.pkg) F.ALM_EVENT_EPOCH_DROP

end Sys2Proof.Machine
end

