-- ==== Sys2Proof/Machine/Ni.lean ====
section
/-! DEFINITION. The operations of a network interface that its commands share: event counters and triggers (R54, R55), completions
(R56, R58), write and read ids (R57, R58), transactions (R309–R311), the receive buffer pool (R168, R169), frame checks (R408)
and deliveries with their journal (R246–R249). -/
namespace Sys2Proof.Machine

/-! ## Event counters and triggered descriptors -/

/-- The armed slots on a counter that its value makes ready and that are not waiting to fire, ascending (R55). -/
def Ni.readySlots (n : Ni) (c : Nat) : List Nat :=
  (n.trig.filter (fun e => dTrigCtr e.2 == c && decide (dThreshold e.2 ≤ (kget 0 n.ctr c).toNat) && !n.fireq.contains e.1)).map (·.1)

/-- A counter at a new value: its notice carries the latest value (R58), and the slots it makes ready wait to fire (R55). -/
def Ni.setCounter (n : Ni) (c : Nat) (v : W48) : Ni :=
  if kget 0 n.ctr c = v then n
  else
    let m := { n with ctr := kput 0 n.ctr c v, evt := kins n.evt c v }
    { m with fireq := m.fireq ++ m.readySlots c }

/-- A counter after k more; a poisoned counter holds its value (R54, R299). -/
def Ni.bump (n : Ni) (c k : Nat) : Ni := if n.ctrBad.contains c then n else n.setCounter c (satAdd48 (kget 0 n.ctr c) k)

/-- A counter set to a value, which also releases a poisoned counter (R54, R299). -/
def Ni.setTo (n : Ni) (c : Nat) (v : W48) : Ni := { n with ctrBad := n.ctrBad.filter (· != c) }.setCounter c v

/-- A descriptor stored in its slot and armed (R55): it overwrites and disarms whatever the slot held, and is ready at once where
its counter has reached the threshold. -/
def Ni.arm (n : Ni) (d : Desc) : Ni :=
  let k := dTrigSlot d
  let m := { n with trig := kins n.trig k d, fireq := n.fireq.filter (· != k) }
  if !n.ctrBad.contains (dTrigCtr d) && decide (dThreshold d ≤ (kget 0 n.ctr (dTrigCtr d)).toNat) then { m with fireq := m.fireq ++ [k] }
  else m

/-- All slots disarmed (NI_CTRL.TRIG_CLEAR_ALL). -/
def Ni.disarmAll (n : Ni) : Ni := { n with trig := [], fireq := [] }

/-! ## Completions -/

/-- A due completion arrives (R53, R58): its record enters the FIFO, CPL_CTR advances, and its descriptor is over. -/
def Ni.arrive (n : Ni) (d : Due) : Ni :=
  let n := if d.record then { n with cpl := n.cpl ++ [d.cpl] } else n
  let n := match d.ctr with
           | some c => n.bump c 1
           | none => n
  if d.ends then { n with live := n.live - 1 } else n

/-- Due completions arrive in order until one needs room that the FIFO of 64 lacks (R58). -/
def drainDue : List Due → Ni → Ni
  | [], n => { n with due := [] }
  | d :: ds, n => if d.record && decide (64 ≤ n.cpl.length) then { n with due := d :: ds } else drainDue ds (n.arrive d)

/-- A completion becomes due behind those that wait. -/
def Ni.addDue (n : Ni) (d : Due) : Ni := drainDue (n.due ++ [d]) n

/-- The completion of a descriptor. -/
def dueOf (d : Desc) (status : Nat) (q : BitVec 24) (detail : Nat) (peer : W16) : Due :=
  { cpl := { tag := dTag d, op := BitVec.ofNat 8 (dOp d), status := BitVec.ofNat 8 status, qdelay := q, detail := BitVec.ofNat 32 detail,
             peer := peer },
    record := dCq d, ctr := dCplCtr d, ends := true }

/-- A descriptor completes. -/
def Ni.complete (n : Ni) (d : Desc) (status : Nat) (q : BitVec 24) (detail : Nat) (peer : W16) : Ni :=
  n.addDue (dueOf d status q detail peer)

/-- A descriptor completes that has no translated destination: PEER_STATION is then stated by no rule, a free value (log 13). -/
def State.completeNoPeer (s : State) (st : Nat) (d : Desc) (status : Nat) (q : BitVec 24) : State :=
  let (v, s) := s.takeFree
  s.updNi st (fun n => n.complete d status q 0 (v.extractLsb' 0 16))

/-- Whether an NI holds a key fenced: key 0 never; a key whose word is poisoned counts as fenced (R299, R303). -/
def State.fencedAt (s : State) (st key : Nat) : Bool :=
  key != 0 && ((s.getNi st).fenced.contains key || s.tableBad (niUnit st) srFence key)

/-- Whether a descriptor may not carry a key at an NI: key 0 without KEY0_EN, a key that the NI's own bitmap does not admit, or a fenced key (R44, R303). -/
def State.keyBad (s : State) (st key : Nat) : Bool :=
  if key = 0 then !s.bit (niUnit st) F.NI_CTRL_KEY0_EN else !s.admits s.alm.inForce s.bankIn (niUnit st) key || s.fencedAt st key

/-! ## Write and read ids -/

/-- The beats of a write (Table 02-5): 128 bytes each from the address up, the last with the bytes that are left under its strobes, and
ni_wr_poison on each that holds a poisoned byte (log 69). -/
def niBeats (addr : FT) (data : List Byte) (m : Marks) : List Beat :=
  let n := max 1 ((data.length + 127) / 128)
  (List.range n).map (fun i =>
    let part := (data.drop (128 * i)).take 128
    { addr := addr + BitVec.ofNat 64 (128 * i), data := part, strb := BitVec.ofNat 128 (2 ^ part.length - 1),
      poison := marksHit m (128 * i) (128 * i + 128), last := i + 1 == n })

/-- The poisoned bytes of read data of which the numbered beats of 128 bytes came with st_rdd_poison (Table 02-5). -/
def beatMarks (len : Nat) (beats : List Nat) : Marks :=
  ((List.range ((len + 127) / 128)).filter beats.contains).map (fun i => (128 * i, min len (128 * i + 128)))

/-- A write toward the station under the lowest free write id, or behind the 256 outstanding (R57, R58). -/
def State.niWr (s : State) (st : Nat) (addr : FT) (data : List Byte) (poison : Marks) (what : WrFor) : State :=
  let n := s.getNi st
  match kfree n.wr 256 with
  | some id => (s.setNi st { n with wr := kins n.wr id what }).emit (.niWrite st id (niBeats addr data poison))
  | none => s.setNi st { n with wrQ := n.wrQ ++ [{ addr := addr, data := data, poison := poison, what := what }] }

/-- A read from the station under the lowest free read id, or behind the 256 outstanding. -/
def State.niRd (s : State) (st : Nat) (addr : FT) (len : Nat) (what : RdFor) : State :=
  let n := s.getNi st
  match kfree n.rd 256 with
  | some id => (s.setNi st { n with rd := kins n.rd id what }).emit (.niRead st id addr len)
  | none => s.setNi st { n with rdQ := n.rdQ ++ [{ addr := addr, len := len, what := what }] }

/-- A write id becomes free, and the oldest waiting write takes it. -/
def State.freeWr (s : State) (st id : Nat) : State :=
  let n := s.getNi st
  match n.wrQ with
  | [] => s.setNi st { n with wr := kdel n.wr id }
  | w :: ws => (s.setNi st { n with wr := kins n.wr id w.what, wrQ := ws }).emit (.niWrite st id (niBeats w.addr w.data w.poison))

/-- A read id becomes free, and the oldest waiting read takes it. -/
def State.freeRd (s : State) (st id : Nat) : State :=
  let n := s.getNi st
  match n.rdQ with
  | [] => s.setNi st { n with rd := kdel n.rd id }
  | w :: ws => (s.setNi st { n with rd := kins n.rd id w.what, rdQ := ws }).emit (.niRead st id w.addr w.len)

/-! ## Frames that wait at the issue stage -/

/-- A frame at the tail of a queue of heads: the FT it arrives is also its head's arrival where the queue was empty. -/
def pushHead (q : List Head) (f : Frame) (now : FT) (out : List Nat) : List Head := q ++ [{ f := f, since := now, headAt := now, out := out }]

/-- A queue without its head; the next head arrives now (R158). -/
def popHead (q : List Head) (now : FT) : List Head := match q with
  | [] => []
  | [_] => []
  | _ :: h :: hs => { h with headAt := now } :: hs

/-- A frame with the slots it waited counted into its QDELAY (R115). -/
def waited (f : Frame) (since now : FT) : Frame := { f with qdelay := addQ f.qdelay (slotsBetween since now) }

/-- A response that this NI originates takes the die path toward the die it leaves by (R114, R141): NI_DPATH at the die of the destination station,
or at the I/O die of the egress port that entry 0 of its return route names. Other frames have their path already. -/
def State.niRouted (s : State) (st : Nat) (f : Frame) : Frame :=
  if !classResponse f.cls.toNat then f
  else
    let e := routeEntry f.route 0
    let die := if e == 31 then f.destStation.toNat / 2048
      else if e == 30 then portDie s.pkg ((s.sourceUplink (routeHash f.srcStation f.destStation f.destCoord)).getD 6)
      else portDie s.pkg e
    let p := niPath s.bankIn (niUnit st) die
    { f with dpath := p.1, dpLen := p.2, epoch := s.epochNow }

/-- A frame formed by the NI waits for the issue stage (Table 07-1, R115). -/
def State.sendQ (s : State) (st : Nat) (f : Frame) : State :=
  s.updNi st (fun n => { n with outq := pushHead n.outq (s.niRouted st f) (s.stFt st) [] })

/-- A collective frame waits for the issue stage (T2 of Table 07-1). -/
def State.sendColl (s : State) (st : Nat) (f : Frame) : State := s.updNi st (fun n => { n with collq := pushHead n.collq f (s.stFt st) [] })

/-! ## Issue order (R59) -/

/-- Whether two transfers are of one class and go to one destination. -/
def Form.same (x y : Form) : Bool := x.dest == y.dest && x.coord == y.coord && x.cls == y.cls

/-- The transfers whose frames may not leave yet, and the frames that leave, in order: a transfer whose frames are formed leaves unless an earlier
one of its class and destination has not. held are the earlier ones that stay. -/
def formsGo (held : List Form) : List Form → List Form × List Frame
  | [] => (held, [])
  | x :: xs =>
    match x.frames with
    | none => formsGo (held ++ [x]) xs
    | some fs =>
      if held.any x.same then formsGo (held ++ [x]) xs
      else let r := formsGo held xs; (r.1, fs ++ r.2)

/-- The formed frames that may leave go to the issue stage. -/
def State.formsOut (s : State) (st : Nat) : State :=
  let r := formsGo [] (s.getNi st).forms
  r.2.foldl (fun s f => s.sendQ st f) (s.updNi st (fun n => { n with forms := r.1 }))

/-- A transfer takes its place in issue order. -/
def Ni.openForm (n : Ni) (dest : W16) (coord : BitVec 17) (cls ref : Nat) : Ni :=
  { n with forms := n.forms ++ [{ dest := dest, coord := coord, cls := cls, ref := ref, frames := none }] }

/-- The frames of a transfer are formed, and leave in issue order. -/
def State.formed (s : State) (st cls ref : Nat) (fs : List Frame) : State :=
  (s.updNi st (fun n => { n with forms := n.forms.map (fun x => if x.cls = cls ∧ x.ref = ref ∧ x.frames = none then { x with frames := some fs } else x) })).formsOut st

/-- A transaction that ends leaves the issue order; what it held back leaves. -/
def State.dropForm (s : State) (st ref : Nat) : State :=
  if (s.getNi st).forms.any (fun x => x.frames.isNone && x.ref == ref && decide (x.cls ≤ 0x20)) then
    (s.updNi st (fun n => { n with forms := n.forms.filter (fun x => !(x.frames.isNone && x.ref == ref && decide (x.cls ≤ 0x20))) })).formsOut st
  else s

/-- Whether an earlier transfer of a class to a destination has frames that have not left the NI (R59). -/
def Ni.formBlocked (n : Ni) (dest : W16) (coord : BitVec 17) (cls : Nat) : Bool :=
  n.forms.any (fun x => x.dest == dest && x.coord == coord && x.cls == cls) ||
  n.outq.any (fun h => h.f.destStation == dest && h.f.destCoord == coord && h.f.cls.toNat == cls)

/-- A REFUSAL of a frame by an NI, where R120 lets one be sent. -/
def State.refuse (s : State) (st : Nat) (f : Frame) (reason : Nat) : State :=
  if refusable f then s.sendQ st (refusalFrame f reason 0) else s

/-! ## Transactions -/

/-- The lowest TXN that is neither outstanding nor retired (R311). -/
def Ni.freeTxn (n : Ni) : Option Nat := (List.range 256).find? (fun i => (kfind n.txn i).isNone && (kfind n.retired i).isNone)

/-- Whether an opcode needs a transaction number. -/
def opNeedsTxn (op : Nat) : Bool := decide (1 ≤ op) && decide (op ≤ 5)

/-- A transaction changed. -/
def Ni.updTxn (n : Ni) (t : Nat) (f : Txn → Txn) : Ni :=
  match kfind n.txn t with
  | some x => { n with txn := kins n.txn t (f x) }
  | none => n

/-! ## The receive buffer pool -/

/-- Buffers in use of a pool instance. -/
def Pool.used (p : Pool) : Nat := (p.use.map (·.2)).foldl (· + ·) 0

/-- Free buffers of a die's instance (R168). -/
def State.poolFree (s : State) (die : Nat) : Nat := poolSize s.pkg - (s.getPool die).used

/-- U (R169): the partition's buffers in use, and those that its waiting requests ask for. -/
def Pool.held (p : Pool) (key : Nat) : Nat :=
  kget 0 p.use key + ((p.queue.filter (fun r => r.key == key)).map (·.n)).foldl (· + ·) 0

/-- n buffers allocated to a key. -/
def Pool.take (p : Pool) (key n : Nat) : Pool := { p with use := kput 0 p.use key (kget 0 p.use key + n) }

/-- n buffers of a key freed. -/
def Pool.give (p : Pool) (key n : Nat) : Pool := { p with use := kput 0 p.use key (kget 0 p.use key - n) }

/-- The wait of a pool request in slots, by the FT of the pool's die. -/
def State.poolWait (s : State) (r : PoolReq) : Nat := slotsBetween r.since (s.stFt r.st)

/-- A granted request proceeds: a WRITE_RSV's GRANT, a GET's READ_REQ, or the fetch of an INDEXED_READ's index list (R47, R48,
R169). A GET's wait since its acceptance, in the yellow list, its queue and the pool queue, enters the READ_REQ's QDELAY (R115, R167, R169). -/
def State.poolGranted (s : State) (r : PoolReq) : State :=
  let n := s.getNi r.st
  if r.rsv then
    match kfind n.grants r.ref with
    | none => s
    | some g =>
      let q := addQ g.f.qdelay (s.poolWait r)
      let s := s.setNi r.st { n with grants := kins n.grants r.ref { g with granted := true, q := q, since := s.stFt r.st, at_ := s.stFt r.st } }
      s.sendQ r.st { respond g.f 0x11 q with seq := g.f.seq, last := true }
  else
    match kfind n.txn r.ref with
    | none => s
    | some t =>
      let d := t.task.d
      let n := n.updTxn r.ref (fun t => { t with bufs := r.n, phase := .fetch })
      if dOp d == 3 then
        (s.setNi r.st (n.openForm t.task.dest t.task.coord 0x02 r.ref)).niRd r.st (dW12 d) (4 * dRowCount d) (.first r.ref)
      else (s.setNi r.st n).sendQ r.st { s.sourceFrame r.st 0x01 (dKey d) t.task.dest t.task.coord r.ref with
                            addr := dRemote d, seq := BitVec.ofNat 32 (dLen d), last := true, rctr := dRemoteCtr d,
                            qdelay := satQ (slotsBetween t.task.acc (s.stFt r.st)) }

/-- A refused request: the WRITE_RSV is refused, or the descriptor completes (R169). -/
def State.poolRefused (s : State) (r : PoolReq) (reason : Nat) : State :=
  let n := s.getNi r.st
  if r.rsv then
    match kfind n.grants r.ref with
    | none => s
    | some g => (s.setNi r.st { n with grants := kdel n.grants r.ref }).refuse r.st { g.f with qdelay := addQ g.f.qdelay (s.poolWait r) } reason
  else
    match kfind n.txn r.ref with
    | none => s
    | some t =>
      s.setNi r.st ({ n with txn := kdel n.txn r.ref }.complete t.task.d reason (satQ (slotsBetween t.task.acc (s.stFt r.st))) 0 t.task.dest)

/-- Waiting requests served in arrival order while the head's buffers are free (R169). -/
def servePool (die : Nat) : List PoolReq → State → State
  | [], s => s.setPool die { s.getPool die with queue := [] }
  | r :: rs, s =>
    if r.n ≤ s.poolFree die then
      servePool die rs ((s.setPool die ((s.getPool die).take r.key r.n)).poolGranted r)
    else s.setPool die { s.getPool die with queue := r :: rs }

/-- Buffers freed, then waiting requests served (R169: free, then allocate). -/
def State.freeBufs (s : State) (st key n : Nat) : State :=
  let die := poolDie s.pkg st
  if n = 0 then s
  else
    let p := (s.getPool die).give key n
    servePool die p.queue (s.setPool die p)

/-- Whether a die has a pool instance that works (R168, R344). -/
def State.poolPresent (s : State) (die : Nat) : Bool :=
  !s.dieDisabled die && (s.pkg.isS || !(List.range 16).all (fun i => s.stationAbsent (die * 2048 + 64 + i)))

/-- A request for buffers meets its instance (R169): refused NOT_READY while EN is 0, refused POOL_CEILING over the ceiling,
granted at once, queued, or with WAIT_MAX 0 refused. -/
def State.poolRequest (s : State) (r : PoolReq) : State :=
  let die := poolDie s.pkg r.st
  let u := poolUnit die
  let p := s.getPool die
  if !s.poolPresent die then (s.count u R.POOL_REFUSE_CEIL 1).poolRefused r stCeiling
  else if !s.bit u F.POOL_CTRL_EN then s.poolRefused r stNotReady
  else if s.ceiling u r.key < p.held r.key + r.n then (s.count u R.POOL_REFUSE_CEIL 1).poolRefused r stCeiling
  else if p.queue.isEmpty && decide (r.n ≤ s.poolFree die) then (s.setPool die (p.take r.key r.n)).poolGranted r
  else if s.fld u F.POOL_CTRL_WAIT_MAX = 0 then (s.count u R.POOL_REFUSE_WAIT 1).poolRefused r stCeiling
  else (s.setPool die { p with queue := p.queue ++ [r] }).count u R.POOL_WAITED 1

/-- A transaction ends: its descriptor completes, and the buffers it reserved and no data filled are freed (R169, R310). -/
def State.endTxn (s : State) (st t status : Nat) (q : BitVec 24) (detail : Nat) : State :=
  match kfind (s.getNi st).txn t with
  | none => s
  | some x =>
    let s := s.updNi st (fun n => { n with txn := kdel n.txn t }.complete x.task.d status q detail x.task.dest)
    (s.dropForm st t).freeBufs st (dKey x.task.d) x.bufs

/-! ## Checks of an arriving frame (R408) -/

/-- The outcome of the checks: passed, or the state after the frame is dropped. -/
abbrev Checked := Option State

/-- A frame dropped under R45 or R46 at an NI. -/
def State.dropPartition (s : State) (st : Nat) (f : Frame) (window : Bool) : State :=
  let u := niUnit st
  ((((s.count u (if window then R.NI_WIN_DROP else R.NI_PKEY_DROP) 1).mark u F.NI_STATUS_KEY_VIOLATION).faultEvent u 7
    (partitionDetail f (if window then 3 else 2))).refuse st f stPartition)

/-- The checks of R408 in order: RX_EN, the partition fence, the epoch, the admit bitmap, then the windows, which pass tells of. none
where all pass; otherwise the state after the first failing check alone has acted. -/
def State.destChecks (s : State) (st : Nat) (f : Frame) (windows : Bool) : Option State :=
  let u := niUnit st
  let key := f.pkey.toNat
  if !s.bit u F.NI_CTRL_RX_EN then some (s.refuse st f stNotReady)
  else if s.fencedAt st key then some ((s.readBad u srFence key).refuse st f stNotReady)
  else match s.epochBank f.epoch with
  | none => some ((s.epochDrop (st / 2048) (stationRouter s.pkg st)).refuse st f stNotReady)
  | some b =>
    if !s.admits (bitNat f.epoch) b u key then some ((s.readBad u srAdmit (inBank (bitNat f.epoch) key)).dropPartition st f false)
    else if !windows then some (s.dropPartition st f true)
    else none

/-- Whether every piece of a transfer lies in a window (R46). -/
def State.piecesOk (s : State) (st : Nat) (f : Frame) (right : Nat) : Bool :=
  (putPieces f.addr f.seq.toNat).all (fun p => s.windowOk st f.epoch f.pkey.toNat p.1 p.2.2 right)

/-! ## Deliveries and the arrival journal -/

/-- The journal entry of a delivery without its GAP (Table 10-5). -/
def journalKey (d : Delivery) : Nat := d.kind * 2 ^ 33 + d.f.srcStation.toNat * 2 ^ 17 + d.f.srcCoord.toNat

/-- A delivery is recorded in the journal record ring, or counted lost where the ring is full (R246, R247). -/
def State.journal (s : State) (st : Nat) (d : Delivery) : State :=
  let u := niUnit st
  let size := s.fld u F.NI_JRNL_SIZE_ENTRIES
  if !d.f.journal || s.fld u F.NI_JRNL_CTRL_MODE = 0 || size = 0 then s
  else
    let wr := s.pair u R.NI_JRNL_WR
    if size ≤ (wr - s.pair u R.NI_JRNL_RD).toNat then
      (s.count u R.NI_JRNL_LOST 1).event u F.NI_JRNL_EVENT_OVERFLOW
    else
      let gap := (satQ (slotsBetween (s.getNi st).jrnlAt (s.stFt st))).toNat
      let s := s.niWr st (s.pair u R.NI_JRNL_BASE + BitVec.ofNat 64 (8 * (wr.toNat % size))) (leBytes 8 (gap * 2 ^ 40 + journalKey d)) [] .nothing
      (s.setPair u R.NI_JRNL_WR (wr + 1)).updNi st (fun n => { n with jrnlAt := s.stFt st })

/-- The QDELAY that the response to a delivery starts with: its frames' largest, and the slots it was held (R115, R248). -/
def State.deliveryQ (s : State) (st : Nat) (d : Delivery) : BitVec 24 := addQ d.q (slotsBetween d.since (s.stFt st))

/-- The destination's own record of an arriving write that carried poison (R56). Its TAG is stated by no rule: a free value (log 13). -/
def State.poisonRecord (s : State) (st : Nat) (op : Nat) (src : W16) (q : BitVec 24) (off : Nat) : State :=
  let (v, s) := s.takeFree
  s.updNi st (fun n => n.addDue
    { cpl := { tag := v.extractLsb' 0 16, op := BitVec.ofNat 8 op, status := BitVec.ofNat 8 stPoisoned, qdelay := q, detail := BitVec.ofNat 32 off, peer := src },
      record := true, ctr := none, ends := false })

/-- The status a response carries (R117): OK, or POISONED with the first poisoned offset as DETAIL. -/
def respStatus (poison : Option Nat) : Nat × Nat := match poison with
  | none => (stOk, 0)
  | some o => (stPoisoned, o)

/-- The ATOMIC at the head of those that have been accepted reads its target: one is performed at a time, in order of acceptance (R52, R59). -/
def State.atomicStart (s : State) (st : Nat) : State := match (s.getNi st).atomics with
  | [] => s
  | d :: _ => s.niRd st d.f.addr 8 (.atomic d)

/-- An ATOMIC takes its turn. -/
def State.atomicIn (s : State) (st : Nat) (d : Delivery) : State :=
  let t := s.updNi st (fun n => { n with atomics := n.atomics ++ [d] })
  if (s.getNi st).atomics.isEmpty then t.atomicStart st else t

/-- The ATOMIC at the head is over, and the next begins. -/
def State.atomicDone (s : State) (st : Nat) : State := (s.updNi st (fun n => { n with atomics := n.atomics.drop 1 })).atomicStart st

/-- What follows a delivery (R53, R114): REMOTE_CTR advances, the destination's record of poison, and the ACK or ATOMIC_RESP. -/
def State.afterDelivery (s : State) (st : Nat) (d : Delivery) (payload : List Byte) : State :=
  let q := s.deliveryQ st d
  let s := s.updNi st (fun n => match d.f.rctr with
    | some c => n.bump c.toNat 1
    | none => n)
  let s := match d.poison with
    | some o => s.poisonRecord st (if d.kind == 0 then 4 else if d.kind == 1 then 1 else 5) d.f.srcStation q o
    | none => s
  let (status, detail) := respStatus d.poison
  s.sendQ st { respond d.f (if d.kind == 2 then 0x14 else 0x10) q with
    addr := BitVec.ofNat 64 (if d.kind == 2 then 0 else detail), seq := BitVec.ofNat 32 (if d.kind == 2 then 0 else d.bytes),
    opinfo := BitVec.ofNat 16 status, length := BitVec.ofNat 13 payload.length, payload := payload, last := true,
    poison := d.kind == 2 && d.poison.isSome, marked := if d.kind == 2 && d.poison.isSome then [(0, 32)] else [] }

/-- A transfer is delivered (R246): a MESSAGE or PUT is journalled, then its counter and acknowledgement act; an ATOMIC is performed,
which begins with the read of its target. -/
def State.deliver (s : State) (st : Nat) (d : Delivery) : State :=
  if d.kind == 2 then s.atomicIn st d
  else (s.journal st d).afterDelivery st d []

/-- The transfers of the hold table delivered in arrival order (R249). -/
def State.releaseHeld (s : State) (st : Nat) : State :=
  (s.getNi st).hold.foldl (fun s h => s.deliver st h.d) (s.updNi st (fun n => { n with hold := [] }))

/-- The head entry of the replay ring (R248). -/
def State.replayHead (s : State) (st : Nat) : Option Nat :=
  let h := s.fld (niUnit st) F.NI_JRNL_REPLAY_HEAD_INDEX
  let n := s.getNi st
  if h < n.ringBase then none else (n.ring[h - n.ringBase]?).map (fun e => e.toNat % 2 ^ 35)

/-- Replay reaches its end (R249): REPLAY_END, held transfers delivered in arrival order, MODE to RECORD. -/
def State.replayEnd (s : State) (st : Nat) : State :=
  let u := niUnit st
  ((s.event u F.NI_JRNL_EVENT_REPLAY_END).releaseHeld st).setFld u F.NI_JRNL_CTRL_MODE 1

/-- Whether the head stands at NI_JRNL_REPLAY_END. -/
def State.atReplayEnd (s : State) (st : Nat) : Bool :=
  s.fld (niUnit st) F.NI_JRNL_REPLAY_HEAD_INDEX == s.fld (niUnit st) F.NI_JRNL_REPLAY_END_INDEX

/-- The head advances by one entry. -/
def State.advanceHead (s : State) (st : Nat) : State :=
  s.setFld (niUnit st) F.NI_JRNL_REPLAY_HEAD_INDEX (s.fld (niUnit st) F.NI_JRNL_REPLAY_HEAD_INDEX + 1)

/-- Held transfers that match the head are delivered in a loop, then the end is taken (R248, R249). The fuel is the table's size. -/
def replayLoop (st : Nat) : Nat → State → State
  | 0, s => if s.atReplayEnd st then s.replayEnd st else s
  | k + 1, s =>
    if s.atReplayEnd st then s.replayEnd st
    else match s.replayHead st with
    | none => s
    | some h =>
      match (s.getNi st).hold.find? (fun x => journalKey x.d == h) with
      | none => s
      | some x =>
        replayLoop st k (((s.updNi st (fun n => { n with hold := n.hold.erase x })).deliver st x.d).advanceHead st)

/-- Divergence (R249): DIVERGED, DIVERGE_POS, held transfers delivered in arrival order, MODE to RECORD. -/
def State.diverge (s : State) (st : Nat) : State :=
  let u := niUnit st
  (((s.event u F.NI_JRNL_EVENT_DIVERGED).setFld u F.NI_JRNL_DIVERGE_POS_INDEX (s.fld u F.NI_JRNL_REPLAY_HEAD_INDEX)).releaseHeld st).setFld
    u F.NI_JRNL_CTRL_MODE 1

/-- A transfer comes to its delivery (R246, R248): in REPLAY a journalled one is delivered at its turn and held before it; a full hold
table diverges. -/
def State.accept (s : State) (st : Nat) (d : Delivery) : State :=
  let u := niUnit st
  if !d.f.journal || s.fld u F.NI_JRNL_CTRL_MODE != 2 then s.deliver st d
  else if s.replayHead st == some (journalKey d) then replayLoop st 256 ((s.deliver st d).advanceHead st)
  else if 256 ≤ (s.getNi st).hold.length then (s.diverge st).deliver st d
  else (s.updNi st (fun n => { n with hold := n.hold ++ [{ d := d, since := s.stFt st }] })).count u R.NI_JRNL_HELD 1

end Sys2Proof.Machine
end

