-- ==== Sys2Proof/Machine/Watch.lean ====
section
/-! DEFINITION. Tensor watch (R244, R245). -/
namespace Sys2Proof.Machine

/-- A watch slot (Table 16-10, kind 0x0701): stream, format, WHERE and TILES_PER_ENTRY. -/
structure WatchSlot where
  stream : Nat
  fmt : Nat
  source : Bool
  dest : Bool
  tiles : Nat
  deriving DecidableEq, Repr

/-- The watch slots of a bank (R244). -/
def watchSlots (b : Bank) : List WatchSlot :=
  (b.recs.filter (fun r => r.kind == 0x0701)).flatMap (fun r =>
    (List.range (r.payload.length / 8)).map (fun i =>
      { stream := leAt r.payload (8 * i) 2, fmt := leAt r.payload (8 * i + 2) 1, source := (leAt r.payload (8 * i + 3) 1).testBit 0,
        dest := (leAt r.payload (8 * i + 3) 1).testBit 1, tiles := leAt r.payload (8 * i + 4) 4 }))

/-- Whether a frame that its source sends belongs to a watched stream (R244): a tile frame, or a collective data frame on a declared edge stream. -/
def watchedFrame (b : Bank) (f : Frame) : Bool :=
  let c := f.cls.toNat
  (c == 0x23 || (decide (0x30 ≤ c) && decide (c ≤ 0x33) && f.streamId != 0)) &&
  (watchSlots b).any (fun w => w.stream == f.streamId.toNat)

/-- Whether a stream's declaration delivers to a station: its destination, or a compute station in its multicast set, which lies in the row or column
of the source station's router (R144). -/
def declDelivers (p : Package) (d : StreamDecl) (st : Nat) : Bool :=
  let src := stationRouter p d.source
  if d.multicast then
    st / 2048 == d.source / 2048 && decide (st % 2048 < 64) &&
      (if d.axis = 0 then st % 2048 / 8 == src / 8 && d.mask.testBit (st % 8) else st % 8 == src % 8 && d.mask.testBit (st % 2048 / 8))
  else d.dest == st

/-- The watch slot under which an NI watches a stream, as its source or as a destination. -/
def State.watchOf (s : State) (st stream : Nat) : Option WatchSlot :=
  match findStream s.bankIn stream, (watchSlots s.bankIn).find? (fun w => w.stream == stream) with
  | some d, some w => if (w.source && d.source == st) || (w.dest && declDelivers s.pkg d st) then some w else none
  | _, _ => none

/-- The elements that whole bytes hold in a format. -/
def elemsIn (fmt bytes : Nat) : Nat := bytes * 64 / fmtB64 fmt

/-- The report of a watch entry, its bytes read in FMT one tile after the other (R244, R245, Tables 10-3, 10-4). -/
def Watch.report (w : Watch) (st : Nat) (slot : WatchSlot) (early : Bool) : DiaryReport :=
  { kind := 1, station := st, tag := BitVec.ofNat 16 slot.stream, opcode := 0x08, mode := BitVec.ofNat 8 (slot.fmt % 16), member := w.tiles, root := 0,
    block := { digest := crc64 w.data, step := w.firstSeq, ftEnd := w.lastFt,
               flags := BitVec.ofNat 32 (bitNat w.gap * 2 ^ 15 + bitNat early * 2 ^ 14 + bitNat w.slipped * 2 ^ 8) },
    readyFt := w.firstFt, summary := statsOf slot.fmt (outNums slot.fmt (elemsIn slot.fmt w.data.length) w.data), statsLost := false,
    outBytes := w.data.length, startQual := w.firstQual, endQual := w.lastQual }

/-- A tile that a watching NI has read as its source, or that has become visible at it as a destination, is digested and counted; at
TILES_PER_ENTRY tiles the entry is reported (R245). The tile's bytes are those of its declaration, without the padding of its last
frame (DEDUCED, log 70). -/
def State.watchTile (s : State) (st sid : Nat) (seq : W32) (data : List Byte) (gap slipped source : Bool) : State :=
  match s.watchOf st sid, findStream s.bankIn sid with
  | some slot, some d =>
    if (if source then slot.source && d.source == st else slot.dest && declDelivers s.pkg d st) then
      let w := kget {} (s.getNi st).watch sid
      let now := s.stFt st
      let w := if w.tiles = 0 then { w with firstSeq := seq, firstFt := now, firstQual := s.quality } else w
      let w := { w with tiles := w.tiles + 1, data := w.data ++ data.take d.tile, gap := w.gap || gap, slipped := w.slipped || slipped, lastFt := now, lastQual := s.quality }
      if slot.tiles ≤ w.tiles then
        (s.updNi st (fun n => { n with watch := kdel n.watch sid })).emit (.diaryReport (w.report st slot false))
      else s.updNi st (fun n => { n with watch := kins n.watch sid w })
    else s
  | _, _ => s

/-- A tile of a stream is deferred (R245): the open entry of each NI that has taken the tile already is marked. At an NI that takes it later
the tile brings the mark. -/
def State.watchSlip (s : State) (stream : Nat) (seq : W32) : State :=
  { s with ni := s.ni.map (fun e =>
      let w := kget {} e.2.watch stream
      if (seq - w.firstSeq).toNat < w.tiles then (e.1, { e.2 with watch := kins e.2.watch stream { w with slipped := true } }) else e) }

/-- An open entry whose slot is removed or changed, or whose NI is disabled, is closed early (R245). slots are those it was opened under. -/
def State.watchClose (s : State) (slots : List WatchSlot) (st sid : Nat) : State :=
  let w := kget {} (s.getNi st).watch sid
  let s := s.updNi st (fun n => { n with watch := kdel n.watch sid })
  match slots.find? (fun x => x.stream == sid) with
  | some slot => if w.tiles = 0 then s else s.emit (.diaryReport (w.report st slot true))
  | none => s

/-- Every open entry of a station's NI is closed (R245). -/
def State.watchDisable (s : State) (st : Nat) : State :=
  (s.getNi st).watch.foldl (fun s e => s.watchClose (watchSlots s.bankIn) st e.1) s

/-- The open entries whose slots an Equinox has removed or changed are closed; before holds the slots of the bank it replaced (R245). -/
def State.watchEquinox (s : State) (old : List WatchSlot) : State :=
  let now := watchSlots s.bankIn
  s.ni.foldl (fun s e => e.2.watch.foldl (fun s w =>
    if old.find? (fun x => x.stream == w.1) == now.find? (fun x => x.stream == w.1) then s else s.watchClose old e.1 w.1) s) s

end Sys2Proof.Machine
end

