-- ==== Sys2Proof/Machine/Member.lean ====
section
/-! DEFINITION. A collective instance at one member NI: what it offers and what comes to it, the visibility of its chunks with their
statistics, its status block, completion and report to the Diary (R192, R194–R196, R199, R201–R203, R228, R232, R235, R236). -/
namespace Sys2Proof.Machine

/-! ## The descriptor (Tables 08-3, 08-4) -/

/-- CAPACITY. -/
def cCap (d : Desc) : Nat := (dw d 3).toNat
/-- GROUP. -/
def cGroup (d : Desc) : Nat := getBits (dw d 5) 27 16
/-- ROOT. -/
def cRoot (d : Desc) : Nat := getBits (dw d 1) 26 0
/-- ROW. -/
def cRow (d : Desc) : Nat := getBits (dw d 1) 13 0
/-- IN_ADDR. -/
def cIn (d : Desc) : FT := BitVec.ofNat 64 ((dw d 4).toNat + getBits (dw d 5) 15 0 * 2 ^ 32)
/-- OUT_ADDR. -/
def cOut (d : Desc) : FT := BitVec.ofNat 64 ((dw d 6).toNat + getBits (dw d 7) 15 0 * 2 ^ 32)
/-- STEP. -/
def cStep (d : Desc) : W32 := BitVec.ofNat 32 (getBits (dw d 7) 31 16 + getBits (dw d 9) 31 16 * 2 ^ 16)
/-- VALID. -/
def cValid (d : Desc) : Nat := (dw d 11).toNat
/-- CHUNK_CTR, where enabled. -/
def cChunkCtr (d : Desc) : Option Nat := if (dw d 8).getLsbD 31 then some (getBits (dw d 8) 27 16) else none
/-- IN_CTR, where enabled. -/
def cInCtr (d : Desc) : Option Nat := if (dw d 8).getLsbD 15 then some (getBits (dw d 8) 11 0) else none

/-- The arithmetic word of a descriptor (R208). -/
def cWord (d : Desc) : FT := seedKey (dW12 d) ++ dw d 10

/-- What the frames of a descriptor's instance say of it (log 38). -/
def cSide (d : Desc) : CollSide :=
  { op := dOp d, cap := cCap d, root := cRoot d, step := cStep d, row := if dOp d = opSparse then cRow d else 0 }

/-- A member's arithmetic word as a number. -/
def Member.w (m : Member) : Nat := (cWord m.d).toNat

/-- The operation of a member's instance. -/
def Member.op (m : Member) : Nat := dOp m.d

/-- The chunks of a member's instance. -/
def Member.geo (m : Member) : Geo := geoOf m.engine m.op (cCap m.d) m.size m.w

/-- The format in which the output stands: ALL_TO_ALL folds nothing and its blocks keep IN_FMT (log 40). -/
def Member.outFmt (m : Member) : Nat := if m.op = opAllToAll then wIn m.w else wOut m.w

/-- The bytes of a SPARSE_SUM record in a format (R197). -/
def sparseBytes (fmt row : Nat) : Nat := (4 + fmtBytes fmt row + 3) / 4 * 4

/-- The elements of a member's output (Table 08-10, VALID_OUT). -/
def Member.outElems (m : Member) : Nat :=
  let c := cCap m.d
  if m.op = opScatter then c / max 1 m.size
  else if m.op = opGather ∨ m.op = opAllToAll then m.size * c
  else if m.op = opReduce then (if m.member = cRoot m.d then c else 0)
  else if m.op = opBarrier then 0 else c

/-- The bytes of a member's output (Table 08-1). -/
def Member.outSize (m : Member) : Nat :=
  let c := cCap m.d
  let f := m.outFmt
  if m.op = opScatter then fmtBytes f (c / max 1 m.size)
  else if m.op = opGather then m.size * fmtBytes f c + 4 * m.size
  else if m.op = opAllToAll then m.size * fmtBytes f c
  else if m.op = opReduce then (if m.member = cRoot m.d then fmtBytes f c else 0)
  else if m.op = opSparse then c * sparseBytes f (cRow m.d)
  else if m.op = opBarrier then 0 else fmtBytes f c

/-- Whether a member receives a chunk (R187). -/
def Member.receives (m : Member) (c : Nat) : Bool :=
  decide (c < m.geo.total) && match m.geo.dest m.op (cRoot m.d) c with
  | some t => t == m.member
  | none => true

/-- The chunks a member receives. -/
def Member.outputs (m : Member) : List Nat := (List.range m.geo.total).filter m.receives

/-- The chunks a member contributes: its slot of an ALL_GATHER, all of a BROADCAST at ROOT alone, a block for each other member of an ALL_TO_ALL in
the order of R182, otherwise all. -/
def Member.inputs (m : Member) : List Nat :=
  let g := m.geo
  if m.op = opGather then (List.range g.k).map (fun i => m.member * g.k + i)
  else if m.op = opBroadcast then (if m.member = cRoot m.d then List.range g.total else [])
  else if m.op = opAllToAll then (List.range (m.size - 1)).map (fun i => (m.member + 1 + i) % m.size)
  else if m.op = opBarrier then []
  else if m.op = opScatter ∧ m.engine = false then [0]
  else List.range g.total

/-- The address and bytes of an input chunk in the member's input buffer (R182, R183); a SPARSE_SUM input is read whole. -/
def Member.inputAt (m : Member) (c : Nat) : FT × Nat :=
  let g := m.geo
  let f := wIn m.w
  if m.op = opSparse then (cIn m.d, cValid m.d * sparseBytes f (cRow m.d))
  else if m.op = opAllToAll then (cIn m.d + BitVec.ofNat 64 (c * fmtBytes f (cCap m.d)), fmtBytes f (cCap m.d))
  else if m.op = opScatter ∧ m.engine = false then (cIn m.d, fmtBytes f (cCap m.d))
  else
    let first := (if m.op = opScatter then g.slot c * g.len else 0) + g.start c
    (cIn m.d + BitVec.ofNat 64 (fmtBytes f first), fmtBytes f (g.count c))

/-! ## Chunks that come (R187, R194, R228) -/

/-- A member's instance. -/
def State.member (s : State) (st : Nat) (tag : W16) : Option Member := kfind (s.getNi st).members tag.toNat

/-- The state with a member's instance changed. -/
def State.updMember (s : State) (st : Nat) (tag : W16) (f : Member → Member) : State :=
  s.updNi st (fun n => match kfind n.members tag.toNat with
    | some m => { n with members := kins n.members tag.toNat (f m) }
    | none => n)

/-- An output chunk changed. -/
def Member.updOut (m : Member) (c : Nat) (f : OutChunk → OutChunk) : Member := { m with outs := kins m.outs c (f (kget {} m.outs c)) }

/-- The bytes of an output chunk in order. -/
def OutChunk.bytes (o : OutChunk) : List Byte := o.data.flatMap (·.2)

/-- Whether an output chunk is complete and visible (R194, R228). -/
def OutChunk.whole (o : OutChunk) : Bool := o.last && o.word && o.writes == 0

/-- The member that a package's Diary entry takes from and that keeps statistics (Table 10-2, R235): for a partitioned operation every local member,
for REDUCE its ROOT, otherwise the lowest local member. -/
def Member.keepsStats (m : Member) (locals : Nat) : Bool :=
  if m.op = opScatter ∨ m.op = opAllToAll then true
  else if m.op = opReduce then m.member == cRoot m.d
  else m.member % max 1 locals == 0

/-- The local members of the instance's group. -/
def State.groupLocals (s : State) (tag : W16) : Nat := ((findGroup s.bankIn (tag.toNat % 4096)).map (fun g => g.members.length)).getD 1

/-- The valid elements of a chunk: of an ALL_GATHER slot those that its valid count covers (R196, R234), otherwise all. -/
def Member.validElems (m : Member) (c : Nat) : Nat :=
  let g := m.geo
  if m.op = opGather then min (g.count c) (kget g.len m.valid (g.slot c) - g.start c) else g.count c

/-- The exact values of a SPARSE_SUM's valid output rows (R234). -/
def sparseNums (fmt row valid : Nat) (bs : List Byte) : List Num :=
  (List.range valid).flatMap (fun i => outNums fmt row ((bs.drop (i * sparseBytes fmt row + 4)).take (fmtBytes fmt row)))

/-- The exact values of an output chunk. -/
def Member.chunkNums (m : Member) (c : Nat) : List Num :=
  let bs := (kget {} m.outs c).bytes
  if m.op = opSparse then sparseNums m.outFmt (cRow m.d) m.block.validOut.toNat bs else outNums m.outFmt (m.validElems c) bs

/-- A chunk record enters the NI's statistics ring (R235): from the first record that finds no room on, the instance writes none. -/
def State.chunkRecord (s : State) (st : Nat) (tag : W16) (c : Nat) : State :=
  match s.member st tag with
  | none => s
  | some m =>
    let u := niUnit st
    let size := s.fld u F.NI_STATS_SIZE_RECORDS
    if !m.keepsStats (s.groupLocals tag) || size = 0 then s
    else
      let wr := s.pair u R.NI_STATS_WR
      if m.statsLost || decide (size ≤ (wr - s.pair u R.NI_STATS_RD).toNat) then
        (s.count u R.NI_STATS_LOST 1).updMember st tag (fun m => { m with statsLost := true })
      else
        let r : StatsRec := { statsOf m.outFmt (m.chunkNums c) with
          chunk := BitVec.ofNat 32 c, member := BitVec.ofNat 27 m.member, ref := BitVec.ofNat 64 (tag.toNat + (cStep m.d).toNat * 2 ^ 16) }
        let at_ := 64 * (wr.toNat % size)
        let s := s.niWr st (s.pair u R.NI_STATS_BASE + BitVec.ofNat 64 at_) (statBytes r) [] .nothing
        (s.setPair u R.NI_STATS_WR (wr + 1)).updMember st tag (fun m => { m with firstRec := m.firstRec.or (some at_) })

/-- An output chunk that is whole raises its event once (R194). -/
def State.chunkVisible (s : State) (st : Nat) (tag : W16) (c : Nat) : State :=
  match s.member st tag with
  | none => s
  | some m =>
    let o := kget {} m.outs c
    if o.whole && !o.raised && !m.cancelled && m.ending.isNone then
      let s := s.updMember st tag (fun m => { m.updOut c (fun o => { o with raised := true }) with vigil := s.stFt st, visFt := some (s.stFt st, s.quality) })
      let s := match cChunkCtr m.d with
        | some k => s.updNi st (fun n => n.bump k 1)
        | none => s
      s.chunkRecord st tag c
    else s

/-- A write of a RESULT chunk has become visible (R194). -/
def State.resultWritten (s : State) (st : Nat) (tag : W16) (c : Nat) : State :=
  (s.updMember st tag (fun m => m.updOut c (fun o => { o with writes := o.writes - 1 }))).chunkVisible st tag c

/-- A status word folded into the status block (R228, Table 09-9). -/
def foldWord (b : StatusBlock) (bs : List Byte) : StatusBlock :=
  { b with
    flags := b.flags ||| BitVec.ofNat 32 (leAt bs 0 4 % 16 * 16),
    firstNonfinite := BitVec.ofNat 32 (min b.firstNonfinite.toNat (leAt bs 4 4)),
    saturations := BitVec.ofNat 32 (min 0xFFFFFFFF (b.saturations.toNat + leAt bs 8 4)) }

/-- What rides with a frame folded into the status block: flags, drops (R195, R198, R200; log 38). -/
def foldSide (b : StatusBlock) (x : CollSide) : StatusBlock :=
  { b with
    flags := b.flags ||| BitVec.ofNat 32 x.flags,
    overflow := BitVec.ofNat 32 (max b.overflow.toNat (min 0xFFFFFFFF x.dropped)),
    firstDropped := BitVec.ofNat 32 (min b.firstDropped.toNat x.firstDropped) }

/-- A chunk's status word reaches a member: nothing is written to memory (R228). -/
def State.takeWord (s : State) (st : Nat) (tag : W16) (c : Nat) (bs : List Byte) (x : CollSide) : State :=
  (s.updMember st tag (fun m =>
    let b := foldSide (foldWord m.block bs) x
    { m.updOut c (fun o => { o with word := true }) with
      block := if m.op = opSparse then { b with validOut := BitVec.ofNat 32 x.valid } else b, vigil := s.stFt st })).chunkVisible st tag c

/-- Bytes of a RESULT chunk reach a member and are written at their place (R187, R194). off is the offset in the chunk. -/
def State.takeResult (s : State) (st : Nat) (tag : W16) (c : Nat) (addr : FT) (off : Nat) (data : List Byte) (mark : Marks)
    (last : Bool) (x : CollSide) : State :=
  match s.member st tag with
  | none => s
  | some m =>
    let base := m.geo.outByte m.op m.outFmt c
    let s := s.updMember st tag (fun m =>
      let m := m.updOut c (fun o => { o with data := kins o.data off data, writes := o.writes + 1, last := o.last || last,
                                             word := o.word || m.op == opAllToAll })
      { m with block := foldSide m.block { x with dropped := 0, firstDropped := 0xFFFFFFFF }, poison := firstPoison m.poison ((marksFirst mark).map (fun k => base + off + k)),
               valid := if m.op = opGather ∧ last = true then kins m.valid (m.geo.slot c) x.valid else m.valid, vigil := s.stFt st })
    s.niWr st addr data mark (.result tag c)

/-- A header result reaches a member (R199). -/
def State.takeHeader (s : State) (st : Nat) (tag : W16) (h : List Byte) (x : CollSide) : State :=
  s.updMember st tag (fun m =>
    { m with
      hdr := true, vigil := s.stFt st,
      block := { foldSide m.block x with
        lateMember := BitVec.ofNat 27 (leAt h 28 4),
        lateness := satQ (ftSince (BitVec.ofNat 64 (leAt h 8 8)) (BitVec.ofNat 64 (leAt h 0 8)) / 128) } })

/-! ## The status block, the completion and the report (R194, R195, R236) -/

/-- The bytes of a status block (Table 08-10). -/
def blockBytes (b : StatusBlock) : List Byte :=
  leBytes 8 b.digest.toNat ++ leBytes 4 b.step.toNat ++ leBytes 4 b.lateMember.toNat ++ leBytes 4 b.lateness.toNat ++ leBytes 4 b.flags.toNat ++
  leBytes 4 b.firstNonfinite.toNat ++ leBytes 4 b.saturations.toNat ++ leBytes 4 b.overflow.toNat ++ leBytes 4 b.firstDropped.toNat ++
  leBytes 4 b.validOut.toNat ++ leBytes 4 b.firstCancelled.toNat ++ leBytes 8 b.ftEnd.toNat ++ List.replicate 8 0

/-- The valid counts that follow the slots of an ALL_GATHER (R196). -/
def Member.counts (m : Member) : List Byte := (List.range m.size).flatMap (fun i => leBytes 4 (kget 0 m.valid i))

/-- A member's whole output in order (R232). -/
def Member.output (m : Member) : List Byte :=
  m.outputs.flatMap (fun c => (kget {} m.outs c).bytes) ++ (if m.op = opGather then m.counts else [])

/-- The lowest chunk for which the member raised no event (Table 08-10). -/
def Member.firstUnraised (m : Member) : Nat := (m.outputs.find? (fun c => !(kget {} m.outs c).raised)).getD 0xFFFFFFFF

/-- The status flags that the member itself knows (Table 08-10). -/
def Member.ownFlags (m : Member) : Nat :=
  (if m.cancelled then 1 + 2 * m.cause else 0) + (if wMode m.w = 2 then 8 else 0) + (if m.poison.isSome then 128 else 0)

/-- The status block as it is written (R195, R196, R232). FT_END of an instance that makes no chunk visible here (a BARRIER, a REDUCE away from
ROOT) is the FT at which it had all that it waits for (DESIGN CHOICE, log 70: the specification names the last chunk). -/
def Member.final (m : Member) (now : FT) : StatusBlock :=
  let excess := if m.op = opGather ∧ cCap m.d < cValid m.d then cValid m.d - cCap m.d else 0
  { m.block with
    digest := if m.cancelled then 0 else crc64 m.output, step := cStep m.d, flags := m.block.flags ||| BitVec.ofNat 32 m.ownFlags,
    overflow := if excess = 0 then m.block.overflow else BitVec.ofNat 32 excess,
    firstDropped := if excess = 0 then m.block.firstDropped else BitVec.ofNat 32 (cCap m.d),
    validOut := if m.op = opSparse then m.block.validOut else BitVec.ofNat 32 (min 0xFFFFFFFF m.outElems),
    firstCancelled := BitVec.ofNat 32 m.firstUnraised, ftEnd := if m.cancelled then now else (m.visFt.map (·.1)).getD now }

/-- The member summary (Table 10-1); empty where the member keeps none. -/
def Member.summary (m : Member) (st locals : Nat) : StatsRec :=
  let r := statsOf m.outFmt (if m.keepsStats locals && !m.cancelled then m.outputs.flatMap m.chunkNums else [])
  { r with
    chunk := 0xFFFFFFFF, member := BitVec.ofNat 27 m.member,
    ref := match m.statsLost, m.firstRec with
      | false, some o => BitVec.ofNat 64 (st % 65536 + o * 2 ^ 16)
      | false, none => BitVec.ofNat 64 (st % 65536)
      | true, _ => 0xFFFFFFFFFFFFFFFF }

/-- A member's report to the Diary unit (R236). -/
def Member.report (m : Member) (st locals : Nat) (b : StatusBlock) : DiaryReport :=
  { kind := 0, station := st, tag := m.tag, opcode := BitVec.ofNat 8 m.op, mode := BitVec.ofNat 8 (wMode m.w + 4 * wOp m.w), member := m.member,
    root := cRoot m.d, block := b, readyFt := m.acc, summary := m.summary st locals, statsLost := m.statsLost, outBytes := m.outSize, startQual := m.qual,
    endQual := m.endQual }

/-- The 128 bytes of a report (R236): status block, READY_FT, member summary and statistics-ring offset. Their order is internal to the block
(DESIGN CHOICE, log 70). -/
def reportBytes (b : StatusBlock) (ready : FT) (r : StatsRec) : List Byte :=
  (blockBytes b).take 56 ++ leBytes 8 ready.toNat ++ (statBytes r).take 48 ++ leBytes 4 r.member.toNat ++ leBytes 8 r.ref.toNat ++ leBytes 4 0

/-- The management stations of the Diary units (R236, Table 18-3). -/
def diaryStations (p : Package) : List Nat := if p.isS then [110, 112] else [16 * 2048 + 110, 18 * 2048 + 110]

/-- A report leaves for the active and for the standby Diary unit, to each as four MESSAGE frames of 32 B with key 0 (R236); what they say
together is the report itself (log 70). -/
def State.sendReport (s : State) (st : Nat) (r : DiaryReport) : State :=
  let bytes := reportBytes r.block r.readyFt r.summary
  let frames := (diaryStations s.pkg).flatMap (fun d => (List.range 4).map (fun i =>
    { s.sourceFrame st 0x04 0 (BitVec.ofNat 16 d) s.coord 0 with
      opinfo := r.tag, seq := BitVec.ofNat 32 i, length := 32, payload := (bytes.drop (32 * i)).take 32, last := decide (i = 3) }))
  (frames.foldl (fun s f => s.sendQ st f) s).emit (.diaryReport r)

/-- An instance ends at a member (R194, R195): the valid counts of an ALL_GATHER and then the status block are written after its output. -/
def State.endMember (s : State) (st : Nat) (tag : W16) (status : Nat) : State :=
  match s.member st tag with
  | none => s
  | some m =>
    if m.ending.isSome then s
    else
      let b := m.final (s.stFt st)
      let q := s.quality
      let counts := decide (m.op = opGather) && !m.cancelled
      let s := s.updMember st tag (fun m => { m with block := b, ending := some status, endQual := if m.cancelled then q else (m.visFt.map (·.2)).getD q, endWr := 1 + bitNat counts })
      let s := if counts then
          s.niWr st (cOut m.d + BitVec.ofNat 64 (m.size * fmtBytes m.outFmt (cCap m.d))) m.counts [] (.status tag) else s
      s.niWr st (cOut m.d + BitVec.ofNat 64 ((m.outSize + 63) / 64 * 64)) (blockBytes b) [] (.status tag)

/-- A write of the valid counts or of the status block has become visible; after the last, the completion is delivered with CPL_CTR, and the
report leaves for both Diary units (R58, R194, R236). -/
def State.statusVisible (s : State) (st : Nat) (tag : W16) : State :=
  match s.member st tag with
  | none => s
  | some m =>
    match m.ending with
    | none => s
    | some status =>
      if 1 < m.endWr then s.updMember st tag (fun m => { m with endWr := m.endWr - 1 })
      else
        let detail := if status = stPoisoned then m.poison.getD 0 else 0
        let (v, s) := s.takeFree
        let s := s.updNi st (fun n => { n with members := kdel n.members tag.toNat }.complete m.d status 0 detail (v.extractLsb' 0 16))
        s.sendReport st (m.report st (s.groupLocals tag) m.block)

/-- The status with which an uncancelled instance completes (R194). -/
def Member.status (m : Member) : Nat := if m.poison.isSome || m.block.flags.getLsbD 7 then stPoisoned else stOk

/-- Whether an instance has all that it waits for: every output chunk visible, every input sent, and its header result (R194, R199). -/
def Member.ready (m : Member) : Bool :=
  m.hdr && m.outputs.all (fun c => (kget {} m.outs c).raised) && decide (m.inputs.length ≤ m.sentIn)

end Sys2Proof.Machine
end

