-- ==== Sys2Proof/Machine/Engine.lean ====
section
/-! DEFINITION. The reduction engines, and the collective units of member NIs (R182): reservations and staging, folding, the result and its
way down, headers, sparse merges and cancellation (R182–R203, R208–R219, R227–R229, R243). -/
namespace Sys2Proof.Machine

/-! ## Instances and chunks -/

/-- An engine or collective unit. -/
def State.getEng (s : State) (st : Nat) : Eng := kget {} s.eng st

/-- The state with one changed. -/
def State.updEng (s : State) (st : Nat) (f : Eng → Eng) : State := { s with eng := kput {} s.eng st (f (s.getEng st)) }

/-- An engine or collective unit that has stopped its own clock wakes on its next input (R283). -/
def State.wakeUnit (s : State) (st : Nat) : State := { s with pwr := { s.pwr with asleep := s.pwr.asleep.filter (· != st) } }

/-- The group number of a COLL_TAG (R190). -/
def tagGroup (tag : W16) : Nat := tag.toNat % 4096

/-- The group of a COLL_TAG in the bank in force. -/
def State.groupOf (s : State) (tag : W16) : Option Group :=
  (findGroup s.bankIn (tagGroup tag)).map (fun g => { g with sw := s.pkg.isS })

/-- An instance at a unit. -/
def State.inst (s : State) (st : Nat) (tag : W16) : Option Inst := (s.getEng st).insts.find? (fun i => i.tag == tag)

/-- The state with an instance changed. -/
def State.updInst (s : State) (st : Nat) (tag : W16) (f : Inst → Inst) : State :=
  s.updEng st (fun e => { e with insts := e.insts.map (fun i => if i.tag = tag then f i else i) })

/-- The state with a chunk of an instance changed. -/
def State.updChunk (s : State) (st : Nat) (tag : W16) (c : Nat) (f : Chunk → Chunk) : State :=
  s.updInst st tag (fun i => { i with chunks := kins i.chunks c (f (kget {} i.chunks c)) })

/-- What a unit remembers of cancelled and DONE tags once a tag is new: a generation 8 to 11 behind is forgotten, since its number comes again (R192,
R202). -/
def Eng.forget (e : Eng) (tag : W16) : Eng :=
  let age (t : W16) : Nat := (tag.toNat / 4096 + 16 - t.toNat / 4096) % 16
  let old (t : W16) : Bool := tagGroup t == tagGroup tag && decide (8 ≤ age t) && decide (age t < 12)
  { e with cancelled := e.cancelled.filter (fun x => !old x.1), finished := e.finished.filter (fun x => !old x) }

/-- An instance that a frame belongs to: entered behind the others where it is new (R191, R192). -/
def State.openInst (s : State) (st : Nat) (tag : W16) (x : CollSide) : State :=
  match s.inst st tag with
  | none => (s.updEng st (fun e => e.forget tag)).updEng st (fun e => { e with insts := e.insts ++ [{ tag := tag, par := x }] })
  | some i => if i.par.op = 0 ∧ x.op ≠ 0 then s.updInst st tag (fun i => { i with par := x }) else s

/-- A reduction engine's event and status flag (R200, Table 08-15); an NI's collective unit has no register. -/
def State.engEvent (s : State) (st : Nat) (f : Fld) : State := if isEngine s.pkg st then s.event (reduceUnit st) f else s

/-- A reduction engine's counter. -/
def State.engCount (s : State) (st off n : Nat) : State := if isEngine s.pkg st ∧ n ≠ 0 then s.count (reduceUnit st) off n else s

/-- Whether an instance of REDUCE_SCATTER runs in an NI's collective unit, where chunk 0 is folded and chunk s + 1 is the result for member s
(log 40). -/
def niScatter (s : State) (st : Nat) (x : CollSide) : Bool := !isEngine s.pkg st && x.op == opScatter

/-- The chunks of an instance at a unit (R183). -/
def State.unitGeo (s : State) (st : Nat) (g : Group) (x : CollSide) (w : Nat) : Geo := geoOf (isEngine s.pkg st) x.op x.cap g.size w

/-- The plan of a chunk at a unit (R182, R184–R187). -/
def State.nodeOf (s : State) (st : Nat) (tag : W16) (x : CollSide) (w c : Nat) : Option Node :=
  match s.groupOf tag with
  | none => none
  | some g =>
    let geo := s.unitGeo st g x w
    if isEngine s.pkg st then enginePlan s.pkg g s.coord c st (geo.source x.op x.root c) (geo.dest x.op x.root c)
    else match g.memberOf s.coord st with
    | none => none
    | some me =>
      if x.op = opAllToAll ∨ x.op = opBarrier then none
      else if x.op = opScatter then
        (if c = 0 then some { niPlan g me none none with downs := [], parent := none }
         else some { niPlan g me none (some (c - 1)) with ins := [] })
      else some (niPlan g me (geo.source x.op x.root c) (geo.dest x.op x.root c))

/-- The plan of the contribution headers at a unit: chunk 0's, over every member (R199). -/
def State.headerNode (s : State) (st : Nat) (tag : W16) : Option Node :=
  match s.groupOf tag with
  | none => none
  | some g =>
    if isEngine s.pkg st then enginePlan s.pkg g s.coord 0 st none none
    else (g.memberOf s.coord st).map (fun me => niPlan g me none none)

/-- Whether a frame comes over an edge. -/
def State.fromEdge (s : State) (e : Edge) (f : Frame) : Bool :=
  if e.ext then f.srcCoord != s.coord else e.coord == f.srcCoord && e.st == f.srcStation.toNat

/-- The number of the in-edge that a frame comes over. -/
def State.inEdge (s : State) (es : List Edge) (f : Frame) : Option Nat := (List.range es.length).find? (fun i => match es[i]? with
  | some e => s.fromEdge e f
  | none => false)

/-- The edges of a chunk entered with their peers. -/
def Chunk.prep (x : Chunk) (n : Node) (takes : Edge → Option Nat) : Chunk :=
  if x.ins.isEmpty && x.down.isEmpty then
    { x with ins := n.ins.map (fun e => { coord := e.coord, st := e.st }),
             down := n.downs.map (fun e => { coord := e.coord, st := e.st, member := takes e, ext := e.ext }) }
  else x

/-- The member that takes a down edge's result as its own output, where the edge leads to one (R187, R190). -/
def State.takesAt (s : State) (st : Nat) (g : Group) (x : CollSide) (w c : Nat) (e : Edge) : Option Nat :=
  match e.member with
  | none => none
  | some m =>
    if isEngine s.pkg st then some m
    else
      let geo := s.unitGeo st g x w
      let dst := if x.op = opScatter then some (c - 1) else geo.dest x.op x.root c
      if dst.all (· == m) then some m else none

/-- The arithmetic word with which a chunk is entered: an engine's, or an NI's own where no other unit reserves the chunk there; otherwise the
first STAGE_RSV brings it (R208). -/
def State.entryWord (s : State) (st : Nat) (n : Node) (w : Nat) : Option FT :=
  if isEngine s.pkg st || n.ins.all (fun e => e.coord == s.coord && e.st == st) then some (BitVec.ofNat 64 w) else none

/-- A chunk of an instance with its plan's edges entered. -/
def State.prepChunk (s : State) (st : Nat) (tag : W16) (w c : Nat) : State :=
  match s.inst st tag, s.groupOf tag with
  | some i, some g =>
    match s.nodeOf st tag i.par w c with
    | some n => s.updChunk st tag c (fun x => { x.prep n (s.takesAt st g i.par w c) with word := x.word.or (s.entryWord st n w) })
    | none => s
  | _, _ => s

/-- Members of an instance disagree (R200, R208): STEP_MISMATCH is set for it, with the engine's event. -/
def State.mismatch (s : State) (st : Nat) (tag : W16) : State :=
  (s.updInst st tag (fun i => { i with flags := i.flags ||| 512 })).engEvent st F.REDUCE_EVENT_STEP_MISMATCH

/-! ## Frames that leave (R185–R189) -/

/-- The route of a frame that travels along the plan: a ring segment keeps to its axis and direction, and a partial for the SWITCH level leaves by
uplink 7 d(c) + 6, after which the Priberun-S consumes an entry 30 (R36, R185, R186). -/
def State.planRoute (s : State) (st : Nat) (g : Group) (c : Nat) (coord : BitVec 17) : Option (BitVec 160) :=
  if s.pkg.isS ∨ coord = s.coord then none
  else match g.axes.find? (fun a => ringEngine s.pkg g c a == st) with
    | some a => if (g.pos coord).isSome && coordPod coord == coordPod s.coord then some (ringRoute g c a s.coord coord)
                else some (routeOf [7 * g.ioDie c + 6, 30, 31])
    | none => if isEngine s.pkg st then some (routeOf [7 * g.ioDie c + 6, 30, 31]) else none

/-- The stream that carries an edge's data frames, where EDGE_STREAMS names it (R188). -/
def State.edgeStream (s : State) (g : Group) (st : Nat) (coord : BitVec 17) (dst : Nat) : Nat :=
  ((g.streams.filterMap (findStream s.bankIn)).find?
    (fun d => d.onCv && d.source == st && d.dest == dst && d.coord == coord.toNat)).elim 0 (·.id)

/-- A collective frame (R110, R113, R185, R188): data frames carry the group's key, the others key 0; an edge's stream carries its CHUNK, PARTIAL
and RESULT frames, and all others are unscheduled. -/
def State.collFrame (s : State) (st : Nat) (tag : W16) (cls c seq : Nat) (coord : BitVec 17) (dst : Nat) (fwd : Bool) (x : CollSide) : Frame :=
  let g := s.groupOf tag
  let data := decide (cls < 0x38)
  let base := s.sourceFrame st cls (if data then (g.map (·.key)).getD 0 else 0) (BitVec.ofNat 16 dst) coord 0
  let base := match g, fwd with
    | some g, true =>
      (match s.planRoute st g c coord with
       | some r =>
         let p := niPath s.bankIn (niUnit st) (s.pathTarget st (BitVec.ofNat 16 dst) coord r)
         { base with route := r, dpath := p.1, dpLen := p.2 }
       | none => base)
    | _, _ => base
  { base with
    opinfo := tag, seq := BitVec.ofNat 32 seq, coll := x, last := true,
    streamId := BitVec.ofNat 16 (match g, data with
      | some g, true => if cls = 0x33 then 0 else s.edgeStream g st coord dst
      | _, _ => 0) }

/-- One choice of the DRR over an NI's instances (R161, R189): the tag served, and the deficits. The list is the tags that wait, from the one
visited last on; fresh tells whether its quantum is still to be added. -/
def collVisit (quantum : Nat → Nat) (pend : KMap (List (Frame × FT))) : Nat → List Nat → Bool → KMap Nat → Option (Nat × KMap Nat)
  | 0, ts, _, d => ts.head?.map (fun t => (t, d))
  | _ + 1, [], _, _ => none
  | k + 1, t :: ts, fresh, d =>
    let have_ := kget 0 d t + (if fresh then quantum t else 0)
    match (kget [] pend t).head? with
    | none => collVisit quantum pend k ts true (kput 0 d t 0)
    | some x =>
      if x.1.length.toNat ≤ have_ then some (t, kput 0 d t (have_ - x.1.length.toNat))
      else collVisit quantum pend k (ts ++ [t]) true (kput 0 d t have_)

/-- The issue stage's collective queue takes the next frame where it has none (R189). -/
def State.collNext (s : State) (st : Nat) : State :=
  let n := s.getNi st
  if !n.collq.isEmpty then s
  else
    let tags := n.collPend.map (·.1)
    let order := tags.filter (fun t => decide (n.collAt ≤ t)) ++ tags.filter (fun t => decide (t < n.collAt))
    let quantum (t : Nat) : Nat := ((s.groupOf (BitVec.ofNat 16 t)).map (·.quantum)).getD 65536
    match collVisit quantum n.collPend (order.length * 20) order (order.head? != some n.collAt) n.collDef with
    | none => s
    | some (t, d) =>
      match kget [] n.collPend t with
      | [] => s
      | f :: fs => s.setNi st { n with collq := [{ f := f.1, since := f.2, headAt := s.stFt st }], collPend := kput [] n.collPend t fs, collAt := t, collDef := if fs.isEmpty then kput 0 d t 0 else d }

/-- A collective frame waits for its queue's turn, or for its stream's run (R188, R189). -/
def State.collSend (s : State) (st : Nat) (f : Frame) : State :=
  let now := s.stFt st
  if f.streamId ≠ 0 then s.updNi st (fun n => { n with collSched := n.collSched ++ [(f, now, false)] })
  else (s.updNi st (fun n => { n with collPend := kput [] n.collPend f.opinfo.toNat (kget [] n.collPend f.opinfo.toNat ++ [(f, now)]) })).collNext st

/-- What an instance's frames say now: its parameters, the flags and drops it has met (log 38). -/
def Inst.side (i : Inst) : CollSide := { i.par with flags := i.flags, dropped := i.dropped, firstDropped := i.firstDropped, valid := 0, hdr := [] }

/-! ## Staging (R190, R191) -/

/-- An engine's staging, or a member NI's staging region: base address and bytes (R190, Table 16-10). -/
def State.stageRegion (s : State) (st : Nat) : Nat × Nat :=
  if isEngine s.pkg st then (0, if s.pkg.isS ∨ 16 ≤ st / 2048 then 4194304 else 2097152)
  else match recFor s.flatRecs 0x0101 (niUnit st) with
    | some r => (leAt r.payload 0 8, leAt r.payload 8 4)
    | none => (0, 0)

/-- The bytes of staging that an input of a chunk takes: CHUNK at an engine, the largest string of the chunk at an NI (R190, log 39). -/
def State.stageSize (s : State) (st : Nat) (g : Group) (x : CollSide) (w c : Nat) : Nat :=
  if isEngine s.pkg st then chunkBytes w
  else
    let geo := s.unitGeo st g x w
    let n := ((if x.op = opScatter then x.cap else geo.count c) + 63) / 64
    (maxString (accKind w (opCopies x.op)) w n + 4095) / 4096 * 4096

/-- The allocations of a unit's staging: address and bytes. -/
def Eng.allocated (e : Eng) : List (Nat × Nat) :=
  e.insts.flatMap (fun i => i.chunks.flatMap (fun x =>
    x.2.ins.filterMap (fun k => match k.base with
      | some b => if k.units = 0 then none else some (b.toNat, k.units)
      | none => none) ++
    (match x.2.downRsv with
     | some (some b) => [(b.1.toNat, b.2)]
     | _ => [])))

/-- The lowest address at which an allocation fits (log 39). -/
def firstFit (region : Nat × Nat) (used : List (Nat × Nat)) (size : Nat) : Option Nat :=
  let cands := (region.1 :: used.map (fun u => u.1 + u.2)).mergeSort (fun a b => decide (a ≤ b))
  cands.find? (fun a => decide (region.1 ≤ a) && decide (a + size ≤ region.1 + region.2) &&
    used.all (fun u => decide (u.1 + u.2 ≤ a) || decide (a + size ≤ u.1)))

/-- Free staging in 4 KiB units (Table 08-14). -/
def State.stageFree (s : State) (st : Nat) : Nat :=
  (s.stageRegion st).2 / 4096 - ((s.getEng st).allocated.map (fun u => u.2 / 4096)).foldl (· + ·) 0

/-- Entries of the reservation table in use (R191): reservations and header entries. -/
def Eng.rsvUsed (e : Eng) : Nat :=
  (e.insts.map (fun i => i.hdrs.length + (i.chunks.map (fun x => (x.2.ins.filter (·.rsv)).length + bitNat x.2.downRsv.isSome)).foldl (· + ·) 0)).foldl (· + ·) 0

/-! ## The promotion pool (R213) -/

/-- Promoted lanes of a chunk's open blocks. -/
def Chunk.slots (x : Chunk) : Nat := (x.blks.map (fun b => (b.val.map Blk.promoted).getD 0)).foldl (· + ·) 0

/-- Slots of a unit in use. -/
def Eng.slots (e : Eng) : Nat := (e.insts.map (fun i => (i.chunks.map (fun x => x.2.slots)).foldl (· + ·) 0)).foldl (· + ·) 0

/-- The open blocks of a unit in fold order (R213): the instance's place, the chunk, the block, and its slots. -/
def Eng.openBlks (e : Eng) : List (Nat × Nat × Nat × Nat) :=
  e.insts.zipIdx.flatMap (fun i => i.1.chunks.flatMap (fun x =>
    (x.2.blks.zipIdx.filter (fun b => b.1.val.isSome)).map (fun b => (i.2, x.1, x.2.first + b.2, (b.1.val.map Blk.promoted).getD 0))))

/-- Whether one place of the fold order stands before another. -/
def foldsBefore (a b : Nat × Nat × Nat) : Bool :=
  decide (a.1 < b.1) || (a.1 == b.1 && (decide (a.2.1 < b.2.1) || (a.2.1 == b.2.1 && decide (a.2.2 < b.2.2))))

/-- Whether a fold that leaves a block with n slots finds them (R213): the first open block has the reserve of 64, the others share the rest. -/
def State.slotsOk (s : State) (st : Nat) (tag : W16) (c b n : Nat) : Bool :=
  let e := s.getEng st
  let cap := if isEngine s.pkg st then 4096 else 256
  let i := (e.insts.findIdx? (fun i => i.tag == tag)).getD 0
  let others := e.openBlks.filter (fun x => !(x.1 == i && x.2.1 == c && x.2.2.1 == b))
  let all := (others.map (fun x => x.2.2.2)).foldl (· + ·) 0
  match others.head? with
  | none => true
  | some f =>
    if foldsBefore (i, c, b) (f.1, f.2.1, f.2.2.1) then decide (all + n ≤ cap)
    else decide (all - f.2.2.2 + n ≤ cap - 64)

/-! ## Folding (R209–R219, R227) -/

/-- What an input offers next: nothing yet, a malformed block, a contribution's bytes, or a partial block, with the bytes it takes. -/
inductive Next where
  | wait
  | bad
  | con (bs : List Byte) (used : Nat)
  | part (b : Blk) (used : Nat)

/-- The next block of an input (R216): a contribution's last block may be short. elems is the elements of the chunk. -/
def CIn.next (k : AccKind) (w elems : Nat) (x : CIn) : Next :=
  if x.cls = 0x31 then
    match parseBlk k w x.data with
    | .ok b n => .part b n
    | .bad => .bad
    | .more => if x.last then .bad else .wait
  else
    let size := min (fmtB64 (wIn w)) (fmtBytes (wIn w) elems - x.blocks * fmtB64 (wIn w))
    if size ≤ x.data.length then .con (x.data.take size) size
    else if x.last then .con x.data x.data.length else .wait

/-- Whether a range of a string is poisoned. -/
def marked (ms : List (Nat × Nat)) (off len : Nat) : Bool := ms.any (fun m => decide (m.1 < off + len) && decide (off < m.2))

/-- The blocks of a chunk of n elements. -/
def blocksOf (n : Nat) : Nat := (n + 63) / 64

/-- The elements that a chunk's blocks hold at a unit. -/
def State.chunkElems (s : State) (st : Nat) (g : Group) (x : CollSide) (w c : Nat) : Nat :=
  if niScatter s st x then (if c = 0 then x.cap else 0) else (s.unitGeo st g x w).count c

/-- Whether an input has passed a block: folded, or given up (R216). -/
def CIn.passed (x : CIn) (b : Nat) : Bool := x.bad || decide (b < x.blocks)

/-- The in-edge that may fold next: in ORDERED mode only behind the in-edges before it (R218). -/
def foldable (ordered : Bool) (n : Nat) (offers : CIn → Bool) (ins : List CIn) : Option Nat :=
  (List.range ins.length).find? (fun i => match ins[i]? with
    | some x => !x.bad && decide (x.blocks < n) && offers x &&
        (!ordered || (ins.take i).all (fun y => y.passed x.blocks))
    | none => false)

/-- The class and detail of a malformed block's event (R216): MALFORMED with the group's key; no table gives its low bits, a free value (log 39). -/
def State.malformedBlock (s : State) (st : Nat) (tag : W16) : State :=
  let (v, s) := s.takeFree
  s.faultEvent (if isEngine s.pkg st then reduceUnit st else niUnit st) 14
    (BitVec.ofNat 32 (((s.groupOf tag).map (·.key)).getD 0 * 2 ^ 20 + v.toNat % 256))

/-- The cycles of a unit's island between two values of FT (R230), at least one. -/
def State.heldCycles (s : State) (st : Nat) (since : FT) : Nat :=
  max 1 (ftSince (s.stFt st) since * (kget {} s.isl (stationIsl s.pkg st)).freq / 4000)

/-- One block folded at a chunk, where one can be: the state after it; none where nothing can be folded now (R211–R213, R216, R218). Nothing is
folded before the chunk has its arithmetic word (R208). -/
def State.foldOne (s : State) (st : Nat) (tag : W16) (c : Nat) : Option State :=
  match s.inst st tag, s.groupOf tag with
  | some i, some g =>
    let x := kget {} i.chunks c
    let w := (x.word.getD 0).toNat
    let k := accKind w (opCopies i.par.op)
    let elems := s.chunkElems st g i.par w c
    let n := blocksOf elems
    let offers (y : CIn) : Bool := x.word.isSome && match y.next k w elems with
      | .wait => false
      | _ => !y.held
    match foldable (wMode w == 1) n offers x.ins with
    | none => none
    | some j =>
      match x.ins[j]? with
      | none => none
      | some y =>
        let put (y : CIn) (x : Chunk) : Chunk := { x with ins := x.ins.set j y }
        let slot := y.blocks - x.first
        let old : OpenBlk := x.blks.getD slot {}
        let fold (v : Blk) (used : Nat) : State :=
          let was := (old.val.map Blk.promoted).getD 0
          if was < v.promoted ∧ s.slotsOk st tag c y.blocks v.promoted = false then
            s.updChunk st tag c (put { y with held := true, heldAt := y.heldAt.or (some (s.stFt st)) })
          else
            let s := match y.heldAt with
              | some t => s.engCount st R.REDUCE_PROMO_STALLS (s.heldCycles st t)
              | none => s
            let blk : OpenBlk := { val := some v, poison := old.poison || marked y.marks y.off used }
            let y2 := { y with data := y.data.drop used, off := y.off + used, blocks := y.blocks + 1, heldAt := none,
                               units := if y.last ∧ y.blocks + 1 = n then 0 else y.units }
            let s := s.updChunk st tag c (fun x => { put y2 x with
              blks := (x.blks ++ List.replicate (slot + 1 - x.blks.length) ({} : OpenBlk)).set slot blk })
            let s := s.engCount st R.REDUCE_PROMOTIONS (v.promotions old.val)
            s.updEng st (fun e => { e with hwm := max e.hwm e.slots })
        match y.next k w elems with
        | .wait => none
        | .bad => some ((s.updChunk st tag c (fun x => { put { y with bad := true, data := [], units := 0 } x with
            bad := true, marks := x.marks ++ [(x.strOff, x.strOff + x.str.length)] })).malformedBlock st tag)
        | .con bs used => some (fold (foldContribution k w old.val bs) used)
        | .part b used => some (fold (foldPartial k w old.val b) used)
  | _, _ => none

/-- Blocks folded while there are any. -/
def State.foldAll (st : Nat) (tag : W16) (c : Nat) : Nat → State → State
  | 0, s => s
  | n + 1, s => match s.foldOne st tag c with
    | some t => State.foldAll st tag c n t
    | none => s

/-- Whether a chunk is final at a unit (R187). -/
def Node.final (n : Node) : Bool := n.up.isNone

/-- The inputs that a unit holds for want of slots may be folded again: a block has been emitted and has returned its slots, or the first open block
is another, which has the reserve (R213). -/
def Eng.unhold (e : Eng) : Eng :=
  { e with insts := e.insts.map (fun i => { i with chunks := i.chunks.map (fun x =>
      (x.1, { x.2 with ins := x.2.ins.map (fun y => { y with held := false }) })) }) }

/-- A block whose inputs have all come leaves: as a partial toward the up edge, or rounded at the final engine (R193, R215, R221, R227). -/
def State.emitBlock (s : State) (st : Nat) (tag : W16) (c : Nat) (nd : Node) (g : Group) : State :=
  match s.inst st tag with
  | none => s
  | some i =>
    let x := kget {} i.chunks c
    let w := (x.word.getD 0).toNat
    let k := accKind w (opCopies i.par.op)
    let elems := s.chunkElems st g i.par w c
    let b : OpenBlk := x.blks.getD 0 {}
    let v := b.val.getD (accNew k w)
    let n := min 64 (elems - 64 * x.first)
    let geo := s.unitGeo st g i.par w
    let index := if niScatter s st i.par then 64 * x.first else geo.index i.par.op c + 64 * x.first
    let (bytes, sats) := if nd.final then finish w g.size i.par.step index n v else (blkBytes w v, 0)
    let at_ := x.strOff + x.str.length
    let s := s.engCount st R.REDUCE_SATURATIONS sats
    let s := s.updInst st tag (fun i => { i with sats := i.sats + sats })
    (s.updChunk st tag c (fun x => { x with
      first := x.first + 1, blks := x.blks.drop 1, str := x.str ++ bytes,
      marks := if b.poison || x.bad then x.marks ++ [(at_, at_ + bytes.length)] else x.marks,
      sats := x.sats ++ [sats], proms := x.proms ++ [v.promoted] })).updEng st Eng.unhold

/-- The blocks that every input has passed leave in order. -/
def State.emitAll (st : Nat) (tag : W16) (c : Nat) (nd : Node) (g : Group) (elems : Nat) : Nat → State → State
  | 0, s => s
  | n + 1, s => match s.inst st tag with
    | none => s
    | some i =>
      let x := kget {} i.chunks c
      let done := if nd.one then x.ins.any (fun y => y.passed x.first) else x.ins.all (fun y => y.passed x.first)
      if x.first < blocksOf elems && !x.ins.isEmpty && done then State.emitAll st tag c nd g elems n (s.emitBlock st tag c nd g) else s

/-! ## Strings cut into frames (R193, R215, R228) -/

/-- A piece of a chunk's string leaves for the up edge (R190). -/
def State.sendUp (s : State) (st : Nat) (tag : W16) (c cls : Nat) (e : Edge) (base : FT) (off : Nat) (data : List Byte) (mark : Marks)
    (last : Bool) (x : CollSide) : State :=
  s.collSend st (withMarks 3 mark { s.collFrame st tag cls c c e.coord e.st true x with
    addr := base + BitVec.ofNat 64 off, length := BitVec.ofNat 13 data.length, payload := data, last := last })

/-- The chunk status word (Table 09-9). The flags are those of the result's bytes; first is the lowest output index that is not finite. -/
def statusWord (nums : List Num) (outElem : Nat) (poison : Bool) (sats proms : Nat) : List Byte :=
  let has (v : Num) : Nat := bitNat (nums.any (· == v))
  let first := (nums.findIdx? (fun v => match v with
    | .fin _ _ => false
    | _ => true)).elim 0xFFFFFFFF (fun i => (outElem + i) % 2 ^ 32)
  leBytes 4 (has .nan + 2 * has (.inf false) + 4 * has (.inf true) + 8 * bitNat poison) ++ leBytes 4 first ++
    leBytes 4 (min sats 0xFFFFFFFF) ++ leBytes 4 (min proms 0xFFFFFFFF)

/-- The frames of a result string and its status word (R187, R228). -/
def resFrames (str : List Byte) (marks : List (Nat × Nat)) (word : List Byte) (x : CollSide) (valid : Nat) : List ResFrame :=
  let n := (str.length + 4095) / 4096
  (List.range n).map (fun i =>
    let d := (str.drop (4096 * i)).take 4096
    { off := 4096 * i, data := d, mark := marksPart marks (4096 * i) d.length, last := decide (i + 1 = n), word := false,
      side := { x with valid := if i + 1 = n then valid else 0 } }) ++
    [{ off := 0, data := word, mark := [], last := true, word := true, side := { x with valid := valid } }]

/-- The final engine has its chunk's whole result: it stands ready to go down (R187, R228). In an NI's REDUCE_SCATTER the result of chunk 0 is cut into
the members' shares (log 40). -/
def State.finishChunk (s : State) (st : Nat) (tag : W16) (c : Nat) (g : Group) : State :=
  match s.inst st tag with
  | none => s
  | some i =>
    let x := kget {} i.chunks c
    let w := (x.word.getD 0).toNat
    let geo := s.unitGeo st g i.par w
    let fmt := wOut w
    let proms := if wMode w = 0 then x.proms else []
    let word (nums : List Num) (oe : Nat) : List Byte :=
      statusWord nums oe (!x.marks.isEmpty || x.bad) (x.sats.foldl (· + ·) 0) (proms.foldl (· + ·) 0)
    if niScatter s st i.par then
      let share := fmtBytes fmt geo.len
      let s := s.updChunk st tag c (fun x => { x with sent := true, str := [], strOff := 0 })
      (List.range g.size).foldl (fun s k =>
        let str := (x.str.drop (k * share)).take share
        let ms := if x.bad then [(0, str.length)] else marksPart x.marks (k * share) share
        let s := s.prepChunk st tag w (k + 1)
        let part (l : List Nat) : Nat := ((l.drop (k * (geo.len / 64))).take (geo.len / 64)).foldl (· + ·) 0
        s.updChunk st tag (k + 1) (fun y => { y with
          sent := true,
          res := resFrames str ms (statusWord (outNums fmt geo.len str) 0 (!ms.isEmpty || x.bad) (part x.sats) (part proms)) i.side 0 })) s
    else
      s.updChunk st tag c (fun x => { x with
        sent := true, str := [],
        res := resFrames x.str (if x.bad then [(0, x.str.length)] else x.marks) (word (outNums fmt (geo.count c) x.str) (geo.outElem i.par.op c)) i.side x.valid })

/-- A non-final chunk's string leaves in frames of 4,096 B, the last once every block has been emitted (R193, R215). -/
def State.flushUp (st : Nat) (tag : W16) (c : Nat) (e : Edge) (base : FT) (all : Bool) : Nat → State → State
  | 0, s => s
  | n + 1, s => match s.inst st tag with
    | none => s
    | some i =>
      let x := kget {} i.chunks c
      let last := all && decide (x.str.length ≤ 4096)
      if x.sent ∨ (x.str.length ≤ 4096 ∧ last = false) then s
      else
        let d := x.str.take 4096
        let s := s.sendUp st tag c 0x31 e base x.strOff d (marksPart x.marks x.strOff d.length) last { i.side with valid := x.valid, bad := x.bad }
        State.flushUp st tag c e base all n
          (s.updChunk st tag c (fun x => { x with str := x.str.drop 4096, strOff := x.strOff + d.length, sent := last }))

/-! ## Reservations (R190, R191) -/

/-- The reservations an instance holds on an up edge: sent, and its data not all sent. -/
def Inst.upHeld (i : Inst) (up : Nat → Option Edge) (e : Edge) : Nat :=
  (i.chunks.filter (fun x => x.2.upRsv && !x.2.sent && up x.1 == some e)).length

/-- A unit reserves a chunk at its up edge, where it needs to and may hold one more (R190, R208). -/
def State.reserveUp (s : State) (st : Nat) (tag : W16) (c : Nat) (nd : Node) : State :=
  match s.inst st tag, nd.up with
  | some i, some e =>
    let x := kget {} i.chunks c
    let w := (x.word.getD 0).toNat
    let depth := ((s.groupOf tag).map (·.depth)).getD 1
    if x.upRsv || x.word.isNone || nd.ins.isEmpty || !x.ins.any (·.rsv) ||
        decide (min (wRun w) (max 1 depth) ≤ i.upHeld (fun k => (s.nodeOf st tag i.par w k).bind (·.up)) e) then s
    else
      (s.updChunk st tag c (fun x => { x with upRsv := true })).collSend st
        { s.collFrame st tag 0x38 c c e.coord e.st true i.side with addr := BitVec.ofNat 64 w }
  | _, _ => s

/-- The output address of a member's buffer, as its contribution header told its die's engine 80, or its parent in the NI tree (R187, R199). -/
def State.outAddrOf (s : State) (st : Nat) (tag : W16) (dst : Nat) : Option FT :=
  kfind (s.getEng (if isEngine s.pkg st then dst / 2048 * 2048 + 80 else st)).outAddr (tag.toNat * 65536 + dst)

/-- The number that frames toward a down edge carry for a chunk. -/
def State.downSeq (s : State) (st : Nat) (x : CollSide) (c : Nat) : Nat := if niScatter s st x then c - 1 else c

/-- The address of the chunk status word (R228). -/
def wordAddr : FT := 0xFFFF000000000000

/-- The peer of a chunk's down edge. Of an edge that leads out of a Priberun-S it is the peer whose reservation came over the same in-edge, else the
one last met, else the peer that no table names (log 42). -/
def State.downPeer (s : State) (g : Group) (c : Nat) (i : Inst) (d : CDown) : BitVec 17 × Nat :=
  if !d.ext || d.rsv then (d.coord, d.st)
  else
    let x := kget {} i.chunks c
    match x.ins.find? (fun y => y.rsv && y.coord != s.coord) with
    | some y => (y.coord, y.st)
    | none => i.below.getD ((switchEdge g c).coord, (switchEdge g c).st)

/-- The reservations that an instance holds on a down edge: sent, and the chunk's result not all sent (R190). -/
def Inst.downHeld (i : Inst) (coord : BitVec 17) (st : Nat) : Nat :=
  (i.chunks.filter (fun x => x.2.down.any (fun d => d.rsv && d.coord == coord && d.st == st &&
    !(x.2.res.any (·.word) && d.sent == x.2.res.length)))).length

/-- The frames of a chunk's result that a down edge has not had, sent where it may have them (R187, R190, R228): a sender holds at most RUNAHEAD
reservations on an edge. -/
def State.relayEdge (s : State) (st : Nat) (tag : W16) (c : Nat) (g : Group) (j : Nat) : State :=
  match s.inst st tag with
  | none => s
  | some i =>
    let x := kget {} i.chunks c
    let w := (x.word.getD 0).toNat
    let seq := s.downSeq st i.par c
    match x.down[j]? with
    | none => s
    | some d =>
      let fs := x.res.drop d.sent
      let p := s.downPeer g c i d
      let self := d.st == st && d.coord == s.coord
      let outBase (o : FT) : FT := o + BitVec.ofNat 64 ((s.unitGeo st g i.par w).outByte i.par.op (wOut w) seq)
      let mark (s : State) : State := s.updChunk st tag c (fun x => { x with down := x.down.set j { d with sent := x.res.length } })
      if fs.isEmpty then s
      else if self then
        match s.member st tag with
        | none => s
        | some m =>
          if d.member.isNone then mark s
          else fs.foldl (fun s f =>
            if f.word then s.takeWord st tag seq f.data f.side
            else s.takeResult st tag seq (cOut m.d + BitVec.ofNat 64 (m.geo.outByte m.op m.outFmt seq + f.off)) f.off f.data f.mark f.last f.side) (mark s)
      else
        let send (base : FT) (s : State) : State := fs.foldl (fun s f =>
          s.collSend st (withMarks 3 f.mark { s.collFrame st tag 0x32 c seq p.1 p.2 true f.side with
            addr := if f.word then wordAddr else base + BitVec.ofNat 64 f.off, length := BitVec.ofNat 13 f.data.length, payload := f.data,
            last := f.last })) (mark s)
        match d.member with
        | some _ =>
          (match s.outAddrOf st tag d.st with
           | some o => send (outBase o) s
           | none => s)
        | none =>
          match d.base with
          | some b => send b s
          | none =>
            if d.rsv || decide (min (wRun w) (max 1 g.depth) ≤ i.downHeld p.1 p.2) then s
            else (s.updChunk st tag c (fun x => { x with down := x.down.set j { d with rsv := true, coord := p.1, st := p.2 } })).collSend st
              { s.collFrame st tag 0x38 c seq p.1 p.2 true i.side with addr := BitVec.ofNat 64 w }

/-- Whether the final engine of chunk 0 still waits for its headers: it emits no RESULT before it has found MEMBERS equal to M (R200). -/
def State.headersWait (s : State) (st : Nat) (tag : W16) (i : Inst) : Bool :=
  !i.hdrSent && match s.headerNode st tag with
  | some n => n.final
  | none => false

/-- A chunk's result goes down every edge that can take it. -/
def State.relay (s : State) (st : Nat) (tag : W16) (c : Nat) (g : Group) : State :=
  match s.inst st tag with
  | none => s
  | some i =>
    if s.headersWait st tag i then s
    else
      let x := kget {} i.chunks c
      (List.range x.down.length).foldl (fun s j => s.relayEdge st tag c g j) s

/-! ## The end of chunks and instances (R192, R193, R243) -/

/-- Whether a chunk has a part at a unit. -/
def Node.takesPart (n : Node) : Bool := !n.ins.isEmpty || !n.downs.isEmpty

/-- The chunks of an instance in which a unit has a part. -/
def State.unitChunks (s : State) (st : Nat) (tag : W16) (i : Inst) (g : Group) : Nat :=
  let w := (i.word.getD 0).toNat
  let total := if niScatter s st i.par then g.size + 1 else (s.unitGeo st g i.par w).total
  (List.range total).countP (fun c => match s.nodeOf st tag i.par w c with
    | some n => n.takesPart
    | none => false)

/-- The engines of a Priberun-S where an instance is neither DONE nor cancelled. -/
def State.heldAnywhere (s : State) (tag : W16) : Bool := s.eng.any (fun e => e.2.insts.any (fun i => i.tag == tag))

/-- FLAGS that the engines of a Priberun-S saw of an instance (R243): their OR, with CAUSE from the lowest engine that cancelled it, as R238 takes
it from the lowest member (DESIGN CHOICE, log 70). -/
def engineFlags (ps : List Inst) : Nat :=
  let all := ps.foldl (fun a i => a ||| i.flags) 0
  let cause := ((ps.find? (fun i => i.flags.testBit 0)).map (fun i => i.flags / 2 % 4)).getD 0
  all / 8 * 8 + cause * 2 + all % 2

/-- The ENGINE report of an instance that is over at every engine of a Priberun-S (R243, Table 10-3). -/
def State.engineReport (s : State) (tag : W16) : State :=
  if !s.pkg.isS || s.heldAnywhere tag then s
  else
    let ps := s.eng.flatMap (fun e => (e.2.past.filter (fun i => i.tag == tag)))
    match ps.head? with
    | none => s
    | some p =>
      let w := ((ps.findSome? (fun (i : Inst) => i.word)).getD 0).toNat
      let sum (f : Inst → Nat) : Nat := (ps.map f).foldl (· + ·) 0
      let start := (ps.filterMap (fun (i : Inst) => i.firstFt.map (fun t => (t, i.firstQual)))).foldl (fun a t => match a with
        | none => some t
        | some b => if ftGe t.1 b.1 then some b else some t) none
      let stop := (ps.map (fun (i : Inst) => (i.lastFt, i.lastQual))).foldl (fun a t => if ftGe t.1 a.1 then t else a) (p.lastFt, p.lastQual)
      let flags := engineFlags ps
      let s := { s with eng := s.eng.map (fun e => (e.1, { e.2 with past := e.2.past.filter (fun i => i.tag != tag) })) }
      match start with
      | none => s
      | some t0 => s.emit (.diaryReport
          { kind := 2, station := 0, tag := tag, opcode := BitVec.ofNat 8 p.par.op, mode := BitVec.ofNat 8 (wMode w + 4 * wOp w), member := sum (·.finals),
            root := sum (·.relays),
            block := { step := p.par.step, flags := BitVec.ofNat 32 flags, saturations := BitVec.ofNat 32 (min 0xFFFFFFFF (sum (·.sats))), ftEnd := stop.1 },
            readyFt := t0.1, summary := {}, statsLost := false, outBytes := 0, startQual := t0.2, endQual := stop.2 })

/-- An instance leaves a unit. -/
def State.dropInst (s : State) (st : Nat) (tag : W16) (flags : Nat) : State :=
  match s.inst st tag with
  | none => s
  | some i =>
    (s.updEng st (fun e => { e with
      insts := e.insts.filter (fun i => i.tag != tag),
      past := if s.pkg.isS then e.past ++ [{ i with chunks := [], hdrs := [], flags := i.flags / 8 * 8 ||| flags }] else e.past }.unhold)).engineReport tag

/-- An instance whose chunks and headers are all done here is over (R192). -/
def State.tryEnd (s : State) (st : Nat) (tag : W16) : State :=
  match s.inst st tag, s.groupOf tag with
  | some i, some g =>
    let hdr := match s.headerNode st tag with
      | some n => i.hdrSent && (n.final || i.hdrDown.isSome)
      | none => true
    let total := if i.par.op = opAllToAll then g.size - 1 else if i.par.op = opBarrier then 0 else s.unitChunks st tag i g
    if hdr && i.chunks.isEmpty && (i.word.isSome || i.par.op == opBarrier || i.par.op == opAllToAll) && decide (total ≤ i.doneList.length) then
      (s.updEng st (fun e => { e with finished := e.finished ++ [tag] })).dropInst st tag 0
    else s
  | _, _ => s

/-- Whether frames of a chunk wait at its unit's output: RESULT frames bear the number of the chunk below (R189, R193). -/
def State.framesWait (s : State) (st : Nat) (tag : W16) (x : CollSide) (c : Nat) : Bool :=
  let n := s.getNi st
  let mine (f : Frame) : Bool := f.opinfo == tag && f.seq != 0xFFFFFFFF &&
    (if f.cls = 0x32 then f.seq.toNat == s.downSeq st x c else decide (0x30 ≤ f.cls.toNat) && decide (f.cls.toNat ≤ 0x33) && f.seq.toNat == c)
  n.collq.any (fun h => mine h.f) || n.collPend.any (fun e => e.2.any (fun p => mine p.1)) || n.collSched.any (fun p => mine p.1)

/-- A chunk whose data has left upward and whose last RESULT frame has left down every edge is DONE: its entries and staging are free (R193). -/
def State.tryDone (s : State) (st : Nat) (tag : W16) (c : Nat) (nd : Node) : State :=
  match s.inst st tag with
  | none => s
  | some i =>
    match kfind i.chunks c with
    | none => s
    | some x =>
      let up := x.sent || nd.ins.isEmpty
      let down := x.down.isEmpty || (x.res.any (·.word) && x.down.all (fun d => d.sent == x.res.length))
      if up && down && !s.framesWait st tag i.par c then
        ((s.updInst st tag (fun i => { i with
          chunks := kdel i.chunks c, doneList := i.doneList ++ [c], finals := i.finals + bitNat nd.final, relays := i.relays + bitNat (!nd.final) })).engCount st R.REDUCE_CHUNKS 1).tryEnd st tag
      else s

end Sys2Proof.Machine
end

