-- ==== Sys2Proof/Machine/Collective.lean ====
section
/-! DEFINITION. Collectives at a unit and at a member: sparse merges, contribution headers, cancellation, how a unit goes on after each event,
and how a member's descriptor starts, reads its input and ends (R174–R203, R218, R229). -/
namespace Sys2Proof.Machine

/-! ## Sparse sums (R197, R198) -/

/-- A record as it travels: index, zero, and the row's blocks in their partial form. -/
def SpRec.bytes (w : Nat) (r : SpRec) : List Byte := leBytes 4 r.index.toNat ++ leBytes 4 0 ++ r.blks.flatMap (blkBytes w)

/-- The blocks of one row read from a string: the sound blocks, the bytes they take, and whether the row is whole; a malformed block, or the end of
the string inside one, ends it (R216). -/
def parseRow (k : AccKind) (w : Nat) : Nat → List Byte → List Blk × Nat × Bool
  | 0, _ => ([], 0, true)
  | n + 1, bs => match parseBlk k w bs with
    | .ok b used => let r := parseRow k w n (bs.drop used); (b :: r.1, used + r.2.1, r.2.2)
    | _ => ([], 0, false)

/-- The records of a string, each with the offset of its end, and whether the string was sound to its end (R198, R216): the sound blocks of a row that
ends malformed stay, its other blocks are as nothing folded. fuel bounds the records. -/
def parseRecs (k : AccKind) (w nb : Nat) (ms : Marks) : Nat → Nat → List Byte → List (SpRec × Nat) × Bool
  | 0, _, bs => ([], bs.isEmpty)
  | n + 1, off, bs =>
    if bs.isEmpty then ([], true)
    else if bs.length < 8 then ([], false)
    else
      let (blks, used, ok) := parseRow k w nb (bs.drop 8)
      let stop := off + 8 + used
      let r : SpRec := { index := BitVec.ofNat 32 (leAt bs 0 4), blks := blks ++ List.replicate (nb - blks.length) (accNew k w),
                         poison := marked ms off (8 + used) }
      if ok then let rest := parseRecs k w nb ms n stop (bs.drop (8 + used)); ((r, stop) :: rest.1, rest.2)
      else (if blks.isEmpty then ([], false) else ([(r, stop)], false))

/-- A member's input records as they travel (R197): the input ends at a padding record. -/
def inputRecs (k : AccKind) (w row : Nat) (mark : Marks) : Nat → Nat → List Byte → List SpRec
  | 0, _, _ => []
  | n + 1, off, bs =>
    let size := sparseBytes (wIn w) row
    if bs.length < size then []
    else
      let idx := leAt bs 0 4
      if idx = 0xFFFFFFFF then []
      else
        let blks := (List.range (row / 64)).map (fun i => foldContribution k w none ((bs.drop (4 + i * fmtB64 (wIn w))).take (fmtB64 (wIn w))))
        { index := BitVec.ofNat 32 idx, blks := blks, poison := marksHit mark off (off + size) } ::
          inputRecs k w row mark n (off + size) (bs.drop size)

/-- The records of one input in order: one whose index is lower than its predecessor's is dropped, and padding ends the input (R197, R198). The
second value counts the dropped. -/
def inOrder (last : Nat) : List (SpRec × Nat) → List (SpRec × Nat) × Nat
  | [] => ([], 0)
  | r :: rs =>
    if r.1.index = 0xFFFFFFFF then ([], 0)
    else if r.1.index.toNat < last then let x := inOrder last rs; (x.1, x.2 + 1)
    else let x := inOrder r.1.index.toNat rs; (r :: x.1, x.2)

/-- The lanes that a fold of blocks into others promotes (R230). -/
def blkPromotions (old : Option (List Blk)) (new : List Blk) : Nat :=
  (new.zipIdx.map (fun b => b.1.promotions (old.bind (fun o => o[b.2]?)))).foldl (· + ·) 0

/-- A record merged into a list in ascending index; rows that share an index are folded (R198). With it come the lanes promoted so far and the most
slots that a block has needed. -/
def mergeRec (k : AccKind) (w : Nat) (r : SpRec) : List SpRec → List SpRec × Nat × Nat
  | [] => ([r], blkPromotions none r.blks, (r.blks.map Blk.promoted).foldl max 0)
  | x :: xs =>
    if r.index.toNat < x.index.toNat then (r :: x :: xs, blkPromotions none r.blks, (r.blks.map Blk.promoted).foldl max 0)
    else if r.index = x.index then
      let bs := List.zipWith (fun a b => foldPartial k w (some a) b) x.blks r.blks
      ({ x with blks := bs, poison := x.poison || r.poison } :: xs, blkPromotions (some x.blks) bs, (bs.map Blk.promoted).foldl max 0)
    else let y := mergeRec k w r xs; (x :: y.1, y.2)

/-- The records of all inputs merged in the order given: the rows, the lanes promoted, and the most slots that one block needs. -/
def mergeRecs (k : AccKind) (w : Nat) (rs : List SpRec) : List SpRec × Nat × Nat :=
  rs.foldl (fun a r => let y := mergeRec k w r a.1; (y.1, a.2.1 + y.2.1, max a.2.2 y.2.2)) ([], 0, 0)

/-- The records of a chunk's inputs in the order in which they fold: by in-edge and place, or in ARRIVAL mode as each one's last byte came (R187,
R219). -/
def foldOrder (arrival : Bool) (came : List (Nat × Nat)) (ins : List (List (SpRec × Nat))) : List SpRec :=
  let all : List (SpRec × Nat) := ins.zipIdx.flatMap (fun l => l.1.map (fun r =>
    (r.1, (came.findIdx? (fun e => e.1 == l.2 && decide (r.2 ≤ e.2))).getD came.length)))
  (if arrival then all.mergeSort (fun a b => decide (a.2 ≤ b.2)) else all).map (·.1)

/-- The output record of a row (R197, R198): its bytes, and the saturations. -/
def finishRow (w m row : Nat) (step : W32) (r : SpRec) : List Byte × Nat :=
  let parts := r.blks.zipIdx.map (fun b => finish w m step (r.index.toNat * row + 64 * b.2) 64 b.1)
  let es := parts.flatMap (·.1)
  let size := sparseBytes (wOut w) row
  (leBytes 4 r.index.toNat ++ es ++ List.replicate (size - 4 - es.length) 0, (parts.map (·.2)).foldl (· + ·) 0)

/-- A padding record of the output. -/
def padRow (w row : Nat) : List Byte := leBytes 4 0xFFFFFFFF ++ List.replicate (sparseBytes (wOut w) row - 4) 0

/-- The sparse chunk once LAST has come from every input (R198): the inputs are merged, the C lowest indices are kept, and the records go up, or as
output records down. A block of a row takes its promotion slots while it is folded; where they are not free the inputs are held (R213). -/
def State.mergeSparse (s : State) (st : Nat) (tag : W16) (nd : Node) (g : Group) : State :=
  match s.inst st tag with
  | none => s
  | some i =>
    let x := kget {} i.chunks 0
    if x.ins.isEmpty || x.word.isNone || !(x.ins.all (·.last)) || x.first != 0 || x.ins.any (·.held) then s
    else
      let w := (x.word.getD 0).toNat
      let k := accKind w false
      let row := i.par.row
      let parsed := x.ins.map (fun y => parseRecs k w (row / 64) y.marks (y.data.length / 8 + 1) 0 y.data)
      let ordered := parsed.map (fun p => inOrder 0 p.1)
      let bad := x.bad || parsed.any (fun p => !p.2)
      let late := (ordered.map (·.2)).foldl (· + ·) 0
      let merged := mergeRecs k w (foldOrder (wMode w == 2) x.arrivals (ordered.map (·.1)))
      let all := merged.1
      let need := merged.2.2
      if !s.slotsOk st tag 0 0 need then
        s.updChunk st tag 0 (fun x => { x with ins := x.ins.map (fun y => { y with held := true, heldAt := y.heldAt.or (some (s.stFt st)) }) })
      else
        let keep := all.take i.par.cap
        let gone := all.drop i.par.cap
        let dropped := i.dropped + gone.length
        let low := gone.foldl (fun a r => min a r.index.toNat) i.firstDropped
        let s := x.ins.foldl (fun s y => match y.heldAt with
          | some t => s.engCount st R.REDUCE_PROMO_STALLS (s.heldCycles st t)
          | none => s) s
        let s := s.updEng st (fun e => { e with hwm := max e.hwm (e.slots + need) })
        let s := s.engCount st R.REDUCE_SORT_ERR late
        let s := if 0 < late then s.engEvent st F.REDUCE_EVENT_SORT_ERR else s
        let s := s.engCount st R.REDUCE_ROWS_DROPPED gone.length
        let s := s.engCount st R.REDUCE_PROMOTIONS merged.2.1
        let s := if parsed.any (fun p => !p.2) then s.malformedBlock st tag else s
        let flags := i.flags ||| (if 0 < late then 2048 else 0)
        let s := s.updInst st tag (fun i => { i with flags := flags, dropped := dropped, firstDropped := low })
        let side := { i.side with flags := flags, dropped := dropped, firstDropped := low }
        let emptied (x : Chunk) : Chunk := { x with ins := x.ins.map (fun y => { y with units := 0, data := [], heldAt := none }) }
        if nd.final then
          let rows := keep.map (finishRow w g.size row i.par.step)
          let str := rows.flatMap (·.1) ++ (List.range (i.par.cap - keep.length)).flatMap (fun _ => padRow w row)
          let size := sparseBytes (wOut w) row
          let ms := if bad then [(0, str.length)] else (keep.zipIdx.filter (fun r => r.1.poison)).map (fun r => (r.2 * size, (r.2 + 1) * size))
          let sats := (rows.map (·.2)).foldl (· + ·) 0
          let proms := (keep.map (fun r => (r.blks.map Blk.promoted).foldl (· + ·) 0)).foldl (· + ·) 0
          let s := s.engCount st R.REDUCE_SATURATIONS sats
          let s := s.updInst st tag (fun i => { i with sats := i.sats + sats })
          let word := statusWord (sparseNums (wOut w) row keep.length str) 0 (!ms.isEmpty || bad) sats (if wMode w = 0 then proms else 0)
          s.updChunk st tag 0 (fun x => { emptied x with first := 1, sent := true, res := resFrames str ms word side keep.length })
        else
          let parts := keep.map (fun r => (r.bytes w, r.poison || bad))
          let placed := parts.foldl (fun (a : List Byte × Marks) p =>
            (a.1 ++ p.1, if p.2 then a.2 ++ [(a.1.length, a.1.length + p.1.length)] else a.2)) ([], [])
          s.updChunk st tag 0 (fun x => { emptied x with first := 1, str := placed.1, marks := placed.2, bad := bad })

/-- The frames of a merged sparse string leave upward; an empty string leaves as one zero record, which ends the input (R198, log 40). -/
def State.flushSparse (s : State) (st : Nat) (tag : W16) (e : Edge) (base : FT) : State :=
  match s.inst st tag with
  | none => s
  | some i =>
    let x := kget {} i.chunks 0
    if x.first = 0 ∨ x.sent = true then s
    else
      let n := (x.str.length + 4095) / 4096
      let s := (List.range n).foldl (fun s j =>
        let d := (x.str.drop (4096 * j)).take 4096
        s.sendUp st tag 0 0x33 e base (4096 * j) d (marksPart x.marks (4096 * j) d.length) (decide (j + 1 = n)) { i.side with bad := x.bad }) s
      let s := if n = 0 then s.sendUp st tag 0 0x33 e base 0 (leBytes 8 0xFFFFFFFF) [] true { i.side with bad := x.bad } else s
      s.updChunk st tag 0 (fun x => { x with sent := true, str := [] })

/-! ## A unit goes on (Table 08-9) -/

/-- A chunk of an instance. -/
def State.chunkAt (s : State) (st : Nat) (tag : W16) (c : Nat) : Chunk := match s.inst st tag with
  | some i => kget {} i.chunks c
  | none => {}

/-- A chunk goes on as far as it can: it reserves upward, folds, sends its string up or finishes, and relays its result. -/
def State.pumpChunk (s : State) (st : Nat) (tag : W16) (c : Nat) : State :=
  match s.inst st tag, s.groupOf tag with
  | none, _ => s
  | some _, none => s
  | some i, some g =>
    let x := kget {} i.chunks c
    let w := (x.word.getD 0).toNat
    match s.nodeOf st tag i.par w c with
    | none => s
    | some nd =>
      let s := s.reserveUp st tag c nd
      let pass := !nd.final && isEngine s.pkg st && (nd.ins.length == 1 || nd.one)
      let elems := s.chunkElems st g i.par w c
      let blocks := blocksOf elems
      let s :=
        if pass then s
        else if i.par.op = opSparse then
          let s := s.mergeSparse st tag nd g
          match nd.up, (s.chunkAt st tag c).upBase with
          | some e, some b => s.flushSparse st tag e b
          | _, _ => s
        else
          let s := State.foldAll st tag c (x.ins.length * (blocks + 1)) s
          let s := State.emitAll st tag c nd g elems blocks s
          let y : Chunk := s.chunkAt st tag c
          let whole := decide (blocks ≤ y.first) && !y.ins.isEmpty
          match nd.up, y.upBase with
          | some e, some b => State.flushUp st tag c e b whole (y.str.length / 4096 + 2) s
          | some _, none => s
          | none, _ => if whole && !y.sent then s.finishChunk st tag c g else s
      (s.relay st tag c g).tryDone st tag c nd

/-- The chunks of a unit in fold order: by instance in acceptance order, then by chunk (R213). -/
def Eng.order (e : Eng) : List (W16 × Nat) := e.insts.flatMap (fun i => i.chunks.map (fun x => (i.tag, x.1)))

/-- A unit goes on with everything it holds, twice, so that what one chunk frees the chunks before it may use. -/
def State.collPump (s : State) (st : Nat) : State :=
  let once (s : State) : State := (s.getEng st).order.foldl (fun s x => s.pumpChunk st x.1 x.2) s
  let s := once (once s)
  ((s.getEng st).insts.foldl (fun s i => s.tryEnd st i.tag) s).collNext st

/-! ## Cancellation (R201–R203) -/

/-- The edges of the NI tree, or of an ALL_TO_ALL, or the engines of the die, that a member sends on (R182, R184). -/
def State.memberEdges (s : State) (g : Group) (m : Member) (st : Nat) : List (BitVec 17 × Nat) :=
  if m.engine then (List.range 4).map (fun k => (s.coord, st / 2048 * 2048 + 80 + k))
  else if m.op = opAllToAll then
    ((List.range m.size).filter (· != m.member)).map (fun t => ((memberEdge g t).coord, (memberEdge g t).st))
  else
    let n := niPlan g m.member none none
    ((n.ins ++ n.up.toList).filter (fun e => e.member != some m.member)).map (fun e => (e.coord, e.st))

/-- The chunks over which a plan's edges repeat (R184, R185). -/
def planPeriod (g : Group) : Nat :=
  Nat.lcm (4 * max 1 g.dies.length) (2 * max 1 g.ioDies.length * Nat.lcm (g.ext 0) (Nat.lcm (g.ext 1) (g.ext 2)))

/-- Every plan edge of a group at an engine, and the peers that its instance has met. -/
def State.engineEdges (s : State) (g : Group) (st : Nat) (tag : W16) : List (BitVec 17 × Nat) :=
  let ofNode (n : Node) : List (BitVec 17 × Nat) :=
    ((n.ins ++ n.downs ++ n.up.toList ++ n.parent.toList).filter (fun e => !e.ext)).map (fun e => (e.coord, e.st))
  let plan := (List.range (if s.pkg.isS then 1 else planPeriod g)).flatMap (fun c => match enginePlan s.pkg g s.coord c st none none with
    | some n => ofNode n
    | none => [])
  let met := match s.inst st tag with
    | some i => i.chunks.flatMap (fun x => (x.2.ins.filter (fun y => y.rsv)).map (fun y => (y.coord, y.st)))
    | none => []
  (plan ++ met).dedup

/-- Whether a unit has recorded a tag as cancelled, or has it DONE (R202, R203). -/
def Eng.over (e : Eng) (tag : W16) : Bool :=
  e.cancelled.any (fun c => c.1 == tag) || (e.finished.contains tag && !e.insts.any (fun i => i.tag == tag))

/-- The lowest chunk of an instance that its unit has not finished (R202); of a member on the engine path, the lowest for which it has raised no event,
or else the next that it sends. -/
def State.lowestOpen (s : State) (st : Nat) (tag : W16) : Nat :=
  match s.inst st tag, s.groupOf tag with
  | some i, some g =>
    let w := (i.word.getD 0).toNat
    ((List.range (s.unitGeo st g i.par w).total).find? (fun c => !i.doneList.contains c && match s.nodeOf st tag i.par w c with
      | some n => n.takesPart
      | none => false)).getD 0
  | _, _ => match s.member st tag with
    | some m => if m.firstUnraised = 0xFFFFFFFF then m.inputs.getD m.sentIn 0 else m.firstUnraised
    | none => 0

/-- A unit records a tag as cancelled, releases all it holds for it, and sends CANCEL on every edge but the one it came from (R202). low is the lowest
chunk it has not finished. -/
def State.cancelUnit (s : State) (st : Nat) (tag : W16) (cause flags low : Nat) (edges : List (BitVec 17 × Nat)) (from_ : Option (BitVec 17 × Nat)) : State :=
  let s := s.updEng st (fun e => { e with
    cancelled := e.cancelled ++ [(tag, cause, flags)], outAddr := e.outAddr.filter (fun a => a.1 / 65536 != tag.toNat) })
  let s := (s.engCount st R.REDUCE_CANCELLED 1).engEvent st F.REDUCE_EVENT_CANCELLED
  let s := s.dropInst st tag (flags / 8 * 8 ||| 1 ||| 2 * cause)
  let s := s.updNi st (fun n => { n with collPend := kdel n.collPend tag.toNat, collq := n.collq.filter (fun h => h.f.opinfo != tag),
                                         collSched := n.collSched.filter (fun f => f.1.opinfo != tag) })
  (edges.filter (fun e => from_ != some e)).foldl (fun s e =>
    s.collSend st { s.collFrame st tag 0x3A 0 low e.1 e.2 false { flags := flags / 8 * 8 + 2 * cause } with addr := 0 }) s

/-- A member's instance that has not ended is cancelled: it completes with a status, CANCELLED and CAUSE set (R201, R202). -/
def State.cancelMember (s : State) (st : Nat) (tag : W16) (cause flags status : Nat) : State :=
  (s.updMember st tag (fun m => if m.ending.isSome then m else { m with
    cancelled := true, cause := cause, block := { m.block with flags := m.block.flags ||| BitVec.ofNat 32 (flags / 8 * 8) } })).endMember st tag status

/-- A tag is cancelled at a unit once (R202, R203): a second CANCEL, and one of an instance DONE, is consumed. flags are what the CANCEL brought. -/
def State.cancelAt (s : State) (st : Nat) (tag : W16) (cause flags status : Nat) (from_ : Option (BitVec 17 × Nat)) : State :=
  let m := (s.member st tag).filter (fun m => m.ending.isNone)
  if (s.getEng st).over tag && m.isNone then s
  else
    let edges := match s.groupOf tag, m with
      | some g, some m => s.memberEdges g m st
      | some g, none => if isEngine s.pkg st then s.engineEdges g st tag else []
      | none, _ => []
    let low := s.lowestOpen st tag
    (s.cancelMember st tag cause flags status).cancelUnit st tag cause flags low edges from_

/-- A frame of a tag that a unit has cancelled, or that owns no staging there, is consumed (R193, R202). -/
def State.dropTag (s : State) (st : Nat) : State :=
  if isEngine s.pkg st then (s.count (reduceUnit st) R.REDUCE_CANCEL_DROP 1).event (reduceUnit st) F.REDUCE_EVENT_CANCEL_DROP else s

/-! ## Contribution headers (R199, R200) -/

/-- A contribution header (Table 08-11). -/
def headerBytes (ready late : FT) (out : FT) (step lateMember members : Nat) : List Byte :=
  leBytes 8 ready.toNat ++ leBytes 8 late.toNat ++ leBytes 8 out.toNat ++ leBytes 4 step ++ leBytes 4 lateMember ++ leBytes 4 members ++
    List.replicate 28 0

/-- The FT at an offset of a header. -/
def hdrFt (h : List Byte) (off : Nat) : FT := BitVec.ofNat 64 (leAt h off 8)

/-- Two headers combined (R199): the least READY_FT, the greatest LATE_FT with its member, a tie to the lower index, and the sum of MEMBERS. -/
def joinHeaders (a b : List Byte) : List Byte :=
  let ready := if ftGe (hdrFt b 0) (hdrFt a 0) then hdrFt a 0 else hdrFt b 0
  let later := if hdrFt a 8 = hdrFt b 8 then decide (leAt b 28 4 < leAt a 28 4) else ftGe (hdrFt b 8) (hdrFt a 8)
  headerBytes ready (if later then hdrFt b 8 else hdrFt a 8) 0 (leAt a 24 4) (leAt (if later then b else a) 28 4) (leAt a 32 4 + leAt b 32 4)

/-- A header or its result leaves for a peer: as a CHUNK or RESULT frame with SEQ 0xFFFFFFFF and an address that no rule gives, or for a BARRIER in a
BARRIER frame (R182, R199, log 38). -/
def State.sendHeader (s : State) (st : Nat) (tag : W16) (x : CollSide) (coord : BitVec 17) (dst : Nat) (down : Bool) (h : List Byte) : State :=
  if x.op = opBarrier then
    s.collSend st { s.collFrame st tag 0x3B 0 (tag.toNat / 4096) coord dst false { x with hdr := h } with addr := 0 }
  else
    let (v, s) := s.takeFree
    s.collSend st { s.collFrame st tag (if down then 0x32 else 0x30) 0 0xFFFFFFFF coord dst true x with addr := v, length := 64, payload := h }

/-- The header result goes down to a unit's edges of chunk 0's plan, and to the member here (R199). -/
def State.headerDown (s : State) (st : Nat) (tag : W16) (h : List Byte) (flags : Nat) : State :=
  match s.inst st tag, s.headerNode st tag with
  | some i, some n =>
    let s := s.updInst st tag (fun i => { i with hdrDown := some h, flags := i.flags ||| flags })
    let x := { i.side with flags := i.flags ||| flags }
    n.downs.foldl (fun s e =>
      if e.coord == s.coord && e.st == st then s.takeHeader st tag h x
      else
        let p : BitVec 17 × Nat := if e.ext then i.below.getD (BitVec.ofNat 17 (Config.switchPeer (tagGroup tag) 0).toNat,
          (Config.switchPeer (tagGroup tag) 0).toNat / 2 ^ 17 % 65536) else (e.coord, e.st)
        s.sendHeader st tag x p.1 p.2 true h) s
  | _, _ => s

/-- The final engine of chunk 0 has every header (R199, R200): the straggler is recorded, and sent down; a total other than M cancels the instance. -/
def State.headersFinal (s : State) (st : Nat) (tag : W16) (h : List Byte) (g : Group) : State :=
  let u := reduceUnit st
  let slots := min 0xFFFFFF (ftSince (hdrFt h 8) (hdrFt h 0) / 128)
  let s := s.updEng st (fun e => { e with late := kins e.late (tagGroup tag) (leAt h 28 4, slots, BitVec.ofNat 32 (leAt h 24 4)) })
  let s := if isEngine s.pkg st && s.fld u F.REDUCE_LATE_LIMIT_SLOTS != 0 && decide (s.fld u F.REDUCE_LATE_LIMIT_SLOTS < slots) then
      s.event u F.REDUCE_EVENT_LATE else s
  if leAt h 32 4 ≠ g.size then (s.engEvent st F.REDUCE_EVENT_SHAPE_MISMATCH).cancelAt st tag 0 1024 stNotReady none
  else s.headerDown st tag h 0

/-- A header has come over an in-edge; once all have, the combined one goes up, or is final (R199, R200). The first STEP is kept. -/
def State.takeHdr (s : State) (st : Nat) (tag : W16) (j : Nat) (h : List Byte) : State :=
  match s.inst st tag, s.headerNode st tag, s.groupOf tag with
  | some i, some n, some g =>
    let first := (i.hdrs.head?).map (·.2)
    let odd := match first with
      | some f => decide (leAt f 24 4 ≠ leAt h 24 4)
      | none => false
    let h := match first with
      | some f => if odd then h.take 24 ++ (f.drop 24).take 4 ++ h.drop 28 else h
      | none => h
    let s := if odd then s.mismatch st tag else s
    let s := s.updInst st tag (fun i => { i with hdrs := kins i.hdrs j h })
    let hs := kins i.hdrs j h
    if i.hdrSent || decide (hs.length < n.ins.length) then s
    else
      let all := match hs with
        | [] => h
        | x :: xs => xs.foldl (fun (a : List Byte) (y : Nat × List Byte) => joinHeaders a y.2) x.2
      let all := all.take 16 ++ List.replicate 8 0 ++ all.drop 24
      let s := s.updInst st tag (fun i => { i with hdrSent := true })
      match n.up with
      | none => s.headersFinal st tag all g
      | some e =>
        let own := match s.member st tag with
          | some m => leBytes 8 (cOut m.d).toNat
          | none => List.replicate 8 0
        s.sendHeader st tag (((s.inst st tag).map (fun i => i.side)).getD {}) e.coord e.st false (all.take 16 ++ own ++ all.drop 24)
  | _, _, _ => s

/-! ## A member's data reaches a unit -/

/-- Bytes that arrive on an in-edge (R193). bad tells that a malformed block has poisoned the whole chunk below (R216). -/
def State.feed (s : State) (st : Nat) (tag : W16) (c j cls : Nat) (data : List Byte) (mark : Marks) (last : Bool) (valid : Nat) (bad : Bool := false) : State :=
  s.updChunk st tag c (fun x => match x.ins[j]? with
    | none => x
    | some y => { x with
        valid := max x.valid valid, bad := x.bad || bad, arrivals := x.arrivals ++ [(j, y.got + data.length)],
        ins := x.ins.set j { y with
          cls := cls, data := y.data ++ data, got := y.got + data.length, last := y.last || last, marks := y.marks ++ marksUp mark y.got } })

/-- The number of the in-edge of a chunk that leads to this member itself. -/
def State.selfEdge (s : State) (st : Nat) (x : Chunk) : Option Nat :=
  (List.range x.ins.length).find? (fun j => match x.ins[j]? with
    | some y => y.st == st && y.coord == s.coord
    | none => false)

/-! ## Reservations and reading at a member (R190, R194, R196) -/

/-- The unit to which a member sends an input chunk: the die's engine, or in an ALL_TO_ALL the receiving member (R182, R184). -/
def State.inputPeer (s : State) (g : Group) (m : Member) (st c : Nat) : BitVec 17 × Nat :=
  if m.engine then (s.coord, dieEngine (st / 2048) c) else ((memberEdge g c).coord, (memberEdge g c).st)

/-- The SEQ of a member's chunk: in an ALL_TO_ALL its own member index, which is the block the receiver places it at (log 40). -/
def Member.seqOf (m : Member) (c : Nat) : Nat := if m.op = opAllToAll then m.member else c

/-- A member reserves its next input chunks, each edge holding at most RUNAHEAD (R176, R190). -/
def State.reserveInputs (st : Nat) (tag : W16) : Nat → State → State
  | 0, s => s
  | n + 1, s =>
    match s.member st tag, s.groupOf tag with
    | some m, some g =>
      match m.inputs[m.rsvNext]? with
      | none => s
      | some c =>
        let p := s.inputPeer g m st c
        let held := (m.opened.filter (fun o => s.inputPeer g m st o.1 == p)).length
        if min (wRun m.w) (max 1 g.depth) ≤ held then s
        else
          State.reserveInputs st tag n
            ((s.updMember st tag (fun m => { m with rsvNext := m.rsvNext + 1, opened := kins m.opened c none })).collSend st
              { s.collFrame st tag 0x38 c (m.seqOf c) p.1 p.2 true (cSide m.d) with addr := cWord m.d })
    | _, _ => s

/-- The input of a chunk as it is sent, with its poisoned bytes: after VALID an ALL_GATHER slot's elements are zero bytes (R196), and a SPARSE_SUM
input is its records (R197, R198). -/
def Member.inputBytes (m : Member) (c : Nat) (data : List Byte) (mark : Marks) : List Byte × Marks :=
  let g := m.geo
  if m.op = opGather then
    let ok := fmtBytes (wIn m.w) (min (g.count c) (min (cValid m.d) g.len - g.start c))
    (data.take ok ++ List.replicate (fmtBytes (wIn m.w) (g.count c) - min ok data.length) 0, marksPart mark 0 ok)
  else if m.op = opSparse then
    (inputRecs (accKind m.w false) m.w (cRow m.d) mark (cValid m.d) 0 data).foldl (fun a r =>
      let bs := r.bytes m.w
      (a.1 ++ bs, if r.poison then a.2 ++ [(a.1.length, a.1.length + bs.length)] else a.2)) ([], [])
  else (data, mark)

/-- An input chunk of a granted reservation leaves in data frames (R190, R227). -/
def State.sendInput (s : State) (st : Nat) (tag : W16) (m : Member) (g : Group) (c : Nat) (base : FT) (data : List Byte) (mark : Marks) : State :=
  let p := s.inputPeer g m st c
  let x := m.inputBytes c data mark
  let bs := if x.1.isEmpty then leBytes 8 0xFFFFFFFF else x.1
  let n := (bs.length + 4095) / 4096
  let cls := if m.op = opSparse then 0x33 else 0x30
  (List.range n).foldl (fun s j =>
    let d := (bs.drop (4096 * j)).take 4096
    s.collSend st (withMarks 3 (marksPart x.2 (4096 * j) d.length)
      { s.collFrame st tag cls c (m.seqOf c) p.1 p.2 true { cSide m.d with valid := if m.op = opGather ∧ j + 1 = n then min (cValid m.d) (cCap m.d) else 0 } with
        addr := base + BitVec.ofNat 64 (4096 * j), length := BitVec.ofNat 13 d.length, payload := d, last := decide (j + 1 = n) })) s

/-- An input chunk has been read (R194, R201): IN_CTR advances, the Vigil restarts, and the bytes go to the engine, to the other member, or into this NI's own fold. -/
def State.collRead (s : State) (st : Nat) (tag : W16) (c : Nat) (data : List Byte) (poison : Marks) : State :=
  match s.member st tag, s.groupOf tag with
  | some m, some g =>
    let s := match cInCtr m.d with
      | some k => s.updNi st (fun n => n.bump k 1)
      | none => s
    let s := s.updMember st tag (fun m => { m with vigil := s.stFt st })
    let sent (s : State) : State := s.updMember st tag (fun m => { m with sentIn := m.sentIn + 1, opened := kdel m.opened c })
    if m.op = opAllToAll ∧ c = m.member then
      s.takeResult st tag c (cOut m.d + BitVec.ofNat 64 (m.geo.outByte m.op m.outFmt c)) 0 data poison true (cSide m.d)
    else if m.engine = true ∨ m.op = opAllToAll then
      match kfind m.opened c with
      | some (some base) => State.reserveInputs st tag 4 (sent (s.sendInput st tag m g c base data poison))
      | _ => s
    else
      match s.selfEdge st (s.chunkAt st tag c) with
      | some j => ((sent s).feed st tag c j 0x30 (m.inputBytes c data poison).1 (m.inputBytes c data poison).2 true
          (if m.op = opGather then min (cValid m.d) (cCap m.d) else 0)).collPump st
      | none => s
  | _, _ => s

/-! ## Starting (R177, R181, R182, R192) -/

/-- Whether a collective descriptor breaks R176 in its reserved bits and encodings. -/
def collMalformed (d : Desc) : Bool :=
  let op := dOp d
  let z (i : Nat) (m : W32) : Bool := dw d i &&& m != 0
  let w := (dw d 10).toNat
  descMalformed d || dDirect d || dStream d != 0 || z 1 0xF8000000 || (op == opSparse && z 1 0x07FFC000) ||
  (op != opSparse && op != opReduce && op != opBroadcast && z 1 0x07FFFFFF) || z 5 0xF0000000 || z 8 0x70007000 || z 9 0x00007000 ||
  z 10 0xFF000000 || wPath w == 3 || decide (5 ≤ wChunk w) || wOvf w == 3 || wRound w == 3 || wMode w == 3 || wOp w == 7 ||
  decide (12 ≤ wOut w) || decide (12 ≤ wIn w)

/-- Whether an operator is allowed with the formats (R175, R207). -/
def opAllowed (w : Nat) : Bool :=
  let i := wIn w
  let o := wOut w
  fmtInt i == fmtInt o && (decide (wOp w < 4) || (fmtInt i && i == o)) && (!fmtMx i || decide (wOp w < 2))

/-- Whether a descriptor breaks a length rule of Table 08-5. -/
def collBadLength (d : Desc) (g : Group) : Bool :=
  let op := dOp d
  let c := cCap d
  let w := (dw d 10).toNat
  let m := g.size
  (op != opBarrier && op != 0x28 && decide (c = 0)) || ((op == opReduce || op == opBroadcast) && decide (m ≤ cRoot d)) ||
  (op != opBarrier && op != 0x28 && (fmtMx (wIn w) || fmtMx (wOut w)) && c % 32 != 0) ||
  (op == opScatter && c % (64 * max 1 m) != 0) || (op == opAllToAll && decide (1024 < m)) ||
  (op == opSparse && (decide (cRow d < 64) || decide (8192 < cRow d) || cRow d % 64 != 0 || !g.sparse)) ||
  (op != opGather && op != opSparse && decide (cValid d ≠ 0))

/-- Whether a buffer of a collective descriptor crosses 2^48 (R176). m is a member of the descriptor's instance. -/
def Member.buffersHigh (m : Member) : Bool :=
  let ins := m.inputs.map (fun c => let a := m.inputAt c; a.1.toNat + a.2)
  let own := if m.op = opAllToAll then let a := m.inputAt m.member; a.1.toNat + a.2 else 0
  let counts := if m.op = opGather then m.size * fmtBytes m.outFmt (cCap m.d) + 4 * m.size else m.outSize
  decide (2 ^ 48 < max (ins.foldl max own) ((cOut m.d).toNat + counts))

/-- The member of an instance that a descriptor would begin at a station. -/
def State.memberFor (s : State) (st : Nat) (d : Desc) (g : Group) (tag : W16) (acc : FT) : Member :=
  { d := d, member := (g.memberOf s.coord st).getD 0, size := g.size, acc := acc, qual := s.quality, tag := tag,
    engine := enginePath (dOp d) (cCap d) (dw d 10).toNat, vigil := s.stFt st }

/-- The status with which the checks of R177, with those of R44 and R303 in the row of BAD_KEY (log 47), complete a descriptor; none where it passes them. The bytes of a
buffer, and so whether it lies below 2^48, hang on the group, so that BAD_RANK of a group without an entry comes before that check (DESIGN CHOICE,
log 70). -/
def State.collFails (s : State) (st : Nat) (d : Desc) : Option Nat :=
  let w := (dw d 10).toNat
  let op := dOp d
  if collMalformed d || !opAllowed w then some stBadOpcode
  else match findGroup s.bankIn (cGroup d) with
    | none => some stBadRank
    | some g =>
      if op != 0x28 && (s.memberFor st d g 0 0).buffersHigh then some stBadOpcode
      else if (g.memberOf s.coord st).isNone || dKey d != g.key || s.keyBad st (dKey d) then some stBadKey
      else if collBadLength d g then some stBadLength
      else if (wPath w = 2 ∧ (op = opAllToAll ∨ op = opBarrier)) ∨ (wPath w = 1 ∧ op = opSparse) then some stBadOpcode
      else none

/-- Whether an NI may take one more instance of a group (R192): 2 of it, and 64 in all. -/
def Ni.collRoom (n : Ni) (group : Nat) : Bool :=
  decide (n.members.length < 64) && decide ((n.members.filter (fun m => m.1 % 4096 == group)).length < 2)

/-- A CANCEL descriptor (R201): this NI's unfinished instance of the group with that STEP is cancelled; it completes OK in any case. -/
def State.softCancel (s : State) (st : Nat) (d : Desc) : State :=
  let s := match (s.getNi st).members.find? (fun m => m.1 % 4096 == cGroup d && cStep m.2.d == cStep d && m.2.ending.isNone) with
    | some m => s.cancelAt st m.2.tag 0 0 stNotReady none
    | none => s
  s.completeNoPeer st d stOk 0

/-- The instance's frames begin (R182, R190, R199): its header, then its reservations, or the reading of its own contribution to the NI tree, or of its own
block. -/
def State.launch (s : State) (st : Nat) (tag : W16) (m : Member) (g : Group) : State :=
  let now := m.acc
  let h := headerBytes now now (cOut m.d) (cStep m.d).toNat m.member 1
  let x := cSide m.d
  if m.engine then
    State.reserveInputs st tag (4 * 4) (s.sendHeader st tag x s.coord (dieEngine (st / 2048) 0) false h)
  else
    let s : State := s.openInst st tag x
    let s : State := s.updInst st tag (fun i => { i with word := i.word.or (some (cWord m.d)) })
    let j := (s.headerNode st tag).bind (fun (n : Node) => n.ins.findIdx? (fun (e : Edge) => e.member == some m.member))
    let s : State := match j with
      | some j => s.takeHdr st tag j h
      | none => s
    if (s.member st tag).isNone then s
    else if m.op = opAllToAll then
      let a := m.inputAt m.member
      State.reserveInputs st tag m.size (s.niRd st a.1 a.2 (.contribution tag m.member))
    else if m.op = opBarrier then s
    else
      let s : State := (List.range (s.unitGeo st g x m.w).total).foldl (fun (s : State) c => s.prepChunk st tag m.w c) s
      let s : State := if m.op = opScatter then (List.range (g.size + 1)).foldl (fun (s : State) c => s.prepChunk st tag m.w c) s else s
      let s : State := if ((s.inst st tag).map (fun i => i.chunks.any (fun y => y.2.word.any (· != cWord m.d)))).getD false then s.mismatch st tag else s
      (m.inputs.foldl (fun (s : State) c =>
        let a := m.inputAt c
        match s.selfEdge st (s.chunkAt st tag c) with
        | some j => (s.updChunk st tag c (fun y => match y.ins[j]? with
            | some k => { y with ins := y.ins.set j { k with rsv := true, base := some 0, units := 0 } }
            | none => y)).niRd st a.1 a.2 (.contribution tag c)
        | none => s) s).collPump st

/-- A collective descriptor starts (R177, R192, R203): a failed check completes it, a tag whose CANCEL is recorded completes it NOT_READY with that
CANCEL's cause, and where the NI holds all the
instances it may the descriptor waits. acc is the FT at which the NI accepted the descriptor or its trigger fired (R199). -/
def State.startCollective (s : State) (st : Nat) (d : Desc) (acc : FT) : State :=
  match s.collFails st d with
  | some c => s.completeNoPeer st d c 0
  | none =>
    let s := s.wakeUnit st
    if dOp d = 0x28 then s.softCancel st d
    else
      let n := s.getNi st
      match findGroup s.bankIn (cGroup d) with
      | none => s
      | some g =>
        if !n.collRoom (cGroup d) then s.updNi st (fun n => { n with collWait := n.collWait ++ [(d, acc)] })
        else
          let gen := kget 0 n.genNext (cGroup d)
          let tag := BitVec.ofNat 16 (gen * 4096 + cGroup d)
          let m := s.memberFor st d g tag acc
          let s := s.setNi st { n with genNext := kput 0 n.genNext (cGroup d) ((gen + 1) % 16), members := kins n.members tag.toNat m }
          let s := s.updEng st (fun e => e.forget tag)
          match (s.getEng st).cancelled.find? (fun c => c.1 == tag) with
          | some c => s.cancelMember st tag c.2.1 c.2.2 stNotReady
          | none => s.launch st tag m g

/-- A collective descriptor that waited for an instance to complete starts (R192). -/
def State.collRetry (s : State) (st : Nat) : State :=
  let n := s.getNi st
  match n.collWait with
  | [] => s
  | d :: ds => if n.collRoom (cGroup d.1) then (s.setNi st { n with collWait := ds }).startCollective st d.1 d.2 else s

/-! ## Visibility, Vigil, reset -/

/-- A RESULT write has become visible (R194). -/
def State.collVisible (s : State) (st : Nat) (tag : W16) (chunk : Nat) : State := s.resultWritten st tag chunk

/-- The Vigil's limit of a member in quanta (R201, R309): the package limit where LEVELS stays within the package, else the machine-wide one. -/
def State.collLimit (s : State) (st : Nat) (tag : W16) : Nat :=
  let u := niUnit st
  4000 * (if ((s.groupOf tag).map Group.local).getD false then s.fld u F.NI_VIGIL_PKG_US else s.fld u F.NI_VIGIL_MACH_US)

/-- A member's Vigil fires once its limit has passed since the last input read or output event: the instance completes VIGIL and is cancelled
with cause Vigil (R201). -/
def State.collVigil (s : State) (st : Nat) (tag : W16) : State :=
  match s.member st tag with
  | some m =>
    if m.ending.isNone && decide (s.collLimit st tag ≤ ftSince (s.stFt st) m.vigil) then (s.cancelAt st tag 2 0 stVigil none).collRetry st else s
  | none => s

/-- The collective instances of an NI that is reset: each completes VIGIL and is cancelled with cause Vigil (R313); one that ends
already completes as it was to. -/
def State.collReset (s : State) (st : Nat) : State :=
  (s.getNi st).members.foldl (fun s e =>
    let tag := BitVec.ofNat 16 e.1
    ((s.cancelAt st tag 2 0 stVigil none).updMember st tag (fun m => { m with endWr := 1 })).statusVisible st tag) s

/-- A collective frame has left its unit's output (R193, R238): the FT of the last RESULT frame is kept, a chunk whose last frame has left may be DONE,
and the next frame moves up. -/
def State.collLeft (s : State) (st : Nat) (f : Frame) : State :=
  let note (i : Inst) : Inst := if f.cls = 0x32 ∧ i.tag = f.opinfo then { i with lastFt := s.stFt st, lastQual := s.quality } else i
  (s.updEng st (fun e => { e with insts := e.insts.map note })).collPump st

/-- A RESET of a REDUCE unit (R313): every instance is cancelled with cause Vigil, and staging and slots are free. -/
def State.reduceReset (s : State) (st : Nat) : State :=
  (s.getEng st).insts.foldl (fun s i => s.cancelAt st i.tag 2 0 stNotReady none) s

/-- The instances in flight at an engine when Holiday is released, cancelled where HOLIDAY_CANCEL is set (R201). -/
def State.holidayCancel (s : State) (st : Nat) : State :=
  if s.bit (reduceUnit st) F.REDUCE_CTRL_HOLIDAY_CANCEL then
    (s.getEng st).insts.foldl (fun s i => s.cancelAt st i.tag 1 0 stNotReady none) s
  else s

end Sys2Proof.Machine
end

