-- ==== Sys2Proof/Machine/NiService.lean ====
section
/-! DEFINITION. What a source NI does with descriptors: acceptance, fences, checks, translation, policing, queues, issue (R41–R44,
R47–R50, R52–R59, R160–R167). -/
namespace Sys2Proof.Machine

/-! ## Queues -/

/-- A number of bytes in units of 256 B, rounded up (DEDUCED, log 14). -/
def units256 (n : Nat) : Nat := (n + 255) / 256

/-- The sum of the charges in a queue. -/
def queueCharge (q : List Task) : Nat := (q.map (fun t => descCharge t.d)).foldl (· + ·) 0

/-- An NI queue's high-water mark of depth, and its limit's event (R171). -/
def State.markDepth (s : State) (st q : Nat) : State :=
  let u := niUnit st
  let d := min 65535 (units256 (queueCharge (kget [] (s.getNi st).queues q)))
  let s := s.setFldAt u F.NI_Q_HWM_DEPTH q (max d (s.fldAt u F.NI_Q_HWM_DEPTH q))
  let lim := s.fldAt u F.NI_Q_HWM_LIMIT_DEPTH q
  if lim != 0 && decide (lim < d) then s.eventBit u R.NI_Q_EVENT q else s

/-- An NI queue's high-water mark of delay at an item's start, and its limit's event (R171). -/
def State.markDelay (s : State) (st q : Nat) (slots : Nat) : State :=
  let u := niUnit st
  let d := min 65535 slots
  let s := s.setFldAt u F.NI_Q_HWM_DELAY q (max d (s.fldAt u F.NI_Q_HWM_DELAY q))
  let lim := s.fldAt u F.NI_Q_HWM_LIMIT_DELAY q
  if lim != 0 && decide (lim < d) then s.eventBit u R.NI_Q_EVENT (16 + q) else s

/-- A descriptor enters the queue of its key (R160); one that enters an empty queue is its head from now (R158). -/
def State.enqueue (s : State) (st : Nat) (t : Task) : State :=
  let q := s.queueOf (niUnit st) (dKey t.d)
  let now := s.stFt st
  (s.updNi st (fun n =>
    { n with queues := kput [] n.queues q (kget [] n.queues q ++ [t]),
             qHead := if (kget [] n.queues q).isEmpty then kins n.qHead q now else n.qHead })).markDepth st q

/-! ## Policing (R166, R167) -/

/-- The colours of the marker. -/
inductive Colour where
  | green | yellow | red
  deriving DecidableEq, Repr

/-- The two-rate three-colour marker (R166): the colour of a charge of b bytes, and the tokens spent after it. Tokens are in
1/256 B. -/
def meter (p : Policer) (precolour : Bool) (sp : Spent) (b : Nat) : Colour × Spent :=
  let tc := p.cbs * 256 - sp.tc
  let tp := p.pbs * 256 - sp.tp
  let c := b * 256
  if p.mode = 0 then (.green, sp)
  else if p.mode = 2 ∧ precolour = true then
    if tp < c then (.red, sp) else (.yellow, { sp with tp := sp.tp + c })
  else if tp < c then (.red, sp)
  else if tc < c then (.yellow, { sp with tp := sp.tp + c })
  else (.green, { tc := sp.tc + c, tp := sp.tp + c })

/-- A green descriptor goes to its queue, or behind its partition's entries of the yellow list (R167). -/
def State.goGreen (s : State) (st : Nat) (t : Task) : State :=
  let n := s.getNi st
  if n.yellow.any (fun y => y.key == dKey t.d) then
    s.setNi st { n with yellow := n.yellow ++ [{ task := t, key := dKey t.d, debit := false }] }
  else s.enqueue st t

/-- A descriptor accepted for metering is metered and placed (R166, R167). -/
def State.meterTask (s : State) (st : Nat) (t : Task) : State :=
  let u := niUnit st
  let key := dKey t.d
  match (if key = 0 then none else s.policerOf u key) with
  | none => s.goGreen st t
  | some p =>
    let n := s.getNi st
    let pre := s.fldAt u F.NI_Q_CFG_PRECOLOUR (s.queueOf u key) == 1
    match meter p pre (kget {} n.spent key) (descCharge t.d) with
    | (.green, sp) => (s.setNi st { n with spent := kput {} n.spent key sp }).goGreen st t
    | (.yellow, sp) =>
      (s.setNi st { n with spent := kput {} n.spent key sp, yellow := n.yellow ++ [{ task := t, key := key, debit := true }] }).count
        u R.NI_POLICE_YELLOW 1
    | (.red, _) => (s.count u R.NI_POLICE_RED 1).updNi st (fun n => n.complete t.d stRed 0 0 t.dest)

/-- A descriptor that passed every check: it is accepted for metering, or where its key is metered and the yellow list of 64 entries is full it
waits for room behind those that wait already (R166, R167). -/
def State.police (s : State) (st : Nat) (t : Task) : State :=
  let key := dKey t.d
  let n := s.getNi st
  if key != 0 && (s.policerOf (niUnit st) key).isSome && (decide (64 ≤ n.yellow.length) || !n.yellowWait.isEmpty) then
    s.setNi st { n with yellowWait := n.yellowWait ++ [t] }
  else s.meterTask st t

/-- The descriptors that wait for room in the yellow list are metered in order while it has room (R167). -/
def yellowServe (st : Nat) : List Task → State → State
  | [], s => s
  | t :: ts, s =>
    if (s.getNi st).yellow.length < 64 then yellowServe st ts ((s.updNi st (fun n => { n with yellowWait := ts })).meterTask st t) else s

/-- Whether the head entry of a partition may leave the yellow list: it needs no debit, or Tc covers its charge (R167). -/
def State.yellowReady (s : State) (st : Nat) (y : Yellow) : Bool :=
  !y.debit ||
  match s.policerOf (niUnit st) y.key with
  | none => true
  | some p => decide (descCharge y.task.d * 256 ≤ p.cbs * 256 - (kget {} (s.getNi st).spent y.key).tc)

/-- The head entry of a partition leaves the list and enters its queue as green, with Tc debited where it was yellow (R167). -/
def State.yellowLeave (s : State) (st : Nat) (y : Yellow) : State :=
  let n := s.getNi st
  let sp := kget {} n.spent y.key
  let sp := if y.debit then { sp with tc := sp.tc + descCharge y.task.d * 256 } else sp
  (s.setNi st { n with yellow := n.yellow.erase y, spent := kput {} n.spent y.key sp }).enqueue st y.task

/-- The head entries of a partition that need no debit leave at once (R167). -/
def State.yellowFollow (s : State) (st key : Nat) : Nat → State
  | 0 => s
  | k + 1 =>
    match (s.getNi st).yellow.find? (fun y => y.key == key) with
    | none => s
    | some y => if y.debit then s else (s.yellowLeave st y).yellowFollow st key k

/-! ## Starting a descriptor -/

/-- The first check of R52 that a descriptor fails after its opcode and reserved bits: BAD_KEY, BAD_LENGTH, then the direct-station
part of BAD_RANK. The key of a STREAM_PUT is not compared with the key that its stream declares (DESIGN CHOICE, log 68: the specification
states no such check), and its frames carry the descriptor's key. -/
def State.descFails (s : State) (st : Nat) (d : Desc) : Option Nat :=
  let u := niUnit st
  let op := dOp d
  let decl := findStream s.bankIn (dStream d)
  if descMalformed d then some stBadOpcode
  else if s.keyBad st (dKey d) then some stBadKey
  else if op == 8 && (match decl with
      | none => true
      | some x => x.source != st) then some stBadKey
  else if descBadLength d || (op == 8 && (match decl with
      | none => false
      | some x => x.tile != dLen d)) then some stBadLength
  else if opNeedsTxn op && dDirect d && (!s.bit u F.NI_CTRL_DIRECT_EN || (stationKind s.pkg (dDest d)).isNone) then some stBadRank
  else none

/-- The entry of NI_DPATH that a task's frames take, as an item of the NI's tables (R141, R299). -/
def State.taskPath (s : State) (st : Nat) (t : Task) : Nat :=
  inBank s.alm.inForce (s.pathTarget st t.dest t.coord (s.buildRoute st t.dest t.coord))

/-- A descriptor whose destination is known is refused where its own package carries no such station (R38, R41) or has its die gated off (R281), or
where the die path to it is poisoned (R299), and is policed otherwise. -/
def State.destKnown (s : State) (st : Nat) (t : Task) : State :=
  if s.tableBad (niUnit st) srPath (s.taskPath st t) then
    (s.readBad (niUnit st) srPath (s.taskPath st t)).updNi st (fun n => n.complete t.d stNotReady 0 0 t.dest)
  else
  if t.coord == s.coord && (s.stationAbsent t.dest.toNat || s.dieOff (t.dest.toNat / 2048)) then
    s.updNi st (fun n => n.complete t.d stNotReady 0 0 t.dest)
  else s.police st t

/-- The entry of the translation cache for a rank; a poisoned entry is none, and is fetched again (R43, R299). -/
def State.xlatHit (s : State) (st key rank : Nat) : Option Xlat :=
  ((s.getNi st).xlat.zipIdx.find? (fun e => e.1.key == key && e.1.rank == rank && !s.tableBad (niUnit st) srXlat e.2)).map (·.1)

/-- The rank of a descriptor is translated (R42, R43): a failure at RANK_COUNT, a hit, or a miss that fetches both entries from the addresses that
the package index and the local rank give. A key without a PARTITION record, key 0 included, has no rank below RANK_COUNT, and its descriptor
completes BAD_RANK (DESIGN CHOICE, log 68: the specification names no completion for it). -/
def State.translate (s : State) (st : Nat) (d : Desc) : State :=
  let acc := s.stFt st
  if dDirect d then s.destKnown st { d := d, coord := s.coord, dest := BitVec.ofNat 16 (dDest d), acc := acc }
  else match rankDesc s.bankIn (dKey d) with
  | none => s.completeNoPeer st d stBadRank 0
  | some rd =>
    if s.tableBad (niUnit st) srRank (inBank s.alm.inForce (dKey d)) then
      (s.readBad (niUnit st) srRank (inBank s.alm.inForce (dKey d))).completeNoPeer st d stBadRank 0
    else if rd.count ≤ dDest d then s.completeNoPeer st d stBadRank 0
    else
      let n := s.getNi st
      match s.xlatHit st (dKey d) (dDest d) with
      | some x =>
        (s.setNi st { n with xlat := x :: n.xlat.erase x }).destKnown st { d := d, coord := x.coord, dest := x.station, acc := acc }
      | none =>
        ((s.setNi st { n with xlatWait := n.xlatWait ++ [{ d := d, coord := 0, dest := 0, acc := acc }] }).count (niUnit st)
          R.NI_XLAT_MISS 1).emit (.xlatFetch st (rd.entries (dDest d)).1 (rd.entries (dDest d)).2)

/-- LOCAL_CTR advances, where the descriptor enables it (R53). -/
def Ni.localCtr (n : Ni) (d : Desc) : Ni := if dLocalCtrEn d then n.bump (dLocalCtr d) 1 else n

/-- A STREAM_PUT starts (R49, R50): its tile is read, and takes its sequence number once it is held whole (State.tileRead). -/
def State.streamPut (s : State) (st : Nat) (d : Desc) : State :=
  let dest : W16 := match findStream s.bankIn (dStream d) with
    | some x => if x.multicast then 0xFFFF else BitVec.ofNat 16 x.dest
    | none => 0xFFFF
  s.niRd st (dLocal d) (dLen d) (.tile { d := d, coord := s.coord, dest := dest, acc := s.stFt st })

/-- A descriptor starts (R52, R59): the checks in order, then its opcode's effect. What one descriptor does to counters falls in one NI cycle, so
the increment of CPL_CTR precedes the add of a COUNTER_ADD and the set of a COUNTER_SET (R54). LOCAL_CTR_EN has no part in COUNTER_ADD and
COUNTER_SET, whose words 10 and 11 act on LOCAL_CTR (DESIGN CHOICE, log 68: the specification says only what the bit does to a transfer). acc is
the FT of the descriptor's acceptance or of its trigger's firing (R199). -/
def State.startDesc (s : State) (st : Nat) (d : Desc) (acc : FT) : State :=
  let s := s.updNi st (fun n => { n with live := n.live + 1 })
  if opCollective (dOp d) then s.startCollective st d acc
  else match s.descFails st d with
  | some c => s.completeNoPeer st d c 0
  | none =>
    let op := dOp d
    if op == 0 then (s.updNi st (fun n => n.localCtr d)).completeNoPeer st d stOk 0
    else if op == 6 then (s.completeNoPeer st d stOk 0).updNi st (fun n => n.bump (dLocalCtr d) (dw d 10).toNat)
    else if op == 7 then (s.completeNoPeer st d stOk 0).updNi st (fun n => n.setTo (dLocalCtr d) (d.extractLsb' 320 48))
    else if op == 8 then s.streamPut st d
    else s.translate st d

/-! ## Acceptance (R44, R55, R58, R59) -/

/-- Whether the NI holds ni_cmd_ready high for a descriptor: CMD_EN, no Holiday, an island that runs (R67), no collective descriptor that waits (R192), room in the completion FIFO and the yellow list,
and a TXN where it needs one (R58, R167, R311, Table 02-7). -/
def State.cmdReady (s : State) (st : Nat) (d : Desc) : Bool :=
  let n := s.getNi st
  s.bit (niUnit st) F.NI_CTRL_CMD_EN && !s.niStopped st && n.collWait.isEmpty && decide (n.cpl.length < 64) && decide (n.yellow.length < 64) &&
  (!opNeedsTxn (dOp d) || n.freeTxn.isSome)

/-- Whether a descriptor may start now: a fenced one only when every earlier one has completed (R59). -/
def Ni.mayStart (n : Ni) (d : Desc) : Bool := !dFence d || n.live == 0

/-- A descriptor with TRIG_EN is checked against R52 alone, the collective words of a collective opcode included, and stored or completed
BAD_OPCODE (R55). -/
def State.storeTrigger (s : State) (st : Nat) (d : Desc) : State :=
  if descMalformed d || (opCollective (dOp d) && collMalformed d) then (s.updNi st (fun n => { n with live := n.live + 1 })).completeNoPeer st d stBadOpcode 0
  else s.updNi st (fun n => n.arm d)

/-- A submitted descriptor is taken: stored, started, or held behind a fence (R55, R59). -/
def State.takeDesc (s : State) (st : Nat) (d : Desc) : State :=
  let n := s.getNi st
  if dTrigEn d then s.storeTrigger st d
  else if n.cmdq.isEmpty && n.mayStart d then s.startDesc st d (s.stFt st)
  else s.setNi st { n with cmdq := n.cmdq ++ [(d, s.stFt st)] }

/-- The descriptors held by a fence start in order while they may (R59). -/
def serviceQ (st : Nat) : List (Desc × FT) → State → State
  | [], s => s
  | d :: ds, s =>
    if (s.getNi st).mayStart d.1 then serviceQ st ds ((s.updNi st (fun n => { n with cmdq := ds })).startDesc st d.1 d.2) else s

/-- The descriptors that the station offers are taken in order while ni_cmd_ready is high. -/
def serviceCmd (st : Nat) : List Desc → State → State
  | [], s => s
  | d :: ds, s =>
    if s.cmdReady st d then serviceCmd st ds ((s.updNi st (fun n => { n with cmdWait := ds })).takeDesc st d) else s

/-- What an NI does next with the descriptors it holds and is offered; nothing while Holiday stops it (R377) or its island does not run (R67). -/
def State.service (s : State) (st : Nat) : State :=
  if s.niStopped st then s else
  let s := yellowServe st (s.getNi st).yellowWait s
  let s := s.collRetry st
  let s := serviceQ st (s.getNi st).cmdq s
  serviceCmd st (s.getNi st).cmdWait s

/-- A descriptor is offered on a station's command port (Table 02-5). -/
def State.submit (s : State) (st : Nat) (d : Desc) : State :=
  (s.updNi st (fun n => { n with cmdWait := n.cmdWait ++ [d] })).service st

/-- A command of an NI: its effect, after which the NI goes on with its descriptors. Only the parts that NIs reach change: the NIs, the
pools, registers and counters, outputs, waiting interrupts, the count of free values, the engines and collective units, and which of these sleep. -/
def onNi (s : State) (st : Nat) (t : State) : Res :=
  let u := t.service st
  onUnit (s.stationOn st) s
    { s with ni := u.ni, pools := u.pools, regs := u.regs, ctrs := u.ctrs, out := u.out, irqHeld := u.irqHeld, freeCtr := u.freeCtr, eng := u.eng, pwr := u.pwr }

/-! ## Issue (the NI issue stage of Table 07-1) -/

/-- The delay mark of a descriptor's queue at the start of its first frame, whose wait counts from acceptance and takes in the pool queue (R171). -/
def State.markStart (s : State) (st t : Nat) : State := match kfind (s.getNi st).txn t with
  | none => s
  | some x =>
    if x.phase = .sent then s
    else s.markDelay st (s.queueOf (niUnit st) (dKey x.task.d)) (slotsBetween x.task.acc (s.stFt st))

/-- The charge of a descriptor whose first frame leaves falls on its queue's shaper (R162, R163). -/
def State.chargeStart (s : State) (st t : Nat) : State := match kfind (s.getNi st).txn t with
  | none => s
  | some x =>
    let q := s.queueOf (niUnit st) (dKey x.task.d)
    if x.phase = .sent || !(kget {} (s.getNi st).shaper q).en then s
    else s.updNi st (fun n =>
      { n with tokens := kput (65536 * 256) n.tokens q (kget (65536 * 256) n.tokens q - (descCharge x.task.d * 256 : Nat)) })

/-- A frame leaves the NI (R53, R115, R163, R171, R244, R309): its wait enters QDELAY; one of a watched stream says so; the first frame of a transaction is charged to its shaper, enters
its queue's delay mark and starts its Vigil, and LOCAL_CTR advances for a GET and for a MESSAGE of at most 16 bytes. -/
def State.leave (s : State) (st : Nat) (fs : Frame × FT) : State :=
  let now := s.stFt st
  let f : Frame := { fs.1 with qdelay := addQ fs.1.qdelay (slotsBetween fs.2 now), watched := watchedFrame s.bankIn fs.1 }
  let c := f.cls.toNat
  let s := if 1 ≤ c ∧ c ≤ 5 then (s.markStart st f.txn.toNat).chargeStart st f.txn.toNat else s
  let s := if 1 ≤ c ∧ c ≤ 5 then
      s.updNi st (fun (n : Ni) =>
        match kfind n.txn f.txn.toNat with
        | none => n
        | some (t : Txn) =>
          let m : Ni := if c = 1 ∨ (c = 4 ∧ dLen t.task.d ≤ 16) then n.localCtr t.task.d else n
          m.updTxn f.txn.toNat (fun t => { t with phase := .sent, vigil := some now }))
    else s
  s.emit (.niFrame st f)

/-- The MESSAGE frame of a descriptor, its bytes from words 10–13 and then from memory, with the poisoned bytes of those read (Table 02-2). -/
def State.messageFrame (s : State) (st t : Nat) (x : Task) (rest : List Byte) (mark : Marks) : Frame :=
  let d := x.d
  let inl := leBytes 16 (d.extractLsb' 320 128).toNat
  let bytes := (inl ++ rest).take (dLen d)
  withMarks 0 (marksUp mark 16) { s.sourceFrame st 0x04 (dKey d) x.dest x.coord t with
      addr := dRemote d, length := BitVec.ofNat 13 bytes.length, payload := bytes, journal := journalled s.bankIn (dKey d), last := true,
      rctr := dRemoteCtr d }

/-- A queued descriptor starts (R47, R48, R59, R169): it takes a TXN and its place in issue order, and its first frame leaves, or its pool request or
first read goes out. A MESSAGE of at most 16 bytes waits behind the earlier ones to its destination that are still being read (R59). -/
def State.issueDesc (s : State) (st : Nat) (x : Task) : State :=
  let d := x.d
  let n := s.getNi st
  match n.freeTxn with
  | none => s
  | some t =>
    let op := dOp d
    let ph : TxPhase := if op == 2 || op == 3 then .poolWait else .fetch
    let n := { n with txn := kins n.txn t { task := x, phase := ph } }
    let w := slotsBetween x.acc (s.stFt st)
    let now := s.stFt st
    if op == 1 then
      (s.setNi st (n.openForm x.dest x.coord 0x20 t)).leave st ({ s.sourceFrame st 0x03 (dKey d) x.dest x.coord t with
        addr := dRemote d, seq := BitVec.ofNat 32 (dLen d), journal := journalled s.bankIn (dKey d), qdelay := satQ w, last := true,
        rctr := dRemoteCtr d }, now)
    else if op == 2 then
      (s.setNi st n).poolRequest { st := st, key := dKey d, n := (putPieces (dRemote d) (dLen d)).length, rsv := false, ref := t, since := now }
    else if op == 3 then
      (s.setNi st n).poolRequest { st := st, key := dKey d, n := idxFrames (dLen d), rsv := false, ref := t, since := now }
    else if op == 4 then
      (if 16 < dLen d then (s.setNi st (n.openForm x.dest x.coord 0x04 t)).niRd st (dLocal d + 16) (dLen d - 16) (.first t)
       else if n.formBlocked x.dest x.coord 0x04 then
         (s.setNi st (n.openForm x.dest x.coord 0x04 t)).formed st 0x04 t [{ s.messageFrame st t x [] [] with qdelay := satQ w }]
       else (s.setNi st n).leave st ({ s.messageFrame st t x [] [] with qdelay := satQ w }, now))
    else (s.setNi st (n.openForm x.dest x.coord 0x05 t)).niRd st (dLocal d) 8 (.first t)

/-! ## The descriptor commands -/

/-- A command that reaches an NI which Holiday has stopped is held, and acts in order at release (R377, Table 17-2); so does one that reaches an NI
that its island holds in reset, once the island has loaded FT (R57, R67). -/
def onNiHold (s : State) (st : Nat) (c : Instr) (t : State) : Res :=
  if s.niStopped st then
    onUnit (s.stationOn st) s (s.updNi st (fun n => { n with stopHeld := n.stopHeld ++ [c] }))
  else onNi s st t

/-- A timer or event of an NI that does not run while Holiday stops it (Table 17-2) or its island does not run (R67). -/
def onNiRun (s : State) (st : Nat) (t : State) : Res := onNi s st (if s.niStopped st then s else t)

/-- A descriptor command of a row: the descriptor with the row's opcode is offered to the NI (log 7). -/
def offer (s : State) (st op : Nat) (d : Desc) : Res := onNi s st (s.submit st (withOpcode d op))

/-- OP_NOP (R52): only its counters and its completion act. -/
def execOpNop (st : Nat) (d : Desc) (s : State) : Res := offer s st 0 d
/-- OP_PUT (R47). -/
def execOpPut (st : Nat) (d : Desc) (s : State) : Res := offer s st 1 d
/-- OP_GET (R47). -/
def execOpGet (st : Nat) (d : Desc) (s : State) : Res := offer s st 2 d
/-- OP_INDEXED_READ (R48). -/
def execOpIndexedRead (st : Nat) (d : Desc) (s : State) : Res := offer s st 3 d
/-- OP_MESSAGE (R52). -/
def execOpMessage (st : Nat) (d : Desc) (s : State) : Res := offer s st 4 d
/-- OP_ATOMIC (R52). -/
def execOpAtomic (st : Nat) (d : Desc) (s : State) : Res := offer s st 5 d
/-- OP_COUNTER_ADD (R54). -/
def execOpCounterAdd (st : Nat) (d : Desc) (s : State) : Res := offer s st 6 d
/-- OP_COUNTER_SET (R54). -/
def execOpCounterSet (st : Nat) (d : Desc) (s : State) : Res := offer s st 7 d
/-- OP_STREAM_PUT (R49). -/
def execOpStreamPut (st : Nat) (d : Desc) (s : State) : Res := offer s st 8 d
/-- OP_ALL_REDUCE (R174). -/
def execOpAllReduce (st : Nat) (d : Desc) (s : State) : Res := offer s st 0x20 d
/-- OP_REDUCE_SCATTER (R174). -/
def execOpReduceScatter (st : Nat) (d : Desc) (s : State) : Res := offer s st 0x21 d
/-- OP_ALL_GATHER (R196). -/
def execOpAllGather (st : Nat) (d : Desc) (s : State) : Res := offer s st 0x22 d
/-- OP_REDUCE (R174). -/
def execOpReduce (st : Nat) (d : Desc) (s : State) : Res := offer s st 0x23 d
/-- OP_BROADCAST (R174). -/
def execOpBroadcast (st : Nat) (d : Desc) (s : State) : Res := offer s st 0x24 d
/-- OP_ALL_TO_ALL (R182). -/
def execOpAllToAll (st : Nat) (d : Desc) (s : State) : Res := offer s st 0x25 d
/-- OP_SPARSE_SUM (R197). -/
def execOpSparseSum (st : Nat) (d : Desc) (s : State) : Res := offer s st 0x26 d
/-- OP_BARRIER (R182). -/
def execOpBarrier (st : Nat) (d : Desc) (s : State) : Res := offer s st 0x27 d
/-- OP_CANCEL (R201). -/
def execOpCancel (st : Nat) (d : Desc) (s : State) : Res := offer s st 0x28 d

/-- DESCRIPTOR_TRIGGER_STORE (R55): a descriptor with TRIG_EN set is offered. -/
def execDescriptorTriggerStore (st : Nat) (d : Desc) (s : State) : Res := onNi s st (s.submit st (d ||| ((1#512) <<< 472)))

/-- TRIGGER_FIRE (R55): the slot at the head of those that are ready fires, is disarmed, and its descriptor is submitted with TRIG_EN
treated as 0. -/
def execTriggerFire (st : Nat) (slot : Nat) (s : State) : Res :=
  let n := s.getNi st
  onNiRun s st
    (match n.fireq with
     | k :: ks =>
       if k = slot then
         match kfind n.trig slot with
         | some d => (s.setNi st { n with fireq := ks, trig := kdel n.trig slot }).takeDesc st (d &&& ~~~ ((1#512) <<< 472))
         | none => s.setNi st { n with fireq := ks }
       else s
     | [] => s)

end Sys2Proof.Machine
end

