-- ==== Sys2Proof/Machine/NiRecv.lean ====
section
/-! DEFINITION. What an NI does with the frames that arrive, with the data and the signals of its station, and with the expiry of its
timers (R46–R48, R51, R53–R58, R114, R120, R169, R245–R249, R309–R311). -/
namespace Sys2Proof.Machine

/-! ## Requests that arrive -/

/-- Whether two frames come from one source (R59). -/
def sameSource (f g : Frame) : Bool := f.srcCoord == g.srcCoord && f.srcStation == g.srcStation

/-- The grant under which a WRITE_DATA comes: the latest of its initiator and TXN (R47). The INC of a frame that is not a response is ignored (R116). -/
def Ni.grantOf (n : Ni) (f : Frame) : Option (Nat × Grant) :=
  (n.grants.filter (fun e => sameSource e.2.f f && e.2.f.txn == f.txn)).getLast?

/-- A frame after the checks of R408: the state that a failed check leaves, or what the frame does. -/
def State.checked (s : State) (st : Nat) (f : Frame) (windows : Bool) (act : State → State) : State :=
  match s.destChecks st f windows with
  | some t => t
  | none => act s

/-- WRITE_RSV_RECEIVE (R46, R169): every piece is checked, then one buffer for each frame is requested. -/
def execWriteRsvReceive (st : Nat) (f : Frame) (s : State) : Res :=
  onNiHold s st (.writeRsvReceive st f) (s.checked st f (s.piecesOk st f 1) (fun s =>
    let k := (s.getNi st).arriveNo
    let n := (putPieces f.addr f.seq.toNat).length
    let g : Grant := { f := f, granted := false, left := f.seq.toNat, bufs := n, writes := 0, q := f.qdelay, poison := none, since := s.stFt st }
    (s.updNi st (fun m => { m with grants := kins m.grants k g, arriveNo := k + 1 })).poolRequest
      { st := st, key := f.pkey.toNat, n := n, rsv := true, ref := k, since := s.stFt st }))

/-- WRITE_DATA_RECEIVE (R46, R314): the frame is checked and written under its grant; without one it is refused NOT_READY. -/
def execWriteDataReceive (st : Nat) (f : Frame) (s : State) : Res :=
  onNiHold s st (.writeDataReceive st f) (s.checked st f (s.windowOk st f.epoch f.pkey.toNat f.addr.toNat f.length.toNat 1) (fun s =>
    match (s.getNi st).grantOf f with
    | none => s.refuse st f stNotReady
    | some (k, g) =>
      if !g.granted || g.bufs == 0 then s.refuse st f stNotReady
      else
        let h := { g with left := g.left - f.length.toNat, bufs := g.bufs - 1, writes := g.writes + 1,
                          q := if g.q.toNat < f.qdelay.toNat then f.qdelay else g.q,
                          poison := firstPoison g.poison (poisonAt f f.seq.toNat), since := s.stFt st }
        (s.updNi st (fun n => { n with grants := kins n.grants k h })).niWr st f.addr (f.payload.take f.length.toNat)
          (frameMarks f) (.grantData k)))

/-- A request to read takes its place in the order of its source's requests of its class (R59); the state and its number. -/
def State.openServe (s : State) (st : Nat) (f : Frame) (cls : Nat) : State × Nat :=
  let k := (s.getNi st).arriveNo
  (s.updNi st (fun n => { n.openForm f.srcStation f.srcCoord cls k with arriveNo := k + 1 }), k)

/-- READ_REQ_RECEIVE (R46): every piece is checked, then the station is read. -/
def execReadReqReceive (st : Nat) (f : Frame) (s : State) : Res :=
  onNiHold s st (.readReqReceive st f) (s.checked st f (s.piecesOk st f 0) (fun s =>
    let r := s.openServe st f 0x21
    r.1.niRd st f.addr f.seq.toNat (.serve f r.2)))

/-- Row size of an IDX_READ_REQ (Table 05-3). -/
def rowSize (f : Frame) : Nat := natBits f.seq.toNat 12 0

/-- Row count of an IDX_READ_REQ. -/
def rowCount (f : Frame) : Nat := natBits f.seq.toNat 19 13

/-- The address of row i of an IDX_READ_REQ (R48). -/
def rowAddr (f : Frame) (i : Nat) : FT := f.addr + BitVec.ofNat 64 (leAt f.payload (4 * i) 4 * rowSize f)

/-- REMOTE_CTR of a frame's transfer advances at this NI, where the transfer enables it (R53). -/
def Ni.remoteCtr (n : Ni) (f : Frame) : Ni := match f.rctr with
  | some c => n.bump c.toNat 1
  | none => n

/-- The packed rows leave as IDX_READ_DATA frames cut at every 4,096 bytes (R48), PARTIAL_ROWS over POISONED; every flit that carries a poisoned byte
is marked (R117). REMOTE_CTR advances here, where every byte of the transfer lies (DESIGN CHOICE, log 68). -/
def State.sendRows (s : State) (st : Nat) (f : Frame) (no : Nat) (acc : List Byte) (zeroed : Option Nat) (poison : Marks) : State :=
  let frames := idxFrames acc.length
  let info := match zeroed with
    | some z => z * 256 + stPartialRows
    | none => if poison.isEmpty then stOk else stPoisoned
  (s.updNi st (fun n => n.remoteCtr f)).formed st 0x22 no ((List.range frames).map (fun i =>
    let part := (acc.drop (4096 * i)).take 4096
    withMarks 2 (marksPart poison (4096 * i) part.length) { respond f 0x22 f.qdelay with
      seq := BitVec.ofNat 32 (4096 * i), opinfo := BitVec.ofNat 16 info, length := BitVec.ofNat 13 part.length, payload := part,
      last := decide (i + 1 = frames) }))

/-- The rows of an indexed read from row i on, of which k are left: rows outside the windows are zeros, and the first row inside them is
read (R48). no is the request's number. -/
def State.nextRow (st : Nat) (f : Frame) (no : Nat) : Nat → Nat → List Byte → Option Nat → Marks → State → State
  | 0, _, acc, zeroed, poison, s => s.sendRows st f no acc zeroed poison
  | k + 1, i, acc, zeroed, poison, s =>
    if s.windowOk st f.epoch f.pkey.toNat (rowAddr f i).toNat (rowSize f) 3 then
      s.niRd st (rowAddr f i) (rowSize f) (.rows f no i acc zeroed poison)
    else State.nextRow st f no k (i + 1) (acc ++ List.replicate (rowSize f) 0) (zeroed.or (some i)) poison s

/-- IDX_READ_REQ_RECEIVE (R48): the rows are window-checked one by one, read, and returned packed. -/
def execIdxReadReqReceive (st : Nat) (f : Frame) (s : State) : Res :=
  onNiHold s st (.idxReadReqReceive st f) (s.checked st f true (fun s =>
    let r := s.openServe st f 0x22
    State.nextRow st f r.2 (rowCount f) 0 [] none [] r.1))

/-- MESSAGE_RECEIVE (R46): the frame is checked and written; it is delivered when visible, in the order of its source's (R59). -/
def execMessageReceive (st : Nat) (f : Frame) (s : State) : Res :=
  onNiHold s st (.messageReceive st f) (s.checked st f (s.windowOk st f.epoch f.pkey.toNat f.addr.toNat f.length.toNat 1) (fun s =>
    let k := (s.getNi st).arriveNo
    let d : Delivery := { f := f, kind := 0, bytes := f.length.toNat, q := f.qdelay, poison := poisonAt f 0, since := s.stFt st }
    (s.updNi st (fun n => { n with arriveNo := k + 1, msgs := n.msgs ++ [{ no := k, d := d, visible := false }] })).niWr
      st f.addr (f.payload.take f.length.toNat) (frameMarks f) (.deliver k)))

/-- ATOMIC_RECEIVE (R52, R246): the frame is checked, and performed at its turn. -/
def execAtomicReceive (st : Nat) (f : Frame) (s : State) : Res :=
  onNiHold s st (.atomicReceive st f) (s.checked st f (s.windowOk st f.epoch f.pkey.toNat f.addr.toNat 8 2) (fun s =>
    s.accept st { f := f, kind := 2, bytes := 8, q := f.qdelay, poison := poisonAt f 0, since := s.stFt st }))

/-- Whether a sequence is the one that a stream expects next, counted as a gap otherwise (R51). -/
def State.streamGap (s : State) (st : Nat) (ok : Bool) : State :=
  if ok then s else (s.count (niUnit st) R.NI_SEQ_GAP 1).mark (niUnit st) F.NI_STATUS_SEQ_GAP

/-- A tile that has arrived whole and is visible raises its event (R51, R53), records poison with the largest QDELAY of its frames (R56) and is
taken by a watch (R245). -/
def State.tileDone (s : State) (st sid : Nat) (r : RxTile) : State :=
  let s := s.updNi st (fun n => match r.rctr with
    | some c => n.bump c.toNat 1
    | none => n)
  let s := match r.poison with
    | some o => s.poisonRecord st 8 r.src r.q o
    | none => s
  s.watchTile st sid r.seq r.data r.gap r.slipped false

/-- A write of a tile has become visible (R51, R58). -/
def State.tileVisible (s : State) (st sid no : Nat) : State :=
  let r := kget {} (s.getNi st).rx sid
  let ts := r.tiles.map (fun t => if t.no = no then { t with writes := t.writes - 1 } else t)
  match ts.find? (fun t => t.no == no && t.last && t.writes == 0) with
  | none => s.updNi st (fun n => { n with rx := kins n.rx sid { r with tiles := ts } })
  | some t => (s.updNi st (fun n => { n with rx := kins n.rx sid { r with tiles := ts.filter (fun x => x.no != no) } })).tileDone st sid t

/-- The stream with the frame's tile open: the newest one where it has the frame's sequence and LAST has not come, else a new one, which is a gap
where its sequence is not the expected one (R51). Frame indexes repeat modulo 16 within a tile, so they do not tell a tile's first frame. -/
def RxStream.begin (r : RxStream) (f : Frame) : RxStream :=
  if r.tiles.getLast?.any (fun t => !t.last && t.seq == f.seq) then r
  else { expect := f.seq + 1, next := r.next + 1,
         tiles := r.tiles.filter (·.last) ++ [{ no := r.next, seq := f.seq, src := f.srcStation, rctr := f.rctr, gap := r.expect != f.seq }] }

/-- A frame added to its tile. -/
def RxTile.add (t : RxTile) (f : Frame) : RxTile :=
  { t with writes := t.writes + 1, last := f.last, data := t.data ++ f.payload, slipped := t.slipped || f.coll.flags / 256 % 2 == 1, poison := firstPoison t.poison (poisonAt f t.data.length),
           q := if t.q.toNat < f.qdelay.toNat then f.qdelay else t.q }

/-- STREAM_DATA_RECEIVE (R46, R51): the frame is checked and written; a tile whose sequence is not the expected one is counted as a gap
and is delivered as well. -/
def execStreamDataReceive (st : Nat) (f : Frame) (s : State) : Res :=
  let sid := f.streamId.toNat
  onNiHold s st (.streamDataReceive st f) (s.checked st f (s.windowOk st f.epoch f.pkey.toNat f.addr.toNat f.length.toNat 1) (fun s =>
    let r := kget {} (s.getNi st).rx sid
    let r1 := r.begin f
    let s := if r1.next = r.next then s else s.streamGap st (r.expect == f.seq)
    let no := r1.next - 1
    let r2 := { r1 with tiles := r1.tiles.map (fun t => if t.no = no then t.add f else t) }
    (s.updNi st (fun n => { n with rx := kins n.rx sid r2 })).niWr st f.addr f.payload (frameMarks f) (.tile sid no)))

/-! ## Responses that arrive (R114, R116, R311) -/

/-- The transaction that a response answers: its TXN is outstanding, its INC is the NI's, and its source is the transaction's
destination (R116, R311). -/
def State.answered (s : State) (st : Nat) (f : Frame) : Option Txn :=
  match kfind (s.getNi st).txn f.txn.toNat with
  | none => none
  | some t =>
    if f.inc.toNat = s.fld (niUnit st) F.NI_FAULT_STATUS_INC ∧ f.srcStation = t.task.dest ∧ f.srcCoord = t.task.coord then some t else none

/-- A response after the checks of R408: it restarts the Vigil and brings its QDELAY (R309, R310), or is stale, dropped and counted
(R311). -/
def State.response (s : State) (st : Nat) (f : Frame) (act : Txn → State → State) : State :=
  s.checked st f true (fun s =>
    match s.answered st f with
    | none => s.count (niUnit st) R.NI_STALE_DROP 1
    | some t =>
      act t (s.updNi st (fun n => n.updTxn f.txn.toNat (fun t => { t with vigil := some (s.stFt st), lastQ := f.qdelay }))))

/-- GRANT_RECEIVE (R47): the source data is read, to be sent on BK. -/
def execGrantReceive (st : Nat) (f : Frame) (s : State) : Res :=
  onNiHold s st (.grantReceive st f) (s.response st f (fun t s =>
    if dOp t.task.d = 1 ∧ t.phase = .sent then
      (s.updNi st (fun n => n.updTxn f.txn.toNat (fun t => { t with phase := .reading }))).niRd st (dLocal t.task.d) (dLen t.task.d)
        (.putData f.txn.toNat)
    else s))

/-- ACK_RECEIVE (R114): a PUT or MESSAGE completes with the status and DETAIL that the ACK carries. -/
def execAckReceive (st : Nat) (f : Frame) (s : State) : Res :=
  onNiHold s st (.ackReceive st f) (s.response st f (fun t s =>
    if dOp t.task.d = 1 ∨ dOp t.task.d = 4 then s.endTxn st f.txn.toNat (f.opinfo.toNat % 256) f.qdelay f.addr.toNat else s))

/-- A transaction whose data has all come and is visible completes: PARTIAL_ROWS, POISONED or OK (R48, R117). -/
def State.txnVisible (s : State) (st t : Nat) : State :=
  match kfind (s.getNi st).txn t with
  | none => s
  | some x =>
    if x.last && x.writes == 0 then
      match x.zeroed, x.poison with
      | some z, _ => s.endTxn st t stPartialRows x.lastQ z
      | none, some o => s.endTxn st t stPoisoned x.lastQ o
      | none, none => s.endTxn st t stOk x.lastQ 0
    else s

/-- Data that lands in a transaction's reserved space (R47, R48): it is written at its offset under one of the reserved buffers. -/
def State.landed (s : State) (st : Nat) (f : Frame) (t : Txn) (zeroed : Option Nat) : State :=
  let off := f.seq.toNat
  (s.updNi st (fun n => n.updTxn f.txn.toNat (fun t =>
    { t with phase := .data, bufs := t.bufs - 1, got := t.got + f.length.toNat, writes := t.writes + 1, last := t.last || f.last,
             poison := firstPoison t.poison (poisonAt f off), zeroed := t.zeroed.or zeroed }))).niWr
    st (dLocal t.task.d + BitVec.ofNat 64 off) (f.payload.take f.length.toNat) (frameMarks f)
      (.txnData f.txn.toNat (dKey t.task.d) (decide (1 ≤ t.bufs)))

/-- READ_DATA_RECEIVE (R47, R114). -/
def execReadDataReceive (st : Nat) (f : Frame) (s : State) : Res :=
  onNiHold s st (.readDataReceive st f) (s.response st f (fun t s => if dOp t.task.d = 2 then s.landed st f t none else s))

/-- IDX_READ_DATA_RECEIVE (R48): OPINFO [7:0] PARTIAL_ROWS names the first zeroed list position in [14:8]. -/
def execIdxReadDataReceive (st : Nat) (f : Frame) (s : State) : Res :=
  onNiHold s st (.idxReadDataReceive st f) (s.response st f (fun t s =>
    if dOp t.task.d = 3 then
      s.landed st f t (if f.opinfo.toNat % 256 = stPartialRows then some (natBits f.opinfo.toNat 14 8) else none)
    else s))

/-- ATOMIC_RESP_RECEIVE (R52, R114): the old value returns to LOCAL_ADDR, and the ATOMIC completes when it is visible. -/
def execAtomicRespReceive (st : Nat) (f : Frame) (s : State) : Res :=
  onNiHold s st (.atomicRespReceive st f) (s.response st f (fun t s =>
    if dOp t.task.d = 5 then
      (s.updNi st (fun n => n.updTxn f.txn.toNat (fun t =>
        { t with phase := .data, writes := t.writes + 1, last := true,
                 poison := if f.opinfo.toNat % 256 = stPoisoned then some 0 else poisonAt f 0 }))).niWr
        st (dLocal t.task.d) (f.payload.take 8) (frameMarks f) (.txnData f.txn.toNat (dKey t.task.d) false)
    else s))

/-- REFUSAL_RECEIVE (R120): the transfer completes with the status of its reason. -/
def execRefusalReceive (st : Nat) (f : Frame) (s : State) : Res :=
  onNiHold s st (.refusalReceive st f) (s.response st f (fun _ s => s.endTxn st f.txn.toNat (f.opinfo.toNat % 256) f.qdelay 0))

/-- A transaction completes VIGIL: its TXN is retired where the Vigil fired here (R310, R311). -/
def State.vigilEnd (s : State) (st t : Nat) (retire : Bool) : State :=
  match kfind (s.getNi st).txn t with
  | none => s
  | some x =>
    let s := s.endTxn st t stVigil x.lastQ 0
    if retire then s.updNi st (fun n => { n with retired := kins n.retired t (s.stFt st) }) else s

/-- VIGIL_ERR_RECEIVE (R114, R310): a VIGIL_ERR from a link is handled as any response and completes its transaction VIGIL. -/
def execVigilErrReceive (st : Nat) (f : Frame) (s : State) : Res :=
  onNiHold s st (.vigilErrReceive st f) (s.response st f (fun _ s => s.vigilEnd st f.txn.toNat false))

/-! ## The station's side (R57, R58) -/

/-- The grants that are delivered now: all their data has come and is visible, and no earlier granted one of their source is still open (R58, R59).
held are the sources of those. -/
def grantsGo (held : List Frame) : KMap Grant → List (Nat × Grant)
  | [] => []
  | e :: es =>
    if !e.2.granted then grantsGo held es
    else if e.2.left = 0 ∧ e.2.writes = 0 ∧ held.any (sameSource e.2.f) = false then e :: grantsGo held es
    else grantsGo (e.2.f :: held) es

/-- The grants that may be delivered are delivered as PUTs, in order of arrival (R58, R59, R246). -/
def State.grantsVisible (s : State) (st : Nat) : State :=
  (grantsGo [] (s.getNi st).grants).foldl (fun s e =>
    (s.updNi st (fun n => { n with grants := kdel n.grants e.1 })).accept st
      { f := e.2.f, kind := 1, bytes := e.2.f.seq.toNat, q := e.2.q, poison := e.2.poison, since := e.2.since }) s

/-- The messages that are delivered now, and those that stay: a visible one stays behind an earlier one of its source that is not (R59). -/
def msgsGo (held : List MsgIn) : List MsgIn → List MsgIn × List MsgIn
  | [] => ([], held)
  | m :: ms =>
    if m.visible && !held.any (fun h => sameSource h.d.f m.d.f) then let r := msgsGo held ms; (m :: r.1, r.2)
    else msgsGo (held ++ [m]) ms

/-- A MESSAGE is visible; those that may be delivered are, in order of arrival. -/
def State.msgVisible (s : State) (st no : Nat) : State :=
  let r := msgsGo [] ((s.getNi st).msgs.map (fun m => if m.no = no then { m with visible := true } else m))
  r.1.foldl (fun s m => s.accept st m.d) (s.updNi st (fun n => { n with msgs := r.2 }))

/-- What a write id that has become visible lets proceed (R58). -/
def State.visible (s : State) (st : Nat) (w : WrFor) : State :=
  match w with
  | .nothing => s
  | .grantData k =>
    match kfind (s.getNi st).grants k with
    | none => s
    | some g =>
      ((s.updNi st (fun n => { n with grants := kins n.grants k { g with writes := g.writes - 1 } })).grantsVisible st).freeBufs
        st g.f.pkey.toNat 1
  | .txnData t key buf =>
    let s := s.updNi st (fun n => n.updTxn t (fun x => { x with writes := x.writes - 1 }))
    (s.txnVisible st t).freeBufs st key (if buf then 1 else 0)
  | .deliver no => s.msgVisible st no
  | .atomic d old => ((s.journal st d).afterDelivery st d (leBytes 8 old.toNat)).atomicDone st
  | .tile sid no => s.tileVisible st sid no
  | .result tag chunk => s.collVisible st tag chunk
  | .status tag => s.statusVisible st tag

/-- WRITE_DONE (R58): the station asserts st_wr_done for a write id; an id that is not outstanding does nothing. -/
def execWriteDone (st : Nat) (id : Nat) (s : State) : Res :=
  onNiHold s st (.writeDone st id) (match kfind (s.getNi st).wr id with
    | none => s
    | some w => (s.freeWr st id).visible st w)

/-- The 16 bytes of a completion record (Table 02-3). -/
def Cpl.bytes (c : Cpl) : List Byte :=
  leBytes 4 (c.tag.toNat * 65536 + c.op.toNat * 256 + c.status.toNat) ++ leBytes 4 c.qdelay.toNat ++ leBytes 4 c.detail.toNat ++
    leBytes 4 c.peer.toNat

/-- COMPLETION_RECORD_TAKEN (R56, R58): the oldest record leaves on ni_cpl_data, and waiting completions enter. -/
def execCompletionRecordTaken (st : Nat) (s : State) : Res :=
  onNiRun s st (match (s.getNi st).cpl with
    | [] => s
    | c :: cs => (s.updNi st (fun n => drainDue n.due { n with cpl := cs })).emit (.niCpl st c.bytes))

/-- EVENT_NOTICE_TAKEN (R58): the pending notice of a counter is taken, with the latest value. -/
def execEventNoticeTaken (st : Nat) (ctr : Nat) (s : State) : Res :=
  onNiRun s st (match kfind (s.getNi st).evt ctr with
    | none => s
    | some v => (s.updNi st (fun n => { n with evt := kdel n.evt ctr })).emit (.niEvt st ctr v))

/-- The data of a PUT is formed into WRITE_DATA frames (R47), which leave in issue order (R59), and LOCAL_CTR advances (R53). -/
def State.sendPut (s : State) (st t : Nat) (x : Txn) (data : List Byte) (poison : Marks) : State :=
  let d := x.task.d
  let s := s.updNi st (fun n => (n.localCtr d).updTxn t (fun x => { x with phase := .data }))
  s.formed st 0x20 t ((putPieces (dRemote d) (dLen d)).map (fun p =>
    withMarks 2 (marksPart poison p.2.1 p.2.2) { s.sourceFrame st 0x20 (dKey d) x.task.dest x.task.coord t with
      addr := BitVec.ofNat 64 p.1, seq := BitVec.ofNat 32 p.2.1, length := BitVec.ofNat 13 p.2.2, payload := (data.drop p.2.1).take p.2.2,
      journal := journalled s.bankIn (dKey d), last := decide (p.2.1 + p.2.2 = dLen d), rctr := dRemoteCtr d }))

/-- The data of a READ_REQ is formed into READ_DATA frames (R47, R114). REMOTE_CTR of a GET advances here, where every byte of the transfer lies
(DESIGN CHOICE, log 68). -/
def State.sendRead (s : State) (st : Nat) (f : Frame) (no : Nat) (data : List Byte) (poison : Marks) : State :=
  (s.updNi st (fun n => n.remoteCtr f)).formed st 0x21 no ((putPieces f.addr f.seq.toNat).map (fun p =>
    let m := marksPart poison p.2.1 p.2.2
    withMarks 2 m { respond f 0x21 f.qdelay with
      addr := BitVec.ofNat 64 p.1, seq := BitVec.ofNat 32 p.2.1, length := BitVec.ofNat 13 p.2.2, payload := (data.drop p.2.1).take p.2.2,
      opinfo := BitVec.ofNat 16 (if m.isEmpty then stOk else stPoisoned), last := decide (p.2.1 + p.2.2 = f.seq.toNat) }))

/-- The first frame of a transaction whose words are now read: INDEXED_READ's list, ATOMIC's compare value or MESSAGE's bytes from 16
on; LOCAL_CTR advances (R48, R52, R53). -/
def State.sendFirst (s : State) (st t : Nat) (x : Txn) (data : List Byte) (poison : Marks) : State :=
  let d := x.task.d
  let base := s.sourceFrame st 0 (dKey d) x.task.dest x.task.coord t
  let s := s.updNi st (fun n => n.localCtr d)
  let q := satQ (slotsBetween x.task.acc (s.stFt st))
  if dOp d = 3 then
    s.formed st 0x02 t [withMarks 0 poison { base with
      cls := 0x02, addr := dRemote d, seq := BitVec.ofNat 32 (dRowSize d + dRowCount d * 8192), length := BitVec.ofNat 13 (4 * dRowCount d),
      payload := data.take (4 * dRowCount d), last := true, qdelay := q, rctr := dRemoteCtr d }]
  else if dOp d = 5 then
    s.formed st 0x05 t [withMarks 0 (marksUp poison 8) { base with
      cls := 0x05, addr := dRemote d, length := 16, payload := leBytes 8 (dW12 d).toNat ++ data.take 8, opinfo := BitVec.ofNat 16 (dAtomicOp d),
      journal := journalled s.bankIn (dKey d), last := true, qdelay := q, rctr := dRemoteCtr d }]
  else s.formed st 0x04 t [{ s.messageFrame st t x.task data poison with qdelay := q }]

/-- The new value of an ATOMIC's target, where it is written (R52). -/
def atomicNew (op old operand compare : Nat) : Option Nat :=
  if op = 0 then some ((old + operand) % 2 ^ 64)
  else if op = 1 then some operand
  else if old = compare then some operand else none

/-- An ATOMIC is performed on the value read from its target (R52, R246). -/
def State.perform (s : State) (st : Nat) (d : Delivery) (data : List Byte) (poison : Marks) : State :=
  let old := ofLe (data.take 8)
  let d := { d with poison := firstPoison d.poison (marksFirst poison) }
  match atomicNew (d.f.opinfo.toNat % 4) old (leAt d.f.payload 0 8) (leAt d.f.payload 8 8) with
  | some v => s.niWr st d.f.addr (leBytes 8 v) (if d.poison.isSome then [(0, 8)] else []) (.atomic d (BitVec.ofNat 64 old))
  | none => ((s.journal st d).afterDelivery st d (leBytes 8 old)).atomicDone st

/-- A tile has been read whole (R49, R50, R245): it takes the next sequence of its stream and waits for a run. Tiles of one stream whose reads return
out of order are numbered in the order in which the NI comes to hold them (DESIGN CHOICE, log 68: the specification does not say when a tile is
numbered). -/
def State.tileRead (s : State) (st : Nat) (t : Task) (data : List Byte) (poison : Marks) : State :=
  let sid := dStream t.d
  let n := s.getNi st
  let q := kget 0 n.seqNext sid
  (s.setNi st { n with seqNext := kput 0 n.seqNext sid (q + 1), tiles := n.tiles ++ [{ task := t, seq := q, data := data, poison := poison, sent := 0, ready := s.stFt st }] }).watchTile
    st sid q data false false true

/-- What the data of a read is for. -/
def State.readBack (s : State) (st : Nat) (w : RdFor) (data : List Byte) (poison : Marks) : State :=
  match w with
  | .putData t => (match kfind (s.getNi st).txn t with
    | some x => s.sendPut st t x data poison
    | none => s)
  | .first t => (match kfind (s.getNi st).txn t with
    | some x => s.sendFirst st t x data poison
    | none => s)
  | .tile t => s.tileRead st t data poison
  | .serve f no => s.sendRead st f no data poison
  | .rows f no i acc zeroed p =>
    State.nextRow st f no (rowCount f - (i + 1)) (i + 1) (acc ++ data.take (rowSize f)) zeroed (p ++ marksUp poison acc.length) s
  | .atomic d => s.perform st d data poison
  | .contribution tag chunk => s.collRead st tag chunk data poison

/-- READ_DATA_RETURN (R57): the station returns the data of a read id, the numbered beats with st_rdd_poison; an id that is not outstanding does
nothing. -/
def execReadDataReturn (st : Nat) (id : Nat) (data : List Byte) (poisoned : List Nat) (s : State) : Res :=
  onNiHold s st (.readDataReturn st id data poisoned) (match kfind (s.getNi st).rd id with
    | none => s
    | some w => (s.freeRd st id).readBack st w data (beatMarks data.length poisoned))

/-! ## Translation (R42, R43) -/

/-- XLAT_MISS_FETCH_DONE (R42, R43): the entries of the oldest miss arrive; the translation fails BAD_RANK, or is cached, of 512 entries
the one used least recently making room, and the descriptor goes on and is accepted for metering (R166). A translation in flight when the cache
was invalidated finishes with the entries it read, and they enter the cache as any others (DESIGN CHOICE, log 68: the specification says only that
the descriptor finishes). -/
def execXlatMissFetchDone (st : Nat) (pkgEntry : W32) (stnEntry : W16) (s : State) : Res :=
  let n := s.getNi st
  onNiHold s st (.xlatMissFetchDone st pkgEntry stnEntry) (match n.xlatWait with
    | [] => s
    | t :: ts =>
      let s := s.setNi st { n with xlatWait := ts }
      if pkgEntry.getLsbD 31 = false ∨ stnEntry = 0xFFFF then s.completeNoPeer st t.d stBadRank 0
      else
        let x : Xlat := { key := dKey t.d, rank := dDest t.d, coord := pkgEntry.extractLsb' 0 17, station := stnEntry }
        (s.updNi st (fun n => { n with xlat := (x :: n.xlat.filter (fun y => !(y.key == x.key && y.rank == x.rank))).take 512 })).destKnown
          st { t with coord := x.coord, dest := x.station, acc := s.stFt st })

/-- NI_XLAT_FLUSH (R43): the translation cache is invalidated. -/
def execNiXlatFlush (st : Nat) (s : State) : Res := onNi s st (s.updNi st (fun n => { n with xlat := [] }))

/-- NI_TRIG_CLEAR_ALL (R55): every slot is disarmed. -/
def execNiTrigClearAll (st : Nat) (s : State) : Res := onNi s st (s.updNi st Ni.disarmAll)

/-! ## The yellow list (R167) -/

/-- YELLOW_RELEASE (R167): the head entry of a partition leaves once Tc covers its charge, and the green ones behind it follow. -/
def execYellowRelease (st : Nat) (key : Nat) (s : State) : Res :=
  onNiRun s st (match (s.getNi st).yellow.find? (fun y => y.key == key) with
    | none => s
    | some y => if s.yellowReady st y then (s.yellowLeave st y).yellowFollow st key 64 else s)

/-- YELLOW_EXPIRY (R167): an entry that has stood YELLOW_MAX slots since its acceptance, those of a Holiday not counted (R377), is refused POLICED_RED; where Tc covers the charge
of the head at that boundary it is a release. -/
def execYellowExpiry (st : Nat) (key : Nat) (s : State) : Res :=
  let u := niUnit st
  onNiRun s st (match (s.getNi st).yellow.find? (fun y => y.key == key && y.debit), s.policerOf u key with
    | some y, some p =>
      let waited := slotsBetween y.task.acc (s.stFt st)
      if waited - y.froze < p.yellowMax then s
      else if (s.getNi st).yellow.find? (fun z => z.key == key) == some y && s.yellowReady st y then
        (s.yellowLeave st y).yellowFollow st key 64
      else
        ((s.count u R.NI_POLICE_EXPIRED 1).updNi st (fun n =>
          { n with yellow := n.yellow.erase y }.complete y.task.d stRed (satQ waited) 0 y.task.dest)).yellowFollow st key 64
    | _, _ => s)

/-! ## The pool (R169) -/

/-- A command of a POOL instance, with the parts it reaches. -/
def onPool (s : State) (die : Nat) (t : State) : Res :=
  onUnit (unitKind s.pkg (poolUnit die) == some .pool && !s.dieDisabled die) s
    { s with ni := t.ni, pools := t.pools, regs := t.regs, ctrs := t.ctrs, out := t.out, irqHeld := t.irqHeld, freeCtr := t.freeCtr }

/-- POOL_ALLOCATE (R169): waiting requests are served in arrival order while the head's buffers are free. -/
def execPoolAllocate (die : Nat) (s : State) : Res := onPool s die (servePool die (s.getPool die).queue s)

/-- POOL_WAIT_EXPIRY (R169): the head that has waited WAIT_MAX slots is served if the free buffers suffice, else refused POOL_CEILING;
those behind it are then served. -/
def execPoolWaitExpiry (die : Nat) (s : State) : Res :=
  let u := poolUnit die
  let p := s.getPool die
  onPool s die (if s.dieFrozen die then s else match p.queue with
    | [] => s
    | r :: rs =>
      if r.n ≤ s.poolFree die then servePool die p.queue s
      else if s.poolWait r - r.froze < s.fld u F.POOL_CTRL_WAIT_MAX then s
      else
        let s := ((s.setPool die { p with queue := rs }).count u R.POOL_REFUSE_WAIT 1).poolRefused r stCeiling
        servePool die (s.getPool die).queue s)

/-- POOL_DISABLE (R169): EN is 0, and every waiting request is refused NOT_READY. -/
def State.poolDisable (s : State) (die : Nat) : State :=
  let p := s.getPool die
  p.queue.foldl (fun s r => s.poolRefused r stNotReady)
    ((s.setFld (poolUnit die) F.POOL_CTRL_EN 0).setPool die { p with queue := [] })

/-! ## Timers (R309–R311) -/

/-- DETAIL of a VIGIL event (Table 13-3). -/
def vigilDetail (key : Nat) (machine : Bool) (station : Nat) : W32 :=
  BitVec.ofNat 32 ((key <<< 20) + (if machine then 65536 else 0) + station)

/-- The Vigil's limit of a transaction in quanta (R309): NI_VIGIL_PKG where its destination is this package, else NI_VIGIL_MACH. -/
def State.vigilLimit (s : State) (st : Nat) (coord : BitVec 17) : Nat :=
  4000 * s.fld (niUnit st) (if coord = s.coord then F.NI_VIGIL_PKG_US else F.NI_VIGIL_MACH_US)

/-- VIGIL_EXPIRY (R309, R310): the Vigil of a transaction whose first frame has left fires once its limit has passed since that frame or the
transaction's last GRANT or response: the transaction completes VIGIL and its TXN is retired. A collective instance is cancelled with cause Vigil
(R201). Frozen during Holiday. -/
def execVigilExpiry (st : Nat) (who : VigilWho) (s : State) : Res :=
  onNiRun s st (match who with
    | .txn t =>
      (match kfind (s.getNi st).txn t with
       | none => s
       | some x =>
         if x.vigil.any (fun t => decide (s.vigilLimit st x.task.coord ≤ ftSince (s.stFt st) t)) then
           (s.vigilEnd st t true).faultEvent (niUnit st) 6
             (vigilDetail (dKey x.task.d) (x.task.coord != s.coord) x.task.dest.toNat)
         else s)
    | .coll tag => s.collVigil st tag)

/-- GRANT_EXPIRY (R310): a grant whose data has not all come within NI_VIGIL_MACH of the granting is freed and counted. src is the source station,
txn its TXN. -/
def execGrantExpiry (st : Nat) (src : Nat) (txn : Nat) (s : State) : Res :=
  let n := s.getNi st
  onNiRun s st (match n.grants.find? (fun e => e.2.granted && e.2.f.srcStation.toNat == src && e.2.f.txn.toNat == txn && decide (1 ≤ e.2.bufs) &&
      decide (4000 * s.fld (niUnit st) F.NI_VIGIL_MACH_US ≤ ftSince (s.stFt st) e.2.at_)) with
    | none => s
    | some (k, g) =>
      (((s.setNi st { n with grants := kdel n.grants k }).count (niUnit st) R.NI_GRANT_EXPIRED 1).freeBufs st g.f.pkey.toNat
        (g.bufs + g.writes)).grantsVisible st)

/-- TXN_RETIRE_EXPIRY (R311): NI_VIGIL_RETIRE has passed, and the TXN may be used again. -/
def execTxnRetireExpiry (st : Nat) (txn : Nat) (s : State) : Res :=
  onNiRun s st (match kfind (s.getNi st).retired txn with
    | some t =>
      if s.fld (niUnit st) F.NI_VIGIL_RETIRE_MS * 4000000 ≤ ftSince (s.stFt st) t then s.updNi st (fun n => { n with retired := kdel n.retired txn }) else s
    | none => s)

/-! ## Partition fences (R303) -/

/-- A key fenced at an NI; key 0 never is. -/
def Ni.fence (n : Ni) (key : Nat) : Ni := if key = 0 ∨ n.fenced.contains key then n else { n with fenced := n.fenced ++ [key] }

/-- NI_PFENCE_SET (R303, R320). -/
def execNiPfenceSet (st : Nat) (key : Nat) (s : State) : Res := onNi s st (s.updNi st (fun n => n.fence key))

/-- NI_PFENCE_CLEAR (R303, R320). -/
def execNiPfenceClear (st : Nat) (key : Nat) (s : State) : Res :=
  onNi s st (s.updNi st (fun n => { n with fenced := n.fenced.filter (· != key) }))

/-! ## The arrival journal (R247, R249, R251) -/

/-- JRNL_RD_ADVANCE (R247): NI_JRNL_RD moves; a value beyond NI_JRNL_WR is kept out. -/
def execJrnlRdAdvance (st : Nat) (rd : FT) (s : State) : Res :=
  let u := niUnit st
  onNi s st (if ftGe (s.pair u R.NI_JRNL_WR) rd then s.setPair u R.NI_JRNL_RD rd else s)

/-- STATS_RD_ADVANCE (R235): NI_STATS_RD moves. -/
def execStatsRdAdvance (st : Nat) (rd : FT) (s : State) : Res :=
  let u := niUnit st
  onNi s st (if ftGe (s.pair u R.NI_STATS_WR) rd then s.setPair u R.NI_STATS_RD rd else s)

/-- REPLAY_DIVERGE (R249): the oldest held transfer has waited NI_JRNL_DIVERGE_LIMIT slots; frozen during Holiday. -/
def execReplayDiverge (st : Nat) (s : State) : Res :=
  let u := niUnit st
  onNiRun s st (match (s.getNi st).hold with
    | [] => s
    | h :: _ =>
      if decide (s.fld u F.NI_JRNL_DIVERGE_LIMIT_SLOTS ≤ slotsBetween h.since (s.stFt st)) then s.diverge st else s)

/-- NI_JRNL_CTRL.MODE changes (R249, R251): 3 is reserved (R18); leaving REPLAY releases held transfers. The ring is the replay ring's content from the
head on, which the NI reads from memory (R248). -/
def State.jrnlMode (s : State) (st : Nat) (mode : Nat) (ring : List FT) : State :=
  let u := niUnit st
  let old := s.fld u F.NI_JRNL_CTRL_MODE
  let s1 := s.setFld u F.NI_JRNL_CTRL_MODE mode
  if mode = 3 then s
  else if mode = 2 then
    let t := if old = 2 then s1 else s1.updNi st (fun n => { n with ring := ring, ringBase := s.fld u F.NI_JRNL_REPLAY_HEAD_INDEX })
    if t.atReplayEnd st then t.replayEnd st else t
  else if old = 2 then s1.releaseHeld st else s1

/-- JRNL_MODE_WRITE (R249, R251). -/
def execJrnlModeWrite (st : Nat) (mode : W2) (ring : List FT) (s : State) : Res := onNi s st (s.jrnlMode st mode.toNat ring)

end Sys2Proof.Machine
end

