-- ==== Sys2Proof/Machine/Trace.lean ====
section
/-! DEFINITION. Probes, the trace unit and Holiday (R373–R387). -/
namespace Sys2Proof.Machine

/-- The state with the trace unit changed. -/
def State.updTrace (s : State) (f : Trace → Trace) : State := { s with trace := f s.trace }

/-- The state with the Holiday controller changed. -/
def State.updHol (s : State) (f : Hol → Hol) : State := { s with hol := f s.hol }

/-! ## The trace buffer (R383, R384) -/

/-- TRACE_BUF: 16 MiB. -/
def traceBuf : Nat := 16 * 1024 * 1024

/-- Undrained bytes. -/
def Trace.level (t : Trace) : Nat := (t.ring.map List.length).foldl (· + ·) 0 - t.headOff

/-- A record without its TSEQ (Table 17-8): type, FLAG, SOURCE, quality, FT and the bytes from 16 on. -/
structure RecBody where
  type : Nat
  flag : Bool
  source : Nat
  qual : Nat
  ft : FT
  body : List Byte
  deriving DecidableEq, Repr

/-- The bytes of a record with its TSEQ. -/
def recBytes (r : RecBody) (tseq : Nat) : List Byte :=
  [BitVec.ofNat 8 r.type, BitVec.ofNat 8 ((16 + r.body.length) / 16 + r.qual % 4 * 16 + bitNat r.flag * 64)] ++ leBytes 2 tseq ++
    leBytes 4 r.source ++ leBytes 8 r.ft.toNat ++ r.body

/-- The oldest undrained whole records, never one partly sent, are discarded until n bytes are free; the count of them. -/
def discardOld (n : Nat) : Nat → Trace → Nat → Trace × Nat
  | 0, t, k => (t, k)
  | fuel + 1, t, k =>
    if n ≤ traceBuf - t.level then (t, k)
    else if t.headOff = 0 then
      match t.ring with
      | [] => (t, k)
      | _ :: rs => discardOld n fuel { t with ring := rs } (k + 1)
    else
      match t.ring with
      | h :: _ :: rs => discardOld n fuel { t with ring := h :: rs } (k + 1)
      | _ => (t, k)

/-- A record enters the ring and takes its TSEQ. -/
def Trace.put (t : Trace) (r : RecBody) : Trace :=
  { t with ring := t.ring ++ [recBytes r (t.tseq % 65536)], tseq := (t.tseq + 1) % 65536 }

/-- The trace unit's address as SOURCE, the FT and quality of its own records. -/
def State.traceRec (s : State) (type : Nat) (flag : Bool) (body : List Byte) : RecBody :=
  { type := type, flag := flag, source := traceUnit s.pkg, qual := s.quality, ft := s.time.ft, body := body }

/-- POST in bytes. -/
def State.tracePost (s : State) : Nat := s.fld (traceUnit s.pkg) F.TRACE_POST_KIB4 * 4096

/-- Bytes captured after a trigger: at POST bytes the unit is DONE with ONE_SHOT, else ARMED once what it holds has drained. -/
def State.captured (s : State) (n : Nat) : State :=
  if s.trace.st != 2 || s.trace.drain.isSome then s
  else
    let s := s.updTrace (fun t => { t with post := t.post + n })
    if s.trace.post < s.tracePost then s
    else if s.bit (traceUnit s.pkg) F.TRACE_CTRL_ONE_SHOT then
      (s.updTrace (fun t => { t with st := 3 })).event (traceUnit s.pkg) F.TRACE_EVENT_DONE
    else s.updTrace (fun t => { t with drain := some t.ring.length, st := if t.ring.isEmpty then 1 else 2 })

/-- A record reaches the trace unit (Table 17-10): not captured in IDLE and DONE; in ARMED old records make room; in TRIGGERED it is
dropped where it finds no room, and an OVERFLOW record precedes the first one after drops. -/
def State.capture (s : State) (r : RecBody) : State :=
  let u := traceUnit s.pkg
  let n := 16 + r.body.length
  if s.trace.st = 0 ∨ s.trace.st = 3 then s
  else if s.trace.st = 1 then
    let (t, k) := discardOld n (s.trace.ring.length + 1) s.trace 0
    (s.updTrace (fun _ => t.put r)).count u R.TRACE_OVERWRITTEN k
  else
    let s := if s.trace.dropRecs != 0 && decide (32 ≤ traceBuf - s.trace.level) then
        let o := s.traceRec 0x06 false (leBytes 6 s.trace.dropRecs ++ leBytes 6 (s.trace.dropBytes / 16) ++ List.replicate 4 0)
        (s.updTrace (fun t => { t.put o with dropRecs := 0, dropBytes := 0 })).captured 32
      else s
    if n ≤ traceBuf - s.trace.level then (s.updTrace (fun t => t.put r)).captured n
    else
      (((s.updTrace (fun t => { t with dropRecs := t.dropRecs + 1, dropBytes := t.dropBytes + n })).count u R.TRACE_DROPPED 1).count u
        R.TRACE_DROPPED_BYTES n).event u F.TRACE_EVENT_OVERFLOW

/-- A trigger is taken in ARMED: the TRIGGER record, TRIGGERED, its FT, and room for POST bytes; in TRIGGERED and DONE it is ignored
(R384). source as Table 17-9. -/
def State.trigTake (s : State) (source : Nat) : State :=
  let u := traceUnit s.pkg
  if s.trace.st = 0 then s
  else if s.trace.st != 1 then s.event u F.TRACE_EVENT_TRIG_IGNORED
  else
    let s := s.capture (s.traceRec 0x04 false (BitVec.ofNat 8 source :: List.replicate 15 0))
    let (t, k) := discardOld s.tracePost (s.trace.ring.length + 1) s.trace 0
    ((s.updTrace (fun _ => { t with st := 2, post := 0, drain := none, trigFt := s.time.ft })).count u R.TRACE_OVERWRITTEN k).event u
      F.TRACE_EVENT_TRIGGERED

/-! ## Holiday entry and release (R376–R382) -/

/-- Whether a die takes part in a stop: it exists, is enabled and is not gated (R37, R378, Table 12-6). -/
def State.dieLive (s : State) (d : Nat) : Bool :=
  dieExists s.pkg d && !s.dieDisabled d && s.fld (dieUnit d) F.POWER_DIE_STATUS_STATE == 0

/-- The dies that take part in a stop. -/
def State.liveDies (s : State) : List Nat := (List.range 20).filter s.dieLive

/-- A HOLIDAY frame with an ARG is queued at every ACTIVE port but one (R379). -/
def State.sendHoliday (s : State) (arg : Nat) (except : Option Nat) : State :=
  (List.range (portCount s.pkg)).foldl (fun s q =>
    if s.portTrained q && except != some q then
      let f : Frame := { cls := 0x3C, srcCoord := s.coord, seq := BitVec.ofNat 32 arg }
      { s with ports := kins s.ports q { kget {} s.ports q with hq := (kget {} s.ports q).hq ++ [f] } }
    else s) s

/-- A HOLIDAY record (Table 17-9). -/
def State.holidayRec (s : State) (arg ev : Nat) : State :=
  s.capture (s.traceRec 0x05 s.hol.own (leBytes 4 arg ++ [BitVec.ofNat 8 ev] ++ List.replicate 11 0))

/-- ARG of a STOP (Table 17-4). -/
def stopArg (cause id : Nat) : Nat := 2 ^ 30 + cause % 16 * 2 ^ 26 + id % 65536

/-- ARG of a RELEASE (Table 17-4). -/
def releaseArg (id : Nat) (k : Int) : Nat := 2 ^ 31 + id % 256 * 2 ^ 22 + ((k / 1024) % (2 ^ 22)).toNat

/-- A Holiday begins (R376, R378, Table 17-3, Table 17-7): a source during a Holiday has no effect, one during RESUMING begins a new
Holiday. A Holiday of package scope writes no ID (DEDUCED, log 20). -/
def State.holidayEnter (s : State) (cause : Nat) (machine own : Bool) (id : Option Nat) (arg : Nat) (ingress : Option Nat) : State :=
  if s.hol.active && !s.hol.resuming then s
  else
    let s := if s.bit (traceUnit s.pkg) F.TRACE_TRIG_CFG_HOLIDAY_SRC then s.trigTake 3 else s
    let s := s.updHol (fun h => {
      h with
      active := true, stopped := false, resuming := false, id := id.getD h.id, cause := cause, machine := machine, own := own, acks := [],
      resumed := [], release := none, suspended := true, scanReady := false })
    let s := (s.emit (.pin .holidayOut false)).event (holidayUnit s.pkg) F.TRACE_HOLIDAY_EVENT_ENTERED
    let s := s.holidayRec arg 0
    if machine then s.sendHoliday arg ingress else s

/-- A local source begins a Holiday: of machine scope with LAST_ID + 1 as its ID (R379). -/
def State.holidayLocal (s : State) (cause : Nat) (machine : Bool) : State :=
  if machine then
    let id := (s.hol.lastId + 1) % 65536
    s.holidayEnter cause true true (some id) (stopArg cause id) none
  else s.holidayEnter cause false true none (stopArg cause s.hol.id) none

/-- A trigger from a source, and the Holiday it also starts where TRACE_TRIG_CFG.HOLIDAY is 1 (R376, R384). -/
def State.trigger (s : State) (source : Nat) : State :=
  let u := traceUnit s.pkg
  let taken := s.trace.st == 1
  let s := s.trigTake source
  if taken && s.bit u F.TRACE_TRIG_CFG_HOLIDAY then s.holidayLocal 3 (s.bit u F.TRACE_TRIG_CFG_HOL_MACHINE) else s

/-- The release itself (R381): LAST_ID, RESUMING, RELEASE to the other ports of a machine Holiday, the HOLIDAY record. -/
def State.holidayGo (s : State) (k : Int) (ingress : Option Nat) : State :=
  let arg := releaseArg s.hol.id k
  let s := s.updHol (fun h => { h with lastId := h.id, resuming := true, resumed := [], release := none, k := k })
  let s := s.holidayRec arg 2
  if s.hol.machine && s.bit (holidayUnit s.pkg) F.TRACE_HOLIDAY_CTRL_FORWARD then s.sendHoliday arg ingress else s

/-- The resume SS that a written RELEASE computes: the first multiple of 1,024 at or after SS plus RESUME_DELAY (R381). -/
def State.resumeSs (s : State) : Int :=
  let n := s.ss + s.fld (holidayUnit s.pkg) F.TRACE_HOLIDAY_CTRL_RESUME_DELAY
  ((n + 1023) / 1024) * 1024

/-- The resume SS that RESUME_K names: bits [31:10] equal it, nearest to the package's own SS (R381). -/
def State.rebuildK (s : State) (rk : Nat) : Int :=
  let base := (s.ss / 2 ^ 32) * 2 ^ 32 + rk * 1024
  if base - s.ss > 2 ^ 31 then base - 2 ^ 32 else if s.ss - base > 2 ^ 31 then base + 2 ^ 32 else base

/-- A RELEASE acts, or waits for STOPPED (R381). rk is RESUME_K where a frame brought it, port its ingress. -/
def State.holidayRelease (s : State) (rk port : Option Nat) : State :=
  if !s.hol.active || s.hol.resuming then s.event (holidayUnit s.pkg) F.TRACE_HOLIDAY_EVENT_RELEASE_IGNORED
  else if !s.hol.stopped then s.updHol (fun h => { h with release := some (rk, port) })
  else s.holidayGo (match rk with
    | some r => s.rebuildK r
    | none => s.resumeSs) port

/-- STOPPED rises (R378): the event, the HOLIDAY record, and a RELEASE that waited. -/
def State.holidayStopped (s : State) : State :=
  let s := (s.updHol (fun h => { h with stopped := true })).event (holidayUnit s.pkg) F.TRACE_HOLIDAY_EVENT_STOPPED
  let s := s.holidayRec (stopArg s.hol.cause s.hol.id) 1
  match s.hol.release with
  | some (rk, port) => s.holidayRelease rk port
  | none => s

/-- The last die has resumed (R381): ACTIVE and RESUMING clear, RESUMED, the record, and holiday_out_n rises. -/
def State.holidayDone (s : State) : State :=
  let arg := releaseArg s.hol.id s.hol.k
  let s := (s.updHol (fun h => { h with active := false, stopped := false, resuming := false, acks := [], scanReady := false })).event
    (holidayUnit s.pkg) F.TRACE_HOLIDAY_EVENT_RESUMED
  (s.holidayRec arg 3).emit (.pin .holidayOut true)

/-- The die that resumes next: in ascending number (R290). -/
def State.nextDie (s : State) : Option Nat := s.liveDies.find? (fun d => !s.hol.resumed.contains d)

/-- A command of the trace unit or the Holiday controller, with the parts it reaches. -/
def onTrace (s t : State) : Res :=
  done s { s with hol := t.hol, trace := t.trace, regs := t.regs, ctrs := t.ctrs, out := t.out, irqHeld := t.irqHeld, ports := t.ports,
                  rtr := t.rtr, freeCtr := t.freeCtr }

/-- Whether a side's unit governs: the core of that side holds the lease (R376, R387). -/
def State.sideActs (s : State) (side : Nat) : Bool := s.holder.getD 0 == side

/-- HOLIDAY_STOP_PACKAGE (R376). -/
def execHolidayStopPackage (side : Nat) (s : State) : Res :=
  onTrace s (if s.sideActs side then s.holidayLocal 0 false else s)

/-- HOLIDAY_STOP_MACHINE (R376, R379). -/
def execHolidayStopMachine (side : Nat) (s : State) : Res :=
  onTrace s (if s.sideActs side then s.holidayLocal 1 true else s)

/-- HOLIDAY_PIN (R376): holiday_in_n low for 3 samples, with PIN_EN at 1. -/
def execHolidayPin (s : State) : Res :=
  onTrace s (if s.bit (holidayUnit s.pkg) F.TRACE_HOLIDAY_CTRL_PIN_EN then s.holidayLocal 4 false else s)

/-- A HOLIDAY frame with a reserved ACTION is consumed and counted as malformed (R379, R111). -/
def State.holidayMalformed (s : State) (port : Nat) : State :=
  (s.count (portUnit s.pkg port) R.PORT_MALFORMED 1).faultEvent (portUnit s.pkg port) 14 (malformedDetail {} 1)

/-- A STOP frame that a port ingress hands to the controller (R376, R379). -/
def State.holidayStopFrame (s : State) (port : Nat) (arg : W32) : State :=
  let id := getBits arg 15 0
  if getBits arg 31 30 != 1 then s.holidayMalformed port
  else if !s.bit (holidayUnit s.pkg) F.TRACE_HOLIDAY_CTRL_ACCEPT || s.hol.lastId == id then s
  else
    s.holidayEnter 5 (s.bit (holidayUnit s.pkg) F.TRACE_HOLIDAY_CTRL_FORWARD) false (some id) (stopArg (getBits arg 29 26) id) (some port)

/-- HOLIDAY_STOP_FRAME (R379): a STOP enters Holiday with its ID and is forwarded, or is consumed. -/
def execHolidayStopFrame (port : Nat) (arg : W32) (s : State) : Res :=
  onTrace s (if port < portCount s.pkg then s.holidayStopFrame port arg else s)

/-- DIE_STOP_ACK (R378): the last enabled die's acknowledgement sets STOPPED. -/
def execDieStopAck (die : Nat) (s : State) : Res :=
  onTrace s
    (if s.hol.active && !s.hol.stopped && s.dieLive die then
       let s := s.updHol (fun h => { h with acks := if h.acks.contains die then h.acks else h.acks ++ [die] })
       if s.liveDies.all (fun d => s.hol.acks.contains d) then s.holidayStopped else s
     else s)

/-- HOLIDAY_ACK_TIMEOUT (R378): STOPPED is set without the lost dies, which are reported. -/
def execHolidayAckTimeout (s : State) : Res :=
  onTrace s
    (if s.hol.active && !s.hol.stopped then
       ((s.liveDies.filter (fun d => !s.hol.acks.contains d)).foldl (fun s d => s.emit (.dieLost d)) s).holidayStopped
     else s)

/-- HOLIDAY_RELEASE (R381). -/
def execHolidayRelease (side : Nat) (s : State) : Res :=
  onTrace s (if s.sideActs side then s.holidayRelease none none else s)

/-- A RELEASE frame that a port ingress hands to the controller (R379, R381). -/
def State.holidayReleaseFrame (s : State) (port : Nat) (arg : W32) : State :=
  if getBits arg 31 30 != 2 then s.holidayMalformed port
  else if !s.bit (holidayUnit s.pkg) F.TRACE_HOLIDAY_CTRL_ACCEPT then s
  else if getBits arg 29 22 = s.hol.id % 256 then s.holidayRelease (some (getBits arg 21 0)) (some port)
  else s.event (holidayUnit s.pkg) F.TRACE_HOLIDAY_EVENT_RELEASE_IGNORED

/-- HOLIDAY_RELEASE_FRAME (R381): with ACCEPT at 1, a RELEASE whose ID matches; another sets RELEASE_IGNORED. -/
def execHolidayReleaseFrame (port : Nat) (arg : W32) (s : State) : Res :=
  onTrace s (if port < portCount s.pkg then s.holidayReleaseFrame port arg else s)

/-! ## Scan (R380) -/

/-- The words of a scanned VC (Table 17-5): occupancy and whether a head is present, H0, H1, H3, QDELAY. No worm holds an output between
commands (log 21). -/
def scanWords (occupancy : Nat) (h : Option Frame) : List W32 :=
  match h with
  | none => BitVec.ofNat 32 (occupancy % 65536) :: List.replicate 7 0
  | some f =>
    let two (w : FT) : List W32 := [w.extractLsb' 0 32, w.extractLsb' 32 32]
    BitVec.ofNat 32 (occupancy % 65536 + 65536) :: two (headWord f 0) ++ two (headWord f 1) ++ two (headWord f 3) ++
      [BitVec.ofNat 32 f.qdelay.toNat]

/-- The frames in the input VC that TRACE_HOLIDAY_SCAN_SEL names, and their occupancy: flits on a router, 256 B units at a port. -/
def State.scanned (s : State) : List Frame × Nat :=
  let u := holidayUnit s.pkg
  let unit := s.fld u F.TRACE_HOLIDAY_SCAN_SEL_UNIT
  let plane := s.fld u F.TRACE_HOLIDAY_SCAN_SEL_PLANE
  let vc := s.fld u F.TRACE_HOLIDAY_SCAN_SEL_VC
  match unitKind s.pkg unit with
  | some .router =>
    let q := kget [] (kget {} s.rtr (islKey (unitDie unit) (unitInst unit))).inq
      ((s.fld u F.TRACE_HOLIDAY_SCAN_SEL_INPUT * 4 + plane) * 4 + vc)
    (q.map (·.f), (q.map (fun h => flitCount plane h.f.length.toNat)).foldl (· + ·) 0)
  | some .port =>
    let q := kget [] (kget {} s.ports (portOfUnit s.pkg unit)).rxq (plane * 4 + vc)
    (q.map (·.f), (q.map (fun h => (64 * unitCount h.f.length.toNat + 255) / 256)).foldl (· + ·) 0)
  | _ => ([], 0)

/-- The eight SCAN_DATA words set. -/
def State.setScan (s : State) (ws : List W32) : State :=
  (List.range 8).foldl (fun s i => s.setReg (holidayUnit s.pkg) (R.TRACE_HOLIDAY_SCAN_DATA + 4 * i) (ws.getD i 0)) s

/-- TRACE_HOLIDAY_CMD SCAN: while STOPPED the words are read; otherwise CMD_REJECT and zeros. -/
def State.holidayScan (s : State) : State :=
  if !s.hol.stopped then
    ((s.setScan []).event (holidayUnit s.pkg) F.TRACE_HOLIDAY_EVENT_CMD_REJECT).updHol (fun h => { h with scanReady := false })
  else
    let (fs, n) := s.scanned
    (s.setScan (scanWords n fs.head?)).updHol (fun h => { h with scanReady := true })

/-- HOLIDAY_SCAN (R380). -/
def execHolidayScan (side : Nat) (s : State) : Res := onTrace s (if s.sideActs side then s.holidayScan else s)

/-! ## Probes (R373–R375) -/

/-- The histogram bin of a value (R374). -/
def histBin (v : Nat) : Nat := if v = 0 then 0 else min 15 (v.log2 + 1)

/-- Whether a probe matches a head that leaves at an output on a VC (R373). i is 4 × plane + n. -/
def State.probeMatches (s : State) (u i out vc : Nat) (f : Frame) : Bool :=
  s.fldAt u F.PROBE_CTRL_EN i == 1 &&
  (s.fldAt u F.PROBE_CTRL_OUT i == 63 || s.fldAt u F.PROBE_CTRL_OUT i == out) &&
  (s.fldAt u F.PROBE_CTRL_VC_MASK i).testBit vc &&
  ((headWord f (s.fldAt u F.PROBE_CTRL_WORD i) ^^^ s.pair u (R.PROBE_MATCH + F.PROBE_MATCH_VALUE.stride * i)) &&&
    s.pair u (R.PROBE_MASK + F.PROBE_MASK_VALUE.stride * i)) == 0

/-- A matching head counts, is binned, forms a PROBE record where TRACE is 1 and triggers where TRIG_EN is 1 (R374, R375). -/
def State.probeHit (s : State) (key plane n vc residence : Nat) (f : Frame) : State :=
  let u := probeUnit (key / 1024) (key % 1024)
  let i := 4 * plane + n
  let s := (s.count u (R.PROBE_FRAMES + 8 * i) 1).count u (R.PROBE_BYTES + 8 * i) f.length.toNat
  let b := 16 * i + histBin (if s.fldAt u F.PROBE_CTRL_HIST_SRC i = 0 then residence else f.qdelay.toNat)
  let h := s.fldAt u F.PROBE_HIST_COUNT b
  let s := s.setFldAt u F.PROBE_HIST_COUNT b (min 0xFFFFFFFF (h + 1))
  let s := if s.fldAt u F.PROBE_CTRL_TRACE i = 1 then
      let r := kget {} s.rtr key
      if r.fifo.length < 4 then
        { s with rtr := kins s.rtr key { r with fifo := r.fifo ++ [{ plane := plane, probe := n, vc := vc, ft := s.islFt key, qual := s.quality,
                                                                     f := f }] } }
      else s.count u (R.PROBE_TRACE_DROP + 8 * plane) 1
    else s
  if s.fldAt u F.PROBE_CTRL_TRIG_EN i = 1 && s.bit (traceUnit s.pkg) F.TRACE_TRIG_CFG_PROBE_SRC then s.trigger 1 else s

/-- The probes of a plane examine a head that leaves its router (R373). -/
def State.probes (s : State) (key plane out vc residence : Nat) (f : Frame) : State :=
  (List.range 4).foldl (fun s n =>
    if s.probeMatches (probeUnit (key / 1024) (key % 1024)) (4 * plane + n) out vc f then s.probeHit key plane n vc residence f else s) s

/-- The PROBE record of a FIFO entry (Tables 17-8, 17-9); VC in SOURCE is that of its head. -/
def probeRec (key : Nat) (p : ProbeRec) : RecBody :=
  { type := 0x01, flag := false, qual := p.qual, ft := p.ft,
    source := probeUnit (key / 1024) (key % 1024) + p.plane * 2 ^ 20 + p.vc % 4 * 2 ^ 22 + p.probe * 2 ^ 24,
    body := leBytes 8 (headWord p.f 0).toNat ++ leBytes 8 (headWord p.f 1).toNat }

/-- The router whose FIFO a die's collector takes from next (R375): of those that hold a record, the first in turn after the one served last. -/
def State.nextFifo (s : State) (die : Nat) : Option (Nat × Rtr) :=
  let due := s.rtr.filter (fun e => e.1 / 1024 == die && !e.2.fifo.isEmpty)
  match kfind s.trace.rr die with
  | some l => (due.find? (fun e => decide (l < e.1))).or due.head?
  | none => due.head?

/-- TRACE_COLLECT (R375): the die's collector takes a record from its routers' FIFOs in round robin. -/
def execTraceCollect (die : Nat) (s : State) : Res :=
  onTrace s
    (match s.nextFifo die with
     | none => s
     | some (k, r) =>
       match r.fifo with
       | [] => s
       | p :: ps =>
         ({ s with rtr := kins s.rtr k { r with fifo := ps }, trace := { s.trace with rr := kins s.trace.rr die k } }).capture (probeRec k p))

/-! ## Trace commands (R384, R385) -/

/-- TRACE_CMD ARM: in IDLE and DONE. -/
def State.traceArm (s : State) : State :=
  if s.trace.st = 0 ∨ s.trace.st = 3 then s.updTrace (fun t => { t with st := 1, post := 0, drain := none }) else s

/-- TRACE_ARM (R384). -/
def execTraceArm (s : State) : Res := onTrace s s.traceArm

/-- TRACE_TRIGGER (R384): a software trigger. -/
def execTraceTrigger (s : State) : Res := onTrace s (s.trigger 0)

/-- Records that have drained bring TRIGGERED back to ARMED once those it waits for are gone (Table 17-10). -/
def Trace.drained (t : Trace) (n : Nat) : Trace :=
  match t.drain with
  | none => t
  | some k => if k ≤ n then { t with drain := none, st := if t.st = 2 then 1 else t.st, post := 0 } else { t with drain := some (k - n) }

/-- Bytes taken off the oldest end: the records that are wholly gone, and the rest of the ring. -/
def takeBytes : Nat → List (List Byte) → Nat → Nat × List (List Byte) × Nat
  | _, [], _ => (0, [], 0)
  | off, r :: rs, n =>
    if r.length - off ≤ n then
      let (k, rest, o) := takeBytes 0 rs (n - (r.length - off))
      (k + 1, rest, o)
    else (0, r :: rs, off + n)

/-- TRACE_CMD ADVANCE: while PORT_EN is 0 the oldest 64 bytes are released. -/
def State.traceAdvance (s : State) : State :=
  if s.bit (traceUnit s.pkg) F.TRACE_CTRL_PORT_EN then s
  else
    let (k, rs, o) := takeBytes s.trace.headOff s.trace.ring 64
    s.updTrace (fun t => ({ t with ring := rs, headOff := o }).drained k)

/-- TRACE_ADVANCE (R384). -/
def execTraceAdvance (s : State) : Res := onTrace s s.traceAdvance

/-! ### The trace port (R385) -/

/-- The blocks of lane data between two ALIGN sets: 1,023 positions on four lanes (R385). -/
def traceSpan : Nat := 4 * 1023

/-- An ALIGN ordered set on the four lanes: 0x4E, 0x59, 0x54, 0x52, the lane number, and 11 bytes of zero. -/
def alignSet : List TraceBlock :=
  (List.range 4).map (fun l => { lane := l, sync := 0b01, bits := BitVec.ofNat 128 (0x5254594E + l * 2 ^ 32) })

/-- n ALIGN ordered sets. -/
def alignSets (n : Nat) : List TraceBlock := (List.replicate n alignSet).flatten

/-- The lanes after an ALIGN: the next block is on lane 0, and every generator is all ones. -/
def Trace.aligned (t : Trace) : Trace := { t with blocks := 0, scr := -1 }

/-- A block of 16 bytes on its lane, scrambled, after the ALIGN set that is due. The four lanes' generators agree, so one stands for them. -/
def Trace.sendBlock (t : Trace) (x : Nat) : Trace × List TraceBlock :=
  let (t, pre) := if t.blocks = traceSpan then (t.aligned, alignSet) else (t, [])
  let r := prbsBits 128 t.scr
  ({ t with blocks := t.blocks + 1, scr := if t.blocks % 4 = 3 then r.2 else t.scr },
   pre ++ [{ lane := t.blocks % 4, sync := 0b10, bits := BitVec.ofNat 128 (x ^^^ bitsNat r.1) }])

/-- The lanes after n IDLE blocks (R385). -/
def Trace.idled (t : Trace) (n : Nat) : Trace :=
  if n = 0 then t
  else
    let b := (t.blocks + n - 1) % traceSpan + 1
    { t with blocks := b, scr := (prbsBits (128 * (b / 4)) (-1)).2 }

/-- The blocks of n times 16 bytes. -/
def Trace.sendBlocks (t : Trace) (bs : List Byte) : Nat → Trace × List TraceBlock
  | 0 => (t, [])
  | n + 1 =>
    let (t, xs) := t.sendBlocks bs n
    let (t, ys) := t.sendBlock (leAt bs (16 * n) 16)
    (t, xs ++ ys)

/-- Bytes sent by the trace port. How many IDLE blocks it has sent since the last record is a free value, and they are not listed (log 77). -/
def State.traceSend (s : State) (bs : List Byte) : State :=
  let (v, s) := s.takeFree
  let (t, xs) := (s.trace.idled v.toNat).sendBlocks bs (bs.length / 16)
  { s with trace := t }.emit (.traceOut bs xs)

/-- TRACE_RECORD_DRAINED (R384): the trace port finishes the oldest record while PORT_EN is 1. -/
def execTraceRecordDrained (s : State) : Res :=
  onTrace s
    (if s.bit (traceUnit s.pkg) F.TRACE_CTRL_PORT_EN then
       (match s.trace.ring with
        | [] => s
        | r :: rs => State.traceSend (s.updTrace (fun t => ({ t with ring := rs, headOff := 0 }).drained 1)) (r.drop s.trace.headOff))
     else s)

/-- The port starts: 16 ALIGN sets come before the first data block (R385). -/
def State.traceStart (s : State) : State := (s.updTrace Trace.aligned).emit (.traceOut [] (alignSets 16))

/-- PORT_EN rises, and the port starts. -/
def State.tracePort (s : State) : State :=
  if s.bit (traceUnit s.pkg) F.TRACE_CTRL_PORT_EN then s
  else State.traceStart (s.setFld (traceUnit s.pkg) F.TRACE_CTRL_PORT_EN 1)

/-- TRACE_PORT_ENABLE (R385). -/
def execTracePortEnable (s : State) : Res := onTrace s s.tracePort

end Sys2Proof.Machine
end

