-- ==== Sys2Proof/Machine/Router.lean ====
section
/-! DEFINITION. The routers: where a frame moves within a package, the checks of an arriving head, and the buffers in front of the
outputs (R24–R27, R36, R38, R45, R111, R112, R119, R140–R147). -/
namespace Sys2Proof.Machine

/-! ## Link codes of a router

Outputs and inputs share the codes of Table 16-9: 0 north, 1 east, 2 south, 3 west, 4 and 5 the die-to-die ports of a line router, 6 the
port, 7 and 9 deliveries to the router's stations, 8 and 10 their injections, 16 + 4(m − 1) + direction the further parallel links of a
Priberun-S. On an I/O-die line router i + 1 lies east of router i (log 22). -/

/-- A router that is changed. -/
def State.updRtr (s : State) (key : Nat) (f : Rtr → Rtr) : State := { s with rtr := kput {} s.rtr key (f (kget {} s.rtr key)) }

/-- A router. -/
def State.getRtr (s : State) (key : Nat) : Rtr := kget {} s.rtr key

/-- A crossing's end. -/
def State.getDl (s : State) (key : Nat) : Dlink := kget {} s.dlinks key

/-- A crossing's end that is changed. -/
def State.updDl (s : State) (key : Nat) (f : Dlink → Dlink) : State := { s with dlinks := kput {} s.dlinks key (f (kget {} s.dlinks key)) }

/-- The delivery code of a station at its router: one below its injection code. -/
def deliverLink (p : Package) (st : Nat) : Nat := injectLink p st - 1

/-- The DLINK instance that a router's output leads to; none where it leads to no crossing (R24, R26, R270). -/
def outDlink (p : Package) (die inst out : Nat) : Option Nat :=
  let x := inst % 8
  let y := inst / 8
  if p.isS then none
  else if 16 ≤ die then (if out == 4 || out == 5 then some (2 * inst + (out - 4)) else none)
  else if out = 0 ∧ y = 0 then some x
  else if out = 1 ∧ x = 7 then some (8 + y)
  else if out = 2 ∧ y = 7 then some (16 + x)
  else if out = 3 ∧ x = 0 then some (24 + y) else none

/-- The router that an output leads to inside its die, with the input code it arrives by; none for another output. -/
def outNeighbour (p : Package) (die inst out : Nat) : Option (Nat × Nat) :=
  let d := if out < 16 then out else out % 4
  let back := if out < 16 then (out + 2) % 4 else out - out % 4 + (out % 4 + 2) % 4
  if 4 ≤ out ∧ out < 16 then none
  else if !p.isS && decide (16 ≤ die) then
    (if d = 1 ∧ inst < 15 then some (inst + 1, 3) else if d = 3 ∧ 0 < inst then some (inst - 1, 1) else none)
  else
    let x := inst % 8
    let y := inst / 8
    if d = 0 then (if 0 < y then some (inst - 8, back) else none)
    else if d = 1 then (if x < 7 then some (inst + 1, back) else none)
    else if d = 2 then (if y < 7 then some (inst + 8, back) else none)
    else (if 0 < x then some (inst - 1, back) else none)

/-- The die at the far side of a compute die's edge: a compute die or an I/O die (R13, R24). -/
def facingDie (die out : Nat) : Nat :=
  if out = 0 then (if die < 4 then 16 else die - 4)
  else if out = 1 then (if die % 4 = 3 then 17 else die + 1)
  else if out = 2 then (if 12 ≤ die then 18 else die + 4)
  else (if die % 4 = 0 then 19 else die - 1)

/-- The position of a compute die along the side that an I/O die faces; none where it does not face it (R26). -/
def sidePos (io die : Nat) : Option Nat :=
  if io = 16 then (if die < 4 then some die else none)
  else if io = 17 then (if die < 16 ∧ die % 4 = 3 then some (die / 4) else none)
  else if io = 18 then (if 12 ≤ die ∧ die < 16 then some (die - 12) else none)
  else (if die < 16 ∧ die % 4 = 0 then some (die / 4) else none)

/-- The far end of a crossing (R24, R26, R270). -/
def dlinkPeer (die n : Nat) : Option (Nat × Nat) :=
  if die < 16 then
    let e := n / 8
    let i := n % 8
    let d := facingDie die e
    if e < 4 then
      (if d < 16 then some (d, (e + 2) % 4 * 8 + i) else (sidePos d die).map (fun k => (d, 8 * k + i)))
    else none
  else
    let k := n / 8
    let c := n % 8
    if k < 4 then
      some (if die = 16 then (k, c) else if die = 17 then (4 * k + 3, 8 + c) else if die = 18 then (12 + k, 16 + c) else (4 * k, 24 + c))
    else none

/-- The far end of a crossing. -/
def dlPeerKey (p : Package) (key : Nat) : Option Nat :=
  if p.isS then none else (dlinkPeer (key / 32) (key % 32)).map (fun e => e.1 * 32 + e.2)

/-- The router at a crossing's end, and the code of its input (Table 16-9, R24, R26, R270). -/
def dlRouter (key : Nat) : Nat × Nat :=
  let die := key / 32
  let n := key % 32
  let e := n / 8
  let i := n % 8
  if die < 16 then (islKey die (if e = 0 then i else if e = 1 then 8 * i + 7 else if e = 2 then 56 + i else 8 * i), e)
  else (islKey die (n / 2), 4 + n % 2)

/-- The local FT at a crossing's end. -/
def State.dlFt (s : State) (key : Nat) : FT := s.islFt (dlRouter key).1

/-! ## Moves within a package (R141–R143) -/

/-- A move along a line of routers toward an instance. -/
def lineMove (inst target here : Nat) : Nat := if inst < target then 1 else if target < inst then 3 else here

/-- The output of a frame on a compute die (R142); none is a route error. own is this package's coordinate: only a frame for it has its
destination die among this package's. -/
def computeOut (p : Package) (own : BitVec 17) (die inst : Nat) (f : Frame) : Option Nat :=
  let x := inst % 8
  let y := inst / 8
  let dst := f.destStation.toNat
  let dd := dst / 2048
  let tr := stationRouter p dst
  let here := f.destCoord = own ∧ dd < 16 ∧ dd % 4 = die % 4 ∧ (stationKind p dst).isSome = true
  if f.dpLen = 0 then
    (if f.destCoord != own || dd != die || (stationKind p dst).isNone then none
     else if tr % 8 < x then some 3
     else if tr / 8 < y then some 0
     else if y < tr / 8 then some 2
     else if x < tr % 8 then some 1
     else some (deliverLink p dst))
  else
    let nd := f.dpath.toNat % 32
    if !dieExists p nd || dieFused p nd then none
    else if nd == facingDie die 3 then some 3
    else if here ∧ tr % 8 < x then some 3
    else if nd == facingDie die 0 then some 0
    else if nd == facingDie die 2 then some 2
    else if nd == facingDie die 1 then some 1
    else none

/-- The egress port of a frame at a Priberun-A by the entry its route stands at (R118, R138); none at entry 31 and for an entry that names
no port. -/
def State.egressPort (s : State) (die : Nat) (f : Frame) : Option Nat :=
  let e := routeEntry f.route f.hopPtr.toNat
  if e < 28 then some e
  else if e = 30 then
    (if f.hopPtr = 0 then s.sourceUplink (routeHash f.srcStation f.destStation f.destCoord) else some (7 * (die - 16) + 6))
  else none

/-- The output of a frame on an I/O-die line (R143). The line router at which it takes a crossing is the nearest of the four that face
its next die, and the first of that router's two crossings (DESIGN CHOICE, log 19). -/
def State.lineOut (s : State) (die inst : Nat) (f : Frame) : Option Nat :=
  if f.dpLen = 0 then
    match s.egressPort die f with
    | some q => if portDie s.pkg q == die && decide (q < 28) then some (lineMove inst (portRouter s.pkg q) 6) else none
    | none =>
      let dst := f.destStation.toNat
      if routeEntry f.route f.hopPtr.toNat == 31 && dst / 2048 == die && (stationKind s.pkg dst).isSome then
        some (lineMove inst (stationRouter s.pkg dst) (deliverLink s.pkg dst))
      else none
  else
    let nd := f.dpath.toNat % 32
    match sidePos die nd with
    | none => none
    | some k => if dieFused s.pkg nd then none else if inst < 4 * k then some 1 else if 4 * k + 3 < inst then some 3 else some 4

/-- The egress port of a frame at a Priberun-S by its switch table (R140): a DOWN entry, or a port that leads up by the hash; none is a
route error. up tells whether it arrived on a port of UP_MASK. With no bit set in UP_MASK there is no port that leads up, and no rule
says what a frame to be sent up does: the model makes it a route error (DESIGN CHOICE, log 71). -/
def State.switchPort (s : State) (f : Frame) (up : Bool) : Option Nat :=
  let e := switchEntry s.bankIn f.destCoord.toNat
  if e < 128 then none
  else if e.testBit 6 then some (e % 64)
  else if up || upMask s.bankIn == 0 then none
  else some (chooseBit (routeHash f.srcStation f.destStation f.destCoord) (upMask s.bankIn).toNat 64)

/-- The port by which a collective frame that this switch originates for the level above leaves: the up port of its group (R186). Frames for a
coordinate with a DOWN entry follow the switch table. -/
def State.groupUp (s : State) (f : Frame) : Option Nat :=
  let c := f.cls.toNat
  let e := switchEntry s.bankIn f.destCoord.toNat
  if f.srcCoord = s.coord ∧ 0x30 ≤ c ∧ c ≤ 0x3B ∧ ¬(128 ≤ e ∧ e.testBit 6 = true) then
    (findGroup s.bankIn (f.opinfo.toNat % 4096)).map (fun g => g.upPort % 64)
  else none

/-- The output of a frame on a Priberun-S (R143): X, then Y, on the parallel link of its hash, to the router of its egress port. A frame for this
switch's own coordinate goes to its station without a look at the switch table, whose rule speaks of frames that pass on (DESIGN
CHOICE, log 71). -/
def State.meshOut (s : State) (inst : Nat) (f : Frame) : Option Nat :=
  let h := routeHash f.srcStation f.destStation f.destCoord % 8
  let dst := f.destStation.toNat
  let target := if f.destCoord == s.coord then
      (if (stationKind s.pkg dst).isSome then some (stationRouter s.pkg dst, deliverLink s.pkg dst) else none)
    else (((s.groupUp f).or (s.switchPort f false)).map (fun q => (q, 6)))
  let link (d : Nat) : Nat := if h = 0 then d else 16 + 4 * (h - 1) + d
  target.map (fun t =>
    if inst % 8 < t.1 % 8 then link 1 else if t.1 % 8 < inst % 8 then link 3
    else if inst / 8 < t.1 / 8 then link 2 else if t.1 / 8 < inst / 8 then link 0 else t.2)

/-- The outputs of a multicast frame (R144): the station where the router's bit is set, and each direction of the set, never back, that
still has set bits beyond. -/
def multicastOuts (d : StreamDecl) (inst input : Nat) : List Nat :=
  let pos := if d.axis = 0 then inst % 8 else inst / 8
  let minus := if d.axis = 0 then 3 else 0
  let plus := if d.axis = 0 then 1 else 2
  let source := input == 8 || input == 10
  (if d.mask.testBit pos then [7] else []) ++
    (if d.dirs.testBit 0 && (source || input == plus) && (List.range pos).any d.mask.testBit then [minus] else []) ++
    (if d.dirs.testBit 1 && (source || input == minus) && (List.range 8).any (fun i => decide (pos < i) && d.mask.testBit i) then [plus]
     else [])

/-- Whether a crossing is DOWN (R152). -/
def State.dlinkDown (s : State) (die n : Nat) : Bool := s.fld (dlinkUnit die n) F.DLINK_STATUS_STATE == 0

/-- The multicast set that a frame moves by (R144): that of its declared stream, for a tile frame on BK and, where the stream is declared for
collectives, for their data on CV; both on VC0. -/
def multicastSet (b : Bank) (vc : Nat) (f : Frame) : Option StreamDecl :=
  let c := f.cls.toNat
  if vc != 0 then none
  else (findStream b f.streamId.toNat).filter (fun d =>
    d.multicast && (if d.onCv then decide (0x30 ≤ c) && decide (c ≤ 0x33) else c == 0x23))

/-- The outputs of a frame that arrives at a router's input; none is a route error at the router or at the adapter it leads to (R119,
R152). -/
def State.routeOuts (s : State) (die inst input vc : Nat) (f : Frame) : Option (List Nat) :=
  let bank := (s.epochBank f.epoch).getD s.bankIn
  match multicastSet bank vc f with
  | some d => some (multicastOuts d inst input)
  | none =>
    let o := if s.pkg.isS then s.meshOut inst f
      else if die < 16 then computeOut s.pkg s.coord die inst f else s.lineOut die inst f
    match o with
    | none => none
    | some o =>
      match outDlink s.pkg die inst o with
      | some n => if s.dlinkDown die n then none else some [o]
      | none => some [o]

/-! ## Input buffers and flow control (R147) -/

/-- The key of an input VC. -/
def inKey (input plane vc : Nat) : Nat := (input * 4 + plane) * 4 + vc

/-- The flits that an input VC holds. -/
def inFlits (plane : Nat) (q : List Head) : Nat := (q.map (fun h => flitCount plane h.f.length.toNat)).foldl (· + ·) 0

/-- The longest frame of a plane in flits (Tables 05-1, 05-2): the 256 B of RQ, the 32 B of RS, the 4 KiB of BK and CV. -/
def maxFrameFlits (plane : Nat) : Nat := if plane = 0 then flitCount 0 256 else if plane = 1 then flitCount 1 32 else flitCount plane 4096

/-- Whether a receiver with a headroom of h flits holds its sender OFF with some free flits of its capacity (R147): at the headroom or below, and,
once OFF, until the free space rises above the headroom and one maximal frame. Where that point is not below the capacity no
free space reaches it, and ON is the end of OFF (log 23). -/
def flitOff (was : Bool) (free h plane cap : Nat) : Bool :=
  decide (free ≤ h) || (was && decide (h + maxFrameFlits plane < cap) && decide (free ≤ h + maxFrameFlits plane))

/-- The port of a router, if it has one (Table 01-2). -/
def portAt (p : Package) (die inst : Nat) : Option Nat :=
  if p.isS then some inst else if 16 ≤ die ∧ inst % 2 = 1 ∧ inst < 15 then some (7 * (die - 16) + inst / 2) else none

/-- The frames of a port that wait for egress staging and hold an input VC of its router until they take it (R151). -/
def State.waiters (s : State) (die inst k : Nat) : List Head :=
  match portAt s.pkg die inst with
  | none => []
  | some q =>
    let p := s.getPort q
    ((p.localq ++ p.direct).flatMap (·.2)).filter (fun h => h.holds == some k)

/-- The flits that a router's input VC holds, those of frames that wait at its port for staging among them (R151). -/
def State.vcFlits (s : State) (die inst k : Nat) : Nat :=
  inFlits (k / 4 % 4) (kget [] (s.getRtr (islKey die inst)).inq k ++ s.waiters die inst k)

/-- The capacity of a router's input VC in flits (Table 06-2): a crossing's adapter has 48, a mesh, line or injection input 16. -/
def inCap (p : Package) (die inst input : Nat) : Nat := if (outDlink p die inst input).isSome then 48 else 16

/-- Whether a router's input VC holds its sender OFF (R147, Table 06-2). -/
def State.inputOff (s : State) (die inst input plane vc : Nat) : Bool :=
  let k := inKey input plane vc
  let cap := inCap s.pkg die inst input
  let u := routerUnit die inst
  flitOff ((s.getRtr (islKey die inst)).off.contains k) (cap - s.vcFlits die inst k)
    (s.fld u (if cap = 48 then F.ROUTER_FLOW_DLINK_HEADROOM else F.ROUTER_FLOW_MESH_HEADROOM)) plane cap

/-- A number put into a list, or taken out of it. -/
def markIf (on : Bool) (k : Nat) (l : List Nat) : List Nat := if on then (if l.contains k then l else l ++ [k]) else l.filter (· != k)

/-- A router's input VC tells its sender OFF or ON after a change of what it holds (R147). -/
def State.inputTell (s : State) (die inst k : Nat) : State :=
  if k / 16 = 6 then s
  else
    let off := s.inputOff die inst (k / 16) (k / 4 % 4) (k % 4)
    s.updRtr (islKey die inst) (fun r => { r with off := markIf off k r.off })

/-- The flits of a VC that wait in a crossing's adapter. -/
def State.adapterFlits (s : State) (key plane vc : Nat) : Nat :=
  ((kget [] (s.getDl key).txq plane).filter (fun x => x.slot.vc == vc)).length

/-- Whether a crossing's adapter of 48 flits per VC holds its router OFF (R147, R152). -/
def State.adapterOff (s : State) (die inst n plane vc : Nat) : Bool :=
  let key := die * 32 + n
  flitOff ((s.getDl key).off.contains (plane * 4 + vc)) (48 - s.adapterFlits key plane vc)
    (s.fld (routerUnit die inst) F.ROUTER_FLOW_DLINK_HEADROOM) plane 48

/-- A crossing's adapter tells its router OFF or ON on every VC after a change of what it holds. -/
def State.adapterTell (s : State) (die inst n : Nat) : State :=
  (List.range 16).foldl (fun s k =>
    let off := s.adapterOff die inst n (k / 4) (k % 4)
    s.updDl (die * 32 + n) (fun d => { d with off := markIf off k d.off })) s

/-- Whether the far router holds a VC of a crossing OFF toward this end (R147, R152). -/
def State.farOff (s : State) (key plane vc : Nat) : Bool := match dlPeerKey s.pkg key with
  | some k => s.inputOff ((dlRouter k).1 / 1024) ((dlRouter k).1 % 1024) (dlRouter k).2 plane vc
  | none => false

/-- Whether a router's output may not start a frame because its downstream VC is OFF. -/
def State.downstreamOff (s : State) (die inst out plane vc : Nat) : Bool :=
  match outDlink s.pkg die inst out with
  | some n => s.adapterOff die inst n plane vc
  | none =>
    match outNeighbour s.pkg die inst out with
    | some (r, back) => s.inputOff die r back plane vc
    | none => false

/-! ## Receive buffers of a port (R131, R147, R265) -/

/-- The bit of a VC among the OFF bits of a FLOW unit (Table 05-8); none for a VC that has none. -/
def flowBit (plane vc : Nat) : Option Nat :=
  if plane ≤ 1 then (if vc ≤ 2 then some (3 * plane + vc) else none) else some (6 + 4 * (plane - 2) + vc)

/-- The 256 B units that a port VC's frames take. -/
def portUnits (q : List Head) : Nat := (q.map (fun h => (64 * unitCount h.f.length.toNat + 255) / 256)).foldl (· + ·) 0

/-- CAPACITY of a port VC in 256 B units. -/
def State.vcCap (s : State) (q plane vc : Nat) : Nat := s.fldAt (portUnit s.pkg q) F.PORT_VC_CFG_CAPACITY (4 * plane + vc)

/-- HEADROOM of a port VC in 256 B units. -/
def State.vcHead (s : State) (q plane vc : Nat) : Nat := s.fldAt (portUnit s.pkg q) F.PORT_VC_CFG_HEADROOM (4 * plane + vc)

/-- One maximal frame of a plane in 256 B units: 4,224 B on BK and CV, 384 B on RQ and RS (Table 05-6). -/
def maxFrameUnits (plane : Nat) : Nat := if plane ≤ 1 then 2 else 17

/-- The OFF bits of a port's receiver: OFF at or below the headroom, ON above headroom and one maximal frame, else as before (R147). -/
def State.offBits (s : State) (q : Nat) : W14 :=
  let p := s.getPort q
  (List.range 16).foldl (fun w i =>
    match flowBit (i / 4) (i % 4) with
    | none => w
    | some b =>
      let free := s.vcCap q (i / 4) (i % 4) - portUnits (kget [] p.rxq i)
      let h := s.vcHead q (i / 4) (i % 4)
      if free ≤ h then w ||| (1#14 <<< b) else if h + maxFrameUnits (i / 4) < free then w &&& ~~~ (1#14 <<< b) else w) p.off

/-- A change of a port's OFF bits sends a FLOW unit (R131). -/
def State.flowCheck (s : State) (q : Nat) : State :=
  let w := s.offBits q
  if w == (s.getPort q).off then s else (s.updPort q (fun p => { p with off := w })).sendCtl q (.flow w)

/-! ## Link CRC injection (R318) -/

/-- Whether an armed injector of a unit strikes its link CRC, SRAM index 63; it disarms unless CONT is 1. -/
def State.takeCrcInject (s : State) (u : Nat) : Bool × State :=
  if s.bit u F.PORT_INJ_ARM && s.fld u F.PORT_INJ_SRAM == 63 then
    (true, if s.bit u F.PORT_INJ_CONT then s else s.setFld u F.PORT_INJ_ARM 0)
  else (false, s)

/-! ## ROUTER_FRAME_RECEIVE -/

/-- A refusal that a router or a port forms leaves on RS, where R120 lets one be sent. -/
def State.refuseAt (s : State) (unit : Nat) (f : Frame) (reason refuser : Nat) : State :=
  if refusable f then s.emit (.refusal unit (refusalFrame f reason refuser)) else s

/-- A head error (R112): the frame is consumed and the fault unit is told. Which word was bad is no part of the model: a free value. -/
def State.headError (s : State) (u : Nat) : State :=
  let (v, s) := s.takeFree
  s.faultEvent u 1 (v.extractLsb' 0 32)

/-- A frame that passed the checks enters its input VC, or is a route error, counted and refused NOT_READY (R119, R152). A frame that arrives
without space on a mesh, line or die-to-die link is dropped as a head error (R149). -/
def State.enterInput (s : State) (isl : Island) (input plane vc : Nat) (f : Frame) : State :=
  let u := routerUnit isl.die isl.inst
  let key := islKey isl.die isl.inst
  let k := inKey input plane vc
  if input != 6 && decide (inCap s.pkg isl.die isl.inst input ≤ s.vcFlits isl.die isl.inst k) then s.headError u
  else match s.routeOuts isl.die isl.inst input vc f with
  | none => ((s.count u R.ROUTER_ROUTE_ERR 1).faultEvent u 14 (malformedDetail f 4)).refuseAt u f stNotReady 1
  | some outs =>
    if outs.isEmpty then s
    else
      (s.updRtr key (fun r => { r with inq := kput [] r.inq k (pushHead (kget [] r.inq k) f (s.islFt key) outs) })).inputTell isl.die isl.inst k

/-- The checks of a head at a router's input in order (R111, R112, R96, R45), each dropping the frame whole. -/
def State.routerChecks (s : State) (isl : Island) (input plane vc : Nat) (f : Frame) (headErr : Bool) : State :=
  let u := routerUnit isl.die isl.inst
  if headErr then s.headError u
  else match malformedWhy f plane with
  | some why => (s.count u R.ROUTER_MALFORMED 1).faultEvent u 14 (malformedDetail f why)
  | none =>
    match s.epochBank f.epoch with
    | none => (s.epochDrop isl.die isl.inst).refuseAt u f stNotReady 1
    | some b =>
      if !s.admits (bitNat f.epoch) b u f.pkey.toNat then
        (((s.readBad u srAdmit (inBank (bitNat f.epoch) f.pkey.toNat)).count u R.ROUTER_PKEY_DROP 1).faultEvent u 7 (partitionDetail f 0)).refuseAt u f stPartition 1
      else s.enterInput isl input plane vc f

/-- The port at a router that has one (R35, Table 01-2). -/
def routerPort (p : Package) (isl : Island) : Nat := portOfUnit p (if p.isS then unitAddr 0 4 isl.inst else unitAddr isl.die 4 (isl.inst / 2))

/-- Whether a frame that a port received goes on to another package (R140, R150). -/
def State.isTransit (s : State) (f : Frame) : Bool :=
  if s.pkg.isS then f.destCoord != s.coord else routeEntry f.route f.hopPtr.toNat != 31

/-- A frame leaves its port's receive buffer for the router, with its wait counted; a transit frame only with its egress-staging credit
(R115, R150). A frame that the buffer does not hold at its head is taken as it comes. -/
def State.fromPort (s : State) (isl : Island) (input plane vc : Nat) (f : Frame) : Option (State × Frame) :=
  if input != 6 then some (s, f)
  else
    let q := routerPort s.pkg isl
    let k := plane * 4 + vc
    match kget [] (s.getPort q).rxq k with
    | [] => some (s, f)
    | h :: _ =>
      if h.f != f then some (s, f)
      else if s.isTransit f && !h.credit then none
      else some ((s.updPort q (fun p => { p with rxq := kput [] p.rxq k (popHead (kget [] p.rxq k) (s.portFt q)) })).flowCheck q,
                 waited f h.since (s.portFt q))

/-- A command of the frame path, with the parts it reaches. -/
def onPath (s t : State) : State :=
  { s with rtr := t.rtr, ports := t.ports, dlinks := t.dlinks, ni := t.ni, pools := t.pools, regs := t.regs, ctrs := t.ctrs, out := t.out,
           irqHeld := t.irqHeld, freeCtr := t.freeCtr, arbs := t.arbs, trace := t.trace, hol := t.hol, time := t.time, isl := t.isl,
           alm := t.alm, eng := t.eng }

/-- ROUTER_FRAME_RECEIVE (R45, R111, R112, R96, R119, R140–R147). -/
def execRouterFrameReceive (isl : Island) (input : Nat) (plane : Nat) (vc : Nat) (f : Frame) (errs : FlitErrs) (s : State) : Res :=
  onUnit (islExists s.pkg isl.die isl.inst && !s.dieDisabled isl.die) s
    (match s.fromPort isl input plane vc f with
     | none => s
     | some (t, g) => onPath s (t.routerChecks isl input plane vc (poisonFlits plane errs.data g) errs.head))

end Sys2Proof.Machine
end

