-- ==== Sys2Proof/Machine/Arbiter.lean ====
section
/-! DEFINITION. The common arbiter and what its grants start: router outputs, egress staging, the port wire multiplexer, NI issue, and the
arbiters whose requesters lie outside the state (R89–R92, R150, R151, R157–R163, Table 07-1). -/
namespace Sys2Proof.Machine

/-! ## The discipline (R158) -/

/-- An eligible requester: its number, its tier and its wait in arbiter cycles. -/
structure Req where
  id : Nat
  tier : Nat
  wait : Nat
  deriving DecidableEq, Repr

/-- A requester put into a list that rises by number. -/
def insReq (r : Req) : List Req → List Req
  | [] => [r]
  | x :: xs => if r.id < x.id then r :: x :: xs else x :: insReq r xs

/-- Requesters in round-robin order from a pointer. -/
def rrOrder (ptr : Nat) (rs : List Req) : List Req :=
  let l := rs.foldl (fun l r => insReq r l) []
  l.filter (fun r => decide (ptr ≤ r.id)) ++ l.filter (fun r => decide (r.id < ptr))

/-- The first requester with the largest measure. -/
def firstBest (m : Req → Nat) : List Req → Option Req
  | [] => none
  | r :: rs => match firstBest m rs with
    | none => some r
    | some b => if m r < m b then some b else some r

/-- The winner (R158): T0 in the order of R91, T1 in arrival order, every eighth grant of T2 and T3 by the longest wait, and the others by
tier and priority; ties from the round-robin pointer. -/
def arbPick (a : ArbSt) (rs : List Req) : Option Req :=
  match rs.find? (fun r => r.tier == 0) with
  | some r => some r
  | none =>
    match firstBest (·.wait) (rs.filter (fun r => r.tier == 1)) with
    | some r => some r
    | none =>
      let l := rrOrder a.ptr (rs.filter (fun r => decide (2 ≤ r.tier)))
      if (a.n + 1) % 8 = 0 then firstBest (·.wait) l
      else
        let top := if l.any (fun r => r.tier == 2) then 2 else 3
        firstBest (fun r => kget 0 a.p r.id) (l.filter (fun r => r.tier == top))

/-- The arbiter after a grant (R158): a grant in T0 or T1 changes nothing; otherwise the count, the losers' priorities, the winner's and
the pointer. -/
def arbNext (a : ArbSt) (rs : List Req) (w : Req) : ArbSt :=
  if w.tier ≤ 1 then a
  else
    let low := rs.filter (fun r => decide (2 ≤ r.tier) && r.id != w.id)
    { n := (a.n + 1) % 2 ^ 32, ptr := w.id + 1,
      p := kput 0 (low.foldl (fun p r => kput 0 p r.id (min 7 (kget 0 p r.id + 1))) a.p) w.id 0 }

/-- The wait of a head in arbiter cycles, saturating (R158). -/
def waitCycles (headAt now : FT) (freq : Nat) : Nat := min 65535 (ftSince now headAt * freq / 160)

/-! ## Deficit round robin (R161) -/

/-- A queue as the scheduler sees it. -/
structure DrrQ where
  empty : Bool
  eligible : Bool
  charge : Nat
  quantum : Nat
  deriving DecidableEq, Repr

/-- The scheduler's visits from a queue on: the queue whose head it offers, and the deficits. fresh tells whether the queue's quantum is
still to be added in this visit. key is where the queues' deficits begin. -/
def drrVisit (qs : List DrrQ) (key : Nat) : Nat → Nat → Bool → KMap Nat → Option Nat × KMap Nat
  | 0, _, _, d => (none, d)
  | fuel + 1, at_, fresh, d =>
    let q := at_ % qs.length
    match qs[q]? with
    | none => (none, d)
    | some x =>
      if x.empty then drrVisit qs key fuel (q + 1) true (kput 0 d (key + q) 0)
      else if !x.eligible then drrVisit qs key fuel (q + 1) true d
      else
        let have_ := kget 0 d (key + q) + (if fresh then x.quantum else 0)
        let d := kput 0 d (key + q) have_
        if x.charge ≤ have_ then (some q, d) else drrVisit qs key fuel (q + 1) true d

/-- One offer of the scheduler; none where no queue has an eligible head. last is the queue whose visit goes on; before the first offer the visits
begin with queue 0. A head of 64 KiB with a quantum of 256 B gathers its deficit in 256 rounds, which bounds the visits. -/
def drrOffer (qs : List DrrQ) (key : Nat) (last : Option Nat) (d : KMap Nat) : Option Nat × KMap Nat :=
  if qs.any (fun x => !x.empty && x.eligible) then drrVisit qs key (qs.length * 258) (last.getD 0) last.isNone d else (none, d)

/-- The deficits after a grant to a queue: less its head's charge, and 0 where that was its last item. -/
def drrPaid (d : KMap Nat) (k charge : Nat) (left : Bool) : KMap Nat := kput 0 d k (if left then kget 0 d k - charge else 0)

/-! ## Runs and windows (R89, R92) -/

/-- Whether frames of a plane on a VC are scheduled (Table 06-1). -/
def isSched (plane vc : Nat) : Bool := decide (2 ≤ plane) && vc == 0

/-- The duration of a frame at a router's clock, in quanta, rounded up (R89): one flit a cycle, freq × 25 MHz. -/
def flitTime (plane len freq : Nat) : Nat := (flitCount plane len * 160 + freq - 1) / max 1 freq

/-- The tier in which a link direction may start a frame now; none where it may not (Table 04-4, R96). started is how many frames it has
started in the current run. -/
def State.runTier (s : State) (key plane link vc : Nat) (f : Frame) (dur started : Nat) : Option Nat :=
  let r := s.standAt key plane link (s.slotPos key)
  let ends := ftGe (s.slotFt r.stop) (s.islFt key + BitVec.ofNat 64 dur)
  if !ends then none
  else if isSched plane vc then
    (if s.hol.suspended then none
     else if r.kind = 1 && r.stream == f.streamId.toNat && decide (started < r.frames) then some 1
     else if r.kind = 0 && !s.hasRun key plane link f.streamId.toNat then some 1 else none)
  else if r.kind = 0 then some 3 else none

/-- The maps of a POOL record, by plane and link. -/
def poolMaps (r : Rec) : List (Nat × Nat) :=
  (List.range (leAt r.payload 0 2)).map (fun i => (leAt r.payload (8 + 4 * i) 1, leAt r.payload (9 + 4 * i) 1))

/-- The maps that a router holds in the bank in force. -/
def State.routerMaps (s : State) (u : Nat) : List (Nat × Nat) := ((recFor s.bankIn.recs 0x0402 u).map poolMaps).getD []

/-- The index of a map within the ALMANAC section (Table 04-14): the maps of the POOL records before its router's, those of every variant counted, and
its place in that record. A record that the committed image does not hold is counted among those of its bank. -/
def State.mapIndex (s : State) (u plane link : Nat) : Option Nat :=
  match recFor s.bankIn.recs 0x0402 u with
  | none => none
  | some r =>
    let img := (s.image.map (·.recs)).getD []
    let pools := ((if img.contains r then img else s.bankIn.recs).filter (fun x => x.kind == 0x0402)).takeWhile (fun x => x != r)
    let n := (pools.map (fun x => leAt x.payload 0 2)).foldl (· + ·) 0
    let i := (poolMaps r).idxOf (plane, link)
    if i < (poolMaps r).length then some (n + i) else none

/-- ALM_LINK_STATUS.LAST_MAP names a map that counts an event (R109). -/
def State.lastMap (s : State) (key plane link : Nat) : State :=
  match s.mapIndex (routerUnit (key / 1024) (key % 1024)) plane link with
  | some i => s.setFld (almRouterUnit (key / 1024) (key % 1024)) F.ALM_LINK_STATUS_LAST_MAP i
  | none => s

/-- An event that a map counts at its router, with the last map and the controller's event (R109). -/
def State.mapEvent (s : State) (key plane link ctr : Nat) (ev : Option Fld) : State :=
  let s := (s.count (almRouterUnit (key / 1024) (key % 1024)) ctr 1).lastMap key plane link
  match ev with
  | some f => s.almEvent f
  | none => s

/-- A VC0 frame that leaves in an intercalary window, because the map of the link direction gives its stream no run, is counted (R96). -/
def State.carry (s : State) (key plane link : Nat) (tier : Nat) : State :=
  if tier = 1 && (s.standAt key plane link (s.slotPos key)).kind == 0 then s.mapEvent key plane link R.ALM_EPOCH_CARRY none else s

/-- Whether an island executes: its clock runs, it has loaded FT and come to a slot boundary since (R86), and its die is not stopped. -/
def State.islandLive (s : State) (die inst : Nat) : Bool :=
  let i := s.island die inst
  i.running && i.ftValid && !i.fresh && !s.dieFrozen die

/-- Whether the time until which a link direction is held has passed. -/
def freeAt (m : KMap FT) (k : Nat) (now : FT) : Bool := match kfind m k with
  | none => true
  | some t => ftGe now t

/-! ## Router outputs -/

/-- The tier in which a head may leave by an output now; none where it is not eligible (R157). -/
def State.outTier (s : State) (die inst plane vc out : Nat) (h : Head) : Option Nat :=
  let key := islKey die inst
  let r := s.getRtr key
  if !s.islandLive die inst || !freeAt r.busy (out * 4 + plane) (s.islFt key) || s.downstreamOff die inst out plane vc then none
  else if out = 6 then some (if isSched plane vc then 1 else 3)
  else s.runTier key plane out vc h.f (flitTime plane h.f.length.toNat (s.island die inst).freq) (kget 0 r.started (out * 4 + plane))

/-- The tier of a head that takes several outputs: every branch must grant it (R144). -/
def State.forkTier (s : State) (die inst plane vc : Nat) (h : Head) : Option Nat :=
  h.out.foldl (fun t o => match t, s.outTier die inst plane vc o h with
    | some a, some b => some (max a b)
    | _, _ => none) (some 0)

/-- The eligible requesters of a router output; a requester's number is input × 4 + VC. An input VC of which a frame waits at the port for staging sends
nothing before it (R151). -/
def State.outReqs (s : State) (die inst plane out : Nat) : List Req :=
  let key := islKey die inst
  (s.getRtr key).inq.filterMap (fun e =>
    match e.2 with
    | [] => none
    | h :: _ =>
      if e.1 / 4 % 4 = plane ∧ h.out.contains out = true ∧ (s.waiters die inst e.1).isEmpty = true then
        (s.forkTier die inst plane (e.1 % 4) h).map (fun t =>
          { id := e.1 / 16 * 4 + e.1 % 4, tier := t, wait := waitCycles h.headAt (s.islFt key) (s.island die inst).freq })
      else none)

/-- A port queue's high-water mark of depth and its limit's event (R171). -/
def State.portDepth (s : State) (q plane n : Nat) : State :=
  let u := portUnit s.pkg q
  let i := plane * 8 + n
  let d := min 65535 (units256 (((kget [] (s.getPort q).localq i).map (fun h => h.f.length.toNat)).foldl (· + ·) 0))
  let s := s.setFldAt u F.PORT_Q_HWM_DEPTH i (max d (s.fldAt u F.PORT_Q_HWM_DEPTH i))
  let lim := s.fldAt u F.PORT_Q_HWM_LIMIT_DEPTH i
  if lim != 0 && decide (lim < d) then s.eventBit u (R.PORT_Q_EVENT + 4 * plane) n else s

/-- A port queue's high-water mark of delay and its limit's event (R171). -/
def State.portDelay (s : State) (q plane n slots : Nat) : State :=
  let u := portUnit s.pkg q
  let i := plane * 8 + n
  let d := min 65535 slots
  let s := s.setFldAt u F.PORT_Q_HWM_DELAY i (max d (s.fldAt u F.PORT_Q_HWM_DELAY i))
  let lim := s.fldAt u F.PORT_Q_HWM_LIMIT_DELAY i
  if lim != 0 && decide (lim < d) then s.eventBit u (R.PORT_Q_EVENT + 4 * plane) (16 + n) else s

/-- The refuser code of a port (R120). -/
def portRefuser (p : Package) : Nat := if p.isS then 3 else 2

/-- A frame is dropped by a port that is DOWN (R263). -/
def State.downDrop (s : State) (q : Nat) (f : Frame) : State :=
  (s.count (portUnit s.pkg q) R.PORT_DOWN_DROP 1).refuseAt (portUnit s.pkg q) f stNotReady (portRefuser s.pkg)

/-- A frame at the tail of a port's queue that holds an input VC of its router (R151). -/
def pushHeld (q : List Head) (f : Frame) (now : FT) (k : Nat) : List Head := q ++ [{ f := f, since := now, headAt := now, holds := some k }]

/-- A frame leaves input VC k of its router for a port: dropped where the port is DOWN; transit frames, which hold credit, into staging; VC0, responses
and RS frames past the queues; others into the queue of their key. A local frame holds its input VC until it has staging (R150, R151, R160,
R263). -/
def State.toPort (s : State) (q plane vc k : Nat) (f : Frame) : State :=
  let now := s.portFt q
  let i := plane * 4 + vc
  if s.portState q = 0 then s.downDrop q f
  else if f.hopPtr != 0 then s.updPort q (fun p => { p with staged := kput [] p.staged i (pushHead (kget [] p.staged i) f now []) })
  else if isSched plane vc || plane == 1 || classResponse f.cls.toNat then
    s.updPort q (fun p => { p with direct := kput [] p.direct i (pushHeld (kget [] p.direct i) f now k) })
  else
    let n := s.queueOf (portUnit s.pkg q) f.pkey.toNat % 8
    (s.updPort q (fun p => { p with localq := kput [] p.localq (plane * 8 + n) (pushHeld (kget [] p.localq (plane * 8 + n)) f now k) })).portDepth
      q plane n

/-- The flits of a frame as slots of its plane (R112, Table 11-6): the head flits first, then the data flits with their bytes, padded with zeros, those
that hold a marked byte poisoned; the last is the tail. -/
def frameSlots (plane vc : Nat) (f : Frame) : List Slot :=
  let heads := if plane ≤ 1 then 2 else 1
  let n := flitCount plane f.length.toNat
  let w := flitBytes plane
  let m := frameMarks f
  (List.range n).map (fun i =>
    let part := if i < heads then [] else (f.payload.drop (w * (i - heads))).take w
    { plane := plane, vc := vc, tail := i + 1 == n, poison := decide (heads ≤ i) && marksHit m (w * (i - heads)) (w * (i - heads) + w),
      head := if i = 0 then some f else none,
      data := if i < heads then [] else part ++ List.replicate (w - part.length) 0 })

/-- A slot whose head has its wait in the adapter counted (R115). -/
def slotWaited (x : TxFlit) (now : FT) : Slot := match x.slot.head with
  | none => x.slot
  | some f => { x.slot with head := some (waited f x.since now) }

/-- Whether a crossing's end carries flits: ACTIVE or ACTIVE_HALF, and not in its qualification window (R267, R270). -/
def State.dlinkOpen (s : State) (key : Nat) : Bool :=
  let u := dlinkUnit (key / 32) (key % 32)
  decide (2 ≤ s.fld u F.DLINK_STATUS_STATE) && s.fld u F.DLINK_STATUS_QUAL != 1

/-- The first flits of a plane's queue that may cross: up to five, in order, none of a VC that the far router holds OFF; and those that stay. -/
def takeFlits (off : Nat → Bool) : Nat → List TxFlit → List TxFlit × List TxFlit
  | 0, q => ([], q)
  | _, [] => ([], [])
  | n + 1, x :: q =>
    if off x.slot.vc then let r := takeFlits off (n + 1) q; (r.1, x :: r.2)
    else let r := takeFlits off n q; (x :: r.1, r.2)

/-- The containers that a crossing's end may send: up to five flits of each plane in order, SEQUENCED, held until acknowledged, 32 at most
(R147, R267, R268). The fuel is the number of containers that may still be held. -/
def State.pump : Nat → State → Nat → FT → State
  | 0, s, _, _ => s
  | n + 1, s, key, now =>
    let d := s.getDl key
    let parts := d.txq.map (fun e => (e.1, takeFlits (s.farOff key e.1) 5 e.2))
    if 32 ≤ d.held.length || parts.all (fun e => e.2.1.isEmpty) then s
    else
      let slots := parts.flatMap (fun e => e.2.1.map (fun x => slotWaited x now))
      let (bad, s) := s.takeCrcInject (dlinkUnit (key / 32) (key % 32))
      let c : Container := { dseq := BitVec.ofNat 12 d.dseq, dack := BitVec.ofNat 12 (d.e + 4095), ackValid := true, nak := false, sequenced := true,
                             crcOk := true, slots := slots }
      State.pump n ((s.updDl key (fun d => { d with
        dseq := (d.dseq + 1) % 4096, held := d.held ++ [c], txq := parts.foldl (fun m e => kput [] m e.1 e.2.2) [] })).emit
          (.container (key / 32) (key % 32) { c with crcOk := !bad })) key now

/-- What a crossing's end can send is sent. -/
def State.pumpDl (s : State) (key : Nat) (now : FT) : State :=
  if s.dlinkOpen key then (s.pump 32 key now).adapterTell ((dlRouter key).1 / 1024) ((dlRouter key).1 % 1024) (key % 32) else s

/-- An input VC of a router has room again: it tells its sender, and a crossing's far end sends on. -/
def State.inputFreed (s : State) (die inst k : Nat) : State :=
  let s := s.inputTell die inst k
  match outDlink s.pkg die inst (k / 16) with
  | some n => (match dlPeerKey s.pkg (die * 32 + n) with
    | some p => s.pumpDl p (s.islFt (dlRouter p).1)
    | none => s)
  | none => s

/-- A frame leaves its router for a crossing's adapter. -/
def State.toAdapter (s : State) (die inst n plane vc : Nat) (f : Frame) : State :=
  let key := die * 32 + n
  let now := s.islFt (islKey die inst)
  ((s.updDl key (fun d => { d with
    txq := kput [] d.txq plane (kget [] d.txq plane ++ (frameSlots plane vc f).map (fun x => { slot := x, since := now })) })).adapterTell die inst n).pumpDl
      key now

/-- A frame consumed at a crossing that is DOWN: a route error at its adapter, counted and refused (R152). -/
def State.downError (s : State) (die inst : Nat) (f : Frame) : State :=
  let u := routerUnit die inst
  ((s.count u R.ROUTER_ROUTE_ERR 1).faultEvent u 14 (malformedDetail f 4)).refuseAt u f stNotReady 1

/-- A head leaves input VC k of a router by one output. -/
def State.leaveBy (s : State) (die inst plane vc k : Nat) (f : Frame) (out : Nat) : State :=
  if out = 6 then s.toPort (routerPort s.pkg { die := die, inst := inst }) plane vc k f
  else match outDlink s.pkg die inst out with
    | some n => if s.dlinkDown die n then s.downError die inst f else s.toAdapter die inst n plane vc f
    | none => s.emit (.routerFrame (islKey die inst) out plane vc f)

/-- A router output grants an input VC: its head leaves whole by every output it takes, which the frame holds until its tail; a frame in its
run is counted; the probes examine it (R89, R144, R158, R373). -/
def State.outGrant (s : State) (die inst plane id : Nat) (tier : Nat) : State :=
  let key := islKey die inst
  let k := inKey (id / 4) plane (id % 4)
  match kget [] (s.getRtr key).inq k with
  | [] => s
  | h :: _ =>
    let now := s.islFt key
    let f := waited h.f h.since now
    let till := now + BitVec.ofNat 64 (flitTime plane h.f.length.toNat (s.island die inst).freq)
    let s := h.out.foldl (fun s o => if o = 6 then s else s.carry key plane o tier) s
    let s := s.updRtr key (fun r =>
      { r with
          inq := kput [] r.inq k (popHead (kget [] r.inq k) now),
          busy := h.out.foldl (fun b o => kins b (o * 4 + plane) till) r.busy,
          started := if tier = 1 then h.out.foldl (fun m o => kput 0 m (o * 4 + plane) (kget 0 m (o * 4 + plane) + 1)) r.started else r.started })
    let s := s.inputFreed die inst k
    h.out.foldl (fun s o => (s.leaveBy die inst plane (id % 4) k f o).probes key plane o (id % 4) (ftSince now h.since * (s.island die inst).freq / 160) f) s

/-! ## Egress staging (R150, R151) -/

/-- Whether the hop out of a torus port crosses the dateline (R145). -/
def State.datelineHop (s : State) (q : Nat) : Bool :=
  let k := q % 7
  let c := coordAxis s.coord (k / 2)
  if k % 2 = 0 then c == 7 else c == 0

/-- The VC that a port sends a frame on: the receiver's input VC (Table 06-1). -/
def State.sendVc (s : State) (q plane vc : Nat) (f : Frame) : Nat :=
  if isSched plane vc then 0
  else
    let low := if plane ≤ 1 then 1 else 2
    if s.pkg.isS then (if (upMask s.bankIn).getLsbD q then low else low + 1)
    else if q % 7 = 6 then low
    else if s.datelineHop q || (f.hopPtr != 0 && vc == low + 1) then low + 1 else low

/-- Whether the peer's receiver holds a VC OFF (R131). -/
def Port.vcOff (p : Port) (plane vc : Nat) : Bool := match flowBit plane vc with
  | some b => p.txOff.getLsbD b
  | none => true

/-- The router key of a port's island. -/
def portIsl (p : Package) (q : Nat) : Nat := islKey (portDie p q) (portRouter p q)

/-- The staging of a plane in bytes. -/
def stageCap (plane : Nat) : Nat := if plane ≤ 1 then 8192 else 65536

/-- A frame's size on the wire in bytes (R125). -/
def wireBytes (f : Frame) : Nat := 64 * unitCount f.length.toNat

/-- Whether a frame's whole wire size fits in the free staging. -/
def stageFits (p : Port) (plane : Nat) (f : Frame) : Bool := decide (kget 0 p.stageUse plane + wireBytes f ≤ stageCap plane)

/-- A port queue as the scheduler sees it: its head waits while its shaper is negative, staging lacks room, its VC is OFF at the peer, or the window of
its link cannot hold it (R157, R161). -/
def State.portDrr (s : State) (q plane n : Nat) : DrrQ :=
  let p := s.getPort q
  let i := plane * 8 + n
  match kget [] p.localq i with
  | [] => { empty := true, eligible := false, charge := 0, quantum := 0 }
  | h :: _ =>
    let sh := kget {} p.shaper i
    { empty := false, eligible := (!sh.en || decide (0 ≤ kget (65536 * 256) p.tokens i)) && stageFits p plane h.f &&
        !p.vcOff plane (s.sendVc q plane (sourceVc plane) h.f) &&
        (s.runTier (portIsl s.pkg q) plane 6 (sourceVc plane) h.f (unitTime (unitCount h.f.length.toNat) (s.portLayout q)) 0).isSome,
      charge := max 64 h.f.length.toNat, quantum := 256 * s.fldAt (portUnit s.pkg q) F.PORT_Q_CFG_QUANTUM i }

/-- The egress port of a frame that a port received; none where it is not transit. -/
def State.transitPort (s : State) (ingress : Nat) (f : Frame) : Option Nat :=
  if !s.isTransit f then none else if s.pkg.isS then s.switchPort f false else s.egressPort (portDie s.pkg ingress) f

/-- The transit requesters of a staging: ingress ports' heads without credit. A requester's number is 16 + 4 × ingress + VC. -/
def State.transitReqs (s : State) (q plane : Nat) : List Req :=
  (s.ports.flatMap (fun e => (List.range 4).filterMap (fun vc =>
    match kget [] e.2.rxq (plane * 4 + vc) with
    | [] => none
    | h :: _ =>
      if !h.credit && s.transitPort e.1 h.f == some q && stageFits (s.getPort q) plane h.f then
        some { id := 16 + 4 * e.1 + vc, tier := if isSched plane vc then 1 else 3, wait := waitCycles h.headAt (s.portFt e.1) 80 }
      else none)))

/-- The eligible requesters of a port's staging credit on a plane: the queue that the scheduler offers (0–7), frames that pass the queues
(8 + VC) and transit frames. -/
def State.stageReqs (s : State) (q plane : Nat) (offer : Option Nat) : List Req :=
  let p := s.getPort q
  let own := match offer with
    | none => []
    | some n => match kget [] p.localq (plane * 8 + n) with
      | h :: _ => [{ id := n, tier := 3, wait := waitCycles h.headAt (s.portFt q) 80 }]
      | [] => []
  let direct := (List.range 4).filterMap (fun vc => match kget [] p.direct (plane * 4 + vc) with
    | [] => none
    | h :: _ => if stageFits p plane h.f then
        some ({ id := 8 + vc, tier := if isSched plane vc then 1 else 3, wait := waitCycles h.headAt (s.portFt q) 80 } : Req) else none)
  if s.dieFrozen (portDie s.pkg q) then [] else own ++ direct ++ s.transitReqs q plane

/-- A frame moves into staging and takes its credit. -/
def stageIn (p : Port) (plane vc : Nat) (f : Frame) (now : FT) : Port :=
  { p with staged := kput [] p.staged (plane * 4 + vc) (pushHead (kget [] p.staged (plane * 4 + vc)) f now []),
           stageUse := kput 0 p.stageUse plane (kget 0 p.stageUse plane + wireBytes f) }

/-- The input VC that a frame held at the router of a port is free again (R151). -/
def State.vcFreed (s : State) (q : Nat) (h : Head) : State := match h.holds with
  | some k => s.inputFreed (portDie s.pkg q) (portRouter s.pkg q) k
  | none => s

/-- Staging credit is granted: a queue's head starts, which debits its shaper and deficit (R161–R163); a frame past the queues enters; a
transit frame may leave its ingress buffer. -/
def State.stageGrant (s : State) (q plane id : Nat) : State :=
  let now := s.portFt q
  let p := s.getPort q
  if id < 8 then
    let i := plane * 8 + id
    match kget [] p.localq i with
    | [] => s
    | h :: _ =>
      let len := h.f.length.toNat
      ((s.updPort q (fun p =>
        let p := if (kget {} p.shaper i).en then
            { p with tokens := kput (65536 * 256) p.tokens i (kget (65536 * 256) p.tokens i - (len * 256 : Nat)) } else p
        stageIn { p with localq := kput [] p.localq i (popHead (kget [] p.localq i) now),
                         deficit := drrPaid p.deficit i (max 64 len) (decide (1 < (kget [] p.localq i).length)) } plane (sourceVc plane)
          (waited h.f h.since now) now)).portDelay q plane id (slotsBetween h.since now)).vcFreed q h
  else if id < 16 then
    let k := plane * 4 + (id - 8)
    match kget [] p.direct k with
    | [] => s
    | h :: _ =>
      (s.updPort q (fun p => stageIn { p with direct := kput [] p.direct k (popHead (kget [] p.direct k) now) } plane (id - 8) (waited h.f h.since now)
        now)).vcFreed q h
  else
    let i := (id - 16) / 4
    let k := plane * 4 + (id - 16) % 4
    match kget [] (s.getPort i).rxq k with
    | [] => s
    | h :: _ =>
      (s.updPort q (fun p => { p with stageUse := kput 0 p.stageUse plane (kget 0 p.stageUse plane + wireBytes h.f) })).updPort i (fun p =>
        { p with rxq := kput [] p.rxq k (match kget [] p.rxq k with
            | h :: hs => { h with credit := true } :: hs
            | [] => []) })

/-! ## The port wire multiplexer (R91, R125, R130, R131, R145, R148) -/

/-- Units held in the replay buffer. -/
def Port.heldUnits (p : Port) : Nat := (p.held.map (·.units)).foldl (· + ·) 0

/-- Whether a port may start a new frame of some units (R130). -/
def Port.mayHold (p : Port) (units : Nat) : Bool := decide (p.held.length < 2047) && decide (p.heldUnits + units ≤ 4096)

/-- The eligible requesters of a port's wire: replay (T0, number 100), and the staged head of each plane and VC (plane × 4 + VC). -/
def State.wireReqs (s : State) (q : Nat) : List Req :=
  let p := s.getPort q
  let now := s.portFt q
  if !s.portTrained q || !ftGe now p.busy then []
  else
    (match p.resend with
     | some _ => [{ id := 100, tier := 0, wait := 0 }]
     | none => []) ++
    (if s.dieFrozen (portDie s.pkg q) then [] else
     p.staged.filterMap (fun e =>
      match e.2 with
      | [] => none
      | h :: _ =>
        let plane := e.1 / 4
        let vc := e.1 % 4
        let units := unitCount h.f.length.toNat
        if p.vcOff plane (s.sendVc q plane vc h.f) || !p.mayHold units || (decide (plane ≤ 1) && !freeAt p.shareAt plane now) then none
        else (s.runTier (portIsl s.pkg q) plane 6 vc h.f (unitTime units (s.portLayout q)) (kget 0 p.started plane)).map (fun t =>
          { id := e.1, tier := if t = 3 && plane == 3 then 2 else t, wait := waitCycles h.headAt now 80 })))

/-- A frame goes out on the wire: it takes the next LSEQ, carries the acknowledgement of the other direction, and is held until it is
acknowledged (R125, R128–R130). One that goes while another holds the wire lengthens that one's hold (R159). -/
def State.sendLink (s : State) (q plane vc : Nat) (f : Frame) : State :=
  let (bad, s) := s.takeCrcInject (portUnit s.pkg q)
  let p := s.getPort q
  let lf := signFrame { frame := f, plane := plane, vc := vc, lseq := BitVec.ofNat 12 p.lseq, ackValid := true,
                        ackSeq := BitVec.ofNat 12 (p.e + 4095), crc := 0, uncorr := false, complete := true }
  let out := if bad then { lf with crc := ~~~ lf.crc } else lf
  let units := unitCount f.length.toNat
  let dur := unitTime units (s.portLayout q)
  let now := s.portFt q
  (s.updPort q (fun p => { p with
    lseq := (p.lseq + 1) % 4096, held := p.held ++ [{ lseq := p.lseq, units := units, lf := lf }], txUnits := p.txUnits ++ frameUnits out,
    busy := (if ftGe now p.busy then now else p.busy) + BitVec.ofNat 64 dur,
    shareAt := if plane ≤ 1 then kins p.shareAt plane (now + BitVec.ofNat 64 (5 * dur)) else p.shareAt })).emit (.linkFrame q out)

/-- A frame that a Priberun-S sends down to a package names delivery in its next entry (R140). -/
def State.downRoute (s : State) (q : Nat) (f : Frame) : Frame :=
  let n := f.hopPtr.toNat + 1
  if s.pkg.isS && s.bit (portUnit s.pkg q) F.PORT_PEER_INFO_VALID && !s.bit (portUnit s.pkg q) F.PORT_PEER_INFO_SWITCH && decide (n ≤ 31) then
    { f with route := routeOf ((List.range n).map (routeEntry f.route) ++ [31]) }
  else f

/-- The wire is granted: a held frame is sent again with the acknowledgement of now (R129, R130), or a staged frame starts, and its staging credit returns (R150). -/
def State.wireGrant (s : State) (q id tier : Nat) : State :=
  let p := s.getPort q
  let now := s.portFt q
  if id = 100 then
    match p.resend with
    | none => s
    | some n =>
      match p.held.find? (fun h => h.lseq == n) with
      | none => s.updPort q (fun p => { p with resend := none })
      | some h =>
        let next := (p.held.find? (fun x => x.lseq == (n + 1) % 4096)).map (·.lseq)
        let lf := signFrame { h.lf with ackValid := true, ackSeq := BitVec.ofNat 12 (p.e + 4095) }
        (s.updPort q (fun p => { p with
          resend := next, busy := now + BitVec.ofNat 64 (unitTime h.units (s.portLayout q)), txUnits := p.txUnits ++ frameUnits lf })).emit (.linkFrame q lf)
  else
    match kget [] p.staged id with
    | [] => s
    | h :: _ =>
      let plane := id / 4
      let s := s.carry (portIsl s.pkg q) plane 6 tier
      let s := s.updPort q (fun p => { p with
        staged := kput [] p.staged id (popHead (kget [] p.staged id) now),
        stageUse := kput 0 p.stageUse plane (kget 0 p.stageUse plane - wireBytes h.f),
        started := if tier = 1 then kput 0 p.started plane (kget 0 p.started plane + 1) else p.started })
      s.sendLink q plane (s.sendVc q plane (id % 4) h.f) (s.downRoute q (waited h.f h.since now))

/-! ## The NI issue stage -/

/-- The bytes of a stream frame: UNITS × 256 of the run, at most 4 KiB (Table 04-3). -/
def tileStep (units : Nat) : Nat := 256 * max 1 (min 16 units)

/-- The next frame of a tile (R49, Table 05-3): its bytes padded with zeros to a multiple of 256. -/
def State.tileFrame (s : State) (st : Nat) (t : Tile) (units : Nat) : Frame :=
  let d := t.task.d
  let step := tileStep units
  let part := (t.data.drop t.sent).take step
  let pad := part ++ List.replicate ((256 - part.length % 256) % 256) 0
  let decl := findStream s.bankIn (dStream d)
  let coord : BitVec 17 := match decl with
    | some x => BitVec.ofNat 17 x.coord
    | none => s.coord
  withMarks 2 (marksPart t.poison t.sent step) { s.sourceFrame st 0x23 (dKey d) t.task.dest coord 0 with
      addr := dRemote d + BitVec.ofNat 64 t.sent, length := BitVec.ofNat 13 pad.length, payload := pad, seq := t.seq,
      opinfo := BitVec.ofNat 16 (t.index % 16), streamId := BitVec.ofNat 16 (dStream d), last := decide (t.data.length ≤ t.sent + step),
      coll := { flags := if t.deferred then 256 else 0 }, rctr := dRemoteCtr d }

/-- Whether a frame of the NI may start on its plane's injection link now: the window holds it, the link is free and the router's input is
not OFF. -/
def State.injectOk (s : State) (st plane len : Nat) : Bool :=
  let die := st / 2048
  let inst := stationRouter s.pkg st
  let key := islKey die inst
  let link := injectLink s.pkg st
  freeAt (s.getRtr key).busy (link * 4 + plane) (s.islFt key) && !s.inputOff die inst link plane (sourceVc plane) &&
  (s.runTier key plane link (sourceVc plane) {} (flitTime plane len (s.island die inst).freq) 0 == some 3)

/-- Whether a scheduled frame of the NI may start on its plane's injection link now, under the run or window r (R89, R90, R96): the link is
free, the router's input is not OFF, the run has a start left and the frame ends in time. -/
def State.schedOk (s : State) (st plane len : Nat) (r : Stand) : Bool :=
  let die := st / 2048
  let inst := stationRouter s.pkg st
  let key := islKey die inst
  let k := injectLink s.pkg st * 4 + plane
  freeAt (s.getRtr key).busy k (s.islFt key) && !s.inputOff die inst (injectLink s.pkg st) plane 0 &&
  (r.kind == 0 || decide (kget 0 (s.getRtr key).started k < r.frames)) &&
  ftGe (s.slotFt r.stop) (s.islFt key + BitVec.ofNat 64 (flitTime plane len (s.island die inst).freq))

/-- Whether a stream of the NI may use the run or window r: a SCHEDULED run of its own, or, where the injection map gives it no run, an
intercalary window (R50, R96). -/
def State.streamTurn (s : State) (st plane stream : Nat) (r : Stand) : Bool :=
  (r.kind == 1 && r.stream == stream) ||
  (r.kind == 0 && !s.hasRun (stationIsl s.pkg st) plane (injectLink s.pkg st) stream)

/-- The tile whose frame may start now (R50, R90, R96): the first one whose stream may use the current run, whole before that run began, or
the current window, where its frames are of up to 4 KiB (log 49). -/
def State.tileReady (s : State) (st : Nat) : Option (Tile × Stand) :=
  let key := stationIsl s.pkg st
  let r0 := s.standAt key 2 (injectLink s.pkg st) (s.slotPos key)
  let r := if r0.kind == 0 then { r0 with units := 16 } else r0
  if s.hol.suspended then none
  else match (s.getNi st).tiles.find? (fun t => s.streamTurn st 2 (dStream t.task.d) r) with
  | none => none
  | some t =>
    if (if r.kind == 0 then ftGe (s.islFt key) t.ready else ftGe (s.slotFt r.start) t.ready) && s.schedOk st 2 (tileStep r.units) r then some (t, r)
    else none

/-- The head of a queue of formed frames, where it may start. -/
def State.frameOk (s : State) (st : Nat) (q : List Head) : Option Head :=
  match q with
  | [] => none
  | h :: _ => if s.injectOk st ((classPlane h.f.cls.toNat).getD 0) h.f.length.toNat then some h else none

/-- The plane and length of a descriptor's first frame. -/
def firstLen (d : Desc) : Nat :=
  let op := dOp d
  if op = 3 then 4 * dRowCount d else if op = 4 then dLen d else if op = 5 then 16 else 0

/-- An NI queue as the scheduler sees it. -/
def State.niDrr (s : State) (st q : Nat) : DrrQ :=
  let n := s.getNi st
  match kget [] n.queues q with
  | [] => { empty := true, eligible := false, charge := 0, quantum := 0 }
  | t :: _ =>
    let sh := kget {} n.shaper q
    { empty := false,
      eligible := (!sh.en || decide (0 ≤ kget (65536 * 256) n.tokens q)) && n.freeTxn.isSome && s.injectOk st 0 (firstLen t.d),
      charge := max 64 (descCharge t.d), quantum := 256 * s.fldAt (niUnit st) F.NI_Q_CFG_QUANTUM q }

/-- The frame of a scheduled plan edge that may start in the current run or window (R89, R90, R96, R188). -/
def State.schedReady (s : State) (st : Nat) : Option (Frame × FT × Bool) :=
  let key := stationIsl s.pkg st
  let r := s.standAt key 3 (injectLink s.pkg st) (s.slotPos key)
  if s.hol.suspended then none
  else match (s.getNi st).collSched.find? (fun x => s.streamTurn st 3 x.1.streamId.toNat r) with
  | none => none
  | some x => if s.schedOk st 3 x.1.length.toNat r then some x else none

/-- The eligible requesters of an NI's issue stage: a tile in its run (0, T1), a collective frame in its stream's run (21, T1), collective frames
(1, T2), the queue that the scheduler offers (2 + q, T3) and frames that the NI formed (20, T3). -/
def State.issueReqs (s : State) (st : Nat) (offer : Option Nat) : List Req :=
  let n := s.getNi st
  let now := s.stFt st
  let freq := (s.island (st / 2048) (stationRouter s.pkg st)).freq
  let w (t : FT) := waitCycles t now freq
  if !s.islandLive (st / 2048) (stationRouter s.pkg st) then []
  else
    (match s.tileReady st with
     | some (t, _) => [{ id := 0, tier := 1, wait := w t.ready }]
     | none => []) ++
    (match s.schedReady st with
     | some x => [{ id := 21, tier := 1, wait := w x.2.1 }]
     | none => []) ++
    (match s.frameOk st n.collq with
     | some h => [{ id := 1, tier := 2, wait := w h.headAt }]
     | none => []) ++
    (match offer with
     | some q => (match kget [] n.queues q with
       | x :: _ => [{ id := 2 + q, tier := 3, wait := w (kget x.acc n.qHead q) }]
       | [] => [])
     | none => []) ++
    (match s.frameOk st n.outq with
     | some h => [{ id := 20, tier := 3, wait := w h.headAt }]
     | none => [])

/-- The injection link of a plane is held until a frame's tail. -/
def State.holdInject (s : State) (st plane len : Nat) : State :=
  let die := st / 2048
  let inst := stationRouter s.pkg st
  let key := islKey die inst
  s.updRtr key (fun r => { r with
    busy := kins r.busy (injectLink s.pkg st * 4 + plane) (s.islFt key + BitVec.ofNat 64 (flitTime plane len (s.island die inst).freq)) })

/-- A frame of a tile leaves; the last one completes the STREAM_PUT (R50). -/
def State.tileGo (s : State) (st : Nat) (t : Tile) (r : Stand) : State :=
  let now := s.stFt st
  let q := satQ (slotsBetween t.task.acc now)
  let f := { s.tileFrame st t r.units with qdelay := q }
  let k := injectLink s.pkg st * 4 + 2
  let s := ((s.carry (stationIsl s.pkg st) 2 (injectLink s.pkg st) 1).holdInject st 2 f.length.toNat).updRtr (stationIsl s.pkg st) (fun x => { x with started := kput 0 x.started k (kget 0 x.started k + 1) })
  let s := s.leave st (f, now)
  s.updNi st (fun n =>
    if f.last then ({ n with tiles := n.tiles.erase t }.localCtr t.task.d).complete t.task.d stOk q 0 t.task.dest
    else { n with tiles := n.tiles.map (fun x => if x = t then { x with sent := x.sent + tileStep r.units, index := x.index + 1 } else x) })

/-- The issue stage grants a requester: its frame leaves, or its descriptor starts (R47–R50, R53, R161–R163). -/
def State.issueGrant (s : State) (st id : Nat) : State :=
  let n := s.getNi st
  if id = 0 then
    match s.tileReady st with
    | some (t, r) => s.tileGo st t r
    | none => s
  else if id = 1 then
    match n.collq with
    | h :: _ =>
      (((s.setNi st { n with collq := popHead n.collq (s.stFt st), defer := kdel n.defer 1 }).holdInject st ((classPlane h.f.cls.toNat).getD 0)
        h.f.length.toNat).leave st (h.f, h.since)).collLeft st h.f
    | [] => s
  else if id = 21 then
    match s.schedReady st with
    | some x =>
      let k := injectLink s.pkg st * 4 + 3
      let s := ((s.carry (stationIsl s.pkg st) 3 (injectLink s.pkg st) 1).holdInject st 3 x.1.length.toNat).updRtr (stationIsl s.pkg st) (fun r =>
        { r with started := kput 0 r.started k (kget 0 r.started k + 1) })
      ((s.leave st (x.1, x.2.1)).updNi st (fun n => { n with collSched := n.collSched.erase x })).collLeft st x.1
    | none => s
  else if id = 20 then
    match n.outq with
    | h :: _ =>
      ((s.setNi st { n with outq := popHead n.outq (s.stFt st), defer := kdel n.defer 0 }).holdInject st ((classPlane h.f.cls.toNat).getD 0)
        h.f.length.toNat).leave st (h.f, h.since)
    | [] => s
  else
    let q := id - 2
    match kget [] n.queues q with
    | [] => s
    | x :: xs =>
      ((s.setNi st { n with queues := kput [] n.queues q xs, defer := kdel n.defer id,
                            qHead := if xs.isEmpty then kdel n.qHead q else kins n.qHead q (s.stFt st),
                            deficit := drrPaid n.deficit q (max 64 (descCharge x.d)) (!xs.isEmpty) }).holdInject st 0 (firstLen x.d)).issueDesc st x

/-! ## ARBITER_GRANT -/

/-- The key of an arbiter that is kept beside the units (State.arbs). -/
def arbKey (arb : Arb) : Nat := match arb with
  | .niIssue st => niUnit st * 256
  | .engineIn st => reduceUnit st * 256 + 1
  | .sram u i => u * 256 + 2 + i
  | _ => 0

/-- The state of an arbiter. -/
def State.arbState (s : State) (arb : Arb) : ArbSt := match arb with
  | .routerOut isl plane out => kget {} (s.getRtr (islKey isl.die isl.inst)).arb (out * 4 + plane)
  | .staging q plane => kget {} (s.getPort q).stageArb plane
  | .portMux q => (s.getPort q).mux
  | a => kget {} s.arbs (arbKey a)

/-- The state with an arbiter's state set. -/
def State.setArb (s : State) (arb : Arb) (x : ArbSt) : State := match arb with
  | .routerOut isl plane out => s.updRtr (islKey isl.die isl.inst) (fun r => { r with arb := kput {} r.arb (out * 4 + plane) x })
  | .staging q plane => s.updPort q (fun p => { p with stageArb := kput {} p.stageArb plane x })
  | .portMux q => s.updPort q (fun p => { p with mux := x })
  | a => { s with arbs := kput {} s.arbs (arbKey a) x }

/-- The queue that an arbiter's scheduler offers, and the state with its deficits after the visits (R161). -/
def State.offerOf (s : State) (arb : Arb) : Option Nat × State := match arb with
  | .staging q plane =>
    let p := s.getPort q
    let (o, d) := drrOffer ((List.range 8).map (s.portDrr q plane)) (plane * 8) (kfind p.drrAt plane) p.deficit
    (o, s.updPort q (fun p => { p with deficit := d, drrAt := match o with
      | some n => kins p.drrAt plane n
      | none => p.drrAt }))
  | .niIssue st =>
    let n := s.getNi st
    let (o, d) := drrOffer ((List.range 16).map (s.niDrr st)) 0 n.drrAt n.deficit
    (o, s.setNi st { n with deficit := d, drrAt := o.or n.drrAt })
  | _ => (none, s)

/-- The eligible requesters of an arbiter that the state holds. -/
def State.reqsOf (s : State) (arb : Arb) (offer : Option Nat) : List Req := match arb with
  | .routerOut isl plane out => s.outReqs isl.die isl.inst plane out
  | .staging q plane => s.stageReqs q plane offer
  | .portMux q => s.wireReqs q
  | .niIssue st => s.issueReqs st offer
  | .engineIn _ => []
  | .sram _ _ => []

/-- What a grant to a requester of the state starts. -/
def State.grantOf (s : State) (arb : Arb) (w : Req) : State := match arb with
  | .routerOut isl plane _ => s.outGrant isl.die isl.inst plane w.id w.tier
  | .staging q plane => s.stageGrant q plane w.id
  | .portMux q => s.wireGrant q w.id w.tier
  | .niIssue st => s.issueGrant st w.id
  | .engineIn _ => s
  | .sram _ _ => s

/-- The HOLIDAY frame that waits at a port takes its wire as the emergency requester (R159, R379), where the replay buffer has room for it and the
peer's receiver does not hold its VC OFF (R130, R131). -/
def State.emergency (s : State) (arb : Arb) : Option State := match arb with
  | .portMux q =>
    let p := s.getPort q
    (match p.hq with
     | [] => none
     | f :: fs =>
       if s.portTrained q && p.mayHold (unitCount f.length.toNat) && !p.vcOff 3 0 then
         some ((s.updPort q (fun p => { p with hq := fs })).sendLink q 3 0 f) else none)
  | _ => none

/-- An emergency requester that the state does not hold takes the output for one flit or unit: what holds the output, or would take it now, goes on
after it (R159, log 24). -/
def State.pause (s : State) (arb : Arb) : State :=
  let hold (s : State) (key k : Nat) : State :=
    let now := s.islFt key
    let freq := (kget {} s.isl key).freq
    s.updRtr key (fun r => { r with
      busy := kins r.busy k ((if freeAt r.busy k now then now else kget now r.busy k) + BitVec.ofNat 64 ((160 + freq - 1) / max 1 freq)) })
  match arb with
  | .routerOut isl plane out => hold s (islKey isl.die isl.inst) (out * 4 + plane)
  | .niIssue st => (List.range 4).foldl (fun s plane => hold s (stationIsl s.pkg st) (injectLink s.pkg st * 4 + plane)) s
  | .portMux q =>
    let now := s.portFt q
    s.updPort q (fun p => { p with busy := (if ftGe now p.busy then now else p.busy) + BitVec.ofNat 64 (unitTime 1 (s.portLayout q)) })
  | _ => s

/-- A requester that the state does not hold: its numbers start at 1,000 (log 24). -/
def extraReq (r : Requester) : Req := { id := 1000 + r.id, tier := r.tier, wait := r.wait }

/-- Whether an arbiter is that of an SRAM port. -/
def sramArb (arb : Arb) : Bool := match arb with
  | .sram _ _ => true
  | _ => false

/-- One grant among the requesters that are no emergency requester (R157, R158). On an SRAM port it is one cycle more since the scrubber's last access. -/
def State.fairGrant (s : State) (arb : Arb) (extra : List Requester) : State :=
  let (o, s) := s.offerOf arb
  let rs := s.reqsOf arb o ++ (extra.filter (fun r => !r.emergency)).map extraReq
  let tick (a : ArbSt) : ArbSt := if sramArb arb then { a with sinceScrub := min 4095 (a.sinceScrub + 1) } else a
  match arbPick (s.arbState arb) rs with
  | none => if sramArb arb then s.setArb arb (tick (s.arbState arb)) else s
  | some w =>
    let s := s.setArb arb (tick (arbNext (s.arbState arb) rs w))
    if 1000 ≤ w.id then s else s.grantOf arb w

/-- One grant of an arbiter (R157–R159): the emergency requester takes it and changes nothing else of the arbiter, the scrubber on an SRAM port one
access in every 4,096; otherwise one eligible requester wins. -/
def State.arbGrant (s : State) (arb : Arb) (extra : List Requester) : State :=
  match s.emergency arb with
  | some t => t
  | none =>
    if !extra.any (·.emergency) then s.fairGrant arb extra
    else if sramArb arb then
      (if 4095 ≤ (s.arbState arb).sinceScrub then s.setArb arb { s.arbState arb with sinceScrub := 0 } else s.fairGrant arb extra)
    else s.pause arb

/-- Whether the unit of an arbiter is there. -/
def arbHere (s : State) (arb : Arb) : Bool := match arb with
  | .routerOut isl _ _ => islExists s.pkg isl.die isl.inst && !s.dieDisabled isl.die
  | .staging q _ => decide (q < portCount s.pkg)
  | .portMux q => decide (q < portCount s.pkg)
  | .niIssue st => s.stationOn st
  | .engineIn st => isEngine s.pkg st && s.stationOn st
  | .sram u _ => (unitKind s.pkg u).isSome

/-- ARBITER_GRANT (R157–R159). -/
def execArbiterGrant (arb : Arb) (extra : List Requester) (s : State) : Res :=
  onUnit (arbHere s arb) s (onPath s (s.arbGrant arb extra))

end Sys2Proof.Machine
end

