-- ==== Sys2Proof/Machine/Diary.lean ====
section
/-! DEFINITION. The package Diary (R236–R243): reports become entries with their statistics blocks, in the entry ring and on the trace port. -/
namespace Sys2Proof.Machine

/-- The state with the Diary changed. -/
def State.updDiary (s : State) (f : Diary → Diary) : State := { s with diary := f s.diary }

/-- A side's Diary unit. -/
def State.diarySide (s : State) (side : Nat) : DiarySide := if side = 0 then s.diary.d0 else s.diary.d1

/-- The state with a side's Diary unit set. -/
def State.setDiarySide (s : State) (side : Nat) (d : DiarySide) : State :=
  s.updDiary (fun x => if side = 0 then { x with d0 := d } else { x with d1 := d })

/-- The set that a report belongs to: the instance of a COLLECTIVE entry, or the entry itself. -/
def repSet (r : DiaryReport) : Nat :=
  if r.kind = 0 then r.tag.toNat else ((r.kind * 2 ^ 16 + r.station) * 2 ^ 16 + r.tag.toNat) * 2 ^ 32 + r.block.step.toNat

/-- How many reports complete a set: one for each of LOCAL_MEMBERS of an instance's group (R236). -/
def State.reportsDue (s : State) (r : DiaryReport) : Nat := if r.kind = 0 then s.groupLocals r.tag else 1

/-! ## What an entry says (R237, R238) -/

/-- The operation of a report. -/
def repOp (r : DiaryReport) : Nat := r.opcode.toNat

/-- Whether a report says CANCELLED. -/
def repCancelled (r : DiaryReport) : Bool := r.block.flags.getLsbD 0

/-- A report put in its place in member order. -/
def insertReport (r : DiaryReport) : List DiaryReport → List DiaryReport
  | [] => [r]
  | x :: xs => if r.member ≤ x.member then r :: x :: xs else x :: insertReport r xs

/-- Reports in member order. -/
def byMember (rs : List DiaryReport) : List DiaryReport := rs.foldr insertReport []

/-- Whether an operation's output is partitioned among members (Table 10-2). -/
def opPartitioned (op : Nat) : Bool := op == opScatter || op == opAllToAll

/-- The reporting member (Table 10-2): ROOT of a REDUCE, if it is local, and otherwise the lowest local member. rs stands in member order. -/
def reportingMember (rs : List DiaryReport) : Option DiaryReport :=
  match rs with
  | [] => none
  | r :: _ => if repOp r = opReduce then rs.find? (fun x => x.member == r.root) else some r

/-- RESULT_DIGEST (Table 10-2): of a partitioned operation the digest of the concatenation, 0 where an output is void (DEDUCED, log 43). -/
def resultDigest (rs : List DiaryReport) : FT :=
  match rs with
  | [] => 0
  | r :: _ =>
    if repOp r = opBarrier then 0
    else if opPartitioned (repOp r) then
      (if rs.any repCancelled then 0 else (rs.foldl (fun a x => crcJoin a x.block.digest x.outBytes) 0))
    else ((reportingMember rs).map (fun x => x.block.digest)).getD 0

/-- Whether two members of a replicated operation received different bits (R237). -/
def digestsDisagree (rs : List DiaryReport) : Bool :=
  match rs with
  | [] => false
  | r :: _ =>
    if repOp r = opBarrier || opPartitioned (repOp r) || repOp r = opReduce then false
    else
      let ds := (rs.filter (fun x => !repCancelled x)).map (fun x => x.block.digest)
      ds.any (fun d => some d != ds.head?)

/-- The summaries of an entry's statistics block (R235, R239): none where no member keeps statistics. -/
def entrySummaries (rs : List DiaryReport) : List StatsRec :=
  match rs with
  | [] => []
  | r :: _ =>
    if r.kind = 1 then [r.summary]
    else if r.kind = 2 || repOp r = opBarrier then []
    else if opPartitioned (repOp r) then rs.map (·.summary)
    else ((reportingMember rs).map (fun x => [x.summary])).getD []

/-- The report with the least READY_FT (R238). -/
def firstReport (rs : List DiaryReport) (r : DiaryReport) : DiaryReport := rs.foldl (fun a x => if ftGe x.readyFt a.readyFt then a else x) r

/-- The report with the greatest FT_END (R238). -/
def lastReport (rs : List DiaryReport) (r : DiaryReport) : DiaryReport :=
  rs.foldl (fun a x => if ftGe x.block.ftEnd a.block.ftEnd then x else a) r

/-- A sum of status-block fields, saturating (R195). -/
def sumField (rs : List DiaryReport) (f : DiaryReport → W32) : Nat := min 0xFFFFFFFF ((rs.map (fun r => (f r).toNat)).foldl (· + ·) 0)

/-- FLAGS [11:0] of a COLLECTIVE entry: the OR of the local members' flags, with CAUSE from the lowest member that reports CANCELLED (R238). -/
def entryFlags (rs : List DiaryReport) : Nat :=
  let f := rs.foldl (fun a x => a ||| getBits x.block.flags 11 0) 0
  let cause := ((rs.find? repCancelled).map (fun x => getBits x.block.flags 2 1)).getD 0
  f / 8 * 8 + cause * 2 + f % 2

/-- LATE_MEMBER, LATENESS and SATURATIONS of a COLLECTIVE entry (R238): the reporting member's, SATURATIONS summed where the operation is partitioned.
Where the ROOT of a REDUCE is not local no rule gives them: free values (log 43). -/
def State.entryLate (s : State) (rs : List DiaryReport) : (Nat × Nat × Nat) × State :=
  match reportingMember rs with
  | some r =>
    ((r.block.lateMember.toNat, r.block.lateness.toNat,
      if opPartitioned (repOp r) then sumField rs (fun x => x.block.saturations) else r.block.saturations.toNat), s)
  | none =>
    let (a, s) := s.takeFree
    let (b, s) := s.takeFree
    ((getBits (a.extractLsb' 0 32) 26 0, getBits (a.extractLsb' 32 32) 23 0, (b.extractLsb' 0 32).toNat), s)

/-- The 64 bytes of an entry (Tables 10-3, 10-4). rs stands in member order and r is its first. -/
def State.entryBytes (s : State) (rs : List DiaryReport) (r : DiaryReport) (stats : Option Nat) (lost : Bool) (n : Nat) : List Byte × State :=
  let a := firstReport rs r
  let z := lastReport rs r
  let (late, s) := if r.kind = 0 then s.entryLate rs
    else if r.kind = 1 then ((r.member, 0, 0), s) else ((r.member, r.root, r.block.saturations.toNat), s)
  let low := if r.kind = 0 then entryFlags rs else getBits r.block.flags 15 0
  let flags := low + bitNat (r.kind == 0 && digestsDisagree rs) * 2 ^ 12 + bitNat lost * 2 ^ 13 + min a.startQual z.endQual % 4 * 2 ^ 16 +
    r.kind % 4 * 2 ^ 18
  let digest := if r.kind = 0 then resultDigest rs else if r.kind = 1 then r.block.digest else 0
  (leBytes 4 r.block.step.toNat ++ leBytes 2 r.tag.toNat ++ [r.opcode, r.mode] ++ leBytes 8 a.readyFt.toNat ++ leBytes 8 z.block.ftEnd.toNat ++
    leBytes 8 digest.toNat ++ leBytes 8 (stats.getD 0xFFFFFFFFFFFFFFFF) ++ leBytes 4 late.1 ++ leBytes 4 late.2.1 ++ leBytes 4 late.2.2 ++
    leBytes 4 (if r.kind = 0 then sumField rs (fun x => x.block.overflow) else 0) ++ leBytes 4 flags ++ leBytes 4 (n % 2 ^ 32), s)

/-! ## The rings (R239, R240) -/

/-- The bytes of a statistics block (R239): the header record and the summaries. -/
def statsBlock (n : Nat) (sums : List StatsRec) : List Byte :=
  leBytes 4 sums.length ++ leBytes 4 (n % 2 ^ 32) ++ List.replicate 56 0 ++ sums.flatMap statBytes

/-- A statistics block goes to the block ring (R239, R240): it does not wrap within itself; a full ring overwrites its oldest bytes, or keeps them
under NO_OVERWRITE; a block that finds no room is dropped and counted. Answers its offset, and whether it was dropped. -/
def State.putBlock (s : State) (n : Nat) (sums : List StatsRec) : Option Nat × Bool × State :=
  let u := diaryUnit s.pkg
  let size := s.fld u F.TRACE_STATS_SIZE_BYTES
  if sums.isEmpty || size = 0 then (none, false, s)
  else
    let bytes := statsBlock n sums
    let wr := (s.pair u R.TRACE_STATS_WR).toNat
    let rd := (s.pair u R.TRACE_STATS_RD).toNat
    let off := wr % size
    let pad := if size < off + bytes.length then size - off else 0
    let stop := wr + pad + bytes.length
    if size < bytes.length || (decide (rd + size < stop) && s.bit u F.TRACE_DIARY_CTRL_NO_OVERWRITE) then
      (none, true, (s.count u R.TRACE_DIARY_STATS_LOST 1).event u F.TRACE_DIARY_EVENT_STATS_LOST)
    else
      let start := if pad = 0 then off else 0
      let s := s.setPair u R.TRACE_STATS_WR (BitVec.ofNat 64 stop)
      let s := if rd + size < stop then s.setPair u R.TRACE_STATS_RD (BitVec.ofNat 64 (stop - size)) else s
      (some start, false, s.emit (.diaryWrite (s.pair u R.TRACE_STATS_BASE + BitVec.ofNat 64 start) bytes))

/-- The DIARY trace record of an entry, while MIRROR_EN is 1 (R241, Table 17-9). -/
def State.mirrorEntry (s : State) (bytes : List Byte) (dropped : Bool) : State :=
  if s.bit (diaryUnit s.pkg) F.TRACE_DIARY_CTRL_MIRROR_EN then
    s.capture { s.traceRec 0x02 dropped bytes with source := diaryUnit s.pkg }
  else s

/-- Entry n goes to its slot, or is dropped (R240). -/
def State.putEntry (s : State) (n : Nat) (bytes : List Byte) : State :=
  let u := diaryUnit s.pkg
  let size := s.fld u F.TRACE_DIARY_SIZE_ENTRIES
  let rd := (s.pair u R.TRACE_DIARY_RD).toNat
  let s := s.setPair u R.TRACE_DIARY_WR (BitVec.ofNat 64 (n + 1))
  let full := decide (rd + size ≤ n)
  if size = 0 || (full && s.bit u F.TRACE_DIARY_CTRL_NO_OVERWRITE) then
    ((s.count u R.TRACE_DIARY_LOST 1).event u F.TRACE_DIARY_EVENT_LOST).mirrorEntry bytes true
  else
    let s := if full then
        ((s.setPair u R.TRACE_DIARY_RD (BitVec.ofNat 64 (n - size + 1))).count u R.TRACE_DIARY_OVERWRITTEN (n - size + 1 - rd)).event u
          F.TRACE_DIARY_EVENT_OVERWRITTEN
      else s
    let s := s.updDiary (fun d => { d with ring := kins d.ring (n % size) bytes })
    (s.emit (.diaryWrite (s.pair u R.TRACE_DIARY_BASE + BitVec.ofNat 64 (64 * (n % size))) bytes)).mirrorEntry bytes false

/-- A complete set becomes an entry (R236–R240): its statistics block first, then the entry, with DISAGREE where digests differ. -/
def State.writeEntry (s : State) (reports : List DiaryReport) : State :=
  let rs := byMember reports
  match rs with
  | [] => s
  | r :: _ =>
    let u := diaryUnit s.pkg
    let n := (s.pair u R.TRACE_DIARY_WR).toNat
    let (stats, dropped, s) := s.putBlock n (entrySummaries rs)
    let (bytes, s) := s.entryBytes rs r stats (dropped || rs.any (·.statsLost)) n
    let s := if r.kind = 0 && digestsDisagree rs then s.event u F.TRACE_DIARY_EVENT_DISAGREE else s
    s.putEntry n bytes

/-! ## Reports (R236, R242) -/

/-- The side whose Diary unit is active: that of the core which holds the lease, or side 0 while none does (R236). -/
def State.diaryActive (s : State) : Nat := s.holder.getD 0

/-- TRACE_DIARY_STATUS.PENDING follows the active unit's open sets. -/
def State.diaryPending (s : State) : State :=
  s.setFld (diaryUnit s.pkg) F.TRACE_DIARY_STATUS_PENDING (min 65535 (s.diarySide s.diaryActive).sets.length)

/-- A set whose reports have all come to a unit: the active unit writes its entry and confirms it to the standby, which then drops its own copy, or
knows that it need not write it (R242; the confirmation is at once, log 44). -/
def State.completeSet (s : State) (side key : Nat) (rs : List DiaryReport) : State :=
  let d := s.diarySide side
  if d.confirmed.contains key then s.setDiarySide side { d with sets := kdel d.sets key, confirmed := d.confirmed.erase key }
  else if side != s.diaryActive then s
  else
    let s := s.setDiarySide side { d with sets := kdel d.sets key }
    let o := s.diarySide (1 - side)
    let due := (rs.head?.map s.reportsDue).getD 1
    let s := s.setDiarySide (1 - side)
      (if due ≤ (kget [] o.sets key).length then { o with sets := kdel o.sets key } else { o with confirmed := o.confirmed ++ [key] })
    s.writeEntry rs

/-- A report reaches a unit (R236): at EN 0 it is consumed and counted in TRACE_DIARY_LOST; otherwise it joins its set. -/
def State.takeReport (s : State) (side : Nat) (r : DiaryReport) : State :=
  let u := diaryUnit s.pkg
  if !s.bit u F.TRACE_DIARY_CTRL_EN then (if side = s.diaryActive then s.count u R.TRACE_DIARY_LOST 1 else s)
  else
    let d := s.diarySide side
    let rs := kget [] d.sets (repSet r) ++ [r]
    let s := s.setDiarySide side { d with sets := kins d.sets (repSet r) rs }
    (if s.reportsDue r ≤ rs.length then s.completeSet side (repSet r) rs else s).diaryPending

/-- A report during a Holiday is held until release (R242). -/
def State.diaryReport (s : State) (side : Nat) (r : DiaryReport) : State :=
  if s.holds then s.updDiary (fun d => { d with held := d.held ++ [(side, r)] }) else s.takeReport side r

/-- A held report put in its place by COLL_TAG, after those that stand before it with the same tag. -/
def insertHeld (e : Nat × DiaryReport) : List (Nat × DiaryReport) → List (Nat × DiaryReport)
  | [] => [e]
  | x :: xs => if e.2.tag.toNat ≤ x.2.tag.toNat then e :: x :: xs else x :: insertHeld e xs

/-- The reports that a Holiday held act at its release, all in one cycle (R242): the sets they complete are written in ascending COLL_TAG (R236). -/
def State.diaryRelease (s : State) : State :=
  (s.diary.held.foldr insertHeld []).foldl (fun s e => s.takeReport e.1 e.2) (s.updDiary (fun d => { d with held := [] }))

/-- The sets that the old active unit had not confirmed are written by the new one from its own reports (R242). -/
def State.diaryTakeover (s : State) : State :=
  let side := s.diaryActive
  ((s.diarySide side).sets.foldl (fun s e =>
    match e.2.head? with
    | some r => if s.reportsDue r ≤ e.2.length then s.completeSet side e.1 e.2 else s
    | none => s) s).diaryPending

/-- What a command of the Diary reaches. -/
def onDiary (s t : State) : State :=
  { s with diary := t.diary, regs := t.regs, ctrs := t.ctrs, out := t.out, irqHeld := t.irqHeld, trace := t.trace, freeCtr := t.freeCtr }

/-- DIARY_REPORT_RECEIVE (R236): a side's unit takes a report, and writes the entry once every local member has reported. -/
def execDiaryReportReceive (side : Nat) (r : DiaryReport) (s : State) : Res :=
  onUnit (decide (side < 2)) s (onDiary s (s.diaryReport side r))

/-- A write of an RD pair: a value above WR or below its present value is kept with status RESERVED (R240). -/
def State.diaryRd (s : State) (wr rdOff : Nat) (v : FT) : State × Nat :=
  let u := diaryUnit s.pkg
  if (s.pair u wr).toNat < v.toNat || v.toNat < (s.pair u rdOff).toNat then (s, trReserved) else (s.setPair u rdOff v, trOk)

/-- DIARY_RD_ADVANCE (R240): software consumes entries. -/
def execDiaryRdAdvance (rd : FT) (s : State) : Res := done s (onDiary s (s.diaryRd R.TRACE_DIARY_WR R.TRACE_DIARY_RD rd).1)

end Sys2Proof.Machine
end

