-- ==== Sys2Proof/Machine/Slot.lean ====
section
/-! DEFINITION. The slot boundary: refills, runs, slips and deferrals (R50, R83, R86–R92, R96, R162–R166), the NO_WINDOW drop
(R92) and the launch notice (R106). -/
namespace Sys2Proof.Machine

/-! ## Refills (R162, R164–R166) -/

/-- The shaper scale in force (R165, R288). -/
def State.shapeScale (s : State) : Nat := s.fld (powerUnit s.pkg) F.POWER_STATUS_S

/-- Tokens after n refills under the values that take effect (R162, R164), in 1/256 B. -/
def refill (t : Int) (sh : Shaper) (scale n : Nat) : Int :=
  let top : Int := sh.burst * 256
  min top (min top t + (n * (sh.rate * scale / 16) : Nat))

/-- The values that the registers of NI queue q give a shaper. -/
def State.niShaper (s : State) (st q : Nat) : Shaper :=
  let u := niUnit st
  { rate := s.fldAt u F.NI_Q_RATE_RATE q, burst := s.fldAt u F.NI_Q_BURST_BURST q, en := s.fldAt u F.NI_Q_CFG_SHAPER_EN q == 1 }

/-- The values that the registers of port queue i = plane × 8 + q give a shaper. -/
def State.portShaper (s : State) (p i : Nat) : Shaper :=
  let u := portUnit s.pkg p
  { rate := s.fldAt u F.PORT_Q_RATE_RATE i, burst := s.fldAt u F.PORT_Q_BURST_BURST i, en := s.fldAt u F.PORT_Q_CFG_SHAPER_EN i == 1 }

/-- The shapers and policers of an NI at n boundaries. -/
def State.refillNi (s : State) (n st : Nat) : State :=
  let scale := s.shapeScale
  let ni := s.getNi st
  let ni := (List.range 16).foldl (fun (ni : Ni) q =>
    let sh := s.niShaper st q
    { ni with shaper := kput {} ni.shaper q sh,
              tokens := kput (65536 * 256) ni.tokens q (refill (kget (65536 * 256) ni.tokens q) sh scale n) }) ni
  s.setNi st { ni with spent := (s.policers (niUnit st)).foldl (fun m e =>
    let x := kget {} m e.1
    kput {} m e.1 { tc := x.tc - n * e.2.cir, tp := x.tp - n * e.2.pir }) ni.spent }

/-- The shapers of a port at n boundaries. -/
def State.refillPort (s : State) (n q : Nat) : State :=
  let scale := s.shapeScale
  s.updPort q (fun p => (List.range 32).foldl (fun p i =>
    let sh := s.portShaper q i
    { p with shaper := kput {} p.shaper i sh,
             tokens := kput (65536 * 256) p.tokens i (refill (kget (65536 * 256) p.tokens i) sh scale n) }) p)

/-- The stations of an island. -/
def islStations (p : Package) (die inst : Nat) : List Nat :=
  ((List.range 400).map (fun l => die * 2048 + l)).filter (fun st => (stationKind p st).isSome && stationRouter p st == inst)

/-! ## Counts at a router (R90, R92, R96, R109) -/

/-- A frame of a slipped stream: a collective instance that it belongs to, and a watch that takes its tile, learn of the slip by it (R188, R245). -/
def slipMark (f : Frame) : Frame := if f.coll.flags / 256 % 2 = 1 then f else { f with coll := { f.coll with flags := f.coll.flags + 256 } }

/-- A scheduled frame is deferred: counted once, an event and a fault (R90, R109). -/
def State.slip (s : State) (key plane link stream : Nat) (seq : W32) : State :=
  let s := (s.mapEvent key plane link R.ALM_SLIP (some F.ALM_EVENT_SLIP)).faultEvent (almRouterUnit (key / 1024) (key % 1024)) 9
    (BitVec.ofNat 32 stream)
  if plane = 2 then s.watchSlip stream seq else s

/-- The frames that a link direction has started in the run of slot pos: none where the run begins there. -/
def startedAt (r : Stand) (pos started : Nat) : Nat := if r.start = pos then 0 else started

/-- Whether, at the boundary that begins slot pos, a run of a stream can no longer start a frame that has been present since an FT (R90): the run has
just ended, has used its starts, or has too little time left. -/
def State.cannotStart (s : State) (key plane link pos stream dur started : Nat) (since : FT) : Bool :=
  let r0 := s.standAt key plane link (pos - 1)
  let r1 := s.standAt key plane link pos
  (decide (1 ≤ pos) && r0.kind == 1 && r0.stream == stream && r0.stop == pos && !ftGe since (s.slotFt pos)) ||
  (r1.kind == 1 && r1.stream == stream &&
    (decide (r1.frames ≤ startedAt r1 pos started) || !ftGe (s.slotFt r1.stop) (s.islFt key + BitVec.ofNat 64 dur)))

/-- Whether, at the boundary that begins slot pos, an unscheduled frame present since an FT cannot end within an intercalary window (R92): the
window that opens or goes on is too short for it, or a window has just closed over it. The Kalends closes the window of the last run, which
is INTERCALARY in every map, and never merges it with the next (R88, R89, log 48). -/
def State.windowMissed (s : State) (key plane link pos dur : Nat) (since : FT) : Bool :=
  let r0 := s.standAt key plane link (pos - 1)
  let r1 := s.standAt key plane link pos
  (r1.kind == 0 && !ftGe (s.slotFt r1.stop) (s.islFt key + BitVec.ofNat 64 dur)) ||
  (!ftGe since (s.slotFt pos) && (pos == 0 || (r0.kind == 0 && r0.stop == pos && r1.kind != 0)))

/-- What a boundary does to one waiting frame by the link direction that holds it: a slip or a deferral, each counted once. links are those it
takes, with the duration and the starts on each; top tells whether it is the head of its queue. -/
def State.headSlot (s : State) (key plane vc pos : Nat) (links : List Nat) (dur : Nat) (started : Nat → Nat) (top : Bool) (h : Head) : State × Head :=
  let stream := h.f.streamId.toNat
  if s.hol.suspended then (s, h)
  else if isSched plane vc then
    match links.find? (fun l => !h.slipped && s.cannotStart key plane l pos stream dur (started l) h.since) with
    | some l => (s.slip key plane l stream h.f.seq, { h with slipped := true, f := slipMark h.f })
    | none => (s, h)
  else
    match links.find? (fun l => top && h.defer.isNone && s.windowMissed key plane l pos dur h.since) with
    | some l => (s.mapEvent key plane l R.ALM_DEFER none, { h with defer := some (s.islFt key, s.cycleSlots) })
    | none => (s, h)

/-- The heads of a queue at a boundary, the first of them its head. -/
def queueSlot (step : State → Bool → Head → State × Head) : State → Bool → List Head → State × List Head
  | s, _, [] => (s, [])
  | s, top, h :: hs =>
    let (s, h) := step s top h
    let (s, hs) := queueSlot step s false hs
    (s, h :: hs)

/-- A router's input VCs at a boundary; a fork is held by whichever of its branches cannot start (R144). -/
def State.inputsSlot (s : State) (key pos : Nat) : State :=
  let freq := (kget {} s.isl key).freq
  (s.getRtr key).inq.foldl (fun s e =>
    let plane := e.1 / 4 % 4
    let vc := e.1 % 4
    let (s, q) := queueSlot (fun s top h =>
      s.headSlot key plane vc pos (h.out.filter (· != 6)) (flitTime plane h.f.length.toNat freq)
        (fun l => kget 0 (s.getRtr key).started (l * 4 + plane)) top h)
      s true e.2
    s.updRtr key (fun r => { r with inq := kput [] r.inq e.1 q })) s

/-- A port's staged frames at a boundary. -/
def State.stagedSlot (s : State) (key q pos : Nat) : State :=
  (s.getPort q).staged.foldl (fun s e =>
    let plane := e.1 / 4
    let (s, l) := queueSlot (fun s top h =>
      s.headSlot key plane (e.1 % 4) pos [6] (unitTime (unitCount h.f.length.toNat) (s.portLayout q)) (fun _ => kget 0 (s.getPort q).started plane) top h)
      s true e.2
    s.updPort q (fun p => { p with staged := kput [] p.staged e.1 l })) s

/-- The frames of a whole tile that have not left: all of them are present, and each that a run can no longer start is deferred (R50, R90). -/
def unsentFrames (t : Tile) (units : Nat) : Nat := (t.data.length - t.sent + tileStep units - 1) / tileStep units

/-- An NI at a boundary: its tiles slip (R90), a run that begins with no tile whole is counted idle (R50), and its frames and descriptors
that the window cannot hold are deferred (R92). -/
def State.niSlot (s : State) (key pos st : Nat) : State :=
  let link := injectLink s.pkg st
  let freq := (kget {} s.isl key).freq
  let r := s.standAt key 2 link pos
  let r0 := s.standAt key 2 link (pos - 1)
  if s.hol.suspended then s
  else
    let tiles := (s.getNi st).tiles
    let s := tiles.foldl (fun s t =>
      if !t.deferred && s.cannotStart key 2 link pos (dStream t.task.d) (flitTime 2 (tileStep r.units) freq)
          (kget 0 (s.getRtr key).started (link * 4 + 2)) t.ready then
        ((List.range (unsentFrames t (if r.kind == 1 && r.stream == dStream t.task.d then r.units else r0.units))).foldl
          (fun s _ => s.slip key 2 link (dStream t.task.d) t.seq) s).updNi st (fun n => { n with tiles := n.tiles.map (fun x => if x = t then { x with deferred := true } else x) })
      else s) s
    let s := (s.getNi st).collSched.foldl (fun s x =>
      if !x.2.2 && s.cannotStart key 3 link pos x.1.streamId.toNat (flitTime 3 x.1.length.toNat freq)
          (kget 0 (s.getRtr key).started (link * 4 + 3)) x.2.1 then
        (s.slip key 3 link x.1.streamId.toNat x.1.seq).updNi st (fun n =>
          { n with collSched := n.collSched.map (fun y => if y = x then (slipMark x.1, x.2.1, true) else y) })
      else s) s
    let s := if r.kind == 1 && r.start == pos && !tiles.any (fun t => dStream t.task.d == r.stream && ftGe (s.islFt key) t.ready) then
      s.count (niUnit st) R.NI_STREAM_IDLE_RUN 1 else s
    let n := s.getNi st
    let defer (s : State) (k plane len : Nat) (since : FT) : State :=
      if (kfind (s.getNi st).defer k).isNone && s.windowMissed key plane link pos (flitTime plane len freq) since then
        (s.mapEvent key plane link R.ALM_DEFER none).updNi st (fun n => { n with defer := kins n.defer k (s.islFt key, s.cycleSlots) })
      else s
    let s := match n.outq with
      | h :: _ => defer s 0 ((classPlane h.f.cls.toNat).getD 0) h.f.length.toNat h.since
      | [] => s
    let s := match n.collq with
      | h :: _ => defer s 1 ((classPlane h.f.cls.toNat).getD 0) h.f.length.toNat h.since
      | [] => s
    n.queues.foldl (fun s e => match e.2 with
      | t :: _ => defer s (2 + e.1) 0 (firstLen t.d) t.acc
      | [] => s) s

/-- The runs that begin at slot pos: their starts are counted afresh, and a reserved kind or an uncorrectable map word sets MAP_FAULT (R87–R89). -/
def State.runsSlot (s : State) (key pos : Nat) : State :=
  let u := routerUnit (key / 1024) (key % 1024)
  (s.routerMaps u).foldl (fun s m =>
    let r := s.standAt key m.1 m.2 pos
    if r.start != pos then s
    else
      let s := s.updRtr key (fun x => { x with started := kput 0 x.started (m.2 * 4 + m.1) 0 })
      let s := match portAt s.pkg (key / 1024) (key % 1024) with
        | some q => if m.2 = 6 then s.updPort q (fun p => { p with started := kput 0 p.started m.1 0 }) else s
        | none => s
      let s := r.words.foldl (fun s w => s.readBad (almRouterUnit (key / 1024) (key % 1024)) srMap (inBank s.alm.inForce w)) s
      if r.reserved then (s.lastMap key m.1 m.2).almEvent F.ALM_EVENT_MAP_FAULT else s) s

/-- The timers of a station's NI that Holiday freezes (R309, R377, Table 17-2) stand still while n slots pass: what they count from moves on. -/
def Ni.freeze (x : Ni) (n : Nat) : Ni :=
  let mv (t : FT) : FT := t + BitVec.ofNat 64 (128 * n)
  let mvDefer (e : Nat × FT × Nat) : Nat × FT × Nat := (e.1, mv e.2.1, e.2.2)
  let mvTxn (e : Nat × Txn) : Nat × Txn := (e.1, { e.2 with vigil := e.2.vigil.map mv })
  let mvGrant (e : Nat × Grant) : Nat × Grant := (e.1, { e.2 with at_ := mv e.2.at_ })
  let mvMember (e : Nat × Member) : Nat × Member := (e.1, { e.2 with vigil := mv e.2.vigil })
  { x with
    defer := x.defer.map mvDefer, yellow := x.yellow.map (fun y => { y with froze := y.froze + n }), txn := x.txn.map mvTxn,
    grants := x.grants.map mvGrant, members := x.members.map mvMember, hold := x.hold.map (fun h => { h with since := mv h.since }) }

/-- The clocks of a stopped die stand still (Table 17-2): those of R92, the Vigils, yellow expiry, WAIT_MAX and the divergence timers. -/
def State.freezeClocks (s : State) (key n : Nat) (stations : List Nat) (port : Option Nat) : State :=
  let mv (h : Head) : Head := { h with defer := h.defer.map (fun d => (d.1 + BitVec.ofNat 64 (128 * n), d.2)) }
  let s := s.updRtr key (fun r => { r with inq := r.inq.map (fun e => (e.1, e.2.map mv)) })
  let s : State := match port with
    | some q => s.updPort q (fun p => { p with staged := p.staged.map (fun e => (e.1, e.2.map mv)) })
    | none => s
  let mvPool (e : Nat × Pool) : Nat × Pool :=
    (e.1, { e.2 with queue := e.2.queue.map (fun r => if stations.contains r.st then { r with froze := r.froze + n } else r) })
  let s := { s with pools := s.pools.map mvPool }
  stations.foldl (fun s st => s.updNi st (fun x => x.freeze n)) s

/-- The boundary that an island executes next, and the slots since its last one: the boundary it has reached, or else the one after its
last. -/
def State.nextBoundary (s : State) (key : Nat) : FT × Nat :=
  let i := kget {} s.isl key
  let cur := BitVec.ofNat 64 ((s.islFt key).toNat / 128 * 128)
  let b := if ftGe cur (i.slot + 128) then cur else i.slot + 128
  (b, ftSince b i.slot / 128)

/-- The boundary executed: time reaches it, and every refill, run and count of the island advances (R83, R86). -/
def State.slotBoundary (s : State) (key : Nat) : State :=
  let i := kget {} s.isl key
  let die := key / 1024
  let inst := key % 1024
  if !i.running || !i.ftValid then s
  else
    let (b, n) := s.nextBoundary key
    let s := (s.reachFt (b - BitVec.ofInt 64 (Int.fdiv i.off (2 ^ 32)))).setIsland die inst { i with slot := b, fresh := false }
    let stations := islStations s.pkg die inst
    let port := portAt s.pkg die inst
    if s.dieFrozen die then s.freezeClocks key n stations port
    else
      let pos := s.slotPos key
      let s := stations.foldl (fun s st => s.refillNi n st) s
      let s := match port with
        | some q => s.refillPort n q
        | none => s
      let s := s.inputsSlot key pos
      let s := match port with
        | some q => s.stagedSlot key q pos
        | none => s
      let s := stations.foldl (fun s st => s.niSlot key pos st) s
      s.runsSlot key pos

/-- SLOT_BOUNDARY (R83, R86–R92, R96, R115, R162–R166). QDELAY is added when a frame leaves (R115). -/
def execSlotBoundary (isl : Island) (s : State) : Res :=
  onUnit (islExists s.pkg isl.die isl.inst && !s.dieDisabled isl.die) s (onPath s (s.slotBoundary (islKey isl.die isl.inst)))

/-! ## NO_WINDOW_DROP (R92) -/

/-- Whether a deferral has lasted the whole cycle it began in. -/
def deferredOut (d : Option (FT × Nat)) (now : FT) : Bool := match d with
  | some (t, n) => decide (n ≤ slotsBetween t now)
  | none => false

/-- A frame dropped unstarted: ALM_NOWIN, the event, and a NO_WINDOW refusal from the router or the port that held it. -/
def State.noWindow (s : State) (key plane link : Nat) (f : Frame) (refuser : Nat) : State :=
  (s.mapEvent key plane link R.ALM_NOWIN (some F.ALM_EVENT_NO_WINDOW)).refuseAt (routerUnit (key / 1024) (key % 1024)) f stNoWindow refuser

/-- A queue's expired head of an NI dropped: a formed frame is refused, a descriptor completes NO_WINDOW. -/
def State.niNoWindow (s : State) (key st : Nat) (plane : Nat) : State :=
  let n := s.getNi st
  let now := s.islFt key
  let link := injectLink s.pkg st
  match n.defer.find? (fun e => deferredOut (some e.2) now && (match e.1 with
      | 0 => (n.outq.head?.map (fun h => (classPlane h.f.cls.toNat).getD 0)) == some plane
      | 1 => (n.collq.head?.map (fun h => (classPlane h.f.cls.toNat).getD 0)) == some plane
      | _ => plane == 0)) with
  | none => s
  | some (k, _) =>
    let s := s.setNi st { n with defer := kdel n.defer k }
    if k = 0 then
      match n.outq with
      | h :: _ => (s.updNi st (fun n => { n with outq := popHead n.outq now })).noWindow key plane link h.f 0
      | [] => s
    else if k = 1 then
      match n.collq with
      | h :: _ => ((s.updNi st (fun n => { n with collq := popHead n.collq now })).noWindow key plane link h.f 0).collLeft st h.f
      | [] => s
    else
      match kget [] n.queues (k - 2) with
      | t :: ts =>
        ((s.updNi st (fun n => { n with queues := kput [] n.queues (k - 2) ts,
                                        qHead := if ts.isEmpty then kdel n.qHead (k - 2) else kins n.qHead (k - 2) now })).mapEvent key plane link R.ALM_NOWIN (some F.ALM_EVENT_NO_WINDOW)).updNi
          st (fun n => n.complete t.d stNoWindow (satQ (slotsBetween t.acc now)) 0 t.dest)
      | [] => s

/-- The drop of an expired frame at an input VC; input 32 stands for the port's staging, 33 and 34 for the injection of the router's first
and second station (log 25). -/
def State.noWindowDrop (s : State) (die inst input plane vc : Nat) : State :=
  let key := islKey die inst
  let now := s.islFt key
  if input = 33 ∨ input = 34 then
    match (islStations s.pkg die inst)[input - 33]? with
    | some st => s.niNoWindow key st plane
    | none => s
  else if input = 32 then
    match portAt s.pkg die inst with
    | none => s
    | some q =>
      let k := plane * 4 + vc
      match kget [] (s.getPort q).staged k with
      | h :: _ =>
        if deferredOut h.defer now then
          (s.updPort q (fun p => { p with
            staged := kput [] p.staged k (popHead (kget [] p.staged k) now),
            stageUse := kput 0 p.stageUse plane (kget 0 p.stageUse plane - wireBytes h.f) })).noWindow key plane 6 h.f (portRefuser s.pkg)
        else s
      | [] => s
  else
    let k := inKey input plane vc
    match kget [] (s.getRtr key).inq k with
    | h :: _ =>
      if deferredOut h.defer now then
        ((s.updRtr key (fun r => { r with inq := kput [] r.inq k (popHead (kget [] r.inq k) now) })).inputFreed die inst k).noWindow key plane
          (h.out.headD 6) h.f 1
      else s
    | [] => s

/-- NO_WINDOW_DROP (R92): N + t slots after its first deferral a frame still unstarted is dropped. -/
def execNoWindowDrop (isl : Island) (input : Nat) (plane : Nat) (vc : Nat) (s : State) : Res :=
  onUnit (islExists s.pkg isl.die isl.inst && !s.dieDisabled isl.die) s
    (if s.dieFrozen isl.die then s else onPath s (s.noWindowDrop isl.die isl.inst input plane vc))

/-! ## LAUNCH_NOTICE (R106) -/

/-- The launch notices of a station: wave and counter of each of its injection maps with LAUNCH_EN, each pair once. -/
def State.launches (s : State) (st : Nat) : List (Nat × Nat) :=
  ((List.range 4).filterMap (fun plane => match s.injectionMap st plane with
    | some m => if m.launchEn then some (m.wave, m.launchCtr) else none
    | none => none)).eraseDups

/-- A launch notice whose wave has begun in the running cycle and that has not been given in it: its counter advances by one (R106). -/
def State.launchOne (s : State) (st : Nat) (w c : Nat) : State :=
  let k := w * 4096 + c
  if ftGe (s.stFt st) (s.alm.start + BitVec.ofNat 64 (w * s.alm.spacing)) && kfind (s.getNi st).launched k != some s.alm.cycles then
    s.updNi st (fun n => { n.bump c 1 with launched := kins n.launched k s.alm.cycles })
  else s

/-- LAUNCH_NOTICE (R106): at Kalends + w × s, with LAUNCH_EN set, the station's LAUNCH_CTR advances by one, once a cycle. -/
def execLaunchNotice (st : Nat) (s : State) : Res :=
  onNiRun s st (if s.hol.suspended then s else (s.launches st).foldl (fun s l => s.launchOne st l.1 l.2) s)

end Sys2Proof.Machine
end

