-- ==== Sys2Proof/Machine/Power.lean ====
section
/-! DEFINITION. Clock islands and power (R273–R293). -/
namespace Sys2Proof.Machine

/-! ## Parameters (Table 12-6) -/

/-- The bytes of the POWER record (kind 0x0901); none where the image has none. -/
def State.powerRec (s : State) : Option (List Byte) := (s.flatRecs.filter (fun r => r.kind == 0x0901)).getLast?.map (·.payload)

/-- A parameter of n bytes at an offset, or its default. -/
def State.powerParam (s : State) (off n default : Nat) : Nat := (s.powerRec.map (fun p => leAt p off n)).getD default

/-- ISL_FLOOR_MHZ. -/
def State.islFloor (s : State) : Nat := s.powerParam 0 2 1200
/-- DEFAULT_RAMP. -/
def State.defaultRamp (s : State) : Nat := s.powerParam 2 2 500
/-- S_THROTTLE. -/
def State.sThrottle (s : State) : Nat := s.powerParam 4 1 8
/-- FMAX_THROTTLE. -/
def State.fmaxThrottle (s : State) : Nat := s.powerParam 6 2 1800
/-- FMAX_MHZ of a budget level. -/
def State.levelFmax (s : State) (l : Nat) : Nat := s.powerParam (16 + 4 * l) 2 2200
/-- S_LEVEL of a budget level. -/
def State.levelS (s : State) (l : Nat) : Nat := s.powerParam (18 + 4 * l) 1 16
/-- THROTTLE of a budget level. -/
def State.levelThrottle (s : State) (l : Nat) : Bool := s.powerParam (19 + 4 * l) 1 0 % 2 == 1

/-- A field of the package power controller. -/
def State.pw (s : State) (f : Fld) : Nat := s.fld (powerUnit s.pkg) f

/-- The state with a field of the package power controller set. -/
def State.setPw (s : State) (f : Fld) (v : Nat) : State := s.setFld (powerUnit s.pkg) f v

/-- The die of the tree root, whose controllers are the package's (R94, R352, R355). -/
def State.rootDie (s : State) : Nat := if s.pkg.isS then 0 else 16 + 2 * s.holder.getD 0

/-- An event of the package power controller, in the POWER unit of its die (R293). -/
def State.pwEvent (s : State) (f : Fld) : State := s.event (dieUnit s.rootDie) f

/-- A command of POWER, with the parts it reaches. -/
def onPower (s t : State) : State :=
  { s with isl := t.isl, pwr := t.pwr, alm := t.alm, regs := t.regs, ctrs := t.ctrs, shadows := t.shadows, staged := t.staged, out := t.out,
           irqHeld := t.irqHeld, ni := t.ni, rtr := t.rtr, dlinks := t.dlinks, pools := t.pools, freeCtr := t.freeCtr, arbs := t.arbs, eng := t.eng }

/-! ## Islands (R273–R279) -/

/-- The frequency an island makes for, in 25 MHz units: the least of its target, the level's cap and FMAX_THROTTLE while a throttle is in
force, and never below the floor (R273). -/
def State.islGoal (s : State) (die inst : Nat) : Nat :=
  let target := 25 * s.fldAt (dieUnit die) F.POWER_ISL_CTRL_FREQ inst
  let cap := s.levelFmax (s.pw F.POWER_STATUS_LEVEL)
  let c := if s.pw F.POWER_STATUS_THROTTLE = 1 then min cap s.fmaxThrottle else cap
  max (min target c) s.islFloor / 25

/-- Whether an island glides (R274). -/
def State.gliding (s : State) (die inst : Nat) : Bool := (s.island die inst).running && (s.island die inst).freq != s.islGoal die inst

/-- ISLAND_FREQ_WRITE (R273, R293): a target from 48 to 88 and not below the floor; another is kept as it was. -/
def execIslandFreqWrite (isl : Island) (freq : Nat) (s : State) : Res :=
  onUnit (islExists s.pkg isl.die isl.inst) s
    (if 48 ≤ freq ∧ freq ≤ 88 ∧ s.islFloor ≤ 25 * freq then onPower s (s.setFldAt (dieUnit isl.die) F.POWER_ISL_CTRL_FREQ isl.inst freq) else s)

/-- ISLAND_GLIDE_STEP (R274, R275): one step of 25 MHz toward the goal; an island that comes to run below F_MIN sets BELOW_FMIN. -/
def State.glideStep (s : State) (die inst : Nat) : State :=
  let i := s.island die inst
  if !s.gliding die inst then s
  else
    let g := s.islGoal die inst
    let f := if i.freq < g then i.freq + 1 else i.freq - 1
    let t := s.setIsland die inst { i with freq := f }
    if 25 * f < bankFMin s.bankIn ∧ bankFMin s.bankIn ≤ 25 * i.freq then t.event (dieUnit die) F.POWER_EVENT_BELOW_FMIN else t

/-- ISLAND_GLIDE_STEP (R274). -/
def execIslandGlideStep (isl : Island) (s : State) : Res :=
  onUnit (islExists s.pkg isl.die isl.inst) s (onPower s (s.glideStep isl.die isl.inst))

/-- The clock of an island starts where its PLL is locked; its FT is valid again once it has loaded it (R67, R86). -/
def Isl.start (i : Isl) : Isl := if i.locked && !i.running then { i with running := true, ftValid := false } else i

/-- PLL_LOCK_LOST (R67, R279): the clock stops and with it the island's FT is invalid, LOCK_LOST is set twice, and a CLOCK fault tells the frequency at the loss. -/
def execPllLockLost (isl : Island) (s : State) : Res :=
  let i := s.island isl.die isl.inst
  let u := dieUnit isl.die
  onUnit (islExists s.pkg isl.die isl.inst) s
    (if i.locked then
       onPower s ((((s.setIsland isl.die isl.inst { i with running := false, locked := false, ftValid := false }).setFldAt u F.POWER_ISL_STATUS_LOCK_LOST isl.inst 1).event u
         F.POWER_EVENT_LOCK_LOST).faultEvent u 11 (BitVec.ofNat 32 i.freq))
     else s)

/-! ## Dies (R280–R282) -/

/-- The dies that a die-path entry names. -/
def pathDies (p : BitVec 40 × W4) : List Nat := (List.range p.2.toNat).map (fun i => (p.1.toNat >>> (5 * i)) % 32)

/-- Whether a bank's die paths name a die (R281). -/
def bankNames (b : Bank) (die : Nat) : Bool :=
  b.recs.any (fun r =>
    (r.kind == 0x0301 || r.kind == 0x0302 || r.kind == 0x0303) &&
    (List.range (if r.kind == 0x0303 then 32 else 20)).any (fun i => (pathDies (pathAt r.payload i)).contains die))

/-- POWER_DIE_STATUS.USED: the die is named in a die path of the bank in force or of the HELD bank. -/
def State.dieUsed (s : State) (die : Nat) : Bool := bankNames s.bankIn die || (s.alm.other == .held && bankNames s.bankOther die)

/-- POWER_DIE_STATUS.STATE: 0 ON, 1 GATING, 2 OFF, 3 UNGATING, 4 FUSED_OFF. -/
def State.dieState (s : State) (die : Nat) : Nat := s.fld (dieUnit die) F.POWER_DIE_STATUS_STATE

/-- The state with a die's power state set. -/
def State.setDieState (s : State) (die v : Nat) : State := s.setFld (dieUnit die) F.POWER_DIE_STATUS_STATE v

/-- The islands of a die, changed. -/
def State.updIslands (s : State) (die : Nat) (f : Isl → Isl) : State :=
  (List.range 64).foldl (fun s i => if islExists s.pkg die i then s.setIsland die i (f (s.island die i)) else s) s

/-- The facing ends of a die's crossings are held idle, with no DOWN report (R38, R281). -/
def State.idleFacing (s : State) (die : Nat) : State :=
  (List.range 32).foldl (fun s n => match dlinkPeer die n with
    | some (d, m) => (s.setFld (dlinkUnit d m) F.DLINK_STATUS_STATE 0).updDl (d * 32 + m) (fun _ => {})
    | none => s) s

/-- Whether a register address lies in a compute die's gated domain (Table 12-2, R399): every class but GLOBAL, FAULT and POWER, and not
NI_FAULT_STATUS, which holds INC. -/
def gatedAddr (die a : Nat) : Bool :=
  let u := a / 4096
  unitDie u == die && unitClass u != 0 && unitClass u != 9 && unitClass u != 13 && !(unitClass u == 2 && a % 4096 == R.NI_FAULT_STATUS)

/-- The contents of a gated die are lost (R280). -/
def State.eraseDie (s : State) (die : Nat) : State :=
  { s with
    regs := s.regs.filter (fun e => !gatedAddr die e.1), ctrs := s.ctrs.filter (fun e => !gatedAddr die e.1),
    shadows := s.shadows.filter (fun e => !gatedAddr die e.1), staged := s.staged.filter (fun e => !gatedAddr die e.1),
    ni := s.ni.filter (fun e => e.1 / 2048 != die), rtr := s.rtr.filter (fun e => e.1 / 1024 != die),
    dlinks := s.dlinks.filter (fun e => e.1 / 32 != die), pools := s.pools.filter (fun e => e.1 != die),
    arbs := s.arbs.filter (fun e => unitDie (e.1 / 256) != die), eng := s.eng.filter (fun e => e.1 / 2048 != die) }

/-- The open watch entries of a die's stations are closed (R245). -/
def State.watchDie (s : State) (die : Nat) : State :=
  s.ni.foldl (fun s e => if e.1 / 2048 = die then s.watchDisable e.1 else s) s

/-- GATE (R281): refused with GATE_REJECT, or GATING. -/
def State.gate (s : State) (die : Nat) : State :=
  if s.dieUsed die || !dieCompute s.pkg die || s.dieState die != 0 then s.event (dieUnit die) F.POWER_EVENT_GATE_REJECT
  else (((s.watchDie die).setDieState die 1).updIslands die (fun i => { i with running := false, locked := false, ftValid := false })).idleFacing die

/-- UNGATE (R282, R292): it runs from OFF, waits during GATING, and a second one, or one elsewhere, is rejected. -/
def State.ungate (s : State) (die : Nat) : State :=
  if s.dieState die = 2 then s.setDieState die 3
  else if s.dieState die = 1 ∧ s.pwr.ungateWait.contains die = false then { s with pwr := { s.pwr with ungateWait := s.pwr.ungateWait ++ [die] } }
  else s.event (dieUnit die) F.POWER_EVENT_GATE_REJECT

/-- A gating command, held during a Holiday (R292). -/
def State.gateCmd (s : State) (die : Nat) (gate : Bool) : State :=
  if s.holds then { s with pwr := { s.pwr with gateHeld := s.pwr.gateHeld ++ [(die, gate)] } }
  else if gate then s.gate die else s.ungate die

/-- The gating commands that a Holiday held act at its release (R292). -/
def State.gateRelease (s : State) : State :=
  s.pwr.gateHeld.foldl (fun s c => if c.2 then s.gate c.1 else s.ungate c.1) { s with pwr := { s.pwr with gateHeld := [] } }

/-- DIE_GATE (R281). -/
def execDieGate (die : Nat) (s : State) : Res := onUnit (dieExists s.pkg die) s (onPower s (s.gateCmd die true))

/-- DIE_GATE_DONE (R281, R292): the power switches are open: OFF, GATE_DONE, the contents lost; an UNGATE that waited runs. -/
def execDieGateDone (die : Nat) (s : State) : Res :=
  onUnit (dieExists s.pkg die) s
    (if s.dieState die = 1 then
       onPower s (let t := ((s.eraseDie die).setDieState die 2).event (dieUnit die) F.POWER_EVENT_GATE_DONE
                  let t := t.updIslands die (fun _ => {})
                  if t.pwr.ungateWait.contains die then
                    ({ t with pwr := { t.pwr with ungateWait := t.pwr.ungateWait.filter (· != die) } }).ungate die
                  else t)
     else s)

/-- DIE_UNGATE (R282). -/
def execDieUngate (die : Nat) (s : State) : Res := onUnit (dieExists s.pkg die) s (onPower s (s.gateCmd die false))

/-- UNGATE_STEP_TIMEOUT (R282): the die is OFF again, GATE_REJECT is set, and the fault unit is told, with a class CLOCK report whose DETAIL
no rule gives: a free value (log 26). -/
def execUngateStepTimeout (die : Nat) (s : State) : Res :=
  onUnit (dieExists s.pkg die) s
    (if s.dieState die = 3 then
       onPower s (let (v, t) := s.takeFree
                  ((t.setDieState die 2).event (dieUnit die) F.POWER_EVENT_GATE_REJECT).faultEvent (dieUnit die) 11 (v.extractLsb' 0 32))
     else s)

/-- ENGINE_CLOCK_STOP (R283): an engine or collective unit that has been idle stops its own clock, and wakes on its next input. -/
def execEngineClockStop (st : Nat) (s : State) : Res :=
  onUnit (stationKind s.pkg st).isSome s
    (if s.pwr.asleep.contains st || !(s.getEng st).insts.isEmpty then s else { s with pwr := { s.pwr with asleep := s.pwr.asleep ++ [st] } })

/-! ## Spacing and the throttle (R105, R286–R288) -/

/-- s of R105 before and after its clamp, for a bank under a ramp limit: the spacing, and whether it was clamped. -/
def spacingOf (b : Bank) (ramp : Nat) : Nat × Bool :=
  let d := ramp * bankWaves b
  let need := (bankCurrent b * 400 + d - 1) / max 1 d
  let v := max (bankSpacingMin b) need
  if bankSpacingMax b < v then (bankSpacingMax b, true) else (v, false)

/-- The plain form of the variant in force, as a bank (R287). -/
def State.plainBank (s : State) : Bank :=
  match coolVariant s.bankIn.variant false, s.image with
  | some v, some i => bankOf i.recs v
  | _, _ => s.bankIn

/-- The ramp limit in use. -/
def State.ramp (s : State) : Nat := s.pw F.POWER_RAMP_USED

/-- RAMP_SHORT evaluated for the plain form (R287). -/
def State.rampShort (s : State) : Bool := (spacingOf s.plainBank s.ramp).2

/-- The causes of a throttle that hold, as POWER_STATUS.CAUSE codes them: 1 throttle_n, 2 level, 4 RAMP_SHORT, 8 FORCE_THROTTLE. -/
def State.causes (s : State) (short : Bool) : Nat :=
  (if s.pw F.POWER_STATUS_THROTTLE_N = 0 then 1 else 0) + (if s.levelThrottle (s.pw F.POWER_STATUS_LEVEL) then 2 else 0) +
    (if short then 4 else 0) + (if s.pw F.POWER_CTRL_FORCE_THROTTLE = 1 then 8 else 0)

/-- The shaper scale of a throttle (R288). -/
def State.throttleS (s : State) : Nat := min s.sThrottle (s.levelS (s.pw F.POWER_STATUS_LEVEL))

/-- The throttle after its causes have been taken anew (R287, R288): it begins with the first, holds while one holds, and runs its hold when
none does. -/
def State.throttleWith (s : State) (short : Bool) : State :=
  let c := s.causes short
  let on := s.pw F.POWER_STATUS_THROTTLE = 1
  let s := s.setPw F.POWER_STATUS_CAUSE c
  if c != 0 then
    let s := ((s.setPw F.POWER_STATUS_THROTTLE 1).setPw F.POWER_STATUS_HOLDING 0).setPw F.POWER_STATUS_S s.throttleS
    if on then s else (s.pwEvent F.POWER_EVENT_THROTTLE_ON).coolRequest true
  else if on then
    let s := if s.pw F.POWER_STATUS_HOLDING = 1 then s else { s with pwr := { s.pwr with holdAt := s.time.ft } }
    (s.setPw F.POWER_STATUS_HOLDING 1).setPw F.POWER_STATUS_S s.throttleS
  else s

/-- The throttle with RAMP_SHORT as last evaluated. -/
def State.throttle (s : State) : State := s.throttleWith ((s.pw F.POWER_STATUS_CAUSE).testBit 2)

/-- The throttle with RAMP_SHORT evaluated now, which raises POWER_EVENT.RAMP_SHORT where it holds (R105, R287). -/
def State.throttleEval (s : State) : State :=
  let short := s.rampShort
  (if short then s.pwEvent F.POWER_EVENT_RAMP_SHORT else s).throttleWith short

/-- PC_INPUT_SAMPLE (R286, R287): the package power controller's inputs as sampled: the ramp limit in use, the level, and what follows from
them. -/
def State.pcSample (s : State) (valid : Bool) (ramp : W12) (budget : W3) : State :=
  let was := s.ramp
  let s := (s.setPw F.POWER_STATUS_PC_VALID (bitNat valid)).setPw F.POWER_RAMP_IN ramp.toNat
  let s := if valid && ramp != 0 then s.setPw F.POWER_RAMP_USED ramp.toNat
    else (s.setPw F.POWER_RAMP_USED s.defaultRamp).pwEvent F.POWER_EVENT_RAMP_MISSING
  let s := if valid && s.pw F.POWER_STATUS_LEVEL != budget.toNat then
      (s.setPw F.POWER_STATUS_LEVEL budget.toNat).pwEvent F.POWER_EVENT_LEVEL_CHANGE else s
  if s.ramp = was then s.throttle else s.throttleEval

/-- The inputs of a side as they stand (R285): those of the active management core's die govern, the other side's are only remembered. -/
def State.pcPins (s : State) (side : Nat) : PcPins := kget {} s.pwr.pins side

/-- The state with a side's inputs remembered. -/
def State.setPins (s : State) (side : Nat) (p : PcPins) : State := { s with pwr := { s.pwr with pins := kins s.pwr.pins side p } }

/-- PC_INPUT_SAMPLE (R285–R287). -/
def execPcInputSample (valid : PinLevel) (ramp : W12) (budget : W3) (s : State) : Res :=
  let t := s.setPins valid.side { s.pcPins valid.side with valid := valid.level, ramp := ramp, budget := budget }
  onUnit (decide (valid.side < 2)) s (onPower s (if valid.side = s.pinSide then t.pcSample valid.level ramp budget else t))

/-- The filtered level of throttle_n. -/
def State.throttlePin (s : State) (level : Bool) : State := (s.setPw F.POWER_STATUS_THROTTLE_N (bitNat level)).throttle

/-- THROTTLE_N_CHANGE (R285, R287): the filtered level of a side's throttle_n. -/
def execThrottleNChange (level : PinLevel) (s : State) : Res :=
  let t := s.setPins level.side { s.pcPins level.side with throttleN := level.level }
  onUnit (decide (level.side < 2)) s (onPower s (if level.side = s.pinSide then t.throttlePin level.level else t))

/-- THROTTLE_HOLD_EXPIRY (R287, R288): no cause has held for HOLD_US: the throttle ends. -/
def State.throttleEnd (s : State) : State :=
  if s.pw F.POWER_STATUS_THROTTLE = 1 ∧ s.pw F.POWER_STATUS_HOLDING = 1 ∧ 4000 * s.powerParam 8 2 1000 ≤ ftSince s.time.ft s.pwr.holdAt then
    ((((s.setPw F.POWER_STATUS_THROTTLE 0).setPw F.POWER_STATUS_HOLDING 0).setPw F.POWER_STATUS_S 16).pwEvent
      F.POWER_EVENT_THROTTLE_OFF).coolRequest false
  else s

/-- THROTTLE_HOLD_EXPIRY (R287). -/
def execThrottleHoldExpiry (s : State) : Res := done s (onPower s s.throttleEnd)

/-- FORCE_THROTTLE_WRITE (R287): the field is written, and is a cause while it is 1. -/
def execForceThrottleWrite (value : Bool) (s : State) : Res :=
  done s (onPower s ((s.setPw F.POWER_CTRL_FORCE_THROTTLE (bitNat value)).throttle))

/-- The state with kalends_warn at a level, on the governing side (R285). -/
def State.setWarn (s : State) (v : Bool) : State := ({ s with pwr := { s.pwr with kwarn := v } }).emit (.pin (.kalendsWarn s.pinSide) v)

/-- KALENDS_WARN_RISE (R289): from KWARN_NS before the next Kalends on, with KWARN_EN at 1. -/
def execKalendsWarnRise (s : State) : Res :=
  done s (if s.pw F.POWER_CTRL_KWARN_EN = 1 ∧ s.pwr.kwarn = false ∧
      ftGe (s.time.ft + BitVec.ofNat 64 (4 * s.powerParam 10 2 1000)) s.nextKalends = true then s.setWarn true else s)

/-- KALENDS_WARN_FALL (R289): from PROC_WAVES × s after a Kalends on, unless the next one's warning has begun. -/
def execKalendsWarnFall (s : State) : Res :=
  done s (if s.pwr.kwarn = true ∧ ftGe s.time.ft (s.alm.start + BitVec.ofNat 64 (bankWaves s.bankIn * s.alm.spacing)) = true ∧
      ftGe (s.time.ft + BitVec.ofNat 64 (4 * s.powerParam 10 2 1000)) s.nextKalends = false then s.setWarn false else s)

/-- The pins of the new active core's die govern after a takeover (R285, R292): its inputs as last sampled there take effect, and a warning moves to its
kalends_warn. -/
def State.powerTakeover (s : State) (old : Nat) : State :=
  if s.pkg.isS || old == s.pinSide then s
  else
    let s := if s.pwr.kwarn then (s.emit (.pin (.kalendsWarn old) false)).emit (.pin (.kalendsWarn s.pinSide) true) else s
    match kfind s.pwr.pins s.pinSide with
    | none => s
    | some p => (s.pcSample p.valid p.ramp p.budget).throttlePin p.throttleN

/-- An Equinox takes a bank with another F_MIN_MHZ: an island that now runs below it sets BELOW_FMIN (R275). -/
def State.fminTaken (s : State) (was : Nat) : State :=
  s.isl.foldl (fun s e =>
    if e.2.running && decide (25 * e.2.freq < bankFMin s.bankIn) && decide (was ≤ 25 * e.2.freq) then s.event (dieUnit (e.1 / 1024)) F.POWER_EVENT_BELOW_FMIN
    else s) s

end Sys2Proof.Machine
end

