-- ==== Sys2Proof/Machine/Port.lean ====
section
/-! DEFINITION. The training of a port, its qualification, and how it leaves service (R132–R135, R253–R264, R283). -/
namespace Sys2Proof.Machine

/-! ## Status -/

/-- A field of a port's registers. -/
def State.pt (s : State) (q : Nat) (f : Fld) : Nat := s.fld (portUnit s.pkg q) f

/-- The state with a field of a port set. -/
def State.setPt (s : State) (q : Nat) (f : Fld) (v : Nat) : State := s.setFld (portUnit s.pkg q) f v

/-- An event of a port. -/
def State.ptEvent (s : State) (q : Nat) (f : Fld) : State := s.event (portUnit s.pkg q) f

/-- Events counted at a port. -/
def State.ptCount (s : State) (q off n : Nat) : State := s.count (portUnit s.pkg q) off n

/-- DETAIL of LINK_ERR and LINK_LOSS (Table 13-3): what, the down cause, the effective mask. -/
def State.linkDetail (s : State) (q what : Nat) : W32 :=
  BitVec.ofNat 32 (what * 2 ^ 24 + s.pt q F.PORT_STATUS_DOWN_CAUSE * 2 ^ 20 + s.pt q F.PORT_STATUS_EFF_MASK)

/-- A link fault of a port. -/
def State.linkFault (s : State) (q cls what : Nat) : State := s.faultEvent (portUnit s.pkg q) cls (s.linkDetail q what)

/-- The lanes that the fuses leave a port (R254). -/
def State.fuseMask (s : State) (q : Nat) : W16 := ~~~ (BitVec.ofNat 16 (s.pt q F.PORT_LANE_FUSE_BAD))

/-- The lanes a port can use: those it has not cleared, without the fuses' bad lanes. -/
def State.ownLanes (s : State) (q : Nat) : W16 := (s.getPort q).ownMask &&& s.fuseMask q

/-- The effective mask: its own mask ANDed with the peer's, once heard (R133). -/
def State.effMask (s : State) (q : Nat) : W16 := match (s.getPort q).peer with
  | some t => s.ownLanes q &&& t.laneMask
  | none => s.ownLanes q

/-- The layout of a mask (R133), as PORT_STATUS.LAYOUT codes it: 1 all lanes, 2 lanes 0–7, 3 lanes 8–15, 0 none. -/
def layoutOf (m : W16) : Nat :=
  if m = 0xFFFF then 1 else if m &&& 0xFF = 0xFF then 2 else if m &&& 0xFF00 = 0xFF00 then 3 else 0

/-- The layout that a port sends on (R133). -/
def State.txLayout (s : State) (q : Nat) : Nat := layoutOf (s.effMask q)

/-! ## What the transmitter sends (R122–R124, R132, R254, Table 05-10) -/

/-- The lanes of a layout: number, physical lane, and whether it is sent inverted (R254). -/
def State.txLanes (s : State) (q layout : Nat) : List (Nat × Nat × Bool) :=
  (layoutLanes layout).map (fun i =>
    (i, (s.pair (portUnit s.pkg q) R.PORT_LANE_MAP).toNat / 16 ^ i % 16, (s.pt q F.PORT_LANE_FUSE_TX_INVERT).testBit i))

/-- An alignment codeword goes out, and the scrambler starts over (R122, R124). -/
def State.sendAcw (s : State) (q : Nat) : State :=
  let lay := s.txLayout q
  (s.updPort q (fun p => { p with txScram := 0x7FFFFFFF, txCount := 0 })).emit (.acw q ((s.txLanes q lay).map (fun x =>
    (x.2.1, (List.replicate (lanePeriod lay) (acwSymbol x.1)).flatMap (fun v => (symbolLevels v).map (flipLevel x.2.2))))))

/-- The codewords between two alignment codewords: 4,095 in ACTIVE, 15 in training (R124). -/
def State.acwPeriod (s : State) (q : Nat) : Nat := if s.portState q = 5 then 4095 else 15

/-- A codeword of ten units goes out: scrambled, encoded and dealt to the lanes, behind an alignment codeword where one is due (R122–R124). -/
def State.sendCodeword (s : State) (q : Nat) (us : List WireUnit) : State :=
  let s := if s.acwPeriod q ≤ (s.getPort q).txCount then s.sendAcw q else s
  let lay := s.txLayout q
  let r := scramble (unitsPayload us) (s.getPort q).txScram
  let sym := rsEncode (payloadSymbols r.1)
  let lanes := s.txLanes q lay
  (s.updPort q (fun p => { p with txScram := r.2, txCount := p.txCount + 1 })).emit (.codeword q ((List.range lanes.length).map (fun k =>
    let x := lanes.getD k (0, 0, false)
    (x.2.1, (laneSymbols sym lanes.length k).flatMap (fun v => (symbolLevels v).map (flipLevel x.2.2))))))

/-- The TRAIN unit of a port (Table 05-11). -/
def State.ownTrain (s : State) (q : Nat) : Train :=
  { port := q, ackSeq := BitVec.ofNat 12 ((s.getPort q).e + 4095), laneMask := s.ownLanes q, switch := s.pkg.isS, retrain := !(s.getPort q).cold,
    state := s.portState q - 1, version := 1, coord := s.coord, serial := s.pkg.serial }

/-- The codewords of TRAIN units that a port in ALIGN, EXCHANGE or READY sends in one cycle of the reference, 10 ns: six on 16 lanes, three on 8. -/
def State.sendTrain : Nat → State → Nat → State
  | 0, s, _ => s
  | n + 1, s, q => State.sendTrain n (s.sendCodeword q (List.replicate 10 (ctlUnit (.train (s.ownTrain q))))) q

/-- What a port's transmitter sends in one cycle of the reference (Table 05-10, log 73): TRAIN units in training, counted in READY; in ACTIVE the
units that wait, in codewords. Codewords of IDLE units alone are left out. -/
def State.portTick (s : State) (q : Nat) : State :=
  let st := s.portState q
  if 2 ≤ st ∧ st ≤ 4 then
    let n := if s.txLayout q = 1 then 6 else 3
    let s := s.sendTrain n q
    if st = 4 then
      s.updPort q (fun p => { p with readyTx := min 16 (p.readyTx + 10 * n), rxActive := p.rxActive || (decide (16 ≤ p.readyRx) && decide (16 ≤ p.readyTx + 10 * n)) })
    else s
  else if st = 5 then
    let us := (s.getPort q).txUnits
    (packUnits (us.length + 1) [] us).foldl (fun s c => s.sendCodeword q c) (s.updPort q (fun p => { p with txUnits := [] }))
  else s

/-- One cycle of the reference: FT advances, and the ports' transmitters go on (log 16). -/
def State.cycle (s : State) : State :=
  let s := s.tick
  s.ports.foldl (fun s e => s.portTick e.1) s

/-- PRBS31 starts on the lanes of a port's own mask (Table 05-10). -/
def State.sendPrbs (s : State) (q : Nat) : State :=
  s.emit (.prbs31 q ((s.txLanes q 1).filterMap (fun x => if (s.ownLanes q).getLsbD x.1 then some x.2.1 else none)))

/-- A command of a port, with the parts it reaches. -/
def onPort (q : Nat) (s t : State) : Res := onUnit (decide (q < portCount s.pkg)) s (onPath s t)

/-! ## Leaving service (R263) -/

/-- The replay buffer and the sequence state are discarded (R135). -/
def State.dropLink (s : State) (q : Nat) : State :=
  let n := (s.getPort q).held.length
  (s.ptCount q R.PORT_REPLAY_DISCARD n).updPort q (fun p =>
    { p with held := [], resend := none, tries := 0, lseq := 0, e := 0, nakFor := none })

/-- Every frame queued for a port is dropped, counted and refused (R263). -/
def State.dropQueued (s : State) (q : Nat) : State :=
  let p := s.getPort q
  let fs := (p.localq ++ p.direct ++ p.staged).flatMap (fun e => e.2.map (·.f))
  fs.foldl (fun s f => s.downDrop q f) (s.updPort q (fun p => { p with localq := [], direct := [], staged := [], stageUse := [], hq := [] }))

/-- A port enters DOWN for a cause (R263): link state and queued frames go, the event and cause are recorded, and any cause but COMMANDED and
DISABLED is reported. -/
def State.portDown (s : State) (q cause : Nat) : State :=
  let s := ((s.dropLink q).dropQueued q).updPort q (fun p =>
    { p with peer := none, trainRx := 0, readyRx := 0, readyTx := 0, rxActive := false, away := false, rxLanes := [], rxOpen := [], txUnits := [],
             goodCw := 0, savedUse := false, win := {}, fails := 0, failSum := {}, cold := true })
  let s := ((((s.setPt q F.PORT_STATUS_STATE 0).setPt q F.PORT_STATUS_DOWN_CAUSE cause).setPt q F.PORT_STATUS_LAYOUT 0).setPt q
    F.PORT_STATUS_EFF_MASK 0)
  let s := if s.pt q F.PORT_STATUS_QUAL = 1 then s.setPt q F.PORT_STATUS_QUAL 0 else s
  let s := (s.timePortDown q).ptEvent q F.PORT_EVENT_DOWN
  if cause = 1 ∨ cause = 2 then s
  else if cause = 6 then (s.ptEvent q F.PORT_EVENT_MISCABLED).linkFault q 3 7
  else s.linkFault q 3 6

/-! ## Training states (R132, R133, R256) -/

/-- What a training forgets as it begins again. An alignment codeword is due at once. -/
def Port.rewind (p : Port) : Port :=
  { p with trainRx := 0, readyRx := 0, readyTx := 0, rxActive := false, rxLanes := [], rxOpen := [], txUnits := [], txCount := 4095, goodCw := 0, peer := none }

/-- A port moves to a training state. -/
def State.toState (s : State) (q st : Nat) : State :=
  ((s.setPt q F.PORT_STATUS_STATE st).setPt q F.PORT_STATUS_DOWN_CAUSE 0).setPt q F.PORT_STATUS_EFF_MASK (s.effMask q).toNat

/-- The bytes of a port's saved-settings record (Table 11-2). -/
def State.savedBytes (s : State) (q : Nat) : List Byte :=
  (List.range 36).flatMap (fun i => leBytes 4 (s.fldAt (portUnit s.pkg q) F.PORT_SAVED_WORD i))

/-- Whether the saved-settings record may be used (R256). -/
def State.savedOk (s : State) (q : Nat) : Bool :=
  let b := s.savedBytes q
  leAt b 136 4 == (crc32c (b.take 136)).toNat && leAt b 5 1 == 1 && leAt b 4 1 == q && leAt b 0 4 == s.pkg.hash.toNat

/-- A cold training begins (R132, R135, R256): the link state is zero, PRBS31 goes out, and saved settings are taken or rejected. -/
def State.coldTrain (s : State) (q : Nat) : State :=
  let s := ((s.timePortDown q).dropLink q).updPort q (fun p => { p.rewind with cold := true, adapted := true, txOff := 0x3FFF, layoutWas := 0 })
  let s := s.ptCount q R.PORT_RETRAINS 1
  if layoutOf (s.ownLanes q) = 0 then s.portDown q 5
  else
    let s := (s.toState q 1).sendPrbs q
    if s.pt q F.PORT_CTRL_USE_SAVED = 0 then s
    else if s.savedOk q then s.updPort q (fun p => { p with savedUse := true, adapted := false })
    else s.ptEvent q F.PORT_EVENT_SAVED_REJECT

/-- A retrain begins (R132, R135): the port leaves ACTIVE for ALIGN, or SIGNAL where CDR is lost, and keeps its link state. -/
def State.retrain (s : State) (q st : Nat) : State :=
  let was := s.portLayout q
  let s := (s.timePortDown q).updPort q (fun p => { p.rewind with cold := false, away := true, layoutWas := was, txOff := 0x3FFF })
  let s := (s.ptCount q R.PORT_RETRAINS 1).ptEvent q F.PORT_EVENT_RETRAIN
  if layoutOf (s.ownLanes q) = 0 then s.portDown q 5
  else if st = 1 then (s.toState q 1).sendPrbs q else s.toState q st

/-- Lock (R124): three alignment codewords in step on every lane of the layout that the peer sends (R133). -/
def Port.acwLock (p : Port) : Bool :=
  let lanes := layoutLanes (rxLayout p.rxLanes)
  !lanes.isEmpty && lanes.all (fun i => p.rxLanes.any (fun e => e.2.number == i && decide (3 ≤ e.2.seen)))

/-- ALIGN ends on lock and three consecutive correctable codewords (Table 05-10). -/
def State.alignCheck (s : State) (q : Nat) : State :=
  let p := s.getPort q
  if s.portState q = 2 ∧ p.acwLock = true ∧ 3 ≤ p.goodCw then (s.updPort q (fun p => { p with trainRx := 0 })).toState q 3 else s

/-- The port that a torus port's peer must be, and its package (Table 11-3). -/
def torusPeer (coord : BitVec 17) (q : Nat) : Nat × Nat :=
  let k := q % 7
  let a := k / 2
  let c := coordAxis coord a
  let n := if k % 2 = 0 then (c + 1) % 8 else (c + 7) % 8
  (q - k + (if k % 2 = 0 then k + 1 else k - 1), coord.toNat - c * 8 ^ a + n * 8 ^ a)

/-- The peer check of Table 11-3: the cause of the first row that fails. -/
def State.peerFails (s : State) (q : Nat) (t : Train) : Option Nat :=
  if t.version != 1 then some 7
  else if s.pkg.isS then
    (let k := s.pt q F.PORT_EXPECT_KIND
     if k = 1 then (if t.switch || t.port % 7 != 6 || t.coord.toNat != s.pt q F.PORT_EXPECT_COORD then some 6 else none)
     else if k = 2 then (if t.switch then none else some 6) else none)
  else if q % 7 = 6 then (if t.switch then none else some 6)
  else
    let e := torusPeer s.coord q
    if t.switch || t.port != e.1 || t.coord.toNat != e.2 then some 6 else none

/-- The peer's TRAIN unit recorded in the PORT_PEER registers (R259). -/
def State.recordPeer (s : State) (q : Nat) (t : Train) : State :=
  let u := portUnit s.pkg q
  ((((((s.setFld u F.PORT_PEER_INFO_VALID 1).setFld u F.PORT_PEER_INFO_VERSION t.version).setFld u F.PORT_PEER_INFO_SWITCH (bitNat t.switch)).setFld u
    F.PORT_PEER_INFO_PORT t.port).setFld u F.PORT_PEER_COORD_COORD t.coord.toNat).setPair u R.PORT_PEER_SERIAL t.serial)

/-- EXCHANGE ends (R259, R260): a retraining port whose peer is another package trains on as cold; the peer is recorded and checked. -/
def State.exchangeDone (s : State) (q : Nat) (t : Train) : State :=
  let u := portUnit s.pkg q
  let moved := !(s.getPort q).cold && s.pt q F.PORT_PEER_INFO_VALID == 1 &&
    (s.pair u R.PORT_PEER_SERIAL != t.serial || s.pt q F.PORT_PEER_COORD_COORD != t.coord.toNat)
  let s := if moved then (s.dropLink q).updPort q (fun p => { p with cold := true }) else s
  let s := s.recordPeer q t
  match s.peerFails q t with
  | some c => s.portDown q c
  | none => (s.updPort q (fun p => { p with readyRx := 0, readyTx := 0 })).toState q 4

/-- What a TRAIN unit does in ALIGN, EXCHANGE and READY (R132, R133, R135). -/
def State.trainUnit (s : State) (q : Nat) (t : Train) : State :=
  let p := s.getPort q
  let s := if !p.cold && !t.retrain then (s.dropLink q).updPort q (fun p => { p with cold := true }) else s
  let was := layoutOf (s.effMask q)
  let s := s.updPort q (fun p => { p with peer := some t })
  let now := layoutOf (s.effMask q)
  let s := s.setPt q F.PORT_STATUS_EFF_MASK (s.effMask q).toNat
  if now = 0 then s.portDown q 5
  else if now != was then (s.updPort q (fun p => { p.rewind with peer := some t })).toState q 2
  else
    match s.portState q with
    | 3 =>
      if 2 ≤ t.state ∧ rxLayout (s.getPort q).rxLanes = now then
        let n := (s.getPort q).trainRx + 1
        let s := s.updPort q (fun p => { p with trainRx := n })
        if 64 ≤ n then s.exchangeDone q t else s
      else s.updPort q (fun p => { p with trainRx := 0 })
    | 4 =>
      if t.state = 3 then
        s.updPort q (fun p => { p with readyRx := min 16 (p.readyRx + 1), rxActive := p.rxActive || (decide (16 ≤ p.readyRx + 1) && decide (16 ≤ p.readyTx)) })
      else s
    | _ => s

/-- A TRAIN unit arrives (R132, R133, R135, R259): another STATE makes it ignored; from ACTIVE it starts a retrain. -/
def State.trainIn (s : State) (q : Nat) (t : Train) : State :=
  if t.state = 0 ∨ 3 < t.state then s
  else if s.portState q = 5 then s.retrain q 2
  else if 2 ≤ s.portState q then s.trainUnit q t
  else s

/-- TRAIN_RECEIVE (R132, R133, R135, R259). -/
def execTrainReceive (port : Nat) (t : Train) (s : State) : Res := onPort port s (s.trainIn port t)

/-- SIGNAL_LOCK (R132): CDR is locked and the PRBS31 bits are error-free on every lane. -/
def execSignalLock (port : Nat) (s : State) : Res :=
  onPort port s (if s.portState port = 1 then (s.updPort port (fun p => { p with savedUse := false })).toState port 2 else s)

/-- SIGNAL_TIMEOUT (R132). -/
def execSignalTimeout (port : Nat) (s : State) : Res := onPort port s (if s.portState port = 1 then s.portDown port 3 else s)

/-- The lanes of a mask on which no ACW has been found in step are cleared from a port's own mask, where some lane has been found (R133). -/
def State.clearDeaf (s : State) (q : Nat) : State :=
  let p := s.getPort q
  let heard := (List.range 16).filter (fun i => p.rxLanes.any (fun e => e.2.number == i && decide (3 ≤ e.2.seen)))
  let mask := heard.foldl (fun (m : W16) i => m ||| (1#16 <<< i)) 0
  if heard.isEmpty || p.ownMask &&& mask == p.ownMask then s
  else (s.updPort q (fun p => { p with ownMask := p.ownMask &&& mask })).ptEvent q F.PORT_EVENT_DEGRADE

/-- ALIGN_TIMEOUT (R132, R133): lanes that could not lock are cleared (DEDUCED, log 29), and the port signals again: an entry to SIGNAL that is not
from ACTIVE is a cold training. -/
def execAlignTimeout (port : Nat) (s : State) : Res :=
  onPort port s (if s.portState port = 2 then (s.clearDeaf port).coldTrain port else s)

/-- EXCHANGE_TIMEOUT (R132). -/
def execExchangeTimeout (port : Nat) (s : State) : Res :=
  onPort port s (if s.portState port = 3 then (s.updPort port Port.rewind).toState port 2 else s)

/-- READY_TIMEOUT (R132). -/
def execReadyTimeout (port : Nat) (s : State) : Res :=
  onPort port s (if s.portState port = 4 then (s.updPort port Port.rewind).toState port 2 else s)

/-- RETRAIN_TIMEOUT (R132, R135): a port that has left ACTIVE and not regained it goes DOWN. -/
def execRetrainTimeout (port : Nat) (s : State) : Res :=
  onPort port s (if 1 ≤ s.portState port ∧ s.portState port ≤ 4 ∧ (s.getPort port).away = true then s.portDown port 4 else s)

/-- CDR_LOSS (R132): a retrain that begins in SIGNAL. -/
def execCdrLoss (port : Nat) (s : State) : Res := onPort port s (if s.portState port = 5 then s.retrain port 1 else s)

/-- SAVED_SETTINGS_TIMEOUT (R256): settings that have not brought the port out of SIGNAL are discarded. -/
def execSavedSettingsTimeout (port : Nat) (s : State) : Res :=
  onPort port s
    (if s.portState port = 1 ∧ (s.getPort port).savedUse = true then
       (s.updPort port (fun p => { p with savedUse := false, adapted := true })).ptEvent port F.PORT_EVENT_SAVED_REJECT
     else s)

/-! ## ACTIVE -/

/-- A saved-settings record with its CRC (Table 11-2). -/
def State.setSaved (s : State) (q : Nat) (b : List Byte) : State :=
  let full := b.take 136 ++ leBytes 4 (crc32c (b.take 136)).toNat ++ [0, 0, 0, 0]
  (List.range 36).foldl (fun s i => s.setFldAt (portUnit s.pkg q) F.PORT_SAVED_WORD i (leAt full (4 * i) 4)) s

/-- The lane settings that adaptation found: no rule gives them, so they are free values (R257, log 30). -/
def adaptedLanes : Nat → State → List Byte × State
  | 0, s => ([], s)
  | n + 1, s =>
    let (v, s) := s.takeFree
    let (l, s) := adaptedLanes n s
    (leBytes 8 v.toNat ++ l, s)

/-- The record of a full adaptation is written, not yet qualified (R257). -/
def State.writeSaved (s : State) (q : Nat) : State :=
  let (lanes, s) := adaptedLanes 16 s
  s.setSaved q (leBytes 4 s.pkg.hash.toNat ++ [BitVec.ofNat 8 q, 1, 0, 0] ++ lanes)

/-- The record's QUALIFIED flag is set (R257). -/
def State.qualifySaved (s : State) (q : Nat) : State :=
  let b := s.savedBytes q
  s.setSaved q (b.take 6 ++ [BitVec.ofNat 8 (leAt b 6 1 / 2 * 2 + 1)] ++ b.drop 7)

/-- Qualification at the start of ACTIVE (R258, R261, R264): inherited from a qualified record after a warm reset, or a window after a cold
training, after a retrain that changed the layout, and in place of one that a retrain broke off. -/
def State.qualStart (s : State) (q : Nat) (cold changed : Bool) : State :=
  if cold && !(s.getPort q).adapted && s.pt q F.PORT_CTRL_USE_SAVED == 1 && s.savedOk q && leAt (s.savedBytes q) 6 1 % 2 == 1 then
    (s.setPt q F.PORT_STATUS_INHERITED 1).setPt q F.PORT_STATUS_QUAL 2
  else if s.pt q F.PORT_CTRL_QUAL_EN = 1 && (cold || changed || s.pt q F.PORT_STATUS_QUAL == 1) then
    ((s.setPt q F.PORT_STATUS_QUAL 1).setPt q F.PORT_STATUS_INHERITED 0).updPort q (fun p => { p with win := {}, fails := 0, failSum := {} })
  else s

/-- A port enters ACTIVE (R132, R135, R257, R261): the peer's acknowledgement frees what it covers and the rest is replayed; every peer VC
counts as OFF until a FLOW unit comes, and one is sent. -/
def State.enterActive (s : State) (q : Nat) : State :=
  let p := s.getPort q
  let lay := layoutOf (s.effMask q)
  let kept := match p.peer with
    | some t => if p.cold then p.held else p.held.filter (fun h => decide (2048 ≤ (t.ackSeq.toNat + 4096 - h.lseq) % 4096))
    | none => p.held
  let s := s.updPort q (fun p => { p with
    held := kept, resend := kept.head?.map (·.lseq), tries := 0, rxActive := true, away := false, txCount := 4095 })
  let s := if kept.isEmpty then s else s.ptCount q R.PORT_REPLAY 1
  let s := ((s.toState q 5).setPt q F.PORT_STATUS_LAYOUT lay).ptEvent q F.PORT_EVENT_ACTIVE
  let s := s.qualStart q p.cold (p.layoutWas != lay)
  let s := if p.cold && p.adapted then s.writeSaved q else s
  (s.updPort q (fun p => { p with cold := false, adapted := false })).sendCtl q (.flow p.off)

/-- TX_ACTIVE_AT_ACW (R132): in READY, once 16 READY units have come, the transmitter enters ACTIVE at its next ACW. -/
def execTxActiveAtAcw (port : Nat) (s : State) : Res :=
  onPort port s (if s.portState port = 4 ∧ (s.getPort port).rxActive = true then s.enterActive port else s)

/-! ## Qualification and monitoring (R261, R262) -/

/-- Whether a window passes (R261); B ≤ 2.4 × 10^−4 × 5,440 × C is B × 10,000 ≤ 13,056 × C. -/
def State.windowPasses (s : State) (q : Nat) (w : QualSum) : Bool :=
  w.u == 0 && decide (w.s * 1024 ≤ s.pt q F.PORT_QUAL_CFG_LAMBDA_MAX * w.c) && decide (w.b * 10000 ≤ 13056 * w.c) &&
  decide (w.h ≤ s.pt q F.PORT_QUAL_CFG_HIGH_MAX)

/-- The lane that holds at least half of a window's symbol errors. -/
def badLane (w : QualSum) : Option Nat := (List.range 16).find? (fun i => decide (0 < w.s) && decide (w.s ≤ 2 * kget 0 w.lanes i))

/-- A lane is cleared from a port's own mask and the port retrains (R262). -/
def State.degrade (s : State) (q lane : Nat) : State :=
  ((s.updPort q (fun p => { p with ownMask := p.ownMask &&& ~~~ (1#16 <<< lane) })).ptEvent q F.PORT_EVENT_DEGRADE).retrain q 2

/-- The lane that may be cleared: AUTO_DEGRADE is 1, the port has 16 lanes, and one lane holds half of the errors (R262). -/
def State.degradeLane (s : State) (q : Nat) (w : QualSum) : Option Nat :=
  if s.pt q F.PORT_CTRL_AUTO_DEGRADE = 1 ∧ s.portLayout q = 1 then badLane w else none

/-- QUAL_WINDOW_END (R261, R262). -/
def execQualWindowEnd (port : Nat) (s : State) : Res :=
  onPort port s
    (if s.portState port = 5 ∧ s.pt port F.PORT_STATUS_QUAL = 1 then
       let w := (s.getPort port).win
       let ok := s.windowPasses port w
       let s := ((s.setPt port F.PORT_STATUS_QUAL (if ok then 2 else 3)).updPort port (fun p => { p with win := {}, fails := 0, failSum := {} })).ptEvent
         port F.PORT_EVENT_QUAL_DONE
       if ok then s.qualifySaved port
       else match s.degradeLane port w with
         | some l => s.degrade port l
         | none => s.portDown port 8
     else s)

/-- The sums of two windows. -/
def QualSum.add (a b : QualSum) : QualSum :=
  { c := a.c + b.c, s := a.s + b.s, b := a.b + b.b, u := a.u + b.u, h := a.h + b.h,
    lanes := b.lanes.foldl (fun m e => kput 0 m e.1 (kget 0 m e.1 + e.2)) a.lanes }

/-- MONITOR_WINDOW_END (R262): the third consecutive failing window sets BER_HIGH, is reported, and may clear a lane. -/
def execMonitorWindowEnd (port : Nat) (s : State) : Res :=
  onPort port s
    (if s.portState port = 5 ∧ s.pt port F.PORT_STATUS_QUAL = 2 then
       let p := s.getPort port
       if s.windowPasses port p.win then s.updPort port (fun p => { p with win := {}, fails := 0, failSum := {} })
       else
         let sum := p.failSum.add p.win
         if p.fails < 2 then s.updPort port (fun p => { p with win := {}, fails := p.fails + 1, failSum := sum })
         else
           let s := ((s.updPort port (fun p => { p with win := {}, fails := 0, failSum := {} })).ptEvent port F.PORT_EVENT_BER_HIGH).linkFault port 3 5
           match s.degradeLane port sum with
           | some l => s.degrade port l
           | none => s
     else s)

/-! ## Commands (Table 11-7, R263, R264, R283) -/

/-- PORT_AUTO_RETRY (R263): 100 ms after a timeout or a failed qualification, with AUTO_RETRY at 1. -/
def execPortAutoRetry (port : Nat) (s : State) : Res :=
  let c := s.pt port F.PORT_STATUS_DOWN_CAUSE
  onPort port s
    (if s.portState port = 0 ∧ s.pt port F.PORT_CTRL_AUTO_RETRY = 1 ∧ s.pt port F.PORT_CTRL_EN = 1 ∧ (c = 3 ∨ c = 4 ∨ c = 8) then s.coldTrain port
     else s)

/-- In ACTIVE, a retrain with the full mask. -/
def State.portFull (s : State) (q : Nat) : State :=
  if s.portState q = 5 then (s.updPort q (fun p => { p with ownMask := 0xFFFF })).retrain q 2 else s

/-- PORT_FULL_RETRAIN (R134, R264). -/
def execPortFullRetrain (port : Nat) (s : State) : Res := onPort port s (s.portFull port)

/-- In ACTIVE, a retrain with the current mask. -/
def State.portAgain (s : State) (q : Nat) : State := if s.portState q = 5 then s.retrain q 2 else s

/-- PORT_RETRAIN (R134, R264). -/
def execPortRetrain (port : Nat) (s : State) : Res := onPort port s (s.portAgain port)

/-- A port that is not DOWN discards its link state and trains cold. -/
def State.portCold (s : State) (q : Nat) : State := if s.portState q = 0 then s else s.coldTrain q

/-- PORT_COLD (Table 11-7). -/
def execPortCold (port : Nat) (s : State) : Res := onPort port s (s.portCold port)

/-- PORT_ENABLE (R259, R263, R283): EN becomes 1; a disabled port never trains; another trains cold with its fuses' lanes. -/
def State.portEnable (s : State) (q : Nat) : State :=
  let was := s.pt q F.PORT_CTRL_EN
  let s := s.setPt q F.PORT_CTRL_EN 1
  if was = 1 then s
  else if !s.portEnabled q then s
  else (s.updPort q (fun p => { p with ownMask := 0xFFFF })).coldTrain q

/-- EN becomes 0: DOWN at once, with cause COMMANDED (R263, R264). -/
def State.portDisable (s : State) (q : Nat) : State := (s.setPt q F.PORT_CTRL_EN 0).portDown q 1

/-- PORT_POWER_GATE (R283): EN has been 0 for 1 ms; the port's contents are lost, except PORT_SAVED. -/
def execPortPowerGate (port : Nat) (s : State) : Res :=
  onPort port s (if s.pt port F.PORT_CTRL_EN = 0 then { s with ports := kdel s.ports port } else s)

end Sys2Proof.Machine
end

