-- ==== Sys2Proof/Machine/Link.lean ====
section
/-! DEFINITION. The Ewelyn link layer of a port: codewords and alignment, frames in LSEQ order, go-back-N replay, FLOW, and the route step
of an accepted frame at the ingress (R118, R119, R122, R124–R131, R140, R141, R147, R149, R265, R379). -/
namespace Sys2Proof.Machine

/-! ## Qualification and monitoring counts (R261, R262) -/

/-- What the decoder corrected of a codeword: the symbols on each 16-lane number, and the bits. -/
structure Corrections where
  lanes : List Nat
  bits : Nat
  deriving DecidableEq, Repr

/-- The corrected symbols. -/
def Corrections.total (c : Corrections) : Nat := c.lanes.foldl (· + ·) 0

/-- The set bits of a symbol. -/
def symbolBits (x : Nat) : Nat := ((List.range 10).filter (fun i => x.testBit i)).length

/-- The corrections between what was received and what was decoded, on a layout's lanes. -/
def corrections (layout : Nat) (rx out : List Nat) : Corrections :=
  let lanes := layoutLanes layout
  let n := max 1 lanes.length
  let errs := (List.range 544).filter (fun i => rx.getD i 0 != out.getD i 0)
  { lanes := (List.range 16).map (fun l => (errs.filter (fun i => lanes[i % n]? == some l)).length),
    bits := errs.foldl (fun b i => b + symbolBits (rx.getD i 0 ^^^ out.getD i 0)) 0 }

/-- A running qualification or monitoring window's sums with a codeword added (R261, R262). -/
def QualSum.codeword (w : QualSum) (c : Corrections) : QualSum :=
  { c := w.c + 1, s := w.s + c.total, b := w.b + c.bits, u := w.u, h := w.h + (if 12 ≤ c.total then 1 else 0),
    lanes := (List.range 16).foldl (fun m i => kput 0 m i (kget 0 m i + c.lanes.getD i 0)) w.lanes }

/-- Whether a port's window runs: in ACTIVE, qualifying or monitoring after a pass. -/
def State.windowRuns (s : State) (q : Nat) : Bool :=
  s.portTrained q && (s.pt q F.PORT_STATUS_QUAL == 1 || s.pt q F.PORT_STATUS_QUAL == 2)

/-! ## Acknowledgement and replay (R128–R130) -/

/-- A HEAD, ACK or FLOW unit in READY counts as READY received: once the port has sent 16 READY units its receiver is ACTIVE (Table 05-10). -/
def State.heard (s : State) (q : Nat) : State :=
  if s.portState q = 4 then s.updPort q (fun p => { p with readyRx := 16, rxActive := p.rxActive || decide (16 ≤ p.readyTx) }) else s

/-- Whether a port's receiver takes frames and acknowledgements: in ACTIVE, and in READY, where they make it ACTIVE. -/
def State.rxOn (s : State) (q : Nat) : Bool := s.portState q == 4 || s.portState q == 5

/-- Every held frame up to and including a sequence number is freed; progress restarts the count of replays (R130). -/
def Port.ackTo (p : Port) (seq : Nat) : Port :=
  let kept := p.held.filter (fun h => decide (2048 ≤ (seq + 4096 - h.lseq) % 4096))
  { p with held := kept, tries := if kept.length < p.held.length then 0 else p.tries,
           resend := match p.resend with
             | none => none
             | some n => if kept.any (fun h => h.lseq == n) then some n else kept.head?.map (·.lseq) }

/-- A replay starts from a held frame (R130): counted; the replay after LIMIT replays of the same oldest frame is replay exhaustion
(DEDUCED, log 31), which is reported and retrains the port. -/
def State.replayFrom (s : State) (q n : Nat) : State :=
  let p := s.getPort q
  if !p.held.any (fun h => h.lseq == n) then s
  else if s.pt q F.PORT_REPLAY_CFG_LIMIT ≤ p.tries then
    (((s.updPort q (fun p => { p with tries := 0 })).ptEvent q F.PORT_EVENT_REPLAY_EXHAUST).linkFault q 3 4).retrain q 2
  else (s.ptCount q R.PORT_REPLAY 1).updPort q (fun p => { p with tries := p.tries + 1, resend := some n })

/-- A NAK(E) leaves unless one for E is outstanding (R129). -/
def State.sendNak (s : State) (q : Nat) : State :=
  let e := (s.getPort q).e
  if (s.getPort q).nakFor == some e then s
  else ((s.updPort q (fun p => { p with nakFor := some e })).ptCount q R.PORT_NAK_TX 1).sendCtl q (.nak e)

/-- NAK_RESEND (R129): the NAK for E is sent again. -/
def execNakResend (port : Nat) (s : State) : Res :=
  onPort port s
    (let e := (s.getPort port).e
     if s.rxOn port && (s.getPort port).nakFor == some e then (s.ptCount port R.PORT_NAK_TX 1).sendCtl port (.nak e) else s)

/-- An ACK unit arrives (R130). -/
def State.ackIn (s : State) (q : Nat) (ackSeq : W12) : State :=
  if s.rxOn q then (s.heard q).updPort q (fun p => p.ackTo ackSeq.toNat) else s

/-- A NAK unit arrives (R130): it frees the frames before EXPECTED and replays the rest. -/
def State.nakIn (s : State) (q : Nat) (expected : W12) : State :=
  if s.rxOn q then (s.updPort q (fun p => p.ackTo ((expected.toNat + 4095) % 4096))).replayFrom q expected.toNat else s

/-- A FLOW unit arrives (R131). -/
def State.flowIn (s : State) (q : Nat) (off : W14) : State :=
  if s.rxOn q then (s.heard q).updPort q (fun p => { p with txOff := off }) else s

/-- CTRL_ACK_RECEIVE (R130). -/
def execCtrlAckReceive (port : Nat) (ackSeq : W12) (s : State) : Res := onPort port s (s.ackIn port ackSeq)

/-- CTRL_NAK_RECEIVE (R130). -/
def execCtrlNakReceive (port : Nat) (expected : W12) (s : State) : Res := onPort port s (s.nakIn port expected)

/-- CTRL_FLOW_RECEIVE (R131). -/
def execCtrlFlowReceive (port : Nat) (off : W14) (s : State) : Res := onPort port s (s.flowIn port off)

/-- FLOW_PERIODIC (R131): the present OFF bits are sent again. -/
def execFlowPeriodic (port : Nat) (s : State) : Res :=
  onPort port s (if s.portTrained port then s.sendCtl port (.flow (s.getPort port).off) else s)

/-- REPLAY_TIMEOUT (R130): the sender replays from its oldest held frame. -/
def execReplayTimeout (port : Nat) (s : State) : Res :=
  onPort port s
    (match (s.getPort port).held with
     | h :: _ => if s.portTrained port then s.replayFrom port h.lseq else s
     | [] => s)

/-! ## The ingress (R118, R119, R140, R141) -/

/-- A route error at a port: counted in PORT_ROUTE_ERR, reported, and refused NOT_READY (R118). -/
def State.ingressError (s : State) (q : Nat) (f : Frame) : State :=
  let u := portUnit s.pkg q
  ((s.count u R.PORT_ROUTE_ERR 1).faultEvent u 14 (malformedDetail f 4)).refuseAt u f stNotReady (portRefuser s.pkg)

/-- The route step (R118): the port writes itself, or 30, into the current entry and moves on. -/
def stepRoute (p : Package) (q : Nat) (f : Frame) : Frame :=
  { f with route := routeSet f.route f.hopPtr.toNat (if p.isS then 30 else q), hopPtr := f.hopPtr + 1 }

/-- Whether the entry a frame stands at is one that its package can follow (R36, R118, R138, R140). -/
def State.routeSound (s : State) (q : Nat) (f : Frame) : Bool :=
  let e := routeEntry f.route f.hopPtr.toNat
  let here := f.destCoord == s.coord && (stationKind s.pkg f.destStation.toNat).isSome
  if 32 ≤ f.hopPtr.toNat then false
  else if s.pkg.isS then
    e == 30 && (if f.destCoord == s.coord then here else (s.switchPort f ((upMask s.bankIn).getLsbD q)).isSome)
  else if e == 31 then here
  else if e == 30 then s.portEnabled (7 * (q / 7) + 6)
  else decide (e < 28) && s.portEnabled e && portDie s.pkg e == portDie s.pkg q

/-- The die path that a port ingress loads (R119, R141): the delivery table for entry 31, else the transit table, from the bank in force. -/
def State.ingressPath (s : State) (q : Nat) (f : Frame) : BitVec 40 × W4 :=
  let u := portUnit s.pkg q
  let e := routeEntry f.route f.hopPtr.toNat
  if s.pkg.isS then (0, 0)
  else if e == 31 then deliveryPath s.bankIn u (f.destStation.toNat / 2048)
  else transitPath s.bankIn u (if e == 30 then 7 * (q / 7) + 6 else e)

/-- The entry of the delivery, transit or switch table that an ingress reads, as an item of its unit's tables (R299). -/
def State.pathIndex (s : State) (q : Nat) (f : Frame) : Nat :=
  let e := routeEntry f.route f.hopPtr.toNat
  inBank s.alm.inForce (if s.pkg.isS then f.destCoord.toNat % 16384 else if e == 31 then f.destStation.toNat / 2048
    else 32 + (if e == 30 then 7 * (q / 7) + 6 else e))

/-- A frame's ingress in order: its route step, its epoch and die path, its key's admission, and its receive buffer (R45, R95, R118, R119,
R141, R147). -/
def State.ingress (s : State) (q plane vc : Nat) (f : Frame) : State :=
  let f1 := stepRoute s.pkg q f
  if 32 ≤ f.hopPtr.toNat then s.ingressError q f
  else if !s.routeSound q f1 then s.ingressError q f1
  else
    let path := s.ingressPath q f1
    let g := { f1 with epoch := s.epochNow, dpath := path.1, dpLen := path.2 }
    let u := portUnit s.pkg q
    let nu := niUnit (portStation s.pkg q)
    if s.tableBad u srPath (s.pathIndex q f1) then (s.readBad u srPath (s.pathIndex q f1)).ingressError q f1
    else if !s.admits s.alm.inForce s.bankIn u g.pkey.toNat then
      ((((s.readBad u srAdmit (inBank s.alm.inForce g.pkey.toNat)).count nu R.NI_PKEY_DROP 1).mark nu F.NI_STATUS_KEY_VIOLATION).faultEvent nu 7 (partitionDetail g 1)).refuseAt u g stPartition (portRefuser s.pkg)
    else
      let now := s.portFt q
      let k := plane * 4 + vc
      (s.updPort q (fun p => { p with rxq := kput [] p.rxq k (pushHead (kget [] p.rxq k) g now []) })).flowCheck q

/-- A HOLIDAY frame is consumed at the ingress and its ARG handed to the controller (R379, log 28). -/
def State.holidayFrame (s : State) (q : Nat) (f : Frame) : State :=
  if getBits f.seq 31 30 = 2 then s.holidayReleaseFrame q f.seq
  else if getBits f.seq 31 30 = 1 then s.holidayStopFrame q f.seq else s.holidayMalformed q

/-! ## LINK_FRAME_RECEIVE (R128, R129, R149) -/

/-- What becomes of an arriving frame (Table 05-9, R149), the first row that applies. -/
inductive Arrival where
  | badCrc | malformed (why : Nat) | duplicate | ahead | noSpace | accepted
  deriving DecidableEq, Repr

/-- Whether a port VC has space for a frame (R149, R265). -/
def State.vcSpace (s : State) (q plane vc : Nat) (f : Frame) : Bool :=
  (flowBit plane vc).isSome &&
  decide (portUnits (kget [] (s.getPort q).rxq (plane * 4 + vc)) + (64 * unitCount f.length.toNat + 255) / 256 ≤ s.vcCap q plane vc)

/-- The row of Table 05-9 that an arriving frame falls under. A frame whose units are not complete is malformed (R125). -/
def State.arrival (s : State) (q : Nat) (lf : LinkFrame) : Arrival :=
  let behind := ((s.getPort q).e + 4096 - lf.lseq.toNat) % 4096
  if lf.uncorr then .badCrc
  else if !lf.complete then .malformed 2
  else if !frameCrcOk lf then .badCrc
  else if decide (1 ≤ behind) && decide (behind ≤ 2048) then .duplicate
  else if behind != 0 then .ahead
  else match malformedWhy lf.frame lf.plane with
    | some w => .malformed w
    | none => if lf.frame.cls == 0x3C || s.vcSpace q lf.plane lf.vc lf.frame then .accepted else .noSpace

/-- A frame is accepted (R128, R129): E moves on, the acknowledgement leaves at once (DESIGN CHOICE, log 32), and the frame is delivered. -/
def State.acceptFrame (s : State) (q : Nat) (lf : LinkFrame) : State :=
  let e := (s.getPort q).e
  let s := (s.updPort q (fun p => { p with e := (p.e + 1) % 4096, nakFor := none })).sendCtl q (.ack e)
  if lf.frame.cls == 0x3C then s.holidayFrame q lf.frame else s.ingress q lf.plane lf.vc lf.frame

/-- An arriving frame (Table 05-9, R149): discarded with its count and report, or accepted. An intact frame's LINKWORD acknowledges. -/
def State.linkFrame (s : State) (q : Nat) (lf : LinkFrame) : State :=
  let row := s.arrival q lf
  let s := if frameCrcOk lf && !lf.uncorr && lf.complete && lf.ackValid then s.updPort q (fun p => p.ackTo lf.ackSeq.toNat) else s
  match row with
  | .badCrc => ((s.ptCount q R.PORT_CRC_ERR 1).linkFault q 2 1).sendNak q
  | .malformed w => ((s.ptCount q R.PORT_MALFORMED 1).faultEvent (portUnit s.pkg q) 14 (malformedDetail lf.frame w)).sendNak q
  | .duplicate => s
  | .ahead => (s.ptCount q R.PORT_CRC_ERR 1).sendNak q
  | .noSpace => ((s.ptCount q R.PORT_FLOW_OVERRUN 1).linkFault q 2 3).sendNak q
  | .accepted => s.acceptFrame q lf

/-- A whole frame arrives on the wire: the receiver takes it in READY and ACTIVE. -/
def State.frameIn (s : State) (q : Nat) (lf : LinkFrame) : State := if s.rxOn q then (s.heard q).linkFrame q lf else s

/-- LINK_FRAME_RECEIVE (R118, R119, R125, R128, R129, R149, R379). -/
def execLinkFrameReceive (port : Nat) (lf : LinkFrame) (s : State) : Res := onPort port s (s.frameIn port lf)

/-! ## Codewords (R121–R126) -/

/-- The frame that is open ends: complete, or malformed where its units have not all come (R125), or with a unit lost (R128). -/
def State.closeFrame (s : State) (q : Nat) (uncorr : Bool) : State :=
  match (s.getPort q).rxOpen with
  | [] => s
  | us => (s.updPort q (fun p => { p with rxOpen := [] })).frameIn q (unitsFrame us uncorr)

/-- A CONTROL unit acts as its type says (R126): IDLE does nothing, and a reserved type is ignored and counted. -/
def State.controlUnit (s : State) (q : Nat) (b : BitVec 512) : State :=
  if !ctlKnown (b.toNat % 256) then s.ptCount q R.PORT_MALFORMED 1
  else match ctlOf b with
    | none => s
    | some (.ack n) => s.ackIn q (BitVec.ofNat 12 n)
    | some (.nak n) => s.nakIn q (BitVec.ofNat 12 n)
    | some (.flow off) => s.flowIn q off
    | some (.sync x) => s.syncIn q x
    | some (.followUp fu) => s.followUpIn q fu
    | some (.delayReq x) => s.delayReqIn q x
    | some (.delayResp x t4) => s.delayRespIn q x t4
    | some (.train t) => s.trainIn q t

/-- A unit of a decoded codeword (R125, R126, Table 05-9): a HEAD ends the frame before it, malformed if it is not complete, and opens one; data units
go to the open frame, which is whole with its last, and are discarded where none is open. -/
def State.unitIn (s : State) (q : Nat) (u : WireUnit) : State :=
  if u.ut = 3 then s.controlUnit q u.bits
  else if !s.rxOn q then s
  else if u.ut = 2 then (s.closeFrame q false).updPort q (fun p => { p with rxOpen := [u] })
  else match (s.getPort q).rxOpen with
    | [] => s
    | h :: us =>
      let s := s.updPort q (fun p => { p with rxOpen := h :: us ++ [u] })
      if headUnits h ≤ us.length + 2 then s.closeFrame q false else s

/-- A correctable codeword: counted with its corrections, descrambled, and its ten units delivered (R122, R126, R271). -/
def State.codewordGood (s : State) (q : Nat) (rx out : List Nat) : State :=
  let c := corrections (rxLayout (s.getPort q).rxLanes) rx out
  let s := (((s.ptCount q R.PORT_CW 1).ptCount q R.PORT_FEC_SYM c.total).ptCount q R.PORT_FEC_BITS c.bits).ptCount q R.PORT_CW_HIGH (if 12 ≤ c.total then 1 else 0)
  let s := (List.range 16).foldl (fun s i => s.ptCount q (R.PORT_LANE_SYMERR + 8 * i) (c.lanes.getD i 0)) s
  let s := if s.windowRuns q then s.updPort q (fun p => { p with win := p.win.codeword c }) else s
  let r := scramble (symbolsPayload out) (s.getPort q).scram
  let s := s.updPort q (fun p => { p with scram := r.2, goodCw := p.goodCw + 1 })
  ((payloadUnits r.1).foldl (fun s u => s.unitIn q u) s).alignCheck q

/-- An uncorrectable codeword: counted, reported, its ten units discarded, and the frame that was open with them (R122, R128, R262). The generator runs on
over it. -/
def State.codewordBad (s : State) (q : Nat) : State :=
  let s := (s.ptCount q R.PORT_FEC_UNCORR 1).linkFault q 2 2
  let s := if s.windowRuns q then s.updPort q (fun p => { p with win := { p.win with u := p.win.u + 1 } }) else s
  (s.updPort q (fun p => { p with scram := (prbsBits 5140 p.scram).2, goodCw := 0 })).closeFrame q true

/-- A codeword arrives (R122): its symbols are taken from the lanes and decoded. -/
def State.codewordIn (s : State) (q : Nat) (cw : Codeword) : State :=
  let rx := codewordSymbols (s.getPort q).rxLanes cw
  match rsDecode rx with
  | some out => s.codewordGood q rx out
  | none => s.codewordBad q

/-- CODEWORD_RECEIVE (R122, R126): a port decodes once it has found its lanes (R124), from ALIGN on. -/
def execCodewordReceive (port : Nat) (cw : Codeword) (s : State) : Res :=
  onPort port s (if s.portState port < 2 ∨ (s.getPort port).acwLock = false then s else s.codewordIn port cw)

/-! ## Alignment (R124) -/

/-- Lock is lost: in READY and ACTIVE a retrain starts; a port that has not been ACTIVE returns to ALIGN. -/
def State.lockLost (s : State) (q : Nat) : State :=
  if s.portState q = 5 then s.retrain q 2
  else if s.portState q = 4 then (s.updPort q Port.rewind).toState q 2 else s

/-- An alignment codeword on a physical lane (R122, R124): it seeds the descrambler, and it gives the lane its number, its polarity and its skew. One that
comes a multiple of 16 codewords after the lane's last, with a skew of 64 ns at most, brings it nearer lock; another spacing loses lock. -/
def State.acwIn (s : State) (q : Nat) (acw : Acw) : State :=
  match acwFind acw.levels with
  | none => s
  | some (i, inv) =>
    let old := kget {} (s.getPort q).rxLanes acw.lane
    let inStep := acw.spacing % 16 == 0 && decide (0 < acw.spacing) && decide (acw.skew ≤ 64)
    let seen := if inStep ∧ old.number = i ∧ old.inverted = inv then min 3 (old.seen + 1) else 1
    let s := s.updPort q (fun p => { p with
      scram := 0x7FFFFFFF, rxLanes := kput {} p.rxLanes acw.lane { number := i, inverted := inv, skew := acw.skew, seen := seen } })
    if !inStep && decide (4 ≤ s.portState q) then s.lockLost q else s.alignCheck q

/-- ACW_RECEIVE (R122, R124). -/
def execAcwReceive (port : Nat) (acw : Acw) (s : State) : Res := onPort port s (if s.portState port < 2 then s else s.acwIn port acw)

/-- ACW_LOCK_TIMEOUT (R124). -/
def execAcwLockTimeout (port : Nat) (s : State) : Res := onPort port s (s.lockLost port)

end Sys2Proof.Machine
end

