-- ==== Sys2Proof/Machine/Dlink.lean ====
section
/-! DEFINITION. The die-to-die crossings: the retry layer, the adapters, training, half mode, qualification and DOWN (R111, R119, R152,
R266–R272). -/
namespace Sys2Proof.Machine

/-! ## The crossing and its ends -/

/-- A field of a crossing's end. -/
def State.dl (s : State) (key : Nat) (f : Fld) : Nat := s.fld (dlinkUnit (key / 32) (key % 32)) f

/-- The state with a field of a crossing's end set. -/
def State.setDl (s : State) (key : Nat) (f : Fld) (v : Nat) : State := s.setFld (dlinkUnit (key / 32) (key % 32)) f v

/-- An event of a crossing's end. -/
def State.dlEvent (s : State) (key : Nat) (f : Fld) : State := s.event (dlinkUnit (key / 32) (key % 32)) f

/-- Events counted at a crossing's end. -/
def State.dlCount (s : State) (key off n : Nat) : State := s.count (dlinkUnit (key / 32) (key % 32)) off n

/-- A fault of a crossing (Table 13-3): what, and MODULE_OK. -/
def State.dlFault (s : State) (key cls what : Nat) : State :=
  s.faultEvent (dlinkUnit (key / 32) (key % 32)) cls (BitVec.ofNat 32 (what * 2 ^ 24 + s.dl key F.DLINK_STATUS_MODULE_OK * 256))

/-- Whether a crossing may carry flits at all: both dies are there and enabled, and the boot state does not disable it (R38, R344). -/
def State.dlAllowed (s : State) (key : Nat) : Bool :=
  !s.bootDis.contains (dlinkUnit (key / 32) (key % 32)) && !s.dieDisabled (key / 32) &&
  match dlPeerKey s.pkg key with
  | none => false
  | some k => !s.bootDis.contains (dlinkUnit (k / 32) (k % 32)) && !s.dieDisabled (k / 32)

/-- A command of a crossing's end, with the parts it reaches. -/
def onDlink (die n : Nat) (s t : State) : Res :=
  onUnit (unitKind s.pkg (dlinkUnit die n) == some .dlink && !s.dieDisabled die) s (onPath s t)

/-! ## DOWN (R152) -/

/-- What has come of a worm as a frame (R112, R152): with a payload byte for each of its LENGTH, those of poisoned flits marked, and with cut set also
those that have not come. -/
def Worm.frame (w : Worm) (plane : Nat) (cut : Bool) : Frame :=
  let len := w.f.length.toNat
  let rest := if cut && decide (w.data.length < len) then [(w.data.length, len)] else []
  let data := (w.data ++ List.replicate (len - w.data.length) 0).take len
  let m := frameMarks w.f ++ w.poison ++ rest
  let f := { w.f with payload := data }
  if cut && len == 0 then { f with poison := true } else if m.isEmpty then f else { withMarks plane m f with poison := true }

/-- A frame that crossed, at its adapter (R111, R119): malformed, a route error, or DPATH shifted and handed to the router. -/
def State.crossed (s : State) (key plane vc : Nat) (f : Frame) : State :=
  let r := dlRouter key
  let u := routerUnit (key / 32) (r.1 % 1024)
  match malformedWhy f plane with
  | some why => (s.count u R.ROUTER_MALFORMED 1).faultEvent u 14 (malformedDetail f why)
  | none =>
    if f.dpLen = 0 || f.dpath.toNat % 32 != key / 32 then
      ((s.count u R.ROUTER_ROUTE_ERR 1).faultEvent u 14 (malformedDetail f 4)).refuseAt u f stNotReady 1
    else s.emit (.adapterFrame r.1 r.2 plane vc { f with dpath := f.dpath >>> 5, dpLen := f.dpLen - 1 })

/-- The frames that stand whole in a crossing's adapter: those whose head has not crossed. -/
def wholeFrames (q : List TxFlit) : List Frame := q.filterMap (fun x => x.slot.head)

/-- The frames whose tail a crossing's end still holds. -/
def Dlink.worms (d : Dlink) : Nat :=
  (d.txq.flatMap (fun e => e.2.filter (·.slot.tail))).length + ((d.held.flatMap (·.slots)).filter (·.tail)).length -
    (d.txq.flatMap (fun e => wholeFrames e.2)).length

/-- One end goes DOWN (R152): frames whose worm is cut are consumed, those partly beyond are poisoned, those that stand whole in the adapter are
route errors there, and its retry state goes. -/
def State.endDown (s : State) (key : Nat) : State :=
  let d := s.getDl key
  let r := dlRouter key
  let s := d.rxOpen.foldl (fun s e => if e.2.bad then s else s.crossed key (e.1 / 4) (e.1 % 4) (e.2.frame (e.1 / 4) true)) s
  let s := d.txq.foldl (fun s e => (wholeFrames e.2).foldl (fun s f => s.downError (r.1 / 1024) (r.1 % 1024) f) s) s
  let s := (s.dlCount key R.DLINK_CUT (d.worms + d.rxOpen.length)).updDl key (fun _ => {})
  let s := if s.dl key F.DLINK_STATUS_QUAL = 1 then s.setDl key F.DLINK_STATUS_QUAL 0 else s
  if s.dl key F.DLINK_STATUS_STATE = 0 then s else (s.setDl key F.DLINK_STATUS_STATE 0).dlEvent key F.DLINK_EVENT_DOWN

/-- A crossing goes DOWN, both its ends, and the fault unit is told (R152, R263, log 33). -/
def State.crossingDown (s : State) (key : Nat) : State :=
  let s := (s.dlFault key 5 5).endDown key
  match dlPeerKey s.pkg key with
  | some k => s.endDown k
  | none => s

/-! ## The retry layer (R267, R268) -/

/-- A container without flits that acknowledges, or with NAK names the DSEQ that is expected. -/
def ackOf (e : Nat) (nak : Bool) : Container :=
  { dseq := 0, dack := BitVec.ofNat 12 (if nak then e else e + 4095), ackValid := true, nak := nak, sequenced := false, crcOk := true, slots := [] }

/-- A container that carries the acknowledgement leaves. -/
def State.sendAck (s : State) (key : Nat) : State := s.emit (.container (key / 32) (key % 32) (ackOf (s.getDl key).e false))

/-- A NAK leaves in the next container unless one is outstanding. -/
def State.sendDlNak (s : State) (key : Nat) : State :=
  if (s.getDl key).nak then s
  else (s.updDl key (fun d => { d with nak := true })).emit (.container (key / 32) (key % 32) (ackOf (s.getDl key).e true))

/-- Held containers up to and including a DSEQ are freed; progress restarts the count of replays. -/
def Dlink.ackTo (d : Dlink) (seq : Nat) : Dlink :=
  let kept := d.held.filter (fun c => decide (2048 ≤ (seq + 4096 - c.dseq.toNat) % 4096))
  { d with held := kept, tries := if kept.length < d.held.length then 0 else d.tries }

/-- Every held container is sent again; the replay after LIMIT replays of the same oldest container is retry exhaustion, which takes the
crossing DOWN (R268, log 31). -/
def State.dlReplay (s : State) (key : Nat) : State :=
  let d := s.getDl key
  if d.held.isEmpty then s
  else if s.dl key F.DLINK_RETRY_CFG_LIMIT ≤ d.tries then
    ((s.dlEvent key F.DLINK_EVENT_RETRY_EXHAUST).dlFault key 5 3).crossingDown key
  else
    let s := (s.dlCount key R.DLINK_RETRY 1).updDl key (fun d => { d with tries := d.tries + 1 })
    d.held.foldl (fun s c => s.emit (.container (key / 32) (key % 32) { c with dack := BitVec.ofNat 12 (d.e + 4095) })) s

/-- A flit added to its worm (R112): a bad head is a head error, after which the rest of the frame is consumed; a bad data flit travels on poisoned. -/
def Worm.add (w : Worm) (x : Slot) : Worm :=
  let at_ := w.data.length
  { w with data := w.data ++ x.data, bad := w.bad || (x.err && x.data.isEmpty),
           poison := if !x.data.isEmpty && (x.poison || x.err) then w.poison ++ [(at_, at_ + x.data.length)] else w.poison }

/-- A flit's slot is handed to the adapter (R152): a head opens a worm, a tail ends it. -/
def State.slotIn (s : State) (key : Nat) (x : Slot) : State :=
  let k := x.plane * 4 + x.vc
  let old : Option Worm := match x.head with
    | some f => some { f := f }
    | none => kfind (s.getDl key).rxOpen k
  match old with
  | none => s
  | some o =>
    let w := o.add x
    let s := if w.bad && !o.bad then s.headError (routerUnit (key / 32) ((dlRouter key).1 % 1024)) else s
    if x.tail then
      let s := s.updDl key (fun d => { d with rxOpen := kdel d.rxOpen k })
      if w.bad then s else s.crossed key x.plane x.vc (w.frame x.plane false)
    else s.updDl key (fun d => { d with rxOpen := kins d.rxOpen k w })

/-- A SEQUENCED container (R268): accepted in order and handed to the adapter, discarded as a duplicate, or NAKed. -/
def State.sequenced (s : State) (key : Nat) (c : Container) : State :=
  let behind := ((s.getDl key).e + 4096 - c.dseq.toNat) % 4096
  if behind = 0 then
    (c.slots.foldl (fun s x => s.slotIn key x)
      ((s.updDl key (fun d => { d with e := (d.e + 1) % 4096, nak := false })).dlCount key R.DLINK_CONTAINERS 1)).sendAck key
  else if behind ≤ 2048 then s
  else s.sendDlNak key

/-- A container (R268): a bad CRC is counted, reported and NAKed; otherwise its acknowledgement acts, then its slots. -/
def State.containerIn (s : State) (key : Nat) (c : Container) : State :=
  if !c.crcOk then
    let s := (s.dlCount key R.DLINK_CRC_ERR 1).dlFault key 4 1
    (if s.dl key F.DLINK_STATUS_QUAL = 1 then s.updDl key (fun d => { d with qualErr := d.qualErr + 1 }) else s).sendDlNak key
  else
    let s := if c.nak then (s.updDl key (fun d => d.ackTo ((c.dack.toNat + 4095) % 4096))).dlReplay key
      else if c.ackValid then s.updDl key (fun d => d.ackTo c.dack.toNat) else s
    let s := if c.sequenced then s.sequenced key c else s
    s.pumpDl key (s.dlFt key)

/-- DLINK_CONTAINER_RECEIVE (R111, R119, R152, R268). -/
def execDlinkContainerReceive (die : Nat) (n : Nat) (c : Container) (s : State) : Res :=
  onDlink die n s (if 2 ≤ s.dl (die * 32 + n) F.DLINK_STATUS_STATE then s.containerIn (die * 32 + n) c else s)

/-- DLINK_REPLAY_TIMEOUT (R152, R268). -/
def execDlinkReplayTimeout (die : Nat) (n : Nat) (s : State) : Res :=
  onDlink die n s (if 2 ≤ s.dl (die * 32 + n) F.DLINK_STATUS_STATE then s.dlReplay (die * 32 + n) else s)

/-- DLINK_NAK_RESEND (R268): a NAK that is still outstanding is sent again. -/
def execDlinkNakResend (die : Nat) (n : Nat) (s : State) : Res :=
  onDlink die n s
    (let d := s.getDl (die * 32 + n)
     if 2 ≤ s.dl (die * 32 + n) F.DLINK_STATUS_STATE ∧ d.nak = true then s.emit (.container die n (ackOf d.e true)) else s)

/-! ## Training, half mode and qualification (R266, R269, R270) -/

/-- Whether a module set holds an intact pair: 0–1 or 2–3. -/
def pairOk (m : W4) : Bool := (m.getLsbD 0 && m.getLsbD 1) || (m.getLsbD 2 && m.getLsbD 3)

/-- Both ends of a crossing that are in service train again, keeping their retry state (R269). -/
def State.crossingRetrain (s : State) (key : Nat) : State :=
  let one (s : State) (k : Nat) : State := if 2 ≤ s.dl k F.DLINK_STATUS_STATE then s.setDl k F.DLINK_STATUS_STATE 1 else s
  match dlPeerKey s.pkg key with
  | some k => one (one s key) k
  | none => one s key

/-- DLINK_MODULE_FAIL (R269): a failed pair puts the crossing into half mode, by a retrain, if HALF_ALLOW is 1 and the other pair is intact;
else it goes DOWN. A crossing that trains after EN rose learns what it has at the end of its training. -/
def State.moduleFail (s : State) (key m : Nat) : State :=
  let st := s.dl key F.DLINK_STATUS_STATE
  let was := BitVec.ofNat 4 (s.dl key F.DLINK_STATUS_MODULE_OK)
  let ok := was &&& ~~~ (1#4 <<< m)
  let s := s.setDl key F.DLINK_STATUS_MODULE_OK ok.toNat
  if st = 0 ∨ (s.getDl key).fresh = true ∨ 4 ≤ m ∨ ok = was then s
  else if pairOk ok && s.dl key F.DLINK_CTRL_HALF_ALLOW == 1 then (if st = 2 then s.crossingRetrain key else s)
  else s.crossingDown key

/-- DLINK_MODULE_FAIL (R269). -/
def execDlinkModuleFail (die : Nat) (n : Nat) (m : Nat) (s : State) : Res := onDlink die n s (s.moduleFail (die * 32 + n) m)

/-- DLINK_HALF_TIMEOUT (R152, R269): a crossing that has not returned to service goes DOWN. -/
def execDlinkHalfTimeout (die : Nat) (n : Nat) (s : State) : Res :=
  onDlink die n s
    (if s.dl (die * 32 + n) F.DLINK_STATUS_STATE = 1 ∧ (s.getDl (die * 32 + n)).fresh = false then s.crossingDown (die * 32 + n) else s)

/-- Qualification after training under EN (R270): inherited where QUAL was kept at pass, else a window where QUAL_EN is 1. -/
def State.dlQualStart (s : State) (key : Nat) : State :=
  if s.dl key F.DLINK_STATUS_QUAL = 2 then s.setDl key F.DLINK_STATUS_INHERITED 1
  else if s.dl key F.DLINK_CTRL_QUAL_EN = 1 then
    ((s.setDl key F.DLINK_STATUS_QUAL 1).setDl key F.DLINK_STATUS_INHERITED 0).updDl key (fun d => { d with qualErr := 0, qualRepair := false })
  else s

/-- DLINK_TRAIN_DONE (R266, R269): repaired lanes are reported; the crossing enters ACTIVE, or ACTIVE_HALF on one intact pair where allowed, and
resends what it holds; or it goes DOWN. -/
def State.trainDone (s : State) (key : Nat) (modules : W4) (repaired : Nat) : State :=
  let more := decide (s.dl key F.DLINK_STATUS_REPAIRED < repaired)
  let fresh := (s.getDl key).fresh
  let s := (s.setDl key F.DLINK_STATUS_MODULE_OK modules.toNat).setDl key F.DLINK_STATUS_REPAIRED (min 16 repaired)
  let s := if more then
      ((s.dlEvent key F.DLINK_EVENT_REPAIR).dlFault key 4 2).updDl key (fun d => { d with qualRepair := d.qualRepair || s.dl key F.DLINK_STATUS_QUAL == 1 })
    else s
  let s := s.updDl key (fun d => { d with fresh := false })
  if modules = 0xF ∨ (pairOk modules = true ∧ s.dl key F.DLINK_CTRL_HALF_ALLOW = 1) then
    let half := modules != 0xF
    let s := (s.setDl key F.DLINK_STATUS_STATE (if half then 3 else 2)).dlEvent key F.DLINK_EVENT_ACTIVE
    let s := if half then (s.dlEvent key F.DLINK_EVENT_HALF).dlFault key 5 4 else s
    let s := if fresh then s.dlQualStart key else s
    let d := s.getDl key
    (d.held.foldl (fun s c => s.emit (.container (key / 32) (key % 32) c)) s).pumpDl key (s.dlFt key)
  else s.crossingDown key

/-- DLINK_TRAIN_DONE (R266, R269, R270). -/
def execDlinkTrainDone (die : Nat) (n : Nat) (modules : W4) (repaired : Nat) (s : State) : Res :=
  onDlink die n s (if s.dl (die * 32 + n) F.DLINK_STATUS_STATE = 1 then s.trainDone (die * 32 + n) modules repaired else s)

/-- DLINK_QUAL_END (R270): pass with no lane repair and at most 5 CRC errors; a fail takes the crossing DOWN. -/
def State.dlQualEnd (s : State) (key : Nat) : State :=
  let d := s.getDl key
  if d.qualRepair = false ∧ d.qualErr ≤ 5 then
    ((s.setDl key F.DLINK_STATUS_QUAL 2).dlEvent key F.DLINK_EVENT_QUAL_DONE).pumpDl key (s.dlFt key)
  else ((s.setDl key F.DLINK_STATUS_QUAL 3).dlEvent key F.DLINK_EVENT_QUAL_DONE).crossingDown key

/-- DLINK_QUAL_END (R270). -/
def execDlinkQualEnd (die : Nat) (n : Nat) (s : State) : Res :=
  let key := die * 32 + n
  onDlink die n s (if 2 ≤ s.dl key F.DLINK_STATUS_STATE ∧ s.dl key F.DLINK_STATUS_QUAL = 1 then s.dlQualEnd key else s)

/-- DLINK_RETRAIN (R269). -/
def execDlinkRetrain (die : Nat) (n : Nat) (s : State) : Res := onDlink die n s (s.crossingRetrain (die * 32 + n))

/-- An end whose EN is 1 and that is DOWN begins to train. -/
def State.dlTrain (s : State) (key : Nat) : State :=
  if s.dl key F.DLINK_CTRL_EN = 1 ∧ s.dl key F.DLINK_STATUS_STATE = 0 then
    (s.setDl key F.DLINK_STATUS_STATE 1).updDl key (fun _ => { fresh := true })
  else s

/-- EN becomes 1 and the crossing trains; EN of a crossing that may not be used stays 0 (R270, R344). -/
def State.dlEnable (s : State) (key : Nat) : State :=
  if !s.dlAllowed key then s
  else
    let s := (s.setDl key F.DLINK_CTRL_EN 1).dlTrain key
    match dlPeerKey s.pkg key with
    | some k => s.dlTrain k
    | none => s

/-- EN becomes 0: DOWN, with R152 applied. -/
def State.dlDisable (s : State) (key : Nat) : State :=
  let s := s.setDl key F.DLINK_CTRL_EN 0
  if s.dl key F.DLINK_STATUS_STATE = 0 then s else s.crossingDown key

end Sys2Proof.Machine
end

