-- ==== Sys2Proof/Machine/Chronicle.lean ====
section
/-! DEFINITION. The Chronicle: the rate limit, the holding RAM, placement in flash, compaction, erases, mount, the mirror and reading
(R321–R337). -/
namespace Sys2Proof.Machine

/-! ## The controllers -/

/-- A controller. -/
def State.chDev (s : State) (side : Nat) : ChDev := if side = 0 then s.chron.d0 else s.chron.d1

/-- The state with the Chronicle changed. -/
def State.updChron (s : State) (f : Chron → Chron) : State := { s with chron := f s.chron }

/-- The state with a controller changed. -/
def State.updDev (s : State) (side : Nat) (f : ChDev → ChDev) : State :=
  s.updChron (fun c => if side = 0 then { c with d0 := f c.d0 } else { c with d1 := f c.d1 })

/-- The active controller's side (R333). -/
def State.chActive (s : State) : Nat := s.holder.getD 0

/-- Whether a write to a controller's command registers acts: it is the active one (R337). -/
def State.chGoverns (s : State) (side : Nat) : Bool := side == s.chActive

/-- FREEZE of the active controller (R335). -/
def State.frozen (s : State) : Bool := s.bit (chronUnit s.pkg s.chActive) F.CHRON_CTRL_FREEZE

/-- An event of a controller. -/
def State.chEvent (s : State) (side : Nat) (f : Fld) : State := s.event (chronUnit s.pkg side) f

/-- Events counted by a controller. -/
def State.chCount (s : State) (side off n : Nat) : State := s.count (chronUnit s.pkg side) off n

/-- A command of the Chronicle, with the parts it reaches. -/
def chronParts (s t : State) : State :=
  { s with chron := t.chron, regs := t.regs, ctrs := t.ctrs, out := t.out, irqHeld := t.irqHeld, freeCtr := t.freeCtr }

/-- A command of the Chronicle as a whole. -/
def onChron (s t : State) : Res := done s (chronParts s t)

/-- A command of one controller. -/
def onCtl (ctl : Nat) (s t : State) : Res := onUnit (decide (ctl < 2)) s (chronParts s t)

/-! ## Rate limit and holding RAM (R327) -/

/-- The FAULT_POLICY buckets of the committed image: code, RATE, BURST (Table 16-10). -/
def State.bucketRows (s : State) : List (Nat × Nat × Nat) :=
  (s.flatRecs.filter (fun r => r.kind == 0x0801)).flatMap (fun r =>
    (List.range (r.payload.length / 8)).map (fun i => (leAt r.payload (8 * i) 2, leAt r.payload (8 * i + 2) 2, leAt r.payload (8 * i + 4) 1)))

/-- The bucket that a record draws on: its code's, or the default one of its severity. -/
def State.bucketKey (s : State) (code sev : Nat) : Nat :=
  if s.bucketRows.any (fun b => b.1 == code) && code < 0xFFF0 then code else 0xFFF0 + sev

/-- RATE in 1/16 record per second and BURST of a bucket; the defaults of R327 where the image gives none. -/
def State.bucketRate (s : State) (key : Nat) : Nat × Nat :=
  match s.bucketRows.find? (fun b => b.1 == key) with
  | some b => b.2
  | none => if key = 0xFFF0 then (160, 16) else if key = 0xFFF1 then (320, 32) else if key = 0xFFF2 then (800, 64) else (1600, 128)

/-- A record enters the holding RAM, or is lost (R327); at EN 0 it is counted lost and not kept. -/
def State.chHold (s : State) (r : ChRec) : State :=
  let a := s.chActive
  if !s.bit (chronUnit s.pkg a) F.CHRON_CTRL_EN then s.chCount a R.CHRON_HOLD_LOST 1
  else if s.chron.hold.length < 64 then s.updChron (fun c => { c with hold := c.hold ++ [r] })
  else ((s.updChron (fun c => { c with lost := c.lost + 1 })).chCount a R.CHRON_HOLD_LOST 1).chEvent a F.CHRON_EVENT_HOLD_OVERFLOW

/-- A record with the fields that the controller fills: POWER_CYCLES and SECONDS (R325). -/
def State.chFill (s : State) (r : ChRec) : ChRec :=
  let d := s.chDev s.chActive
  { r with cycles := d.cycles, seconds := d.seconds }

/-- A record of the controller itself (Table 14-4). -/
def State.chOwn (s : State) (code sev : Nat) (payload : List Byte) : ChRec :=
  s.chFill { code := code, sev := sev, quality := s.quality, source := 0, cycles := 0, ft := s.time.ft, seconds := 0,
             payload := (payload ++ List.replicate 7 0).take 7 }

/-- A record meets the rate limit, then the holding RAM (R327). -/
def State.chSubmit (s : State) (r : ChRec) : State :=
  let r := s.chFill r
  let key := s.bucketKey r.code r.sev
  let (_, burst) := s.bucketRate key
  let b := kget {} s.chron.buckets key
  if b.spent + 16000 ≤ burst * 16000 then
    (s.updChron (fun c => { c with buckets := kput {} c.buckets key { b with spent := b.spent + 16000 } })).chHold r
  else
    (s.updChron (fun c => { c with buckets := kput {} c.buckets key { b with supp := b.supp + 1, sev := max b.sev r.sev } })).chCount s.chActive
      R.CHRON_SUPPRESSED 1

/-- One bucket's refill of 1 ms: RATE / 16,000 records, and a SUPPRESSED record once it holds a record again (R327, R336). -/
def State.refillBucket (s : State) (key : Nat) (b : ChBucket) : State :=
  let (rate, burst) := s.bucketRate key
  let spent := b.spent - rate
  if 0 < b.supp ∧ spent + 16000 ≤ burst * 16000 then
    (s.updChron (fun c => { c with buckets := kput {} c.buckets key { spent := spent } })).chHold
      (s.chOwn 0x0004 b.sev (leBytes 2 (if key < 0xFFF0 then key else 0) ++ leBytes 1 (if key < 0xFFF0 then 0 else key - 0xFFF0) ++ leBytes 4 b.supp))
  else s.updChron (fun c => { c with buckets := kput {} c.buckets key { b with spent := spent } })

/-- BUCKET_REFILL (R327). -/
def execBucketRefill (s : State) : Res :=
  onChron s (s.chron.buckets.foldl (fun s e => s.refillBucket e.1 e.2) s)

/-! ## The device (R323, R328–R331) -/

/-- A sector; an unlisted one is blank: erased, sound and FREE (log 34). -/
def ChDev.sector (d : ChDev) (n : Nat) : ChSector := kget {} d.sectors n

/-- The device with a sector changed. -/
def ChDev.upd (d : ChDev) (n : Nat) (f : ChSector → ChSector) : ChDev := { d with sectors := kput {} d.sectors n (f (d.sector n)) }

/-- The Chronicle's sectors, 512 to 1,023 (R322). -/
def chRegion : List Nat := (List.range 512).map (· + 512)

/-- The FREE sectors other than the spare, and those not waiting to be erased. -/
def ChDev.free (d : ChDev) : List Nat := chRegion.filter (fun n => (d.sector n).st == 0x7F && d.spare != some n && !d.eraseQ.contains n)

/-- The sectors in a state. -/
def ChDev.inState (d : ChDev) (st : Nat) : List Nat := (d.sectors.filter (fun e => e.2.st == st)).map (·.1)

/-- The OPEN sector. -/
def ChDev.openSector (d : ChDev) : Option Nat := (d.inState 0x1F).getLast?

/-- The live records of a sector. -/
def ChSector.live (x : ChSector) : List ChSlot := x.slots.filter (fun r => r.mark == 0x0F)

/-- The live records of a device. -/
def ChDev.live (d : ChDev) : List ChSlot := d.sectors.flatMap (fun e => if e.2.st == 0x1F || e.2.st == 0x0F then e.2.live else [])

/-- Whether a 32-bit sequence comes before another (R12, R324). -/
def seqLt (a b : W32) : Bool := decide ((a - b).toInt < 0)

/-- The record with the lowest SEQ. -/
def lowestSeq : List ChSlot → Option ChSlot
  | [] => none
  | x :: xs => match lowestSeq xs with
    | none => some x
    | some y => if seqLt y.seq x.seq then some y else some x

/-- The next SECTOR_SEQ. -/
def ChDev.nextSectorSeq (d : ChDev) : W32 :=
  BitVec.ofNat 32 ((d.sectors.map (fun e => if e.2.seq == 0xFFFFFFFF then 0 else e.2.seq.toNat + 1)).foldl max 0)

/-- A program's effect on the device. -/
def ChDev.program (d : ChDev) (op : FlashOp) : ChDev := match op with
  | .body n x => d.upd n (fun t => { t with slots := t.slots ++ [{ x with mark := 0xFF }] })
  | .mark n q m => d.upd n (fun t => { t with slots := t.slots.map (fun x => if x.seq == q then { x with mark := m } else x) })
  | .page n xs => d.upd n (fun t => { t with slots := t.slots ++ xs })
  | .copying n q => d.upd n (fun t => { t with copyOf := q, st := 0x3F })
  | .open_ n =>
    let q := d.nextSectorSeq
    d.upd n (fun t => { t with seq := q, seconds := d.seconds, st := 0x1F })
  | .close n => d.upd n (fun t => { t with st := 0x0F })
  | .eraseStart n => { d.upd n (fun t => { t with started := true }) with eraseQ := d.eraseQ ++ [n], eraseFailed := d.eraseFailed && !d.eraseQ.isEmpty }
  | .erased n =>
    let d := d.upd n (fun t => { t with erased := true, magic := true, st := 0x7F, erases := t.erases + 1 })
    { d with spare := if d.spare.isNone then some n else d.spare, full := false }
  | .bad n => d.upd n (fun t => { t with st := 0x00 })

/-- The device's first waiting program begins, unless one is under way or FREEZE is 1. -/
def State.kick (s : State) (side : Nat) : State :=
  let d := s.chDev side
  match d.ops with
  | op :: _ => if d.busy || s.frozen || !d.ok then s else (s.updDev side (fun d => { d with busy := true })).emit (.flash side op)
  | [] => s

/-- Programs put to a device. -/
def State.putOps (s : State) (side : Nat) (ops : List FlashOp) : State :=
  (s.updDev side (fun d => { d with ops := d.ops ++ ops })).kick side

/-- A device is lost (R332): the MGMT fault, DEVICE_OK, the event; nothing more is done with it. -/
def State.devLost (s : State) (side : Nat) : State :=
  ((s.updDev side (fun d => { d with ok := false, ops := [], busy := false, eraseQ := [], decisions := [], need := false })).faultEvent
    (chronUnit s.pkg side) 13 4).chEvent side F.CHRON_EVENT_DEVICE_LOST

/-- The failed programs of the record at hand, after a program of its that did not fail: its body leaves them counted (R332). -/
def FlashOp.failsAfter (op : FlashOp) (n : Nat) : Nat := match op with
  | .body _ _ => n
  | _ => 0

/-- CHRON_PROGRAM_DONE (R323, R329, R331, R332): the program takes effect and the next begins; a failed one is done again, and the second failure
among the programs of one record loses the device. -/
def State.programDone (s : State) (side : Nat) (ok : Bool) : State :=
  let d := s.chDev side
  match d.ops with
  | [] => s
  | op :: rest =>
    if !d.busy then s
    else if ok then
      let s := (s.updDev side (fun d => { d.program op with ops := rest, busy := false, fails := op.failsAfter d.fails })).kick side
      match op, (s.chDev side).eraseQ with
      | .eraseStart n, q => if s.frozen || q.head? != some n then s else s.emit (.flashErase side n)
      | .erased _, n :: _ => if s.frozen then s else s.emit (.flashErase side n)
      | .bad _, n :: _ => if s.frozen then s else s.emit (.flashErase side n)
      | _, _ => s
    else if 1 ≤ d.fails then s.devLost side
    else (s.updDev side (fun d => { d with fails := d.fails + 1, busy := false })).kick side

/-- CHRON_PROGRAM_DONE. -/
def execChronProgramDone (ctl : Nat) (ok : Bool) (s : State) : Res := onCtl ctl s (s.programDone ctl ok)

/-! ## Placement (R328, R333) -/

/-- The OPEN sector of a device takes one more record: where it is full it is closed, and the lowest FREE sector is opened; none where the log
is full. The programs that this takes come with it. -/
def ChDev.room (d : ChDev) : Option (Nat × List FlashOp) :=
  match d.openSector with
  | some n =>
    if (d.sector n).slots.length < 2046 then some (n, [])
    else match d.free with
      | m :: _ => some (m, [.close n, .open_ m])
      | [] => none
  | none => match d.free with
    | m :: _ => some (m, [.open_ m])
    | [] => none

/-- A record is written into a device's OPEN sector: its body, then its MARK (R323). -/
def State.writeSlot (s : State) (side : Nat) (n : Nat) (pre : List FlashOp) (x : ChSlot) : State :=
  s.putOps side (pre ++ [.body n x, .mark n x.seq 0x0F])

/-- The sector that holds a live record. -/
def ChDev.sectorOf (d : ChDev) (q : W32) : Option Nat := (d.sectors.find? (fun e => e.2.live.any (fun x => x.seq == q))).map (·.1)

/-- The sector to which a compaction that is under way copies a record. -/
def ChDev.copyingTo (d : ChDev) (q : W32) : Option Nat := d.ops.findSome? (fun op => match op with
  | .page n xs => if xs.any (fun x => x.seq == q) then some n else none
  | _ => none)

/-- A live record is retired: where it stands, or where a compaction under way puts it. -/
def State.retireSlot (s : State) (side : Nat) (q : W32) : State :=
  let d := s.chDev side
  match (d.copyingTo q).or (d.sectorOf q) with
  | some n => s.putOps side [.mark n q 0x00]
  | none => s

/-- A decision passes to the standby, where its device is in use. -/
def State.mirror (s : State) (x : ChDecision) : State :=
  let o := 1 - s.chActive
  if (s.chDev o).ok then s.updDev o (fun d => { d with decisions := d.decisions ++ [x] }) else s

/-- The side whose device decides: the active one's, or the other's where that is lost (R332). -/
def State.chMaster (s : State) : Nat := if (s.chDev s.chActive).ok then s.chActive else 1 - s.chActive

/-- The first record leaves the holding RAM; a HOLD_OVERFLOW record takes the room where records were lost (R327). -/
def State.popHold (s : State) : State :=
  let s := s.updChron (fun c => { c with hold := c.hold.drop 1, displaced := false })
  if s.chron.lost = 0 then s
  else
    let r := s.chOwn 0x0005 1 (leBytes 4 s.chron.lost)
    (s.updChron (fun c => { c with lost := 0 })).chHold r

/-- The next record takes its SEQ and goes to both devices (R324, R333). -/
def State.placeRec (s : State) (m n : Nat) (pre : List FlashOp) (r : ChRec) : State :=
  let x : ChSlot := { r := r, seq := (s.chDev m).seqNext }
  let s := (s.writeSlot m n pre x).updDev m (fun d => { d with seqNext := d.seqNext + 1, need := false })
  let s := if m == s.chActive then s.mirror (.place x) else s
  s.popHold

/-- The OPEN sector of a device, which is full and has no successor, is closed (R328). -/
def State.closeFull (s : State) (m : Nat) : State := match (s.chDev m).openSector with
  | some n => s.putOps m [.close n]
  | none => s

/-- The log is full for the first record (R328): it is dropped, or its victim is retired and it waits for a compaction. -/
def State.fullLog (s : State) (m : Nat) (r : ChRec) : State :=
  let s := s.closeFull m
  let s := if (s.chDev m).full then s else (s.updDev m (fun d => { d with full := true })).chEvent m F.CHRON_EVENT_FULL
  if s.chron.displaced then s.updDev m (fun d => { d with need := true })
  else match lowestSeq ((s.chDev m).live.filter (fun x => decide (x.r.sev < r.sev))) with
  | none => ((s.chCount m (R.CHRON_DROP + 8 * r.sev) 1).chEvent m F.CHRON_EVENT_DROP).popHold
  | some v =>
    let s := (s.retireSlot m v.seq).chCount m R.CHRON_DISPLACED 1
    let s := if m == s.chActive then s.mirror (.retire v.seq) else s
    (s.updDev m (fun d => { d with need := true })).updChron (fun c => { c with displaced := true })

/-- RECORD_PLACE (R327, R328): the first record of the holding RAM is placed, dropped, or waits. -/
def State.recordPlace (s : State) : State :=
  let m := s.chMaster
  let d := s.chDev m
  match s.chron.hold with
  | [] => s
  | r :: _ =>
    if !d.ok || !d.mounted || s.frozen || !d.ops.isEmpty then s
    else match d.room with
      | some (n, pre) => s.placeRec m n pre r
      | none => s.fullLog m r

/-- RECORD_PLACE. -/
def execRecordPlace (s : State) : Res := onChron s s.recordPlace

/-- A decision acts on a side's device by SEQ (R333); one that finds no room stays, and asks for a compaction. -/
def State.actDecision (s : State) (o : Nat) (x : ChDecision) (rest : List ChDecision) : State :=
  let d := s.chDev o
  let pop (s : State) : State := s.updDev o (fun d => { d with decisions := rest })
  match x with
  | .retire q => (pop s).retireSlot o q
  | .retireTo b => ((d.live.filter (fun x => seqLt x.seq b)).foldl (fun s x => s.retireSlot o x.seq) (pop s))
  | .place y =>
    match d.room with
    | some (n, pre) => ((pop s).writeSlot o n pre y).updDev o (fun d => { d with seqNext := y.seq + 1, need := false })
    | none => (s.closeFull o).updDev o (fun d => { d with need := true, full := true })

/-- STANDBY_DECISION_APPLY (R333): the standby applies the next decision to its own device by SEQ. -/
def State.applyDecision (s : State) : State :=
  let o := 1 - s.chActive
  let d := s.chDev o
  match d.decisions with
  | [] => s
  | x :: rest => if !d.ok || !d.mounted || s.frozen || !d.ops.isEmpty then s else s.actDecision o x rest

/-- The decisions that a side still has to apply act as it becomes the active one (R333, R355). -/
def State.chTakeover (s : State) (side : Nat) : State :=
  if !(s.chDev side).ok || !(s.chDev side).mounted then s
  else (s.chDev side).decisions.foldl (fun s _ => match (s.chDev side).decisions with
    | [] => s
    | x :: rest => s.actDecision side x rest) s

/-- STANDBY_DECISION_APPLY. -/
def execStandbyDecisionApply (s : State) : Res := onChron s s.applyDecision

/-! ## Compaction and erases (R329, R331) -/

/-- The retired records of a sector. -/
def ChSector.retired (x : ChSector) : Nat := (x.slots.filter (fun r => r.mark == 0x00)).length

/-- The CLOSED sector with the most retired records, the lowest SECTOR_SEQ on a tie (R328). -/
def mostRetired : List (Nat × ChSector) → Option (Nat × ChSector)
  | [] => none
  | e :: es => match mostRetired es with
    | none => some e
    | some b =>
      if b.2.retired < e.2.retired || (b.2.retired == e.2.retired && seqLt e.2.seq b.2.seq) then some e else some b

/-- Live records in SEQ order. -/
def insSeq (x : ChSlot) : List ChSlot → List ChSlot
  | [] => [x]
  | y :: ys => if seqLt x.seq y.seq then x :: y :: ys else y :: insSeq x ys

/-- Records as pages of 256 B, eight records each; the first page holds the header and six (R329, Table 14-7). -/
def pagesOf (n : Nat) : Nat → List ChSlot → List FlashOp
  | 0, _ => []
  | k + 1, xs => if xs.isEmpty then [] else .page n (xs.take 8) :: pagesOf n k (xs.drop 8)

/-- The programs that copy a sector into the spare, and begin the erase of the source (R329). -/
def ChDev.copyOps (d : ChDev) (v p : Nat) : List FlashOp :=
  let xs := (d.sector v).live.foldl (fun l x => insSeq x l) []
  [.copying p (d.sector v).seq] ++ (if xs.isEmpty then [] else .page p (xs.take 6) :: pagesOf p 256 (xs.drop 6)) ++
    (match d.openSector with
     | some o => [.close o]
     | none => []) ++ [.open_ p, .eraseStart v]

/-- CHRON_COMPACTION (R329): where a placement waits, the CLOSED sector with the most retired records; a CLOSED sector without a live record is
erased without a copy; with fewer than two FREE sectors, a sector with 1,023 retired records. -/
def State.compact (s : State) (side : Nat) : State :=
  let d := s.chDev side
  let closed := d.sectors.filter (fun e => e.2.st == 0x0F && !e.2.started)
  let copy (v : Nat) (s : State) : State := match d.spare with
    | none => s
    | some p =>
      ((s.updDev side (fun d => { d with spare := none, need := false, full := false })).chCount side R.CHRON_COMPACTIONS 1).putOps side (d.copyOps v p)
  if !d.ok || !d.mounted || s.frozen || !d.ops.isEmpty then s
  else match closed.find? (fun e => e.2.live.isEmpty) with
    | some e => s.putOps side [.eraseStart e.1]
    | none =>
      match mostRetired closed with
      | none => s
      | some e =>
        if d.need then copy e.1 s
        else if d.free.length < 2 && decide (1023 ≤ e.2.retired) then copy e.1 s else s

/-- CHRON_COMPACTION. -/
def execChronCompaction (ctl : Nat) (s : State) : Res := onCtl ctl s (s.compact ctl)

/-- SECTOR_ERASE_DONE (R331): a verified erase leaves the sector blank and its header programs follow; one that fails is retried once, and the
second failure marks the sector BAD. -/
def State.eraseDone (s : State) (side : Nat) (verified : Bool) : State :=
  let d := s.chDev side
  match d.eraseQ with
  | [] => s
  | n :: rest =>
    if s.frozen then s
    else if verified then
      (s.updDev side (fun d =>
        { d.upd n (fun t => { magic := false, erased := false, st := 0xFF, erases := t.erases }) with eraseQ := rest, eraseFailed := false })).putOps
        side [.erased n]
    else if d.eraseFailed then
      (s.updDev side (fun d => { d with eraseQ := rest, eraseFailed := false })).putOps side [.bad n]
    else (s.updDev side (fun d => { d with eraseFailed := true })).emit (.flashErase side n)

/-- SECTOR_ERASE_DONE. -/
def execSectorEraseDone (ctl : Nat) (verified : Bool) (s : State) : Res :=
  onCtl ctl s (s.eraseDone ctl verified)

/-! ## Mount (R332, R333) -/

/-- Why a sector is erased again at mount (Table 14-5); none where its header is sound, or it is BAD. -/
def ChDev.reerase (d : ChDev) (n : Nat) : Option Nat :=
  let t := d.sector n
  if t.st == 0x00 then none
  else if t.started then some 1
  else if !t.magic || !t.erased then some 4
  else if t.st == 0x3F then some 2
  else if (t.st == 0x0F || t.st == 0x1F) &&
      d.sectors.any (fun e => e.1 != n && (e.2.st == 0x1F || e.2.st == 0x0F) && e.2.copyOf == t.seq && t.seq != 0xFFFFFFFF) then some 3
  else if t.st == 0x7F || t.st == 0x1F || t.st == 0x0F then none else some 4

/-- The device after classification: sectors to erase again are taken as empty, of several OPEN sectors all but the one of the highest
SECTOR_SEQ are closed, a FREE sector is opened where none is OPEN, and the highest other FREE sector is the spare (log 34). -/
def ChDev.classified (d : ChDev) (bad : List Nat) : ChDev :=
  let d := bad.foldl (fun d n => d.upd n (fun t => { started := true, st := 0xFF, erases := t.erases })) { d with eraseQ := bad, spare := none }
  let opens := d.inState 0x1F
  let top := opens.foldl (fun (b : Option Nat) n => match b with
    | none => some n
    | some m => if seqLt (d.sector m).seq (d.sector n).seq then some n else some m) none
  let d := opens.foldl (fun d n => if top == some n then d else d.upd n (fun t => { t with st := 0x0F })) d
  let d := match top, d.free with
    | none, m :: _ => d.program (.open_ m)
    | _, _ => d
  { d with spare := d.free.getLast?, full := d.free.isEmpty }

/-- The records of one device that another lacks. -/
def lacking (a b : ChDev) : List ChSlot :=
  let have_ := (b.sectors.flatMap (fun e => e.2.slots)).map (·.seq)
  a.live.filter (fun x => !have_.contains x.seq)

/-- Records written into a device as they stand: the mirror is brought up (R333). -/
def ChDev.bringUp (d : ChDev) (xs : List ChSlot) : ChDev :=
  xs.foldl (fun d x => match d.room with
    | some (n, pre) => (pre.foldl ChDev.program d).upd n (fun t => { t with slots := t.slots ++ [x] })
    | none => d) d

/-- Once both devices have mounted, the copy with the larger SEQ governs and the other is brought up to it, 65,536 records at most; a further
difference writes COPY_DIVERGED (R333). It tells whether a side was brought up. -/
def State.catchUp (s : State) : Option Nat × State :=
  let a := s.chron.d0
  let b := s.chron.d1
  if !(a.ok && a.mounted && b.ok && b.mounted) then (none, s)
  else
    let behind := if seqLt a.seqNext b.seqNext then 0 else 1
    let lead := s.chDev (1 - behind)
    let lag := s.chDev behind
    let miss := lacking lead lag
    let only := (lacking lag lead).length + (miss.length - 65536)
    let s := s.updDev behind (fun d => { d.bringUp (miss.take 65536) with seqNext := lead.seqNext })
    let s := if only = 0 then s else s.chSubmit (s.chOwn 0x0006 2 (leBytes 4 only))
    (if miss.isEmpty then none else some behind, s)

/-- The largest SECONDS of a device's live records and headers (R325). -/
def ChDev.maxSeconds (d : ChDev) : Nat := ((d.live.map (·.r.seconds)) ++ d.sectors.map (fun e => e.2.seconds)).foldl max 0

/-- The SEQ after the largest that a device holds. -/
def ChDev.seqAfter (d : ChDev) : W32 :=
  ((d.sectors.flatMap (fun e => e.2.slots)).map (fun x => x.seq + 1)).foldl (fun (m : W32) q => if seqLt m q then q else m) d.seqNext

/-- The 32 bytes of a record (Table 14-1). -/
def ChSlot.bytes (x : ChSlot) : List Byte :=
  leBytes 2 x.r.code ++ leBytes 1 (x.r.sev + 4 * x.r.quality) ++ leBytes 3 x.r.source ++ leBytes 2 x.r.cycles ++ leBytes 8 x.r.ft.toNat ++
    leBytes 4 x.r.seconds ++ leBytes 4 x.seq.toNat ++ x.r.payload ++ [BitVec.ofNat 8 x.mark]

/-- A read command acts (R334): the live record with the lowest SEQ at or above the cursor, or after it. -/
def State.chRead (s : State) (side : Nat) (next : Bool) : State :=
  let u := chronUnit s.pkg side
  let c := s.reg u R.CHRON_CURSOR
  let c := if next then c + 1 else c
  let s := s.setFld u F.CHRON_RD_STATUS_READY 1
  match lowestSeq ((s.chDev side).live.filter (fun x => !seqLt x.seq c)) with
  | none => s.setFld u F.CHRON_RD_STATUS_FOUND 0
  | some x =>
    let b := x.bytes
    (List.range 8).foldl (fun s i => s.setFldAt u F.CHRON_WIN_WORD i (leAt b (4 * i) 4)) ((s.setFld u F.CHRON_RD_STATUS_FOUND 1).setReg u
      R.CHRON_CURSOR x.seq)

/-- CHRON_MOUNT_DONE (R324, R325, R332–R334). -/
def State.mountDone (s : State) (side : Nat) (answers : Bool) : State :=
  let d := s.chDev side
  let bad := (chRegion.filter (fun n => (d.reerase n).isSome))
  let usable := (chRegion.filter (fun n => (d.sector n).st != 0x00)).length
  if d.mounted then s
  else if !answers || decide (usable < 4) then (s.updDev side (fun d => { d with mounted := true })).devLost side
  else
    let torn := (d.sectors.flatMap (fun e => e.2.slots.filter (fun x => x.mark != 0x0F && x.mark != 0x00))).length
    let s := s.updDev side (fun d =>
      let c := d.classified bad
      { c with
        mounted := true, ok := true, ops := [], busy := false, fails := 0, need := false, decisions := [], seqNext := c.seqAfter,
        seconds := max d.seconds d.maxSeconds,
        cycles := if d.cold then min 65535 ((d.live.map (·.r.cycles)).foldl max d.cycles + 1) else d.cycles, cold := false })
    let s := bad.foldl (fun s n =>
      (s.chSubmit (s.chOwn 0x0002 1 (leBytes 2 n ++ leBytes 1 ((d.reerase n).getD 0)))).chEvent side F.CHRON_EVENT_REERASED) s
    let s := match bad with
      | n :: _ => s.emit (.flashErase side n)
      | [] => s
    let (up, s) := s.catchUp
    let e := s.chDev side
    let s := s.chSubmit (s.chOwn 0x0001 0
      (leBytes 2 (e.live.length / 64) ++ leBytes 2 e.free.length ++ leBytes 2 torn ++ leBytes 1 (if up == some side then 1 else 0)))
    match e.reading with
    | some next => (s.updDev side (fun d => { d with reading := none })).chRead side next
    | none => s

/-- CHRON_MOUNT_DONE. -/
def execChronMountDone (ctl : Nat) (answers : Bool) (s : State) : Res :=
  onCtl ctl s (s.mountDone ctl answers)

/-! ## Commands (R325, R326, R330, R334, R335) -/

/-- A read command: at once, or at the end of a mount that runs (R336). -/
def State.chReadCmd (s : State) (side : Nat) (next : Bool) : State :=
  if (s.chDev side).mounted then s.chRead side next
  else (s.updDev side (fun d => { d with reading := some next })).setFld (chronUnit s.pkg side) F.CHRON_RD_STATUS_READY 0

/-- CHRON_LOAD (R334). -/
def execChronLoad (ctl : Nat) (s : State) : Res := onCtl ctl s (s.chReadCmd ctl false)

/-- CHRON_NEXT (R334). -/
def execChronNext (ctl : Nat) (s : State) : Res := onCtl ctl s (s.chReadCmd ctl true)

/-- Every live record below a SEQ is retired in the deciding device, and the standby is told (R330). -/
def State.retireTo (s : State) (b : W32) : State :=
  let m := s.chMaster
  let s := if m == s.chActive then s.mirror (.retireTo b) else s
  ((s.chDev m).live.filter (fun x => seqLt x.seq b)).foldl (fun s x => s.retireSlot m x.seq) s

/-- RETIRE_TO acts, or waits for the end of FREEZE, where the larger bound governs (R330, R336). -/
def State.retireCmd (s : State) (side : Nat) : State :=
  let b := s.reg (chronUnit s.pkg side) R.CHRON_RETIRE_SEQ
  if !s.chGoverns side then s
  else if s.frozen then
    s.updChron (fun c => { c with retire := some (match c.retire with
      | some x => if seqLt x b then b else x
      | none => b) })
  else s.retireTo b

/-- CHRON_RETIRE_TO (R330). -/
def execChronRetireTo (ctl : Nat) (s : State) : Res := onCtl ctl s (s.retireCmd ctl)

/-- The staged record of CHRON_SW is submitted, where its CODE is the FM's (R326). -/
def State.swSubmit (s : State) (side : Nat) : State :=
  let u := chronUnit s.pkg side
  let b := (List.range 8).flatMap (fun i => leBytes 4 (s.fldAt u F.CHRON_SW_WORD i))
  let code := leAt b 0 2
  let ft : FT := BitVec.ofNat 64 (leAt b 8 8)
  if !s.chGoverns side || decide (code < 0x0300) || decide (0x03FF < code) then s
  else s.chSubmit { code := code, sev := leAt b 2 1 % 4, quality := leAt b 2 1 / 4 % 4, source := leAt b 3 3, cycles := 0,
                    ft := if ft = 0 then s.time.ft else ft, seconds := 0, payload := (b.drop 24).take 7 }

/-- CHRON_SW_SUBMIT (R326). -/
def execChronSwSubmit (ctl : Nat) (s : State) : Res := onCtl ctl s (s.swSubmit ctl)

/-- FREEZE of both controllers (R335). -/
def State.setFreeze (s : State) (v : Nat) : State :=
  (s.setFld (chronUnit s.pkg 0) F.CHRON_CTRL_FREEZE v).setFld (chronUnit s.pkg 1) F.CHRON_CTRL_FREEZE v

/-- CHRON_FREEZE (R335): the active controller's FREEZE freezes both copies. -/
def State.freezeCmd (s : State) (side : Nat) : State :=
  if !s.chGoverns side then s
  else (if s.frozen then s else s.updChron (fun c => { c with frozeAt := s.time.ft })).setFreeze 1

/-- CHRON_FREEZE. -/
def execChronFreeze (ctl : Nat) (s : State) : Res := onCtl ctl s (s.freezeCmd ctl)

/-- FREEZE ends (R335, R336): a RETIRE_TO that waited is applied, and programs and erases resume. -/
def State.thaw (s : State) : State :=
  let s := s.setFreeze 0
  let s := match s.chron.retire with
    | some b => (s.updChron (fun c => { c with retire := none })).retireTo b
    | none => s
  let resume (s : State) (side : Nat) : State :=
    let s := s.kick side
    match (s.chDev side).eraseQ with
    | n :: _ => if (s.chDev side).ok then s.emit (.flashErase side n) else s
    | [] => s
  resume (resume s 0) 1

/-- CHRON_UNFREEZE (R335). -/
def State.unfreezeCmd (s : State) (side : Nat) : State := if s.chGoverns side && s.frozen then s.thaw else s

/-- CHRON_UNFREEZE. -/
def execChronUnfreeze (ctl : Nat) (s : State) : Res := onCtl ctl s (s.unfreezeCmd ctl)

/-- CHRON_FREEZE_EXPIRY (R335): FREEZE that has lasted CHRON_FREEZE_MAX is released, and FREEZE_EXPIRED follows. -/
def execChronFreezeExpiry (s : State) : Res :=
  let a := s.chActive
  onChron s
    (if s.frozen && decide (4000000 * s.fld (chronUnit s.pkg a) F.CHRON_FREEZE_MAX_MS ≤ ftSince s.time.ft s.chron.frozeAt) then
       (s.thaw.chEvent a F.CHRON_EVENT_FREEZE_EXPIRED).chSubmit (s.chOwn 0x0007 1 (leBytes 4 (ftSince s.time.ft s.chron.frozeAt / 4000000)))
     else s)

/-- CHRON_SECONDS_TICK (R325). -/
def execChronSecondsTick (ctl : Nat) (s : State) : Res :=
  onUnit (decide (ctl < 2)) s { s with chron := (s.updDev ctl (fun d => { d with seconds := min (2 ^ 32 - 1) (d.seconds + 1) })).chron }

end Sys2Proof.Machine
end

