-- ==== Sys2Proof/Machine/Mailbox.lean ====
section
/-! DEFINITION. The host mailbox's rings, sequence numbers, event records and MSI-X vectors (R359–R364, R372), and the commands that act on
them alone. -/
namespace Sys2Proof.Machine

/-- The mailbox changed. -/
def State.updMbx (s : State) (f : Mbx → Mbx) : State := { s with mbx := f s.mbx }

/-- A field of the MBX unit. -/
def State.mb (s : State) (f : Fld) : Nat := s.fld (mbxUnit s.pkg) f

/-- A field of the MBX unit set. -/
def State.setMb (s : State) (f : Fld) (v : Nat) : State := s.setFld (mbxUnit s.pkg) f v

/-- A 64-byte entry from its bytes (R360). -/
def descOf (bs : List Byte) : Desc := BitVec.ofNat 512 (ofLe (bs.take 64))

/-- Byte i of a 64-byte entry. -/
def dByte (d : Desc) (i : Nat) : Nat := (d.extractLsb' (8 * i) 8).toNat

/-- The little-endian value of n bytes at an offset of an entry. -/
def dBytes (d : Desc) (off n : Nat) : Nat := (d >>> (8 * off)).toNat % 2 ^ (8 * n)

/-- Whether the mailbox is served: by the FM of the core that holds the lease, or where B0 stopped in FAILED by the ROM (Table 15-5). -/
def State.mbxServed (s : State) : Bool :=
  s.holder.isSome ||
    (s.fld (bootUnit s.pkg 0) F.BOOT_STATUS_STATE == 4 && s.fld (bootUnit s.pkg 0) F.BOOT_STATUS_STEP == 0)

/-! ## MSI-X (R363) -/

/-- A vector's message leaves, or is pending where the vector is masked; a sent message begins the holdoff (R363). -/
def State.msixSend (s : State) (v : Nat) : State :=
  let e := kget {} s.mbx.msix v
  if e.masked then s.updMbx (fun m => if m.pba.contains v then m else { m with pba := m.pba ++ [v] })
  else (if s.mb F.MBX_INT_HOLDOFF_US = 0 then s else s.updMbx (fun m => { m with hold := m.hold ++ [v] })).emit (.msix v e.addr e.data)

/-- A condition of a vector: one that arises during the holdoff sends one message when it ends (R363). -/
def State.vec (s : State) (v : Nat) : State :=
  if s.mbx.hold.contains v then s.updMbx (fun m => if m.owed.contains v then m else { m with owed := m.owed ++ [v] }) else s.msixSend v

/-- An MBX_EVENT bit set: an interrupt to the FM and vector 3, where it changes from 0 to 1 (R363, R372, R407). -/
def State.mbxEvent (s : State) (f : Fld) : State :=
  let t := s.event (mbxUnit s.pkg) f
  if s.mb f = 1 then t else t.vec 3

/-! ## The response ring (R359, R360, R362) -/

/-- Records in the response ring. -/
def State.rspLevel (s : State) : Nat := (s.mb F.MBX_RSP_PROD_INDEX + 65536 - s.mb F.MBX_RSP_CONS_INDEX) % 65536

/-- Whether the response ring is full (MBX_STATUS.RSP_FULL). -/
def State.rspFull (s : State) : Bool := s.rspLevel == 256

/-- The bytes of a response or event record under an FSEQ (Table 16-2). -/
def MbxRsp.bytes (r : MbxRsp) (fseq : Nat) : List Byte :=
  leBytes 4 fseq ++ leBytes 4 r.echo.toNat ++ leBytes 2 r.code.toNat ++ leBytes 2 r.status ++ leBytes 4 r.detail.toNat ++
    (r.result ++ List.replicate 48 0).take 48

/-- Whether an event record also sends vector 2: TAKEOVER, IMAGE_REJECTED, FAULT, BOOT_FAILED (R363). -/
def codeAlerts (code : W16) : Bool := code == 0x8002 || code == 0x8003 || code == 0x8005 || code == 0x8007

/-- A record is written to the next slot under the next FSEQ; vector 0 follows, and vector 2 after an alert (R360, R363). A response ends
its command's wait (R364). -/
def State.rspWrite (s : State) (r : MbxRsp) : State :=
  let q := (s.mb F.MBX_FM_SEQ_SENT_FSEQ + 1) % 2 ^ 32
  let p := s.mb F.MBX_RSP_PROD_INDEX
  let s := ((s.setMb F.MBX_FM_SEQ_SENT_FSEQ q).setMb F.MBX_RSP_PROD_INDEX ((p + 1) % 65536)).updMbx (fun m =>
    { m with rsp := kins m.rsp (p % 256) (descOf (r.bytes q)),
             open_ := if 0x8000 < r.code.toNat then m.open_ else m.open_.filter (fun o => o.1 != r.echo) })
  let s := s.vec 0
  if codeAlerts r.code then s.vec 2 else s

/-- The answers that wait take the room there is, in order. -/
def flushRsp : List MbxRsp → State → State
  | [], s => s.updMbx (fun m => { m with waiting := [] })
  | r :: rs, s => if s.rspFull then s.updMbx (fun m => { m with waiting := r :: rs }) else flushRsp rs (s.rspWrite r)

/-- A response: written, or kept until the ring has room; responses are never dropped (R362). -/
def State.respondMbx (s : State) (r : MbxRsp) : State :=
  if s.rspFull || !s.mbx.waiting.isEmpty then s.updMbx (fun m => { m with waiting := m.waiting ++ [r] }) else s.rspWrite r

/-- An event record: written where EVENT_MASK enables it and a core holds the lease, dropped and counted where the ring is full
(R362). -/
def State.mbxRecord (s : State) (k : Nat) (detail : Nat) (result : List Byte) : State :=
  if !s.mbxServed || !s.mbx.mask.getLsbD k then s
  else if s.rspFull then
    ((s.count (mbxUnit s.pkg) R.MBX_EVENTS_LOST 1).updMbx (fun m => { m with lost := m.lost + 1 })).mbxEvent F.MBX_EVENT_EVENTS_LOST
  else s.rspWrite { echo := 0, code := BitVec.ofNat 16 (0x8000 + k), detail := BitVec.ofNat 32 detail, result := result }

/-- What the FM writes when the ring has room: the answers that wait, then one EVENTS_LOST record (R362). -/
def State.mbxFlush (s : State) : State :=
  if !s.mbxServed then s else
  let s := flushRsp s.mbx.waiting s
  if 0 < s.mbx.lost && s.mbx.mask.getLsbD 8 && !s.rspFull then
    let n := s.mbx.lost
    (s.updMbx (fun m => { m with lost := 0 })).mbxRecord 8 n []
  else s

/-- Every command taken and not answered is answered ABORTED (R364). -/
def State.mbxAbort (s : State) : State :=
  if s.mbx.open_.isEmpty then s else
  let os := s.mbx.open_
  let s := s.updMbx (fun m => { m with jobs := [], waiting := [] })
  (os.foldl (fun s o => s.respondMbx { echo := o.1, code := o.2, status := 7 }) s).mbxEvent F.MBX_EVENT_ABORTED

/-! ## Taking a command (R359–R361) -/

/-- Commands that wait in the ring. -/
def State.cmdLevel (s : State) : Nat := (s.mb F.MBX_CMD_PROD_INDEX + 65536 - s.mb F.MBX_CMD_CONS_INDEX) % 65536

/-- Whether the FM may take a command: EN, a core holds the lease, the response ring has room, and fewer than 256 commands are open. -/
def State.mbxReady (s : State) : Bool :=
  s.mb F.MBX_CTRL_EN == 1 && s.mbxServed && !s.rspFull && s.mbx.waiting.isEmpty && decide (s.mbx.open_.length < 256) && s.cmdLevel != 0

/-- The command at the front of the ring. -/
def State.mbxFront (s : State) : Desc := kget 0 s.mbx.cmd (s.mb F.MBX_CMD_CONS_INDEX % 256)

/-- An opcode's ARGS end and the states that allow it (Table 16-4): 0 any, 1 any but B0, 2 WAIT_IMAGE or READY, 3 READY; none for an
opcode of no command. -/
def mbxCmd (op : Nat) : Option (Nat × Nat) :=
  if op = 0x0001 then some (8, 0) else if op = 0x0002 then some (8, 0) else if op = 0x0010 then some (21, 2)
  else if op = 0x0011 then some (16, 3) else if op = 0x0012 then some (8, 2) else if op = 0x0020 then some (21, 1)
  else if op = 0x0021 then some (9, 1) else if op = 0x0030 then some (8, 1) else if op = 0x0040 then some (12, 0)
  else if op = 0x0041 then some (16, 0) else if op = 0x0050 then some (24, 0) else if op = 0x0051 then some (29, 0)
  else if op = 0x0060 then some (10, 0) else none

/-- Whether a boot state (BOOT_STATUS.STATE) allows a command. -/
def mbxStateOk (allowed st : Nat) : Bool :=
  allowed == 0 || (allowed == 1 && st != 0) || (allowed == 2 && (st == 2 || st == 3)) || (allowed == 3 && st == 3)

/-- The offset of the first byte of ARGS from n on that is not zero (R360). -/
def badArg (d : Desc) (n : Nat) : Option Nat := ((List.range 64).drop n).find? (fun i => dByte d i != 0)

/-- A command is taken: CONS advances, vector 1 follows where SPACE_INT is set (R359, R363). -/
def State.mbxConsume (s : State) : State :=
  let s := s.setMb F.MBX_CMD_CONS_INDEX ((s.mb F.MBX_CMD_CONS_INDEX + 1) % 65536)
  if s.mb F.MBX_CTRL_SPACE_INT = 1 then s.vec 1 else s

/-- Whether a row's command stands at the front: its opcode, or for the NOP row also an opcode of no command. -/
def mbxIs (op front : Nat) : Bool := front == op || (op == 1 && (mbxCmd front).isNone)

/-- The front command is taken by the row of its opcode (R359–R361): a wrong HSEQ, an unknown opcode, a byte beyond the ARGS or a state that
does not allow it is answered so, in that order; otherwise act runs it. -/
def State.mbxRow (s : State) (op : Nat) (act : State → W32 → Desc → State) : State :=
  let d := s.mbxFront
  let hseq := dw d 0
  let front := getBits (dw d 1) 15 0
  let code := BitVec.ofNat 16 front
  let seen := s.mb F.MBX_HOST_SEQ_SEEN_HSEQ
  if !s.mbxReady || !mbxIs op front then s
  else if hseq.toNat ≠ (seen + 1) % 2 ^ 32 then
    s.mbxConsume.respondMbx { echo := hseq, code := code, status := 3, detail := BitVec.ofNat 32 seen }
  else
    let s := (s.mbxConsume.setMb F.MBX_HOST_SEQ_SEEN_HSEQ hseq.toNat).updMbx (fun m => { m with open_ := m.open_ ++ [(hseq, code)] })
    let st := s.fld (bootUnit s.pkg (s.holder.getD 0)) F.BOOT_STATUS_STATE
    match mbxCmd front with
    | none => s.respondMbx { echo := hseq, code := code, status := 1 }
    | some (n, allowed) =>
      match badArg d n with
      | some i => s.respondMbx { echo := hseq, code := code, status := 2, detail := BitVec.ofNat 32 i }
      | none =>
        if mbxStateOk allowed st then act s hseq d
        else s.respondMbx { echo := hseq, code := code, status := 4, detail := BitVec.ofNat 32 st }

/-- An answer to a command. -/
def State.mbxAnswer (s : State) (hseq : W32) (op status detail : Nat) (result : List Byte) : State :=
  s.respondMbx { echo := hseq, code := BitVec.ofNat 16 op, status := status, detail := BitVec.ofNat 32 detail, result := result }

/-- The answer of a long command, which its end writes (R360). -/
def State.mbxLater (s : State) (hseq : W32) (op status detail : Nat) (result : List Byte) : State :=
  s.updMbx (fun m => { m with jobs := m.jobs ++
    [{ echo := hseq, code := BitVec.ofNat 16 op, status := status, detail := BitVec.ofNat 32 detail, result := result }] })

/-! ## The commands that act on the rings alone -/

/-- A mailbox command, with the parts it reaches. -/
def onMbx (s t : State) : Res :=
  done s { s with mbx := t.mbx, regs := t.regs, ctrs := t.ctrs, out := t.out, irqHeld := t.irqHeld }

/-- MBX_CMD_PROD_WRITE (R359): the host writes the entries into the slots from PROD on and then MBX_CMD_PROD; an index more than 256 ahead of
CONS or behind it is ignored with IDX_ERR. -/
def State.cmdProd (s : State) (idx : W16) (entries : List Desc) : State :=
  let p := s.mb F.MBX_CMD_PROD_INDEX
  let s := s.updMbx (fun m => { m with cmd := (entries.foldl (fun (a : Nat × KMap Desc) d => (a.1 + 1, kins a.2 (a.1 % 256) d)) (p, m.cmd)).2 })
  if (idx.toNat + 65536 - s.mb F.MBX_CMD_CONS_INDEX) % 65536 ≤ 256 then s.setMb F.MBX_CMD_PROD_INDEX idx.toNat
  else s.mbxEvent F.MBX_EVENT_IDX_ERR

/-- MBX_CMD_PROD_WRITE (R359). -/
def execMbxCmdProdWrite (idx : W16) (entries : List Desc) (s : State) : Res := onMbx s (s.cmdProd idx entries)

/-- MBX_RSP_CONS_WRITE (R359, R362): the host frees response slots; an index beyond PROD or behind the present value is ignored with
IDX_ERR. -/
def State.rspCons (s : State) (idx : W16) : State :=
  if (idx.toNat + 65536 - s.mb F.MBX_RSP_CONS_INDEX) % 65536 ≤ s.rspLevel then (s.setMb F.MBX_RSP_CONS_INDEX idx.toNat).mbxFlush
  else s.mbxEvent F.MBX_EVENT_IDX_ERR

/-- MBX_RSP_CONS_WRITE (R359, R362). -/
def execMbxRspConsWrite (idx : W16) (s : State) : Res := onMbx s (s.rspCons idx)

/-- MBX_NOP (R361): answered OK; an opcode of no command is answered BAD_OPCODE. -/
def execMbxNop (s : State) : Res := onMbx s (s.mbxRow 0x0001 (fun s h _ => s.mbxAnswer h 0x0001 0 0 []))

/-- MBX_EVENT_MASK (R361, R362): bit k enables event 0x8000 + k. -/
def execMbxEventMask (s : State) : Res :=
  onMbx s (s.mbxRow 0x0060 (fun s h d => (s.updMbx (fun m => { m with mask := BitVec.ofNat 16 (dBytes d 8 2) })).mbxAnswer h 0x0060 0 0 []))

/-- MBX_BACKGROUND_DONE (R360): the long command of an HSEQ ends, and its response is written. -/
def State.mbxJobDone (s : State) (hseq : W32) : State :=
  match s.mbx.jobs.find? (fun r => r.echo == hseq) with
  | some r => if s.mbxServed then (s.updMbx (fun m => { m with jobs := m.jobs.filter (fun r => r.echo != hseq) })).respondMbx r else s
  | none => s

/-- MBX_BACKGROUND_DONE (R360). -/
def execMbxBackgroundDone (hseq : W32) (s : State) : Res := onMbx s (s.mbxJobDone hseq)

/-- MSIX_HOLDOFF_EXPIRY (R363): a vector's holdoff ends, and a condition held during it sends one message. -/
def State.holdoffEnd (s : State) (v : Nat) : State :=
  if !s.mbx.hold.contains v then s
  else
    let owed := s.mbx.owed.contains v
    let s := s.updMbx (fun m => { m with hold := m.hold.filter (· != v), owed := m.owed.filter (· != v) })
    if owed then s.msixSend v else s

/-- MSIX_HOLDOFF_EXPIRY (R363). -/
def execMsixHoldoffExpiry (vector : Nat) (s : State) : Res := onMbx s (s.holdoffEnd vector)

/-- MSIX_TABLE_WRITE (R358, R363): a table entry is written; a pending vector that it unmasks sends its message. -/
def State.msixWrite (s : State) (v : Nat) (addr : FT) (data : W32) (masked : Bool) : State :=
  if 8 ≤ v then s
  else
    let s := s.updMbx (fun m => { m with msix := kput {} m.msix v { addr := addr, data := data, masked := masked } })
    if !masked && s.mbx.pba.contains v then (s.updMbx (fun m => { m with pba := m.pba.filter (· != v) })).vec v else s

/-- MSIX_TABLE_WRITE (R363). -/
def execMsixTableWrite (vector : Nat) (addr : FT) (data : W32) (masked : Bool) (s : State) : Res :=
  onMbx s (s.msixWrite vector addr data masked)

end Sys2Proof.Machine
end

