-- ==== Sys2Proof/Machine/Fault.lean ====
section
/-! DEFINITION. The FAULT units: counting, classification, capture, reactions, isolation, fences, recovery, unit commands, SRAM errors and
their scrubber, and state beacons (chapter 13). -/
namespace Sys2Proof.Machine

/-- The FT by which a die's FAULT unit counts (R62, R294): that of router 14's island on an I/O die. -/
def State.faultFt (s : State) (die : Nat) : FT := if 16 ≤ die then s.islFt (islKey die 14) else s.time.ft

/-- A die's FAULT unit. -/
def State.fdie (s : State) (die : Nat) : FDie := kget {} s.flt.dies die

/-- A die's FAULT unit changed. -/
def State.updFdie (s : State) (die : Nat) (f : FDie → FDie) : State :=
  s.updFlt (fun t => { t with dies := kput {} t.dies die (f (kget {} t.dies die)) })

/-- What the FAULT unit of its die keeps for a unit. -/
def State.funit (s : State) (u : Nat) : FUnit := kget {} (s.fdie (unitDie u)).units u

/-- What the FAULT unit keeps for a unit, changed. -/
def State.updFunit (s : State) (u : Nat) (f : FUnit → FUnit) : State :=
  s.updFdie (unitDie u) (fun d => { d with units := kput {} d.units u (f (kget {} d.units u)) })

/-- A unit's state for a class. -/
def FUnit.at_ (x : FUnit) (c : Nat) : FClass := kget {} x.cls c

/-- A unit's severity: the greatest over its classes (R300). -/
def FUnit.sev (x : FUnit) : Nat := (x.cls.map (·.2.st)).foldl max 0

/-- A class's policy on a die (R295, Table 13-11): BASE, N_DEG, N_SEV, T and Q in quanta, AUTO_RESTORE. -/
structure Policy where
  base : Nat
  nDeg : Nat
  nSev : Nat
  t : Nat
  q : Nat
  auto : Bool
  deriving DecidableEq, Repr

/-- The policy of a class at a die. -/
def State.policy (s : State) (die c : Nat) : Policy :=
  let u := faultUnit die
  { base := s.fldAt u F.FAULT_CLASS_CFG_BASE c, nDeg := s.fldAt u F.FAULT_CLASS_CFG_N_DEG c, nSev := s.fldAt u F.FAULT_CLASS_CFG_N_SEV c,
    t := s.fldAt u F.FAULT_CLASS_T_US c * 4000, q := s.fldAt u F.FAULT_CLASS_Q_US c * 4000,
    auto := s.fldAt u F.FAULT_CLASS_CFG_AUTO_RESTORE c == 1 }

/-- The reactions of a class at a severity: [0] LOG, [1] INTERRUPT, [2] ISOLATE, [3] FENCE, [4] HOLIDAY; none at NONE (R301). -/
def State.reacts (s : State) (die c sev : Nat) : Nat :=
  let u := faultUnit die
  if sev = 1 then s.fldAt u F.FAULT_REACT_NOTE c else if sev = 2 then s.fldAt u F.FAULT_REACT_DEGRADED c
  else if sev = 3 then s.fldAt u F.FAULT_REACT_SEVERE c else 0

/-! ## Classification (R300) -/

/-- A strobe taken at FT f: the class's new state, and whether the severity was entered. -/
def classify (p : Policy) (x : FClass) (f : FT) : FClass × Bool :=
  let y : FClass := if x.cnt = 0 ∨ p.t ≤ ftSince f x.wstart then { x with wstart := f, cnt := 1 } else { x with cnt := min (x.cnt + 1) 4095 }
  let sv := p.base
  let sv := if p.nDeg ≠ 0 ∧ p.nDeg ≤ y.cnt then max sv 2 else sv
  let sv := if p.nSev ≠ 0 ∧ p.nSev ≤ y.cnt then max sv 3 else sv
  ({ y with st := max x.st sv, last := f }, decide (x.st < sv))

/-! ## Control fields, isolation and restoration (R302, Table 13-4, R315) -/

/-- The stations of a die. -/
def dieStations (p : Package) (die : Nat) : List Nat :=
  ((List.range 400).map (fun l => die * 2048 + l)).filter (fun st => (stationKind p st).isSome)

/-- The control fields of a unit, as one number. -/
def State.control (s : State) (u : Nat) : Nat :=
  match unitKind s.pkg u with
  | some .ni => s.fld u F.NI_CTRL_CMD_EN + 2 * s.fld u F.NI_CTRL_RX_EN
  | some .port => s.fld u F.PORT_CTRL_EN
  | some .dlink => s.fld u F.DLINK_CTRL_EN
  | some .reduce => s.fld u F.REDUCE_CTRL_EN
  | some .pool => s.fld u F.POOL_CTRL_EN
  | some .power => (List.range 64).foldl (fun n i => n + s.fldAt u F.POWER_ISL_CTRL_STOP i * 2 ^ i) 0
  | _ => 0

/-- The control fields of a unit noted as written over the tree, or by an isolation or restoration (R315). -/
def State.noteCtl (s : State) (u : Nat) : State :=
  let v := s.control u
  s.updFlt (fun t => { t with beacons := kput {} t.beacons u { kget {} t.beacons u with written := v } })

/-- The units whose fields an isolation of a unit clears (Table 13-4): a router's NIs, or the unit; none where ISOLATE acts as INTERRUPT. -/
def isoTargets (p : Package) (u : Nat) : List Nat :=
  match unitKind p u with
  | some .ni => [u]
  | some .port => [u]
  | some .dlink => [u]
  | some .reduce => [u]
  | some .pool => [u]
  | some .router => (islStations p (unitDie u) (unitInst u)).map niUnit
  | _ => []

/-- The key of a crossing's end in the state. -/
def dlKeyOf (u : Nat) : Nat := unitDie u * 32 + unitInst u

/-- A unit's control fields cleared (Table 13-4). -/
def State.clearCtl (s : State) (u : Nat) : State :=
  match unitKind s.pkg u with
  | some .ni => (s.setFld u F.NI_CTRL_CMD_EN 0).setFld u F.NI_CTRL_RX_EN 0
  | some .port => s.portDisable (portOfUnit s.pkg u)
  | some .dlink => s.dlDisable (dlKeyOf u)
  | some .reduce => s.setFld u F.REDUCE_CTRL_EN 0
  | some .pool => s.poolDisable (unitDie u)
  | _ => s

/-- A unit's control fields written back. -/
def State.putCtl (s : State) (u v : Nat) : State :=
  match unitKind s.pkg u with
  | some .ni => ((s.setFld u F.NI_CTRL_CMD_EN (v % 2)).setFld u F.NI_CTRL_RX_EN (v / 2)).service (niStation u)
  | some .port => if v = 1 then s.portEnable (portOfUnit s.pkg u) else s
  | some .dlink => if v = 1 then s.dlEnable (dlKeyOf u) else s
  | some .reduce => s.setFld u F.REDUCE_CTRL_EN v
  | some .pool => s.setFld u F.POOL_CTRL_EN v
  | _ => s

/-- One target of an isolation: its earlier fields are recorded at the first, and cleared. -/
def State.isolateOne (s : State) (u c t : Nat) : State :=
  let x := s.funit t
  if x.heldBy.contains (u, c) then s
  else if x.heldBy.isEmpty then
    let v := s.control t
    (((s.updFunit t (fun x => { x with heldBy := [(u, c)], saved := v })).clearCtl t).noteCtl t)
  else s.updFunit t (fun x => { x with heldBy := x.heldBy ++ [(u, c)] })

/-- Isolation of a unit by a class (R302); where Table 13-4 gives none, ISOLATE acts as INTERRUPT. -/
def State.isolate (s : State) (u c : Nat) : State :=
  let ts := isoTargets s.pkg u
  if ts.isEmpty then s.event (faultUnit (unitDie u)) F.FAULT_EVENT_FAULT
  else ts.foldl (fun s t => s.isolateOne u c t) (s.updFunit u (fun x => if x.iso.contains c then x else { x with iso := x.iso ++ [c] }))

/-- One target of a restoration: the fields are written back once no class isolates it any more (R302). -/
def State.restoreOne (s : State) (u c t : Nat) : State :=
  let x := s.funit t
  if !x.heldBy.contains (u, c) then s
  else
    let rest := x.heldBy.filter (· != (u, c))
    let s := s.updFunit t (fun x => { x with heldBy := rest, saved := if rest.isEmpty then 0 else x.saved })
    if rest.isEmpty then (s.putCtl t x.saved).noteCtl t else s

/-- The isolation of a unit by a class lifted. -/
def State.restore (s : State) (u c : Nat) : State :=
  (isoTargets s.pkg u).foldl (fun s t => s.restoreOne u c t) (s.updFunit u (fun x => { x with iso := x.iso.filter (· != c) }))

/-! ## Fences (R303) -/

/-- The enabled dies. -/
def State.enabledDies (s : State) : List Nat := (List.range 20).filter (fun d => dieExists s.pkg d && !s.dieDisabled d)

/-- The package fault controller's fence messages, or the fence held while no core holds the lease (R303, R316). -/
def State.fenceKey (s : State) (key : Nat) : State :=
  if key = 0 then s
  else if s.holder.isSome then s.enabledDies.foldl (fun s d => s.emit (.fenceMsg d key)) s
  else s.updFlt (fun t => if t.fenceHeld.contains key then t else { t with fenceHeld := t.fenceHeld ++ [key] })

/-- The fences held without a lease are applied (R303). -/
def State.fencesDue (s : State) : State := s.flt.fenceHeld.foldl State.fenceKey (s.updFlt (fun t => { t with fenceHeld := [] }))

/-- A FENCE reaction of a unit's class (R303): for classes VIGIL and PARTITION only, whose DETAIL carries the key. -/
def State.fenceBy (s : State) (u c key : Nat) : State :=
  if (c = 6 ∨ c = 7) ∧ key ≠ 0 then
    (s.updFunit u (fun x => if x.fences.contains (c, key) then x else { x with fences := x.fences ++ [(c, key)] })).fenceKey key
  else s

/-- Whether a unit's class still fences a key. -/
def State.keyFenced (s : State) (key : Nat) : Bool :=
  s.flt.dies.any (fun e => e.2.units.any (fun x => x.2.fences.any (fun f => f.2 == key)))

/-- The key unfenced at every NI, once no class fences it. -/
def State.unfence (s : State) (key : Nat) : State :=
  if s.keyFenced key then s
  else
    { s with flt := { s.flt with fenceHeld := s.flt.fenceHeld.filter (· != key) },
             ni := s.ni.map (fun e => (e.1, { e.2 with fenced := e.2.fenced.filter (· != key) })) }

/-- The fences of a unit's class lifted. -/
def State.liftFences (s : State) (u c : Nat) : State :=
  let keys := ((s.funit u).fences.filter (fun f => f.1 == c)).map (·.2)
  keys.foldl State.unfence (s.updFunit u (fun x => { x with fences := x.fences.filter (fun f => f.1 != c) }))

/-- What a class applied to a unit lifted, and what of it waits for Holiday release forgotten. -/
def State.lift (s : State) (u c : Nat) : State :=
  ((s.updFlt (fun t => { t with held := t.held.filter (fun h => !(h.1 == u && h.2.1 == c)) })).restore u c).liftFences u c

/-- The isolations and fences that Holiday held act at its release (R316). -/
def State.faultRelease (s : State) : State :=
  s.flt.held.foldl (fun s h => if h.2.2 = 0 then s.isolate h.1 h.2.1 else s.fenceBy h.1 h.2.1 h.2.2) (s.updFlt (fun t => { t with held := [] }))

/-! ## Records (R308) -/

/-- A fault record goes to the Chronicle, and the mailbox reports it from ALERT_MIN on; the SEQ and MARK bytes of the mailbox's copy are
stated by no rule, since the record has not been placed (R308, R362; log 36). The trace unit takes the record too, and a severity of FAULT_SEV
or above triggers it (R383, Tables 17-9, 17-13; log 36). -/
def State.faultRecord (s : State) (code sev u c : Nat) (ft : FT) (qual : Nat) (detail : W32) (cnt jub : Nat) : State :=
  let r := s.chFill { code := code, sev := sev, quality := qual, source := c * 2 ^ 20 + u, cycles := 0, ft := ft, seconds := 0,
                      payload := leBytes 4 detail.toNat ++ leBytes 2 cnt ++ leBytes 1 jub }
  let s := s.chSubmit r
  let s := s.capture { type := 0x03, flag := false, source := u, qual := qual, ft := ft, body := ({ r := r, seq := 0, mark := 0x0F } : ChSlot).bytes }
  let lim := s.fld (traceUnit s.pkg) F.TRACE_TRIG_CFG_FAULT_SEV
  let s := if 0 < lim ∧ lim ≤ sev then s.trigger 2 else s
  if sev < s.mb F.MBX_CTRL_ALERT_MIN then s
  else
    let (v, s) := s.takeFree
    s.mbxRecord 5 sev (({ r := r, seq := v.extractLsb' 0 32, mark := (v.extractLsb' 32 8).toNat } : ChSlot).bytes)

/-! ## FAULT_REPORT_RECEIVE (R300–R303, R306, R307) -/

/-- A report after its strobe: the report, its severity, its class's count, and whether the severity was entered. -/
structure Judged where
  r : FaultReport
  sev : Nat
  cnt : Nat
  entered : Bool
  deriving DecidableEq, Repr

/-- A report's strobe is counted and classified; one that was lost at a clock boundary is not, and the overrun is reported (R277, R294;
log 35). -/
def State.judge (s : State) (die : Nat) (r : FaultReport) : State × Judged :=
  let fu := faultUnit die
  let x := (s.funit r.unit).at_ r.cls
  if !r.strobe then
    let i := 14
    let old := s.fldAt (dieUnit die) F.POWER_ISL_STATUS_OVERRUN i
    let s := s.setFldAt (dieUnit die) F.POWER_ISL_STATUS_OVERRUN i (old ||| 2 ^ (r.input % 6))
    ((s.event (dieUnit die) F.POWER_EVENT_OVERRUN).faultEvent (dieUnit die) 8 (BitVec.ofNat 32 (r.input % 6)),
     { r := r, sev := x.st, cnt := x.cnt, entered := false })
  else
    let s := s.count fu (R.FAULT_CNT + 8 * r.cls) 1
    if s.fld fu F.FAULT_CTRL_EN = 0 then (s, { r := r, sev := 0, cnt := 0, entered := false })
    else
      let (y, e) := classify (s.policy die r.cls) x (s.faultFt die)
      (s.updFunit r.unit (fun x => { x with cls := kput {} x.cls r.cls y }), { r := r, sev := y.st, cnt := y.cnt, entered := e })

/-- The source number of a report (R295). -/
def reportSource (r : FaultReport) : Nat := r.cls * 2 ^ 20 + r.unit

/-- The order of R307: descending severity, then the lower source number. -/
def before (a b : Judged) : Bool := decide (b.sev < a.sev) || (a.sev == b.sev && decide (reportSource a.r < reportSource b.r))

/-- A report put in its place in the order of R307. -/
def insJudged (j : Judged) : List Judged → List Judged
  | [] => [j]
  | k :: ks => if before j k then j :: k :: ks else k :: insJudged j ks

/-- The reactions of a report but LOG (R301); during Holiday isolation and fences wait (R316). -/
def State.react (s : State) (die : Nat) (j : Judged) : State :=
  let a := s.reacts die j.r.cls j.sev
  let key := getBits j.r.detail 31 20
  let s := if a.testBit 1 then s.event (faultUnit die) F.FAULT_EVENT_FAULT else s
  if !j.entered then s
  else
    let hold (s : State) (key : Nat) : State := s.updFlt (fun t => { t with held := t.held ++ [(j.r.unit, j.r.cls, key)] })
    let s := if a.testBit 2 then (if s.holds ∧ isoTargets s.pkg j.r.unit ≠ [] then hold s 0 else s.isolate j.r.unit j.r.cls) else s
    let s := if a.testBit 3 ∧ (j.r.cls = 6 ∨ j.r.cls = 7) ∧ key ≠ 0 then
        (if s.holds then hold s key else s.fenceBy j.r.unit j.r.cls key) else s
    if a.testBit 4 then s.holidayLocal 2 (s.bit (holidayUnit s.pkg) F.TRACE_HOLIDAY_CTRL_FAULT_SCOPE) else s

/-- The strobes of one fault cycle, in the order they are given. -/
def judgeAll (die : Nat) : List FaultReport → State → State × List Judged
  | [], s => (s, [])
  | r :: rs, s =>
    let (s, j) := s.judge die r
    let (s, js) := judgeAll die rs s
    (s, j :: js)

/-- The reports of one fault cycle: counted and classified, ordered, captured up to four where no capture runs, and reacted to. -/
def State.faultReports (s : State) (die : Nat) (rs : List FaultReport) : State :=
  let fu := faultUnit die
  let on := s.fld fu F.FAULT_CTRL_EN == 1
  let (s, js) := judgeAll die (rs.filter (fun r => decide (r.cls < 15) && unitDie r.unit == die)) s
  if !on then s
  else
    let js := js.foldl (fun l j => insJudged j l) []
    let free := (s.fdie die).capture.isEmpty
    let taken := if free then js.take 4 else []
    let s := if taken.length < js.length then s.event fu F.FAULT_EVENT_RECORD_LOST else s
    let s := s.updFdie die (fun d => { d with capture := d.capture ++ taken.map (fun j =>
      { unit := j.r.unit, cls := j.r.cls, detail := j.r.detail, sev := j.sev, cnt := j.cnt,
        jub := (kget {} d.units j.r.unit).jubilee, ft := s.faultFt die, qual := s.quality, log := (s.reacts die j.r.cls j.sev).testBit 0 }) })
    js.foldl (fun s j => s.react die j) s

/-- The parts that a fault reaction reaches. -/
def onFault (s : State) (die : Nat) (t : State) : Res :=
  onUnit (dieExists s.pkg die) s
    { s with flt := t.flt, regs := t.regs, ctrs := t.ctrs, out := t.out, irqHeld := t.irqHeld, freeCtr := t.freeCtr, ni := t.ni, pools := t.pools,
             ports := t.ports, dlinks := t.dlinks, rtr := t.rtr, arbs := t.arbs, chron := t.chron, mbx := t.mbx, hol := t.hol, trace := t.trace,
             time := t.time, pwr := t.pwr, eng := t.eng, diary := t.diary, alm := t.alm, isl := t.isl }

/-- FAULT_REPORT_RECEIVE (R294, R300, R301, R306, R307). -/
def execFaultReportReceive (die : Nat) (reports : List FaultReport) (s : State) : Res := onFault s die (s.faultReports die reports)

/-- A captured report is placed: in FAULT_FIRST while it is free and the severity suffices, else in FAULT_ALSO; LOG hands its record to the
Chronicle (R306, R307). -/
def State.place (s : State) (die : Nat) (x : FCapture) : State :=
  let fu := faultUnit die
  let s :=
    if s.fld fu F.FAULT_FIRST_INFO_VALID = 0 ∧ s.fld fu F.FAULT_CTRL_FIRST_MIN ≤ x.sev then
      ((((((s.setFld fu F.FAULT_FIRST_INFO_VALID 1).setFld fu F.FAULT_FIRST_INFO_QUALITY x.qual).setFld fu F.FAULT_FIRST_INFO_SEVERITY
        x.sev).setFld fu F.FAULT_FIRST_INFO_CLASS x.cls).setFld fu F.FAULT_FIRST_INFO_UNIT x.unit).setFld fu F.FAULT_FIRST_DETAIL_DETAIL
        x.detail.toNat).setPair fu R.FAULT_FIRST_FT x.ft
    else s.setFld fu F.FAULT_ALSO_CLASSES (s.fld fu F.FAULT_ALSO_CLASSES ||| 2 ^ x.cls)
  if x.log then s.faultRecord (0x0100 + x.cls) x.sev x.unit x.cls x.ft x.qual x.detail x.cnt x.jub else s

/-- FAULT_CAPTURE_DONE (R306, R307): the capture that runs ends, 16 fault cycles of 2 ns for each report after it began. -/
def State.captureDone (s : State) (die : Nat) : State :=
  let xs := (s.fdie die).capture
  if xs.any (fun x => decide (ftSince (s.faultFt die) x.ft < 128 * xs.length)) then s
  else xs.foldl (fun s x => s.place die x) (s.updFdie die (fun d => { d with capture := [] }))

/-- FAULT_CAPTURE_DONE (R306, R307). -/
def execFaultCaptureDone (die : Nat) (s : State) : Res := onFault s die (s.captureDone die)

/-- FAULT_FENCE_MESSAGE (R303): the FAULT unit sets the key in every NI of its die. -/
def State.fenceDie (s : State) (die key : Nat) : State :=
  if key = 0 ∨ 4096 ≤ key then s
  else ((dieStations s.pkg die).foldl (fun s st => s.updNi st (fun n => n.fence key)) s).event (faultUnit die) F.FAULT_EVENT_FENCE_APPLIED

/-- FAULT_FENCE_MESSAGE (R303). -/
def execFaultFenceMessage (die key : Nat) (s : State) : Res := onFault s die (s.fenceDie die key)

/-! ## Recovery (R304, R305) -/

/-- One state of a unit at the check: NONE once its class has been quiet for Q, unless the Jubilee count has reached its limit. -/
def State.quietOne (s : State) (die u c : Nat) : State :=
  let fu := faultUnit die
  let x := (s.funit u).at_ c
  let p := s.policy die c
  let since := ftSince (s.faultFt die) x.last
  let limit := s.fld fu F.FAULT_CTRL_JUBILEE_MAX
  let jub := (s.funit u).jubilee
  if x.st = 0 ∨ since < p.q then s
  else if limit ≤ jub then (if since < p.q + 4000 then s.event fu F.FAULT_EVENT_JUBILEE_LIMIT else s)
  else
    let left := decide (2 ≤ x.st)
    let log := (s.reacts die c x.st).testBit 0
    let jub := if left then min 255 (jub + 1) else jub
    let s := s.updFunit u (fun y => { y with cls := kput {} y.cls c { x with st := 0, cnt := 0 }, jubilee := jub })
    let s := if left && decide (limit ≤ jub) then s.event fu F.FAULT_EVENT_JUBILEE_LIMIT else s
    let s := if left && log then
        let (v, s) := s.takeFree
        s.faultRecord (0x0120 + c) x.st u c (s.faultFt die) s.quality (v.extractLsb' 0 32) 0 jub
      else s
    if p.auto && decide (jub < limit) then s.lift u c else s

/-- The quiet check of a die: every state other than NONE. -/
def State.quietCheck (s : State) (die : Nat) : State :=
  (s.fdie die).units.foldl (fun s e => e.2.cls.foldl (fun s c => s.quietOne die e.1 c.1) s) s

/-- FAULT_QUIET_CHECK (R304, R305). -/
def execFaultQuietCheck (die : Nat) (s : State) : Res := onFault s die (s.quietCheck die)

/-! ## FAULT_UNIT_CMD (R304, R305, R313) -/

/-- The unit that FAULT_UNIT_SEL names. -/
def State.selUnit (s : State) (die : Nat) : Nat := s.fld (faultUnit die) F.FAULT_UNIT_SEL_UNIT

/-- CLEAR: every state of the unit to NONE with cnt 0. -/
def State.unitClear (s : State) (u : Nat) : State :=
  s.updFunit u (fun x => { x with cls := (x.cls.map (fun e => (e.1, { e.2 with st := 0, cnt := 0 }))).filter (fun e => e.2 != {}) })

/-- FAULT_UNIT_CLEAR (R305). -/
def execFaultUnitClear (die : Nat) (s : State) : Res := onFault s die (s.unitClear (s.selUnit die))

/-- RESTORE: CLEAR, and every isolation and fence of the unit's classes lifted. -/
def State.unitRestore (s : State) (u : Nat) : State := (List.range 15).foldl (fun s c => s.lift u c) (s.unitClear u)

/-- FAULT_UNIT_RESTORE (R302–R305). -/
def execFaultUnitRestore (die : Nat) (s : State) : Res := onFault s die (s.unitRestore (s.selUnit die))

/-- CLEAR_JUBILEE: the Jubilee count to 0. -/
def State.clearJubilee (s : State) (u : Nat) : State := s.updFunit u (fun x => { x with jubilee := 0 })

/-- FAULT_CLEAR_JUBILEE (R305). -/
def execFaultClearJubilee (die : Nat) (s : State) : Res := onFault s die (s.clearJubilee (s.selUnit die))

/-- The descriptors that an NI holds queued, with the destinations they have. -/
def Ni.queuedTasks (n : Ni) : List Task := n.queues.flatMap (·.2) ++ n.yellow.map (·.task) ++ n.yellowWait ++ n.tiles.map (·.task)

/-- The descriptors that an NI holds queued without a destination yet: behind a fence, in translation, before a free collective instance, or
with their tile being read. -/
def Ni.queuedDescs (n : Ni) : List Desc :=
  n.cmdq.map (·.1) ++ n.xlatWait.map (·.d) ++ n.collWait.map (·.1) ++
  (n.rd.map (·.2) ++ n.rdQ.map (·.what)).filterMap (fun r => match r with
    | .tile t => some t.d
    | _ => none)

/-- What an NI keeps over its RESET (R313): its completions and due notices, write ids with nothing behind them, the read ids that will still answer,
retired TXNs none, the stream sequence it expects, and its shapers. -/
def Ni.cleared (n : Ni) (now : FT) : Ni :=
  { n with
    ctr := [], ctrBad := [], evt := [], trig := [], fireq := [], xlat := [], xlatWait := [], cmdq := [], queues := [], qHead := [], deficit := [],
    drrAt := none, yellow := [], yellowWait := [], tiles := [], grants := [], msgs := [], atomics := [], forms := [], hold := [], retired := [], outq := [],
    collq := [], collPend := [], collDef := [], collSched := [], defer := [], collWait := [], wrQ := [], rdQ := [],
    rx := n.rx.map (fun (e : Nat × RxStream) => (e.1, { e.2 with tiles := [] })),
    wr := n.wr.map (fun (e : Nat × WrFor) => (e.1, WrFor.nothing)), resets := n.resets ++ [now] }

/-- The effects of RESET on an NI (R313, R314): every queued descriptor completes NOT_READY, every outstanding transaction and collective instance
VIGIL, and the rest of its work is forgotten with the buffers it held. -/
def State.niReset (s : State) (st : Nat) : State :=
  let u := niUnit st
  let n := s.getNi st
  let die := poolDie s.pkg st
  let s := s.setPool die { s.getPool die with queue := (s.getPool die).queue.filter (fun r => r.st != st) }
  let s := n.queuedDescs.foldl (fun s d => s.completeNoPeer st d stNotReady 0) s
  let s := s.updNi st (fun m => n.queuedTasks.foldl (fun m t => m.complete t.d stNotReady 0 0 t.dest) m)
  let s := n.txn.foldl (fun s e => s.vigilEnd st e.1 false) s
  let s := n.grants.foldl (fun s e => s.freeBufs st e.2.f.pkey.toNat (if e.2.granted then e.2.bufs + e.2.writes else 0)) s
  let s := s.updNi st (fun m => m.cleared (s.stFt st))
  let s := (s.collReset st).updNi st (fun m => { m with ctr := [], ctrBad := [], evt := [] })
  s.setFld u F.NI_FAULT_STATUS_INC ((s.fld u F.NI_FAULT_STATUS_INC + 1) % 16)

/-- Resets of an NI within its NI_VIGIL_RETIRE (R313). -/
def State.recentResets (s : State) (st : Nat) : Nat :=
  let span := s.fld (niUnit st) F.NI_VIGIL_RETIRE_MS * 4000000
  ((s.getNi st).resets.filter (fun t => decide (ftSince (s.stFt st) t < span))).length

/-- FAULT_UNIT_CMD RESET (R313): refused with CMD_REJECT where the unit is of another class, is not fenced, or has been reset 15 times within
its retire period. -/
def State.unitReset (s : State) (die u : Nat) : State :=
  let reject := s.event (faultUnit die) F.FAULT_EVENT_CMD_REJECT
  let ni (st : Nat) : State := if s.control (niUnit st) = 0 ∧ s.recentResets st < 15 then s.niReset st else reject
  match unitKind s.pkg u with
  | some .ni => ni (niStation u)
  | some .memst => ni (niStation u)
  | some .reduce => if s.control u = 0 then s.reduceReset (niStation u) else reject
  | some .port =>
    if s.control u = 0 then (s.dropLink (portOfUnit s.pkg u)).updPort (portOfUnit s.pkg u) (fun p => { p with cold := true }) else reject
  | some .dlink =>
    if s.control u = 0 then s.updDl (dlKeyOf u) (fun d => { d with dseq := 0, held := [], tries := 0, e := 0, nak := false }) else reject
  | some .pool => if s.control u = 0 then s.setPool (unitDie u) {} else reject
  | _ => reject

/-- FAULT_UNIT_RESET (R312–R314). -/
def execFaultUnitReset (die : Nat) (s : State) : Res := onFault s die (s.unitReset die (s.selUnit die))

/-! ## SRAM errors (R296–R299, R318) -/

/-- The scrubber reads a word (R296, R297): none wrong, or the poison syndrome: nothing; one bit: corrected in place and counted; two: rewritten
with the poison syndrome and counted. More bits make a syndrome whose reading the manual does not give (log 37): a free value takes one of the
two. -/
def State.scrubWord (s : State) (unit sram word : Nat) : State :=
  let e := s.eccAt unit sram word
  let fix (s : State) : State := (s.sramWrite unit sram word 0).faultEvent unit 0 (eccDetail sram word false true)
  let bad (s : State) : State := (s.sramWrite unit sram word 3).faultEvent unit 1 (eccDetail sram word false true)
  if e = 0 ∨ e = 3 then s
  else if weight e = 1 then fix s
  else if weight e % 2 = 0 then bad s
  else
    let (v, s) := s.takeFree
    if v.getLsbD 0 then fix s else bad s

/-- SCRUB_ACCESS (R159, R296): the scrubber takes its access and goes to the next word in ascending order. The words of an SRAM are not counted by
the manual, so the walk runs over the 2^24 word indices of DETAIL (log 37). -/
def State.scrub (s : State) (unit sram : Nat) : State :=
  let k := unit * 64 + sram
  let w := kget 0 s.flt.scrub k
  (s.scrubWord unit sram w).updFlt (fun t => { t with scrub := kput 0 t.scrub k ((w + 1) % 2 ^ 24) })

/-- A command of a unit's SRAM. -/
def onSram (s : State) (unit sram : Nat) (t : State) : Res :=
  onUnit ((unitKind s.pkg unit).isSome && decide (sram < 64)) s
    { s with flt := t.flt, regs := t.regs, out := t.out, freeCtr := t.freeCtr }

/-- SCRUB_ACCESS (R296). -/
def execScrubAccess (unit sram : Nat) (s : State) : Res := onSram s unit sram (s.scrub unit sram)

/-- ECC_WRITE_BACK (R296): the corrected word of a functional read is written back, and the event is counted ECC_CORR. -/
def State.writeBack (s : State) (unit sram word : Nat) : State :=
  if weight (s.eccAt unit sram word) = 1 then
    (s.sramWrite unit sram word 0).faultEvent unit 0 (eccDetail sram word false false)
  else s

/-- ECC_WRITE_BACK (R296). -/
def execEccWriteBack (unit sram word : Nat) (s : State) : Res := onSram s unit sram (s.writeBack unit sram word)

/-! ## What an error strikes (R112, R299, Table 13-2)

Which words a cycle writes no rule says; the cycle of the reference in which an armed injector strikes, and the word, are free values (log 75). -/

/-- An element of a list changed. -/
def changeAt {α : Type} (f : α → α) (i : Nat) (l : List α) : List α := (l.take i) ++ ((l.drop i).take 1).map f ++ l.drop (i + 1)

/-- The n-th frame of the queues of a map, counted through them in order, changed or taken out. -/
def strikeQueues (f : Head → Option Head) : Nat → KMap (List Head) → KMap (List Head)
  | _, [] => []
  | n, e :: m =>
    if n < e.2.length then (e.1, (e.2.take n) ++ ((e.2.drop n).take 1).filterMap f ++ e.2.drop (n + 1)) :: m
    else e :: strikeQueues f (n - e.2.length) m

/-- The frames that queues hold. -/
def queuedFrames (m : KMap (List Head)) : Nat := (m.map (fun e => e.2.length)).foldl (· + ·) 0

/-- A frame in a buffer with a bad word (R112, R299): a data word marks its flit poisoned; with a head word it is consumed and dropped. -/
def strikeHead (head : Bool) (flit : Nat) (h : Head) : Option Head :=
  if head then none else some { h with f := poisonFlits ((classPlane h.f.cls.toNat).getD 0) [flit] h.f }

/-- A bad word in a buffer of a unit (R299): one of the frames it holds is struck. -/
def State.strikeBuffer (s : State) (u : Nat) (head : Bool) (i flit : Nat) : State :=
  let hit := strikeQueues (strikeHead head flit)
  let pick (m : KMap (List Head)) : Nat := i % max 1 (queuedFrames m)
  match unitKind s.pkg u with
  | some .router =>
    let t := s.updRtr (islKey (unitDie u) (unitInst u)) (fun r => { r with inq := hit (pick r.inq) r.inq })
    ((s.getRtr (islKey (unitDie u) (unitInst u))).inq.map (fun (e : Nat × List Head) => e.1)).foldl
      (fun s k => s.inputTell (unitDie u) (unitInst u) k) t
  | some .port =>
    (s.updPort (portOfUnit s.pkg u) (fun p =>
      if i % 2 = 0 then { p with rxq := hit (pick p.rxq) p.rxq } else { p with staged := hit (pick p.staged) p.staged })).flowCheck (portOfUnit s.pkg u)
  | some .ni => s.updNi (niStation u) (fun n => { n with outq := n.outq.take (i % max 1 n.outq.length) ++
      ((n.outq.drop (i % max 1 n.outq.length)).take 1).filterMap (strikeHead head flit) ++ n.outq.drop (i % max 1 n.outq.length + 1) })
  | some .dlink => s.updDl (dlKeyOf u) (fun d => { d with txq := d.txq.map (fun (e : Nat × List TxFlit) =>
      (e.1, changeAt (fun x => { x with slot := { x.slot with err := true } }) (i % max 1 e.2.length) e.2)) })
  | _ => s

/-- The station whose engine or collective unit keeps the chunk state of a unit. -/
def unitStation (p : Package) (u : Nat) : Option Nat := match unitKind p u with
  | some .ni => some (niStation u)
  | some .reduce => some (niStation u)
  | _ => none

/-- An uncorrectable or poisoned word that a unit meets acts by the kind of its SRAM (R299, Table 13-2); table words act where they are read. -/
def State.strike (s : State) (u kind item flit : Nat) : State :=
  if kind = srData ∨ kind = srHead then s.strikeBuffer u (kind == srHead) item flit
  else if kind = srCounter then
    s.updNi (niStation u) (fun n =>
      let c := item % 4096
      let slots := (n.trig.filter (fun e => dTrigCtr e.2 == c)).map (·.1)
      { n with ctrBad := if n.ctrBad.contains c then n.ctrBad else n.ctrBad ++ [c], trig := n.trig.filter (fun e => dTrigCtr e.2 != c),
               fireq := n.fireq.filter (fun k => !slots.contains k) })
  else if kind = srTrigger then
    s.updNi (niStation u) (fun n => { n with trig := kdel n.trig item, fireq := n.fireq.filter (· != item) })
  else match unitStation s.pkg u with
    | none => s
    | some st =>
      let is := (s.getEng st).insts
      match is[item % max 1 is.length]? with
      | none => s
      | some i =>
        if kind = srChunk then s.cancelAt st i.tag 2 0 stNotReady none
        else if kind = srLanes then
          s.updInst st i.tag (fun i => { i with chunks := i.chunks.map (fun e =>
            (e.1, { e.2 with blks := changeAt (fun b => { b with poison := true }) (flit % max 1 e.2.blks.length) e.2.blks })) })
        else s

/-- A cycle's functional write at a unit whose SRAMs hold an error or whose injector is armed (R298, R318): whether there is one, its SRAM (63 is the
link CRC and no SRAM), its word and whether it is byte-masked are free. A word that has an uncorrectable error then acts, counted where it is not poisoned (R297). -/
def State.sramUse (s : State) (u : Nat) : State :=
  let (v, s) := s.takeFree
  if !v.getLsbD 0 then s
  else
    let sram := (v.extractLsb' 2 6).toNat
    let word := (v.extractLsb' 8 24).toNat
    let s := if sram = 63 then s else s.wordWrite u sram word (v.getLsbD 1)
    let e := s.eccAt u sram word
    if !uncorrectable e then s
    else
      let x := Config.sramHolds (unitClass u) sram word
      let s := if x.1 = srData ∨ x.1 = srHead ∨ (srCounter ≤ x.1 ∧ x.1 ≤ srLanes) then
          (if e = 3 then s else s.faultEvent u 1 (eccDetail sram word false false)).strike u x.1 x.2 (v.extractLsb' 32 8).toNat
        else s
      s

/-- The units whose injector is armed or whose SRAMs hold an error. -/
def State.sramUnits (s : State) : List Nat :=
  let armed (e : Nat × W32) : Bool := e.1 % 4096 == R.NI_INJ && e.2.getLsbD 31 && ((unitKind s.pkg (e.1 / 4096)).map injectKind).getD false
  ((s.regs.filter armed).map (fun (e : Nat × W32) => e.1 / 4096) ++ s.flt.ecc.map (fun (e : Nat × Byte) => e.1 / 2 ^ 30)).eraseDups

/-- One cycle of the SRAMs. -/
def State.sramCycle (s : State) : State := s.sramUnits.foldl State.sramUse s

/-! ## State beacons (R315) -/

/-- TRANSITION: a port or crossing trains, a die gates or ungates, an island glides. -/
def State.inTransition (s : State) (u : Nat) : Bool :=
  match unitKind s.pkg u with
  | some .port => let st := s.fld u F.PORT_STATUS_STATE; decide (1 ≤ st ∧ st ≤ 4)
  | some .dlink => s.fld u F.DLINK_STATUS_STATE == 1
  | some .power =>
    let st := s.fld u F.POWER_DIE_STATUS_STATE
    st == 1 || st == 3 || (List.range 64).any (fun i => s.gliding (unitDie u) i)
  | _ => false

/-- What a beacon carries that software does not write (R315): the state of a die, and of the almanac bank not in force with the one in force. Nothing
was last written there, so it is no part of the comparison (DESIGN CHOICE, log 75). -/
def State.beaconState (s : State) (u : Nat) : Nat :=
  match unitKind s.pkg u with
  | some .power => s.fld u F.POWER_DIE_STATUS_STATE
  | some .almCtl => otherCode s.alm.other * 2 + s.alm.inForce
  | _ => 0

/-- STATE_BEACON (R315): the live and last written control fields enter the FM's shadow; the third and every further mismatched beacon in a row
raises MISMATCH. -/
def State.beacon (s : State) (u : Nat) : State :=
  let b := kget {} s.flt.beacons u
  let live := s.control u
  let bad := live != b.written && !s.inTransition u
  let n := if bad then b.misses + 1 else 0
  let s := (s.updFlt (fun t => { t with beacons := kput {} t.beacons u { b with misses := n, shadow := some (b.written, live) } })).emit
    (.shadow u b.written live (s.beaconState u))
  if 3 ≤ n then s.faultEvent u 12 (BitVec.ofNat 32 (b.written % 65536 * 65536 + live % 65536)) else s

/-- STATE_BEACON (R315). -/
def execStateBeacon (die unit : Nat) (s : State) : Res :=
  onUnit (dieExists s.pkg die && unitDie unit == die && (unitKind s.pkg unit).isSome) s
    (let t := s.beacon unit; { s with flt := t.flt, out := t.out })

end Sys2Proof.Machine
end

