-- ==== Sys2Proof/Machine/Image.lean ====
section
/-! DEFINITION. The fabric image: its file and records (R365, R366), the staging checks of codes 0x01xx in their order (R367, Table 16-12), and
the fields that a commit or a bring-up step writes from it (R341, R370). -/
namespace Sys2Proof.Machine

/-- A section table entry (Table 16-7), and where its reserved word stands. -/
structure ImgSec where
  type : Nat
  version : Nat
  rsv : Nat
  off : Nat
  len : Nat
  crc : Nat
  records : Nat
  deriving DecidableEq, Repr

/-- A failure of the validator (R368): its code, the section index (0xFFFF for header, layout and signature), the record's offset in its section
and its SCOPE. -/
structure ImgFail where
  code : Nat
  sec : Nat := 0xFFFF
  off : Nat := 0
  scope : W32 := 0
  deriving DecidableEq, Repr

/-- RESULT of a REJECTED response or IMAGE_REJECTED record (R368). -/
def ImgFail.result (f : ImgFail) : List Byte := leBytes 2 f.sec ++ [0, 0] ++ leBytes 4 f.off ++ leBytes 4 f.scope.toNat

/-- Entry i of the section table. -/
def imgSec (bs : List Byte) (i : Nat) : ImgSec :=
  let o := 128 + 32 * i
  { type := leAt bs o 2, version := leAt bs (o + 2) 2, rsv := leAt bs (o + 4) 4, off := leAt bs (o + 8) 8, len := leAt bs (o + 16) 8,
    crc := leAt bs (o + 24) 4, records := leAt bs (o + 28) 4 }

/-- The section table. -/
def imgSecs (bs : List Byte) : List ImgSec := (List.range (leAt bs 6 2)).map (imgSec bs)

/-- Whether n bytes at an offset are zero. -/
def zeroAt (bs : List Byte) (off n : Nat) : Bool := leAt bs off n == 0

/-- The bytes of a section. -/
def secBytes (bs : List Byte) (x : ImgSec) : List Byte := (bs.drop x.off).take x.len

/-- The records of a section's bytes from an offset (Table 16-9); none where a LENGTH_QW does not fit. The fuel bounds the records. -/
def secRecs (type : Nat) (b : List Byte) : Nat → Nat → Option (List Rec)
  | 0, _ => none
  | k + 1, o =>
    if b.length ≤ o then some []
    else
      let n := leAt b (o + 2) 2 * 8
      if n < 16 ∨ b.length < o + n then none
      else
        (secRecs type b k (o + n)).map (fun rs =>
          { sec := type, kind := leAt b o 2, variant := BitVec.ofNat 16 (leAt b (o + 4) 2), scope := BitVec.ofNat 32 (leAt b (o + 8) 4),
            payload := (b.drop (o + 16)).take (n - 16), offset := o, rsv := leAt b (o + 6) 2 + leAt b (o + 12) 4 } :: rs)

/-! ## The header, layout, signature and section checks (0x0101–0x0108) -/

/-- 0x0101: MAGIC, FORMAT, and the reserved bytes; SECTIONS and IMAGE_ID within their ranges. -/
def headerOk (bs : List Byte) : Bool :=
  leAt bs 0 4 == 0x31494650 && leAt bs 4 2 == 1 && decide (1 ≤ leAt bs 6 2 ∧ leAt bs 6 2 ≤ 64) && leAt bs 8 8 != 0 &&
  decide (leAt bs 24 1 < 16) && zeroAt bs 25 7 && decide (leAt bs 40 4 < 2 ^ 17) && zeroAt bs 52 72

/-- 0x0103: TOTAL_LENGTH is the bytes staged and at most 256 MiB, and the sections are aligned, lie between the section table and the signature
block, and do not overlap. -/
def layoutOk (bs : List Byte) : Bool :=
  let t := leAt bs 16 8
  let xs := imgSecs bs
  let lo := 128 + 32 * xs.length
  t == bs.length && decide (t ≤ 2 ^ 28) && decide (lo + 256 ≤ t) &&
  xs.all (fun x => x.off % 8 == 0 && x.len % 8 == 0 && decide (lo ≤ x.off) && decide (x.off + x.len + 256 ≤ t)) &&
  (List.range xs.length).all (fun i => (List.range i).all (fun j =>
    let a := imgSec bs i
    let b := imgSec bs j
    decide (a.off + a.len ≤ b.off) || decide (b.off + b.len ≤ a.off)))

/-- The signature block (Table 16-8). -/
def sigBlock (bs : List Byte) : List Byte := bs.drop (bs.length - 256)

/-- 0x0104: the signature block's fixed bytes, and the signature over the bytes before it. -/
def signatureOk (bs : List Byte) : Bool :=
  let g := sigBlock bs
  leAt g 0 4 == 0x47495350 && zeroAt g 4 4 && leAt g 8 1 == 4 && zeroAt g 105 7 && zeroAt g 208 48 && Config.signatureValid bs

/-- 0x0105: the key is one whose hash the firmware carries. -/
def keyOk (bs : List Byte) : Bool := Config.keyTrusted (((sigBlock bs).drop 8).take 97)

/-- The first index at which a check fails. -/
def firstBad (n : Nat) (ok : Nat → Bool) : Option Nat := (List.range n).find? (fun i => !ok i)

/-- 0x0106: the first section whose TYPE is unknown or repeated, whose VERSION is not 1 or whose reserved word is not zero; a missing required
section fails at 0xFFFF. -/
def sectionsBad (bs : List Byte) : Option Nat :=
  let xs := imgSecs bs
  let ts := xs.map (·.type)
  match firstBad xs.length (fun i =>
    let x := imgSec bs i
    decide (1 ≤ x.type ∧ x.type ≤ 10) && x.version == 1 && x.rsv == 0 && !(ts.take i).contains x.type) with
  | some i => some i
  | none => if [1, 2, 3, 4].all ts.contains then none else some 0xFFFF

/-- 0x0107: the first section whose CRC fails. -/
def crcBad (bs : List Byte) : Option Nat :=
  firstBad (imgSecs bs).length (fun i => let x := imgSec bs i; (crc32c (secBytes bs x)).toNat == x.crc)

/-- 0x0108: TARGET, SERIAL, and for an image staged while another is committed COORD. -/
def State.targetMatches (s : State) (bs : List Byte) : Bool :=
  leAt bs 24 1 == variantCode s.pkg && (leAt bs 32 8 == 0 || leAt bs 32 8 == s.pkg.serial.toNat) &&
  (s.image.isNone || leAt bs 40 4 % 2 ^ 17 == s.coord.toNat)

/-! ## Records (0x0109, Table 16-10) -/

/-- The section a kind belongs to; 0 for any (Table 16-10). -/
def kindSection (k : Nat) : Option Nat :=
  if k = 0x0001 then some 0
  else if [0x0101, 0x0102].contains k then some 1 else if [0x0201, 0x0202].contains k then some 2
  else if [0x0301, 0x0302, 0x0303, 0x0304, 0x0305, 0x0306].contains k then some 3
  else if [0x0401, 0x0402, 0x0403].contains k then some 4 else if [0x0501, 0x0502, 0x0503].contains k then some 5
  else if k = 0x0601 then some 6 else if k = 0x0701 then some 7 else if k = 0x0801 then some 8 else if k = 0x0901 then some 9 else none

/-- The unit classes that a kind's SCOPE may name; none for the package (Table 16-10). -/
def kindClasses (k : Nat) : List Nat :=
  if [0x0101, 0x0102, 0x0301, 0x0305, 0x0502].contains k then [2]
  else if k = 0x0202 then [1, 4, 2] else if [0x0302, 0x0303, 0x0306].contains k then [4] else if k = 0x0402 then [1]
  else if k = 0x0501 then [2, 4] else if k = 0x0503 then [12] else []

/-- Whether a SCOPE is valid for a kind (Table 16-9): the package, or units of one of its classes; a REGLOAD covers the package or every die. -/
def scopeOk (k : Nat) (scope : W32) : Bool :=
  let pkg := scope == 0x400000
  let cls := getBits scope 14 10
  getBits scope 31 23 == 0 &&
  (if k = 1 then pkg || (getBits scope 22 22 == 0 && getBits scope 21 21 == 1)
   else if (kindClasses k).isEmpty then pkg
   else getBits scope 22 22 == 0 && (kindClasses k).contains cls)

/-- Whether a payload has the length and the zero bytes of its kind (Table 16-10). -/
def payloadOk (k : Nat) (p : List Byte) : Bool :=
  let n := p.length
  let pad (m : Nat) : Bool := n == (m + 7) / 8 * 8 && (p.drop m).all (· == 0)
  let multi (e : Nat) : Bool := n % e == 0
  if k = 0x0001 then (let m := n / 12 * 12; decide (n < m + 12) && (p.drop m).all (· == 0))
  else if k = 0x0101 then n == 32 && zeroAt p 12 4 && zeroAt p 28 4
  else if k = 0x0102 then n == 1536 && (List.range 64).all (fun i => zeroAt p (24 * i + 20) 4)
  else if k = 0x0201 then decide (32 ≤ n) && pad (32 + 4 * leAt p 24 4 + 2 * leAt p 28 4) && decide (leAt p 2 1 < 2)
  else if k = 0x0202 then n == 512
  else if k = 0x0301 ∨ k = 0x0302 then n == 168 && decide (leAt p 160 1 < 16) && zeroAt p 161 7 && (List.range 20).all (fun i => leAt p (8 * i) 8 / 16 % 2 ^ 20 == 0)
  else if k = 0x0303 then n == 256 && (List.range 32).all (fun i => leAt p (8 * i) 8 / 16 % 2 ^ 20 == 0)
  else if k = 0x0304 then n == 131080
  else if k = 0x0305 then multi 24
  else if k = 0x0306 then n == 8 && zeroAt p 4 4
  else if k = 0x0401 then n == 32 && zeroAt p 26 6
  else if k = 0x0402 then decide (8 ≤ n) && zeroAt p 2 2 && pad (8 + 4 * leAt p 0 2 + 4 * leAt p 4 4)
  else if k = 0x0403 then multi 24 && (List.range (n / 24)).all (fun i => zeroAt p (24 * i + 18) 6 && decide (leAt p (24 * i + 2) 2 < 2 ^ 15) && decide (leAt p (24 * i + 16) 1 < 8))
  else if k = 0x0501 then n == 2048
  else if k = 0x0502 then multi 24 && (List.range (n / 24)).all (fun i => zeroAt p (24 * i + 3) 1)
  else if k = 0x0503 then n == 8192
  else if k = 0x0601 then
    decide (32 ≤ n) && pad (32 + 2 * leAt p 22 2 + 2 * leAt p 28 2) && zeroAt p 30 2 && decide (leAt p 4 1 < 64) && decide (leAt p 5 1 < 16) &&
    decide (leAt p 7 1 < 4)
  else if k = 0x0701 then multi 8
  else if k = 0x0801 then multi 8 && (List.range (n / 8)).all (fun i => zeroAt p (8 * i + 5) 3)
  else if k = 0x0901 then n == 48 && zeroAt p 5 1 && zeroAt p 12 4
  else false

/-- Whether a record stands in its section with its reserved bytes zero and a valid SCOPE, payload and VARIANT (0x0109). -/
def recOk (r : Rec) : Bool :=
  r.rsv == 0 &&
  (match kindSection r.kind with
   | some 0 => true
   | some t => t == r.sec
   | none => false) &&
  scopeOk r.kind r.scope && payloadOk r.kind r.payload && (r.variant == 0xFFFF || (kindBanked r.kind && decide (r.variant.toNat / 4096 ≤ 10)))

/-! ## REGLOAD (0x010A) -/

/-- The entries of a REGLOAD payload: address, value, mask. -/
def regLoads (r : Rec) : List (W32 × W32 × W32) :=
  (List.range (r.payload.length / 12)).map (fun i =>
    (BitVec.ofNat 32 (leAt r.payload (12 * i) 4), BitVec.ofNat 32 (leAt r.payload (12 * i + 4) 4), BitVec.ofNat 32 (leAt r.payload (12 * i + 8) 4)))

/-- Whether a value is a legal encoding of a field (R18). -/
def legalOk (l : Legal) (v : Nat) : Bool := match l with
  | .any => true
  | .range lo hi => decide (lo ≤ v ∧ v ≤ hi)
  | .mult n => v % n == 0

/-- The fields of the register word at a unit and offset, where the unit has it (R395, R401). -/
def fieldsAt (p : Package) (u off : Nat) : List Fld :=
  match unitKind p u with
  | none => []
  | some k => match rowAt k off with
    | none => []
    | some r => if regPresent p u off && r.kind != .counter then r.flds else []

/-- The bits of the fields that a predicate picks. -/
def maskOf (fs : List Fld) (ok : Fld → Bool) : W32 := (fs.filter ok).foldl (fun m f => m ||| bitMask f.hi f.lo) 0

/-- The bits of a register word whose Warm column reads image. -/
def imageBits (p : Package) (u off : Nat) : W32 := maskOf (fieldsAt p u off) (fun f => f.warm == .image)

/-- The unit and offset of a management address. -/
def unitOf (addr : W32) : Nat := addr.toNat / 4096
/-- The offset of a management address. -/
def offOf (addr : W32) : Nat := addr.toNat % 4096

/-- The addresses that a REGLOAD entry sets under its SCOPE: the address, or the same register on every die that has it (R366). -/
def loadSites (p : Package) (scope addr : W32) : List (Nat × Nat) :=
  let off := offOf addr
  let u := unitOf addr
  if getBits scope 21 21 = 1 then
    ((List.range 20).map (fun d => unitAddr d (unitClass u) (unitInst u))).filterMap (fun v =>
      if (fieldsAt p v off).isEmpty then none else some (v, off))
  else [(u, off)]

/-- Whether a section owns a unit's class, so that its REGLOAD records may set it (Table 16-10). The specification gives TRACE the probe, trace and
Holiday registers (R387) and FAULT_POLICY the fault classes; the rest is read from which section each rule takes a field from (log 76). -/
def sectionOwns (sec : Nat) (k : UnitKind) : Bool := match k with
  | .probe | .trace | .holiday => sec == 10
  | .fault => sec == 8
  | .diary => sec == 1
  | .time => sec == 3
  | .power => sec == 9
  | .pool => sec == 5
  | .ni => sec == 1 || sec == 5
  | .port => sec == 3 || sec == 5
  | _ => sec != 10

/-- Whether a REGLOAD entry of a section names image fields of a class it owns only, with values in their ranges (0x010A). -/
def State.loadOk (s : State) (sec : Nat) (scope : W32) (e : W32 × W32 × W32) : Bool :=
  e.1.toNat % 4 == 0 && !(loadSites s.pkg scope e.1).isEmpty &&
  (loadSites s.pkg scope e.1).all (fun x =>
    ((unitKind s.pkg x.1).map (sectionOwns sec)).getD false &&
    let fs := fieldsAt s.pkg x.1 x.2
    let w := (s.reg x.1 x.2 &&& ~~~e.2.2) ||| (e.2.1 &&& e.2.2)
    e.2.2 &&& ~~~ imageBits s.pkg x.1 x.2 == 0 &&
    fs.all (fun f => e.2.2 &&& bitMask f.hi f.lo == 0 || legalOk f.legal (getBits w f.hi f.lo)))

/-! ## Staging (R341, R367) -/

/-- The records of the sections, in section-table order, or the first section whose records do not parse or do not count to RECORDS. -/
def imgRecs (bs : List Byte) : List Nat → Except Nat (List (Nat × Rec))
  | [] => .ok []
  | i :: is =>
    let x := imgSec bs i
    match secRecs x.type (secBytes bs x) (x.len / 8 + 1) 0 with
    | none => .error i
    | some rs =>
      if rs.length ≠ x.records then .error i
      else match imgRecs bs is with
        | .error j => .error j
        | .ok more => .ok (rs.map (fun r => (i, r)) ++ more)

/-- The staging checks in the order of their codes; an image that passes is parsed (R367, Table 16-12). -/
def State.parseImage (s : State) (bs : List Byte) (store : Bool) : Except ImgFail Image :=
  if !headerOk bs then .error { code := 0x0101 }
  else if (crc32c (bs.take 124)).toNat ≠ leAt bs 124 4 then .error { code := 0x0102 }
  else if !layoutOk bs then .error { code := 0x0103 }
  else if !signatureOk bs then .error { code := 0x0104 }
  else if !keyOk bs then .error { code := 0x0105 }
  else match sectionsBad bs with
  | some i => .error { code := 0x0106, sec := i }
  | none =>
    match crcBad bs with
    | some i => .error { code := 0x0107, sec := i }
    | none =>
      if !s.targetMatches bs then .error { code := 0x0108 }
      else match imgRecs bs (List.range (imgSecs bs).length) with
      | .error i => .error { code := 0x0109, sec := i }
      | .ok rs =>
        match rs.find? (fun r => !recOk r.2) with
        | some r => .error { code := 0x0109, sec := r.1, off := r.2.offset, scope := r.2.scope }
        | none =>
          match rs.find? (fun r => r.2.kind == 1 && !(regLoads r.2).all (s.loadOk r.2.sec r.2.scope)) with
          | some r => .error { code := 0x010A, sec := r.1, off := r.2.offset, scope := r.2.scope }
          | none =>
            if store && decide (14 * 2 ^ 20 < bs.length) then .error { code := 0x010B }
            else .ok { id := BitVec.ofNat 64 (leAt bs 8 8), target := leAt bs 24 1, serial := BitVec.ofNat 64 (leAt bs 32 8),
                       coord := BitVec.ofNat 17 (leAt bs 40 4), recs := rs.map (·.2), bytes := bs, store := store }

/-! ## Writing image fields (R341, R366, R370) -/

/-- One REGLOAD entry at one register, over the bits that a mask allows: (old AND NOT mask) OR (value AND mask). -/
def State.loadAt (s : State) (u off : Nat) (value mask : W32) : State := s.setReg u off ((s.reg u off &&& ~~~mask) ||| (value &&& mask))

/-- The REGLOAD entries of an image, over the bits that bits u off allows. -/
def State.loadFields (s : State) (img : Image) (bits : Nat → Nat → W32) : State :=
  (img.recs.filter (fun r => r.kind == 1)).foldl (fun s r =>
    (regLoads r).foldl (fun s e =>
      (loadSites s.pkg r.scope e.1).foldl (fun s x => s.loadAt x.1 x.2 e.2.1 (e.2.2 &&& bits x.1 x.2)) s) s) s

/-- Every bit that bits u off picks put back to its cold value: an absent section leaves every field it would have set so (R365). -/
def State.coldFields (s : State) (bits : Nat → Nat → W32) : State :=
  s.regs.foldl (fun s e => let u := e.1 / 4096; let off := e.1 % 4096; s.loadAt u off (coldOf s.pkg u off) (bits u off)) s

/-- The image fields of a bring-up step before the commit (R341): the fields' register offsets by class. -/
def stepBits (p : Package) (step u off : Nat) : W32 :=
  let all := imageBits p u off
  let pick (fs : List Fld) : W32 := all &&& maskOf (fieldsAt p u off) fs.contains
  match unitKind p u with
  | some .time =>
    if step = 2 then (if off = R.TIME_CTRL then pick [F.TIME_CTRL_ROLE] else if off = R.TIME_EPOCH_SET ∨ off = R.TIME_EPOCH_SET + 4 then all else 0)
    else if step = 5 ∧ (R.TIME_PORT_ASYM ≤ off ∨ off = R.TIME_UPSTREAM ∨ off = R.TIME_DEPTH) then all else 0
  | some .dlink => if step = 3 ∧ off = R.DLINK_CTRL then pick [F.DLINK_CTRL_QUAL_EN, F.DLINK_CTRL_HALF_ALLOW] else 0
  | some .ni =>
    if step = 4 ∧ ((R.NI_JRNL_SIZE ≤ off ∧ off ≤ R.NI_JRNL_BASE + 4) ∨ off = R.NI_JRNL_RBASE ∨ off = R.NI_JRNL_RBASE + 4 ∨
        (R.NI_STATS_BASE ≤ off ∧ off ≤ R.NI_STATS_SIZE)) then all else 0
  | some .diary =>
    if step = 4 ∧ ((R.TRACE_DIARY_BASE ≤ off ∧ off ≤ R.TRACE_DIARY_SIZE) ∨ (R.TRACE_STATS_BASE ≤ off ∧ off ≤ R.TRACE_STATS_SIZE)) then all else 0
  | some .port =>
    if step ≠ 5 then 0
    else if off = R.PORT_EXPECT then all
    else if off = R.PORT_CTRL then pick [F.PORT_CTRL_USE_SAVED, F.PORT_CTRL_QUAL_EN, F.PORT_CTRL_AUTO_DEGRADE, F.PORT_CTRL_AUTO_RETRY]
    else 0
  | _ => 0

/-- BOOT_COORD of both sides takes the image's COORD (R341, Table 16-6). -/
def State.loadCoord (s : State) (img : Image) : State :=
  [0, 1].foldl (fun s side => s.setFld (bootUnit s.pkg side) F.BOOT_COORD_COORD img.coord.toNat) s

/-- A step's image fields written from the staged image (R341). -/
def State.stepFields (s : State) (img : Image) (step : Nat) : State :=
  let s := (s.coldFields (stepBits s.pkg step)).loadFields img (stepBits s.pkg step)
  if step = 5 then s.loadCoord img else s

/-- The bits that a live change writes: unbanked image fields that are RW (R370). -/
def liveBits (p : Package) (u off : Nat) : W32 := maskOf (fieldsAt p u off) (fun f => f.warm == .image && f.acc == .rw)

/-- Every image field written (R341, R370), over the bits of a commit or of a live change. A trace port that this enables starts (R385). -/
def State.allFields (s : State) (img : Image) (live : Bool) : State :=
  let bits := if live then liveBits s.pkg else imageBits s.pkg
  let was := s.bit (traceUnit s.pkg) F.TRACE_CTRL_PORT_EN
  let s := (s.coldFields bits).loadFields img bits
  let s := if !was && s.bit (traceUnit s.pkg) F.TRACE_CTRL_PORT_EN then s.traceStart else s
  if live then s else s.loadCoord img

/-- The PARTITION tables written to their addresses (R366, R369). -/
def State.writeTables (s : State) (img : Image) : State :=
  (img.recs.filter (fun r => r.kind == 0x0201)).foldl (fun s r =>
    let e := 4 * leAt r.payload 24 4
    let m := 2 * leAt r.payload 28 4
    (s.emit (.fmWrite (BitVec.ofNat 64 (leAt r.payload 8 8)) ((r.payload.drop 32).take e))).emit
      (.fmWrite (BitVec.ofNat 64 (leAt r.payload 16 8)) ((r.payload.drop (32 + e)).take m))) s

end Sys2Proof.Machine
end

