-- ==== Sys2Proof/Machine/Reduce.lean ====
section
/-! DEFINITION. The commands of the collectives: reservations, grants, contributions, partials, sparse records, results, barriers,
cancellation and completion (R182–R203). -/
namespace Sys2Proof.Machine

/-! ## Reservations and grants -/

/-- The number of a chunk at this unit for a frame of its parent or of an in-edge (log 40). -/
def State.chunkNo (s : State) (st : Nat) (x : CollSide) (f : Frame) : Nat :=
  let above := match s.headerNode st f.opinfo with
    | some n => n.parent.any (fun e => s.fromEdge e f)
    | none => false
  if niScatter s st x && above then f.seq.toNat + 1 else f.seq.toNat

/-- A STAGE_RSV entered in the reservation table (R190, R191, R208): the first gives the chunk its arithmetic word, and one whose word differs from it,
or from this NI's own, sets STEP_MISMATCH. -/
def State.enterRsv (s : State) (st : Nat) (f : Frame) : State :=
  let tag := f.opinfo
  let s := s.openInst st tag f.coll
  match s.inst st tag with
  | none => s
  | some i =>
    let s := s.updInst st tag (fun i => { i with word := i.word.or (some f.addr) })
    let w := ((i.word.getD f.addr)).toNat
    let c := s.chunkNo st i.par f
    let old := (s.chunkAt st tag c).word
    let own := if isEngine s.pkg st then none else (s.member st tag).map (fun m => cWord m.d)
    let s := if (old.or own).any (· != f.addr) then s.mismatch st tag else s
    let s := if old.isNone then s.updChunk st tag c (fun x => { x with word := some f.addr }) else s
    if i.par.op = opAllToAll then
      s.updChunk st tag c (fun x => { x with ins := [{ coord := f.srcCoord, st := f.srcStation.toNat, rsv := true }] })
    else match s.nodeOf st tag i.par w c with
    | none => s
    | some n =>
      let s := s.prepChunk st tag w c
      let x := s.chunkAt st tag c
      let s := if n.ins.any (fun e => e.ext && s.fromEdge e f) then
          s.updInst st tag (fun i => { i with below := some (f.srcCoord, f.srcStation.toNat) }) else s
      let mark (j : Nat) : State := s.updChunk st tag c (fun x => match x.ins[j]? with
        | some y => { x with ins := x.ins.set j { y with coord := f.srcCoord, st := f.srcStation.toNat, rsv := true } }
        | none => x)
      match s.inEdge n.ins f with
      | some j => if ((x.ins[j]?).map (fun y => y.rsv)).getD true && n.parent.any (fun e => s.fromEdge e f) then
                    s.updChunk st tag c (fun x => { x with downRsv := some none })
                  else mark j
      | none => if n.parent.any (fun e => s.fromEdge e f) then s.updChunk st tag c (fun x => { x with downRsv := some none }) else s

/-- STAGE_RSV_RECEIVE (R190, R191, R208): the reservation is taken in whatever the staging holds; only its grant waits. -/
def execStageRsvReceive (st : Nat) (f : Frame) (s : State) : Res :=
  onNiHold s st (.stageRsvReceive st f) ((s.wakeUnit st).checked st f true (fun s =>
    if (s.getEng st).over f.opinfo then s.dropTag st else (s.enterRsv st f).collPump st))

/-- Whether a unit grants anything of an instance (R191, R192): REDUCE_CTRL.EN at an engine, and no earlier instance of the group still there. -/
def State.instTurn (s : State) (st : Nat) (tag : W16) : Bool :=
  (!isEngine s.pkg st || s.bit (reduceUnit st) F.REDUCE_CTRL_EN) &&
  !((s.getEng st).insts.takeWhile (fun j => j.tag != tag)).any (fun j => tagGroup j.tag == tagGroup tag)

/-- Whether a unit may grant a chunk (R190–R193): its instance has its turn, and a chunk that goes on up has its own grant. -/
def State.mayGrant (s : State) (st : Nat) (tag : W16) (i : Inst) (x : Chunk) (c : Nat) : Bool :=
  s.instTurn st tag &&
  (i.par.op == opAllToAll || match s.nodeOf st tag i.par (i.word.getD 0).toNat c with
    | some n => n.up.isNone || x.upBase.isSome
    | none => false)

/-- A STAGE_GRANT leaves for a peer. -/
def State.sendGrant (s : State) (st : Nat) (tag : W16) (c seq : Nat) (coord : BitVec 17) (dst base : Nat) (x : CollSide) : State :=
  s.collSend st { s.collFrame st tag 0x39 c seq coord dst false x with addr := BitVec.ofNat 64 base }

/-- The in-edges of a chunk granted in ascending order while at most 4 stream into it and staging is free (R190). -/
def State.grantEdge (s : State) (st : Nat) (tag : W16) (c j : Nat) : State :=
  match s.inst st tag, s.groupOf tag with
  | some i, some g =>
    let x := s.chunkAt st tag c
    match x.ins[j]? with
    | none => s
    | some y =>
      let streaming := (x.ins.filter (fun y => y.base.isSome && !y.last)).length
      let size := s.stageSize st g i.par (x.word.getD 0).toNat c
      if y.rsv && y.base.isNone && (!isEngine s.pkg st || decide (streaming < 4)) then
        match firstFit (s.stageRegion st) (s.getEng st).allocated size with
        | none => s
        | some a =>
          let s := s.updChunk st tag c (fun x => { x with ins := x.ins.set j { y with base := some (BitVec.ofNat 64 a), units := size } })
          let s := s.updInst st tag (fun i => { i with
            firstFt := i.firstFt.or (some (s.stFt st)), firstQual := if i.firstFt.isSome then i.firstQual else s.quality })
          s.sendGrant st tag c c y.coord y.st a i.side
      else s
  | _, _ => s

/-- The bytes of staging that a chunk's result takes on its way down, in 4 KiB units (R190, log 39). -/
def State.resultSize (s : State) (st : Nat) (g : Group) (i : Inst) (c : Nat) : Nat :=
  let w := (i.word.getD 0).toNat
  let n := if i.par.op = opSparse then i.par.cap * sparseBytes (wOut w) i.par.row
    else fmtBytes (wOut w) ((s.unitGeo st g i.par w).count (s.downSeq st i.par c))
  max 1 ((n + 4095) / 4096) * 4096

/-- The reservation of a chunk's parent granted while staging is free and its instance has its turn (R190, R192, log 39). -/
def State.grantDown (s : State) (st : Nat) (tag : W16) (c : Nat) : State :=
  match s.inst st tag, s.groupOf tag with
  | some i, some g =>
    let x := s.chunkAt st tag c
    match x.downRsv, (s.nodeOf st tag i.par (i.word.getD 0).toNat c).bind (fun n => n.parent) with
    | some none, some p =>
      if s.instTurn st tag then
        let size := s.resultSize st g i c
        match firstFit (s.stageRegion st) (s.getEng st).allocated size with
        | none => s
        | some a =>
          (s.updChunk st tag c (fun x => { x with downRsv := some (some (BitVec.ofNat 64 a, size)) })).sendGrant st tag c (s.downSeq st i.par c) p.coord p.st a i.side
      else s
    | _, _ => s
  | _, _ => s

/-- STAGE_GRANT_SEND (R190, R193): a unit grants the staging that is free for a chunk. -/
def execStageGrantSend (st : Nat) (tag : W16) (chunkNo : W32) (s : State) : Res :=
  onNiRun s st
    (match s.inst st tag with
     | none => s
     | some i =>
       let chunk := chunkNo.toNat
       let x := s.chunkAt st tag chunk
       let s := if (kfind i.chunks chunk).isSome && s.mayGrant st tag i x chunk then
           (List.range x.ins.length).foldl (fun s j => s.grantEdge st tag chunk j) s else s
       let d := if niScatter s st i.par then chunk + 1 else chunk
       s.grantDown st tag d)

/-- A granted address reaches the unit that reserved (R190): its up edge, or a down edge. -/
def State.takeGrant (s : State) (st : Nat) (f : Frame) : State :=
  let tag := f.opinfo
  match s.inst st tag with
  | none => s
  | some i =>
    let c := f.seq.toNat
    let up (c : Nat) : Bool := match (s.nodeOf st tag i.par (i.word.getD 0).toNat c).bind (fun n => n.up) with
      | some e => s.fromEdge e f && (s.chunkAt st tag c).upRsv && (s.chunkAt st tag c).upBase.isNone
      | none => false
    if up c then (s.updChunk st tag c (fun x => { x with upBase := some f.addr })).collPump st
    else
      let d := if niScatter s st i.par then c + 1 else c
      let y := s.chunkAt st tag d
      match (List.range y.down.length).find? (fun j => match y.down[j]? with
        | some e => e.coord == f.srcCoord && e.st == f.srcStation.toNat && e.rsv
        | none => false) with
      | some j => (s.updChunk st tag d (fun x => match x.down[j]? with
          | some e => { x with down := x.down.set j { e with base := some f.addr } }
          | none => x)).collPump st
      | none => s

/-- The chunk of a member's open reservation that a grant answers. -/
def State.grantedInput (s : State) (g : Group) (m : Member) (st : Nat) (f : Frame) : Option Nat :=
  (m.opened.find? (fun o => o.2.isNone && m.seqOf o.1 == f.seq.toNat && s.inputPeer g m st o.1 == (f.srcCoord, f.srcStation.toNat))).map (·.1)

/-- STAGE_GRANT_RECEIVE (R190): a member reads the chunk to send it, and a unit sends its string or result to the address. -/
def execStageGrantReceive (st : Nat) (f : Frame) (s : State) : Res :=
  onNiHold s st (.stageGrantReceive st f) ((s.wakeUnit st).checked st f true (fun s =>
    if (s.getEng st).over f.opinfo then s.dropTag st
    else match s.member st f.opinfo, s.groupOf f.opinfo with
    | some m, some g =>
      (match s.grantedInput g m st f with
       | some c =>
         let a := m.inputAt c
         let s := s.updMember st f.opinfo (fun m => { m with opened := kins m.opened c (some f.addr) })
         if a.2 = 0 then s.collRead st f.opinfo c [] [] else s.niRd st a.1 a.2 (.contribution f.opinfo c)
       | none => s.takeGrant st f)
    | _, _ => s.takeGrant st f))

/-! ## Contributions and partials -/

/-- What a frame says of its instance joined to what the unit knows (log 38): SLIPPED, STEP_MISMATCH, SHAPE_MISMATCH and SORT_ERR, and drops once per
input. -/
def State.joinSide (s : State) (st : Nat) (f : Frame) : State :=
  s.updInst st f.opinfo (fun i => { i with
    flags := i.flags ||| (f.coll.flags / 256 * 256), dropped := if f.last ∧ f.cls = 0x33 then i.dropped + f.coll.dropped else i.dropped,
    firstDropped := if f.last ∧ f.cls = 0x33 then min i.firstDropped f.coll.firstDropped else i.firstDropped })

/-- A contribution header received (R199, R200): a member's OUT_ADDR is kept for the results, and what was found below goes on up with it. -/
def State.headerIn (s : State) (st : Nat) (f : Frame) (h : List Byte) : State :=
  let tag := f.opinfo
  let s := s.openInst st tag f.coll
  match s.headerNode st tag with
  | none => s
  | some n =>
    match s.inEdge n.ins f with
    | none => s
    | some j =>
      let s := s.joinSide st f
      let s := if n.ins.any (fun e => e.ext && s.fromEdge e f) then
          s.updInst st tag (fun i => { i with below := some (f.srcCoord, f.srcStation.toNat) }) else s
      let s := s.updEng st (fun e => { e with outAddr := kins e.outAddr (tag.toNat * 65536 + f.srcStation.toNat) (hdrFt h 16) })
      let s := s.takeHdr st tag j h
      -- results that waited for OUT_ADDR may now leave any engine of the die
      if isEngine s.pkg st then (List.range 4).foldl (fun s k => s.collPump (st / 2048 * 2048 + 80 + k)) (s.collPump st) else s.collPump st

/-- A data frame passes on unfolded at a unit with one in-edge (R184). -/
def State.passOn (s : State) (st : Nat) (c j : Nat) (f : Frame) (e : Edge) (x : Chunk) : State :=
  let tag := f.opinfo
  let got := ((x.ins[j]?).map (fun y => y.got)).getD 0
  let side := ((s.inst st tag).map (fun i => i.side)).getD {}
  let s := s.sendUp st tag c f.cls.toNat e (x.upBase.getD 0) got f.payload (frameMarks f) f.last
    { side with valid := f.coll.valid, dropped := f.coll.dropped, firstDropped := f.coll.firstDropped, bad := f.coll.bad }
  (s.updChunk st tag c (fun x => { x with
    sent := f.last,
    ins := match x.ins[j]? with
      | some y => x.ins.set j { y with got := y.got + f.payload.length, last := f.last, units := if f.last then 0 else y.units }
      | none => x.ins })).collPump st

/-- A data frame at a unit (R193): it must own the staging that it addresses, else it is dropped. -/
def State.dataIn (s : State) (st : Nat) (f : Frame) : State :=
  let tag := f.opinfo
  let c := f.seq.toNat
  match s.inst st tag with
  | none => s.dropTag st
  | some i =>
    let x := s.chunkAt st tag c
    let mine (y : CIn) : Bool := y.coord == f.srcCoord && y.st == f.srcStation.toNat && y.base.any (fun b => b + BitVec.ofNat 64 y.got == f.addr)
    match (List.range x.ins.length).find? (fun j => match x.ins[j]? with
      | some y => mine y
      | none => false) with
    | none => s.dropTag st
    | some j =>
      let s := s.joinSide st f
      let s := if isEngine s.pkg st then s else s.niWr st f.addr f.payload (frameMarks f) .nothing
      if i.par.op = opAllToAll then
        match s.member st tag with
        | none => s
        | some m =>
          let got := ((x.ins[j]?).map (fun y => y.got)).getD 0
          let s := s.takeResult st tag c (cOut m.d + BitVec.ofNat 64 (m.geo.outByte m.op m.outFmt c + got)) got f.payload (frameMarks f) f.last f.coll
          if f.last then (s.updInst st tag (fun i => { i with chunks := kdel i.chunks c, doneList := i.doneList ++ [c] })).tryEnd st tag else s.feed st tag c j f.cls.toNat f.payload [] false 0
      else match s.nodeOf st tag i.par (i.word.getD 0).toNat c with
      | none => s
      | some n =>
        match n.up with
        | some e => if isEngine s.pkg st && (n.ins.length == 1 || n.one) then s.passOn st c j f e x
                    else (s.feed st tag c j f.cls.toNat f.payload (frameMarks f) f.last f.coll.valid f.coll.bad).collPump st
        | none => (s.feed st tag c j f.cls.toNat f.payload (frameMarks f) f.last f.coll.valid f.coll.bad).collPump st

/-- CHUNK_RECEIVE (R193, R199): a contribution header is combined, a contribution folded. -/
def execChunkReceive (st : Nat) (f : Frame) (s : State) : Res :=
  onNiHold s st (.chunkReceive st f) ((s.wakeUnit st).checked st f true (fun s =>
    if (s.getEng st).over f.opinfo then s.dropTag st
    else if f.seq = 0xFFFFFFFF then s.headerIn st f f.payload else s.dataIn st f))

/-- PARTIAL_RECEIVE (R193, R216): a partial is rebuilt and folded, and the last one finishes the chunk. -/
def execPartialReceive (st : Nat) (f : Frame) (s : State) : Res :=
  onNiHold s st (.partialReceive st f) ((s.wakeUnit st).checked st f true (fun s =>
    if (s.getEng st).over f.opinfo then s.dropTag st else s.dataIn st f))

/-- SPARSE_RECEIVE (R198): sparse records are taken in, and merged once every input has ended. -/
def execSparseReceive (st : Nat) (f : Frame) (s : State) : Res :=
  onNiHold s st (.sparseReceive st f) ((s.wakeUnit st).checked st f true (fun s =>
    if (s.getEng st).over f.opinfo then s.dropTag st else s.dataIn st f))

/-! ## Results -/

/-- A RESULT frame enters a unit's chunk and goes down (R187, R190). -/
def State.resultDown (s : State) (st : Nat) (f : Frame) (i : Inst) (off : Nat) : State :=
  let c := s.chunkNo st i.par f
  let r : ResFrame := { off := off, data := f.payload, mark := frameMarks f, last := f.last, word := f.addr == wordAddr, side := f.coll }
  (s.updChunk st f.opinfo c (fun x => { x with res := x.res ++ [r] })).collPump st

/-- A RESULT frame at a member that takes it into its output buffer (R194, R203); one of an instance that is over is written, and raises no event
(R202). -/
def State.resultHere (s : State) (st : Nat) (f : Frame) : State :=
  let word := f.addr == wordAddr
  match s.member st f.opinfo with
  | none => if word then s else s.niWr st f.addr f.payload (frameMarks f) .nothing
  | some m =>
    let c := f.seq.toNat
    if m.ending.isSome then (if word then s else s.niWr st f.addr f.payload (frameMarks f) .nothing)
    else if word then s.takeWord st f.opinfo c f.payload f.coll
    else
      let off := (f.addr - (cOut m.d + BitVec.ofNat 64 (m.geo.outByte m.op m.outFmt c))).toNat
      s.takeResult st f.opinfo c f.addr off f.payload (frameMarks f) f.last f.coll

/-- The staging that a RESULT frame of a chunk's parent addresses: the buffer granted to that parent, which the frame's bytes lie in, or to which its
chunk status word belongs (R193, R228). -/
def State.resultStage (s : State) (st : Nat) (i : Inst) (c : Nat) (f : Frame) : Option FT :=
  let parent := match (s.nodeOf st f.opinfo i.par (i.word.getD 0).toNat c).bind (fun n => n.parent) with
    | some e => s.fromEdge e f
    | none => false
  match (s.chunkAt st f.opinfo c).downRsv with
  | some (some b) =>
    if parent && (f.addr == wordAddr || decide (b.1.toNat ≤ f.addr.toNat ∧ f.addr.toNat + f.payload.length ≤ b.1.toNat + b.2)) then some b.1 else none
  | _ => none

/-- RESULT_RECEIVE (R187, R194, R199, R228): a result that addresses the staging granted to its sender is relayed down the
plan, one that owns none at an engine is dropped (R193), and a member's is written to its output; a header result is copied and relayed;
a chunk status word is folded into the status block. -/
def execResultReceive (st : Nat) (f : Frame) (s : State) : Res :=
  let tag := f.opinfo
  onNiHold s st (.resultReceive st f) ((s.wakeUnit st).checked st f true (fun s =>
    let e := isEngine s.pkg st
    if (s.getEng st).over tag then (if e then s.dropTag st else if f.seq = 0xFFFFFFFF then s else s.resultHere st f)
    else if f.seq = 0xFFFFFFFF then
      (match s.inst st tag with
       | some _ => (s.headerDown st tag f.payload f.coll.flags).collPump st
       | none => if e then s.dropTag st else s.takeHeader st tag f.payload f.coll)
    else match s.inst st tag with
    | none => if e then s.dropTag st else s.resultHere st f
    | some i =>
      let c := s.chunkNo st i.par f
      match s.resultStage st i c f with
      | some b => s.resultDown st f i (f.addr - b).toNat
      | none =>
        if e then s.dropTag st
        else match s.member st tag with
        | none => s.resultHere st f
        | some m =>
          if m.ending.isSome then s.resultHere st f
          else s.resultDown st f i (f.addr - (cOut m.d + BitVec.ofNat 64 (m.geo.outByte m.op m.outFmt f.seq.toNat))).toNat))

/-- BARRIER_RECEIVE (R182, R199): a barrier's header is combined up the NI tree, or its result passed down. -/
def execBarrierReceive (st : Nat) (f : Frame) (s : State) : Res :=
  onNiHold s st (.barrierReceive st f) ((s.wakeUnit st).checked st f true (fun s =>
    if (s.getEng st).over f.opinfo then s.dropTag st
    else match s.headerNode st f.opinfo with
    | none => s
    | some n =>
      if (s.inEdge n.ins f).isSome then s.headerIn st f f.coll.hdr
      else if n.parent.any (fun e => s.fromEdge e f) then (s.headerDown st f.opinfo f.coll.hdr f.coll.flags).collPump st else s))

/-! ## Cancellation and completion -/

/-- CANCEL_RECEIVE (R202, R203): the tag is cancelled here once, and the CANCEL goes on over the other plan edges. -/
def execCancelReceive (st : Nat) (f : Frame) (s : State) : Res :=
  onNiHold s st (.cancelReceive st f) ((s.wakeUnit st).checked st f true (fun s =>
    ((s.cancelAt st f.opinfo (f.coll.flags / 2 % 4) f.coll.flags stNotReady (some (f.srcCoord, f.srcStation.toNat))).collRetry st).collPump st))

/-- COLLECTIVE_COMPLETE (R194, R195, R236): once every output chunk is visible, the status block is written; its visibility delivers the
completion and sends the report to the Diary. -/
def execCollectiveComplete (st : Nat) (tag : W16) (s : State) : Res :=
  onNiRun s st
    (match s.member st tag with
     | none => s
     | some m =>
       if m.ready && m.ending.isNone then
         (s.updEng st (fun e => { e with finished := e.finished ++ [tag] })).endMember st tag m.status
       else s)

end Sys2Proof.Machine
end

