-- ==== Sys2Proof/Machine/Release.lean ====
section
/-! DEFINITION. Where several units act at once: a Holiday's release (R290, R377, R381), the Kalends (R84, R97, R103, R105, R381) and the end of an
ungating (R282). -/
namespace Sys2Proof.Machine

/-! ## Release (R290, R377, R381) -/

/-- What a command held at a stopped NI does when it acts (R377). -/
def heldExec (c : Instr) (s : State) : Res :=
  match c with
  | .writeRsvReceive st f => execWriteRsvReceive st f s
  | .writeDataReceive st f => execWriteDataReceive st f s
  | .readReqReceive st f => execReadReqReceive st f s
  | .idxReadReqReceive st f => execIdxReadReqReceive st f s
  | .messageReceive st f => execMessageReceive st f s
  | .atomicReceive st f => execAtomicReceive st f s
  | .streamDataReceive st f => execStreamDataReceive st f s
  | .grantReceive st f => execGrantReceive st f s
  | .ackReceive st f => execAckReceive st f s
  | .readDataReceive st f => execReadDataReceive st f s
  | .idxReadDataReceive st f => execIdxReadDataReceive st f s
  | .atomicRespReceive st f => execAtomicRespReceive st f s
  | .refusalReceive st f => execRefusalReceive st f s
  | .vigilErrReceive st f => execVigilErrReceive st f s
  | .writeDone st id => execWriteDone st id s
  | .readDataReturn st id data p => execReadDataReturn st id data p s
  | .xlatMissFetchDone st a b => execXlatMissFetchDone st a b s
  | .stageRsvReceive st f => execStageRsvReceive st f s
  | .stageGrantReceive st f => execStageGrantReceive st f s
  | .chunkReceive st f => execChunkReceive st f s
  | .partialReceive st f => execPartialReceive st f s
  | .sparseReceive st f => execSparseReceive st f s
  | .resultReceive st f => execResultReceive st f s
  | .barrierReceive st f => execBarrierReceive st f s
  | .cancelReceive st f => execCancelReceive st f s
  | _ => .next s

/-- A held command acts. -/
def State.heldAct (s : State) (c : Instr) : State := match heldExec c s with
  | .next t => t
  | _ => s

/-- A station resumes: its engine or collective unit cancels what HOLIDAY_CANCEL says (R201), its NI's held arrivals act in order, and it goes on with
its descriptors. -/
def State.resumeStation (s : State) (st : Nat) : State :=
  let s := s.holidayCancel st
  let cs := (s.getNi st).stopHeld
  (cs.foldl State.heldAct (s.updNi st (fun n => { n with stopHeld := [] }))).service st

/-- The stations of a die that hold anything. -/
def State.busyStations (s : State) (die : Nat) : List Nat :=
  (allStations s.pkg).filter (fun st => st / 2048 == die && ((kfind s.ni st).isSome || (kfind s.eng st).isSome))

/-- The isolations, fences, gating commands and Diary reports that the Holiday held act, before the first die resumes (R292, R381). -/
def State.holidayFrees (s : State) : State := if s.hol.resumed.isEmpty then s.faultRelease.gateRelease.diaryRelease else s

/-- The next die resumes (R290); the last one ends the Holiday (R381). -/
def State.dieResume (s : State) : State :=
  if !s.hol.resuming then s
  else
    let s := s.holidayFrees
    match s.nextDie with
    | none => s.holidayDone
    | some d =>
      let s := s.updHol (fun h => { h with resumed := h.resumed ++ [d] })
      let s := (s.busyStations d).foldl State.resumeStation s
      if s.nextDie.isNone then s.holidayDone else s

/-- DIE_RESUME (R290, R381). -/
def execDieResume (s : State) : Res := done s s.dieResume

/-! ## ISLAND_FT_LOAD (R67, R86) -/

/-- An island has its FT: its routers, NIs and almanac actions go on, and what reached an NI meanwhile acts in order. -/
def State.islandUp (s : State) (die inst : Nat) : State :=
  ((s.busyStations die).filter (fun st => stationRouter s.pkg st == inst)).foldl (fun s st => if s.dieFrozen die then s else s.resumeStation st)
    (s.loadIsland die inst)

/-- ISLAND_FT_LOAD (R67, R86): a restarted island loads the root's FT by a full-value word, and executes from its next slot boundary. -/
def execIslandFtLoad (isl : Island) (s : State) : Res :=
  let i := s.island isl.die isl.inst
  onUnit (islExists s.pkg isl.die isl.inst) s (if i.running && !i.ftValid then s.islandUp isl.die isl.inst else s)

/-! ## The Kalends (R84, R97, R103, R105, R381) -/

/-- A Kalends that a Holiday makes the almanac skip: it ends the running cycle, takes no leap slots and is not counted (R381). -/
def State.kalendsSkip (s : State) (k : FT) : State :=
  let ended := s.alm.leap == 0 && s.alm.t != 0
  let s := if ended then (s.almEvent F.ALM_EVENT_LEAP_DONE).realignDone else s
  s.updAlm (fun a => { a with t := 0, start := k })

/-- s of R105 for the bank in force under the ramp limit in use; a clamp raises RAMP_SHORT. -/
def State.spacingNow (s : State) : State :=
  let (v, short) := spacingOf s.bankIn s.ramp
  let s := if short then s.pwEvent F.POWER_EVENT_RAMP_SHORT else s
  s.updAlm (fun a => { a with spacing := v, spacingNext := v })

/-- What the rest of the package does at an Equinox: watch entries close (R245), the FM reports it (R362), and a live change goes into its last
part (R370). -/
def State.equinoxTaken (s : State) (old : List WatchSlot) (fmin : Nat) (k : FT) : State :=
  let s := (s.watchEquinox old).fminTaken fmin
  let s := s.mbxRecord 4 s.bankIn.variant.toNat
    (leBytes 8 ((s.ssAt k) % (2 ^ 64 : Int)).toNat ++ leBytes 8 ((s.image.map (fun i => i.id.toNat)).getD 0))
  if s.live = 1 then { s with live := 2 } else s

/-- A Kalends that the package takes: leap slots, the Equinox due, the wave spacing, and POWER's view of the ramp (R287). -/
def State.kalendsFull (s : State) (k : FT) : State :=
  let old := watchSlots s.bankIn
  let was := s.alm.inForce
  let fmin := bankFMin s.bankIn
  let s := s.kalendsAt k
  let s := if s.alm.inForce = was then s else s.equinoxTaken old fmin k
  s.spacingNow.throttleEval

/-- The next Kalends comes: taken, or while the almanac is suspended skipped, until the resume Kalends (R381). -/
def State.kalends (s : State) : State :=
  let k := s.nextKalends
  let s := s.reachFt k
  if s.hol.suspended then
    if s.hol.active || decide (s.ssAt k < s.hol.k) then s.kalendsSkip k
    else (s.updHol (fun h => { h with suspended := false })).kalendsFull k
  else s.kalendsFull k

/-- KALENDS (R84). -/
def execKalends (s : State) : Res := done s s.kalends

/-! ## DIE_UNGATE_DONE (R282, R399, R314) -/

/-- The registers of a die's units take the image fields of the committed image (R399). -/
def State.loadDie (s : State) (die : Nat) : State :=
  match s.image with
  | some img => s.loadFields img (fun u off => if unitDie u = die && gatedAddr die (regAddr u off) then imageBits s.pkg u off else 0)
  | none => s

/-- The crossings of a die train as at B3 (R38, R270, Table 12-3). -/
def State.dieTrains (s : State) (die : Nat) : State :=
  (List.range 32).foldl (fun s n => s.dlEnable (die * 32 + n)) s

/-- Every island of a die loads FT. -/
def State.loadIslands (s : State) (die : Nat) : State :=
  (List.range 64).foldl (fun s i => if islExists s.pkg die i then s.loadIsland die i else s) s

/-- A die is ON again: islands run with FT loaded at 2,000 MHz, its image fields are written, its NIs have a new incarnation, its crossings train, and
GATE_DONE is set. -/
def State.ungateDone (s : State) (die : Nat) : State :=
  let s := s.setDieState die 0
  let s := (s.updIslands die (fun i => { i with running := true, locked := true, freq := 80 })).loadIslands die
  let s := s.loadDie die
  let s := (dieStations s.pkg die).foldl (fun s st =>
    s.setFld (niUnit st) F.NI_FAULT_STATUS_INC ((s.fld (niUnit st) F.NI_FAULT_STATUS_INC + 1) % 16)) s
  (s.dieTrains die).event (dieUnit die) F.POWER_EVENT_GATE_DONE

/-- DIE_UNGATE_DONE (R282): the last ungating step completes. -/
def execDieUngateDone (die : Nat) (s : State) : Res :=
  onUnit (dieExists s.pkg die) s (if s.dieState die = 3 then s.ungateDone die else s)

end Sys2Proof.Machine
end

