-- ==== Sys2Proof/Machine/Validate.lean ====
section
/-! DEFINITION. The image validator (R367): the rules of the records, of the almanac (Table 04-9) and of the groups (Table 08-7), in the order of
R367, and SPARSE_OK, which it sets (R178). -/
namespace Sys2Proof.Machine

/-! ## What the rules look at -/

/-- An image under validation: its records, the banks of its variants with their ids, BASE first, the registers it leads to, and whether it changes an
image in service. -/
structure Valid where
  s : State
  img : Image
  banks : List (W16 × Bank)
  after : State
  live : Bool

/-- The variant ids of an image: BASE, and every other that a record carries. -/
def variantIds (rs : List Rec) : List W16 :=
  rs.foldl (fun vs r => if r.variant == 0xFFFF || vs.contains r.variant then vs else vs ++ [r.variant]) [0]

/-- The context of a validation. -/
def State.validCtx (s : State) (img : Image) (live : Bool) : Valid :=
  { s := s, img := img, banks := (variantIds img.recs).map (fun v => (v, bankOf img.recs v)), after := s.allFields img live, live := live }

/-- The BASE bank. -/
def Valid.base (v : Valid) : Bank := bankOf v.img.recs 0

/-- The index of a section by its type; 0xFFFF where the table has none. -/
def Valid.secIndex (v : Valid) (type : Nat) : Nat :=
  let ts := (imgSecs v.img.bytes).map (·.type)
  if ts.contains type then ts.idxOf type else 0xFFFF

/-- A failure at a record. -/
def Valid.fail (v : Valid) (code : Nat) (r : Rec) : ImgFail := { code := code, sec := v.secIndex r.sec, off := r.offset, scope := r.scope }

/-- The NIs that a record's SCOPE covers. -/
def coveredNis (p : Package) (scope : W32) : List Nat := (allStations p).filter (fun st => (scopeRank scope (niUnit st)).isSome)

/-- The ports that a record's SCOPE covers. -/
def coveredPorts (p : Package) (scope : W32) : List Nat := (List.range (portCount p)).filter (fun q => (scopeRank scope (portUnit p q)).isSome)

/-- Whether a die is there and enabled (R38, R344). -/
def State.dieThere (s : State) (d : Nat) : Bool := dieExists s.pkg d && !s.dieDisabled d

/-- Whether the effective enable map disables a crossing, at either end. -/
def State.crossingOff (s : State) (key : Nat) : Bool := s.bootDis.contains (dlinkUnit (key / 32) (key % 32)) ||
  match dlPeerKey s.pkg key with
  | some k => s.bootDis.contains (dlinkUnit (k / 32) (k % 32))
  | none => false

/-- Whether a SCOPE names one unit, and the effective enable map disables it (R38, R344). -/
def State.scopeOff (s : State) (scope : W32) : Bool :=
  let u := getBits scope 19 0
  if getBits scope 22 20 != 0 then false
  else if unitClass u = 2 then s.stationAbsent (niStation u)
  else if unitClass u = 4 then !s.portEnabled (portOfUnit s.pkg u)
  else s.dieDisabled (unitDie u)

/-! ## Die paths (R38, R141, R142, R344) -/

/-- The crossings that a frame takes on its die path, from a router (R142, R143). -/
def State.walk (s : State) : Nat → Nat → Nat → Frame → List Nat
  | 0, _, _, _ => []
  | k + 1, die, inst, f =>
    match (if die < 16 then computeOut s.pkg s.coord die inst f else s.lineOut die inst f) with
    | none => []
    | some o =>
      match outDlink s.pkg die inst o with
      | some n =>
        (die * 32 + n) ::
        (match dlPeerKey s.pkg (die * 32 + n) with
         | some e => s.walk k (e / 32) ((dlRouter e).1 % 1024) { f with dpath := f.dpath >>> 5, dpLen := f.dpLen - 1 }
         | none => [])
      | none => match outNeighbour s.pkg die inst o with
        | some (r, _) => s.walk k die r f
        | none => []

/-- The crossings that a die path may use from a router to any station of its target die. -/
def State.pathCrossings (s : State) (die inst target : Nat) (p : BitVec 40 × W4) : List Nat :=
  (if target < 16 then List.range 64 else [0]).flatMap (fun l =>
    s.walk 400 die inst { destStation := BitVec.ofNat 16 (target * 2048 + l), destCoord := s.coord, dpath := p.1, dpLen := p.2, route := routeOf [31] })

/-- The direction of a hop between dies: an edge code of the first, or of the line; none where they share no crossing (R24). -/
def dieHop (a b : Nat) : Option Nat :=
  if a < 16 then (List.range 4).find? (fun o => facingDie a o == b) else if b < 16 ∧ (sidePos a b).isSome = true then some 4 else none

/-- The hops of a list of dies from a die; none where two do not share crossings. -/
def dieHops (a : Nat) : List Nat → Option (List Nat)
  | [] => some []
  | b :: bs => match dieHop a b, dieHops b bs with
    | some h, some hs => some (h :: hs)
    | _, _ => none

/-- No west hop after a north, south or east hop (R142). -/
def westFirst : List Nat → Bool
  | [] => true
  | h :: hs => (h == 3 || !hs.contains 3 || h == 4) && westFirst hs

/-- Whether a die path meets R141 and R142: at most eight dies, each sharing crossings with the one before, west-first, ending on the target. -/
def pathOk (die target : Nat) (p : BitVec 40 × W4) : Bool :=
  let ds := pathDies p
  decide (p.2.toNat ≤ 8) && (ds.getLast?.getD die == target) &&
  match dieHops die ds with
  | some hs => westFirst hs
  | none => false

/-- The die paths of a DIEPATH or DELIVERY record: the router it starts at, the target die and the path. -/
def recPaths (p : Package) (r : Rec) : List (Nat × Nat × Nat × (BitVec 40 × W4)) :=
  let starts := if r.kind = 0x0301 then (coveredNis p r.scope).map (fun st => (st / 2048, stationRouter p st))
    else (coveredPorts p r.scope).map (fun q => (portDie p q, portRouter p q))
  starts.flatMap (fun x => ((List.range 20).filter (dieExists p)).map (fun d => (x.1, x.2, d, pathAt r.payload d)))

/-- Whether a die path is one that a frame can be given: an empty path leads only to its own die. -/
def pathUsed (die target : Nat) (p : BitVec 40 × W4) : Bool := p.2 != 0 || die == target

/-- Whether a record's die paths avoid disabled dies and crossings (0x0404). A path to a disabled die, or an empty one, is never taken. -/
def State.pathsEnabled (s : State) (r : Rec) : Bool :=
  (recPaths s.pkg r).all (fun x =>
    (pathDies x.2.2.2).all s.dieThere &&
    (s.bootDis.isEmpty || !s.dieThere x.2.2.1 || (s.pathCrossings x.1 x.2.1 x.2.2.1 x.2.2.2).all (fun k => !s.crossingOff k)))

/-- The die paths of a bank's tables meet R141 and R142, and on a Priberun-A every transit path is empty (AV10). A target that is not there, or to which
no path is given, is not looked at. -/
def State.tableOk (s : State) (r : Rec) : Bool :=
  if r.kind = 0x0301 ∨ r.kind = 0x0302 then
    (recPaths s.pkg r).all (fun x => !s.dieThere x.2.2.1 || !pathUsed x.1 x.2.2.1 x.2.2.2 || pathOk x.1 x.2.2.1 x.2.2.2)
  else if r.kind = 0x0303 then s.pkg.isS || (List.range 32).all (fun i => (pathAt r.payload i).2 == 0)
  else true

/-! ## Override routes (R139) -/

/-- The entries of a route up to its 31; none where no 31 ends it or an entry after it is not zero. -/
def routeEntries (r : BitVec 160) : Option (List Nat) :=
  let es := (List.range 32).map (routeEntry r)
  let body := es.takeWhile (· != 31)
  if body.length < 32 ∧ (es.drop (body.length + 1)).all (· == 0) = true then some body else none

/-- The coordinate that torus hops lead to, and the wrap links they cross. -/
def torusWalk : BitVec 17 → List Nat → BitVec 17 × Nat
  | c, [] => (c, 0)
  | c, e :: es =>
    let a := e % 7 / 2
    let v := coordAxis c a
    let w := if e % 7 % 2 = 0 then (v + 1) % 8 else (v + 7) % 8
    let (z, n) := torusWalk (BitVec.ofNat 17 (c.toNat - v * 8 ^ a + w * 8 ^ a)) es
    (z, n + (if (v = 7 ∧ w = 0) ∨ (v = 0 ∧ w = 7) then 1 else 0))

/-- No + hop after a − hop. -/
def plusFirst : List Nat → Bool
  | [] => true
  | e :: es => (e % 7 % 2 == 0 || es.all (fun x => x % 7 % 2 == 1)) && plusFirst es

/-- Whether a route meets R139 from a coordinate to another: the switch form, or torus hops on one I/O die, + hops before − hops, with at most one
wrap link, that end at the destination. -/
def overrideOk (src dst : BitVec 17) (r : BitVec 160) : Bool :=
  match routeEntries r with
  | none => false
  | some es =>
    if coordPod src != coordPod dst then es == [30, 30, 30, 30]
    else
      es.all (fun e => decide (e < 28) && e % 7 != 6 && e / 7 == (es.headD 0) / 7) && plusFirst es &&
      (let w := torusWalk src es; w.1 == dst && decide (w.2 ≤ 1))

/-- The entries of an OVERRIDE record: destination and route. -/
def overrides (r : Rec) : List (BitVec 17 × BitVec 160) :=
  (List.range (r.payload.length / 24)).map (fun i =>
    (BitVec.ofNat 17 (leAt r.payload (24 * i) 4), BitVec.ofNat 160 (leAt r.payload (24 * i + 4) 20)))

/-! ## The rules of the records (0x0401–0x040A) -/

/-- 0x0401: a rank descriptor within its tables (R42), and a station map that names stations. -/
def rankOk (p : Package) (r : Rec) : Bool :=
  let b := r.payload
  let e := leAt b 24 4
  let m := leAt b 28 4
  let rpp := 2 ^ leAt b 3 1
  decide (e ≤ 131072) && decide (m ≤ 2048) && decide (leAt b 4 4 ≤ e * rpp) && decide (rpp ≤ max 1 m) &&
  (List.range m).all (fun i => let st := leAt b (32 + 4 * e + 2 * i) 2; st == 0xFFFF || (stationKind p st).isSome)

/-- The stations that a record names beside its SCOPE: in a rank map, a stream or a group. -/
def namedStations (p : Package) (coord : BitVec 17) (r : Rec) : List Nat :=
  if r.kind = 0x0201 then
    ((List.range (leAt r.payload 28 4)).map (fun i => leAt r.payload (32 + 4 * leAt r.payload 24 4 + 2 * i) 2)).filter (· != 0xFFFF)
  else if r.kind = 0x0403 then
    (List.range (r.payload.length / 24)).flatMap (fun i =>
      let d := streamEntry r.payload i
      d.source :: (if d.coord = coord.toNat && !d.multicast then [d.dest] else []))
  else if r.kind = 0x0601 && !p.isS then (groupOf r.payload).members
  else []

/-- 0x0404: a die path, route or record that names a disabled die, crossing, port or station (R38, R344). -/
def Valid.enabledOk (v : Valid) (r : Rec) : Bool :=
  let s := v.s
  !s.scopeOff r.scope && (namedStations s.pkg v.img.coord r).all (fun st => !s.stationAbsent st) &&
  (if r.kind = 0x0301 ∨ r.kind = 0x0302 then s.pathsEnabled r
   else if r.kind = 0x0305 then (overrides r).all (fun o => let e := routeEntry o.2 0; decide (28 ≤ e) || s.portEnabled e)
   else if r.kind = 0x0304 then
     (setBitsOf (leAt r.payload 0 8) 64).all s.portEnabled &&
     (List.range 131072).all (fun i => let e := leAt r.payload (8 + i) 1; e / 64 != 3 || s.portEnabled (e % 64))
   else true)

/-- The shapers that a REGLOAD entry touches are not enabled with RATE 0, and 0x0405 of a policer set (R162, R166). -/
def Valid.shapersOk (v : Valid) (r : Rec) : Bool :=
  if r.kind = 0x0502 then
    (List.range (r.payload.length / 24)).all (fun i =>
      let f (o : Nat) : Nat := leAt r.payload (24 * i + o) 4
      decide (f 4 ≤ f 8) && decide (f 12 ≤ f 16) && f 20 != 0)
  else if r.kind = 1 then
    (regLoads r).all (fun e => (loadSites v.s.pkg r.scope e.1).all (fun x =>
      let base := x.2 / 32 * 32
      let q (k : UnitKind) (lo n : Nat) : Bool := unitKind v.s.pkg x.1 == some k && decide (lo ≤ x.2) && decide (x.2 < lo + 32 * n)
      let bad (en rate : Fld) : Bool :=
        getBits (v.after.reg x.1 base) en.hi en.lo == 1 && getBits (v.after.reg x.1 (base + 4)) rate.hi rate.lo == 0
      !((q .ni R.NI_Q_CFG 16 && bad F.NI_Q_CFG_SHAPER_EN F.NI_Q_RATE_RATE) ||
        (q .port R.PORT_Q_CFG 32 && bad F.PORT_Q_CFG_SHAPER_EN F.PORT_Q_RATE_RATE))))
  else true

/-- The unit kind and offset of the registers that a REGLOAD record sets. -/
def Valid.touches (v : Valid) (r : Rec) (k : UnitKind) (lo hi : Nat) : List (Nat × Nat) :=
  if r.kind = 1 then
    ((regLoads r).flatMap (fun e => loadSites v.s.pkg r.scope e.1)).filter (fun x =>
      unitKind v.s.pkg x.1 == some k && decide (lo ≤ x.2) && decide (x.2 ≤ hi))
  else []

/-- 0x0402: TIME_DEPTH at most 48, and no upstream that is disabled or an uplink of a Q20-L (R69). -/
def Valid.timeOk (v : Valid) (r : Rec) : Bool :=
  (v.touches r .time R.TIME_UPSTREAM R.TIME_DEPTH).all (fun x =>
    decide (v.after.fld x.1 F.TIME_DEPTH_DEPTH ≤ 48) &&
    (List.range (v.after.fld x.1 F.TIME_UPSTREAM_COUNT)).all (fun i =>
      let q := v.after.fld x.1 F.TIME_UPSTREAM_PORTS / 64 ^ i % 64
      v.s.portEnabled q && (v.s.pkg.isS || !(v.s.pkg.variant == 1 && q % 7 == 6))))

/-- The NIs of this package that a watch slot uses (R244). -/
def slotNis (p : Package) (w : WatchSlot) (d : StreamDecl) : List Nat :=
  (if w.source then [d.source] else []) ++ (if w.dest then (allStations p).filter (declDelivers p d) else [])

/-- 0x0406: every watch slot has a format, a place and a declared stream, and no die has more than 256 slots (R244). -/
def Valid.watchOk (v : Valid) (r : Rec) : Bool :=
  if r.kind ≠ 0x0701 then true
  else
    let b := bankOf v.img.recs (if r.variant = 0xFFFF then 0 else r.variant)
    let slots := watchSlots { b with recs := [r] }
    slots.all (fun w => decide (w.fmt < 12) && (w.source || w.dest) && decide (1 ≤ w.tiles ∧ w.tiles ≤ 65536) && (findStream b w.stream).isSome) &&
    (List.range (r.payload.length / 8)).all (fun i => decide (leAt r.payload (8 * i + 3) 1 < 4)) &&
    (let used := (watchSlots b).flatMap (fun w => ((findStream b w.stream).map (slotNis v.s.pkg w)).getD [])
     (List.range 20).all (fun d => decide ((used.filter (fun st => st / 2048 == d)).length ≤ 256)))

/-- A frequency in its range, in steps of 25 MHz. -/
def freqOk (lo v : Nat) : Bool := decide (lo ≤ v ∧ v ≤ 2200) && v % 25 == 0

/-- The headroom that R147 requires of mesh inputs and adapters for receivers at a floor and senders at 2,200 MHz. -/
def needHeadroom (floor : Nat) : Nat × Nat :=
  (4 + (11000 + floor - 1) / max 1 floor, (206 * floor + 88000 + 10 * floor - 1) / max 1 (10 * floor))

/-- 0x0407: the POWER parameters (R291, Table 12-6). -/
def Valid.powerOk (v : Valid) (r : Rec) : Bool :=
  if r.kind ≠ 0x0901 then true
  else
    let f (o n : Nat) : Nat := leAt r.payload o n
    let floor := f 0 2
    let base := bankFMin v.base
    let cool := if variantExists v.img.recs 0x4000 then bankFMin (bankOf v.img.recs 0x4000) else base
    freqOk 1200 floor && decide (1 ≤ f 2 2 ∧ f 2 2 ≤ 4095) && decide (1 ≤ f 4 1 ∧ f 4 1 ≤ 16) && freqOk 1200 (f 6 2) && f 8 2 != 0 &&
    decide (floor ≤ f 6 2) && decide (cool ≤ f 6 2) &&
    (List.range 8).all (fun l =>
      let m := f (16 + 4 * l) 2
      let th := f (19 + 4 * l) 1
      freqOk 1200 m && decide (1 ≤ f (18 + 4 * l) 1 ∧ f (18 + 4 * l) 1 ≤ 16) && decide (th ≤ 1) && decide (floor ≤ m) &&
      decide ((if th = 1 then cool else base) ≤ m)) &&
    (List.range 20).all (fun d => (List.range 64).all (fun i =>
      !islExists v.s.pkg d i ||
      (decide ((needHeadroom floor).1 ≤ v.after.fld (routerUnit d i) F.ROUTER_FLOW_MESH_HEADROOM) &&
       decide ((needHeadroom floor).2 ≤ v.after.fld (routerUnit d i) F.ROUTER_FLOW_DLINK_HEADROOM))))

/-- 0x0408: the class parameters that a record sets (R295). -/
def Valid.policyOk (v : Valid) (r : Rec) : Bool :=
  (v.touches r .fault R.FAULT_CLASS_CFG (R.FAULT_CLASS_Q + 60)).all (fun x =>
    let c := (x.2 - R.FAULT_CLASS_CFG) % 64 / 4
    let f (g : Fld) : Nat := v.after.fldAt x.1 g c
    let t := f F.FAULT_CLASS_T_US
    let d := f F.FAULT_CLASS_CFG_N_DEG
    let n := f F.FAULT_CLASS_CFG_N_SEV
    t != 0 && decide (t ≤ f F.FAULT_CLASS_Q_US) && !(d != 0 && n != 0 && decide (n ≤ d)) && f F.FAULT_CLASS_CFG_BASE != 0)

/-- The address ranges of a PARTITION record's tables. -/
def tableRanges (r : Rec) : List (Nat × Nat) :=
  [(leAt r.payload 8 8, 4 * leAt r.payload 24 4), (leAt r.payload 16 8, 2 * leAt r.payload 28 4)]

/-- 0x0409: no PARTITION table of a live change overlaps the tables in force. -/
def Valid.liveTablesOk (v : Valid) (r : Rec) : Bool :=
  !v.live || r.kind ≠ 0x0201 ||
  (v.s.bankIn.recs.filter (fun x => x.kind == 0x0201)).all (fun x => (tableRanges x).all (fun a => (tableRanges r).all (fun b =>
    decide (a.1 + a.2 ≤ b.1) || decide (b.1 + b.2 ≤ a.1) || a.2 == 0 || b.2 == 0)))

/-- 0x040A: the image fields that a live change may not write, RWL or not RW, keep their values. -/
def Valid.liveFieldsOk (v : Valid) (r : Rec) : Bool :=
  !v.live || r.kind ≠ 1 ||
  (let full := v.s.allFields v.img false
   (regLoads r).all (fun e => (loadSites v.s.pkg r.scope e.1).all (fun x =>
     let m := maskOf (fieldsAt v.s.pkg x.1 x.2) (fun f => f.warm == .image && f.acc != .rw)
     (v.s.reg x.1 x.2 ^^^ full.reg x.1 x.2) &&& m == 0)))

/-- The first rule that a record breaks, in code order (R367). -/
def Valid.recFail (v : Valid) (r : Rec) : Option ImgFail :=
  let checks : List (Nat × Bool) := [
    (0x0401, r.kind ≠ 0x0201 || rankOk v.s.pkg r), (0x0402, v.timeOk r),
    (0x0403, r.kind ≠ 0x0305 || (overrides r).all (fun o => overrideOk v.img.coord o.1 o.2)), (0x0404, v.enabledOk r), (0x0405, v.shapersOk r),
    (0x0406, v.watchOk r), (0x0407, v.powerOk r), (0x0408, v.policyOk r), (0x0409, v.liveTablesOk r), (0x040A, v.liveFieldsOk r)]
  (checks.find? (fun c => !c.2)).map (fun c => v.fail c.1 r)

/-! ## The almanac (Table 04-9) -/

/-- A map in a POOL record: its record, router, plane and link, its words, and the word index of its descriptor. -/
structure MapAt where
  r : Rec
  u : Nat
  plane : Nat
  link : Nat
  di : Nat
  m : SlotMap

/-- The routers that a POOL record's SCOPE covers. -/
def coveredRouters (p : Package) (scope : W32) : List Nat :=
  ((List.range 20).flatMap (fun d => ((List.range 64).filter (islExists p d)).map (routerUnit d))).filter (fun u => (scopeRank scope u).isSome)

/-- The maps of a bank. -/
def bankMaps (p : Package) (b : Bank) : List MapAt :=
  (b.recs.filter (fun r => r.kind == 0x0402)).flatMap (fun r =>
    let k := leAt r.payload 0 2
    (coveredRouters p r.scope).flatMap (fun u => (List.range k).map (fun i =>
      let di := leAt r.payload (10 + 4 * i) 2
      { r := r, u := u, plane := leAt r.payload (8 + 4 * i) 1, link := leAt r.payload (9 + 4 * i) 1, di := di, m := mapAt r.payload k i di })))

/-- The words of a router's pool (R87). -/
def poolWords (p : Package) (u : Nat) : Nat := if p.isS || (16 ≤ unitDie u && unitInst u % 2 == 1) then 65536 else 16384

/-- Whether a link code marks a station's injection. -/
def isInjection (link : Nat) : Bool := link == 8 || link == 10

/-- AV1 of a bank: its parameters in their ranges (R108, Table 04-10). -/
def av1Bank (b : Bank) : Bool :=
  match bankParams b with
  | none => false
  | some _ =>
    decide (10 ≤ bankLog2N b ∧ bankLog2N b ≤ 20) && decide (bankLeapInsert b ≤ bankN b) && decide (bankLeapRemove b + 1 ≤ bankN b) && decide (1200 ≤ bankFMin b ∧ bankFMin b ≤ 2200) &&
    ((bankParams b).map (fun p => decide (256 ≤ leAt p 14 2 ∧ leAt p 14 2 ≤ 4352))).getD true && bankHoldUs b != 0

/-- AV1 of a map. -/
def av1Map (p : Package) (b : Bank) (x : MapAt) : Bool :=
  let k := leAt x.r.payload 0 2
  let w := leAt x.r.payload 4 4
  let base := poolWord x.r.payload k x.di % 65536
  (x.m.runs.map (·.len)).foldl (· + ·) 0 == bankN b && decide (x.m.runs.length ≤ 16384) && decide (x.m.streams.length ≤ 1024) &&
  decide (w ≤ poolWords p x.u) && decide (x.di + 2 ≤ w) && decide (base + x.m.runs.length + x.m.streams.length ≤ w)

/-- AV2 of a map. -/
def av2Map (b : Bank) (x : MapAt) : Bool :=
  let k := leAt x.r.payload 0 2
  let lo := poolWord x.r.payload k x.di
  let hi := poolWord x.r.payload k (x.di + 1)
  lo / 2 ^ 30 == 0 && hi % 4 == 0 && (isInjection x.link || hi / 2 ^ 13 == 0) &&
  x.m.runs.all (fun r => r.kind != 3 && (if r.kind = 1 then decide (r.handle < x.m.streams.length) else r.handle == 0)) &&
  x.m.streams.all (fun w =>
    w / 32 % 8 == 0 && decide (1 ≤ w % 32 ∧ w % 32 ≤ 16) && w / 256 % 256 != 0 &&
    match findStream b (w / 65536) with
    | some d => bankAdmits b x.u d.key
    | none => false)

/-- AV3 of a map. -/
def av3Map (b : Bank) (x : MapAt) : Bool :=
  decide (bankLeapInsert b ≤ bankN b) &&
  match x.m.runs.getLast? with
  | some r => r.kind == 0 && decide (bankLeapRemove b < r.len)
  | none => false

/-- Whether a variant gives a port eight lanes: a HALF_WIDTH that names it (R107). -/
def halfWidth (v : W16) (q : Nat) : Bool := (v.toNat / 4096 == 2 || v.toNat / 4096 == 6) && v.toNat % 4096 == q

/-- The duration of a frame of n payload bytes at a link direction, in quanta: at F_MIN, or on a port at its lanes in the variant. -/
def Valid.linkTime (v : Valid) (id : W16) (b : Bank) (x : MapAt) (n : Nat) : Nat :=
  if x.link = 6 then unitTime (unitCount n) (if halfWidth id (routerPort v.s.pkg { die := unitDie x.u, inst := unitInst x.u }) then 2 else 1)
  else flitTime x.plane n (bankFMin b / 25)

/-- AV4 of a map. -/
def Valid.av4Map (v : Valid) (id : W16) (b : Bank) (x : MapAt) : Bool :=
  x.m.runs.all (fun r => r.kind != 1 ||
    (let w := x.m.streams.getD r.handle 0
     decide ((w / 256 % 256) * v.linkTime id b x (w % 32 * 256) ≤ 128 * r.len)))

/-- The longest intercalary window of a map's runs, in slots. -/
def longestWindow : List Run → Nat → Nat
  | [], cur => cur
  | r :: rs, cur => if r.kind = 0 then longestWindow rs (cur + r.len) else max cur (longestWindow rs 0)

/-- AV5 of a map: MAX_UNSCHED counts the frame's header with its payload (Table 04-10). -/
def Valid.av5Map (v : Valid) (id : W16) (b : Bank) (x : MapAt) : Bool :=
  let m := ((bankParams b).map (fun p => leAt p 14 2)).getD 4352
  let flit := if x.plane ≤ 1 then 32 else 128
  let dur := if x.link = 6 then v.linkTime id b x (m - 68) else ((m + flit - 1) / flit * 4000 + bankFMin b - 1) / max 1 (bankFMin b)
  decide (dur ≤ 128 * longestWindow x.m.runs 0)

/-- The scheduled runs of a stream in a map: first slot, slot after the last, frames and units. -/
def streamRuns (streams : List Nat) (id : Nat) : List Run → Nat → List (Nat × Nat × Nat × Nat)
  | [], _ => []
  | r :: rs, at_ =>
    let w := streams.getD r.handle 0
    (if r.kind = 1 ∧ w / 65536 = id then [(at_, at_ + r.len, w / 256 % 256, w % 32)] else []) ++ streamRuns streams id rs (at_ + r.len)

/-- The runs of a stream at a link direction. -/
def MapAt.runsOf (x : MapAt) (id : Nat) : List (Nat × Nat × Nat × Nat) := streamRuns x.m.streams id x.m.runs 0

/-- The router at which a link direction's frames arrive, and whether a crossing lies between; none for deliveries and ports. -/
def nextRouter (p : Package) (x : MapAt) : Option (Nat × Bool) :=
  let die := unitDie x.u
  let inst := unitInst x.u
  if isInjection x.link then some (x.u, false)
  else match outDlink p die inst x.link with
  | some n => (dlPeerKey p (die * 32 + n)).map (fun e => (routerUnit (e / 32) ((dlRouter e).1 % 1024), true))
  | none => (outNeighbour p die inst x.link).map (fun e => (routerUnit die e.1, false))

/-- The link directions that follow one on a stream's way: those of the next router that give the stream a run on the same plane. -/
def nextMaps (p : Package) (ms : List MapAt) (x : MapAt) (id : Nat) : List MapAt :=
  match nextRouter p x with
  | some (u, _) => ms.filter (fun y => y.u == u && y.plane == x.plane && !isInjection y.link && !(y.runsOf id).isEmpty)
  | none => []

/-- The slot after the run in which a hop's k-th frame of a cycle is sent. -/
def frameEnd : List (Nat × Nat × Nat × Nat) → Nat → Nat
  | [], _ => 0
  | r :: rs, k => if k ≤ r.2.2.1 then r.2.1 else frameEnd rs (k - r.2.2.1)

/-- Whether each run begins no earlier than the run that brings its last frame has ended, with latency and guard. -/
def runsFollow (prev : List (Nat × Nat × Nat × Nat)) (gap : Nat) : List (Nat × Nat × Nat × Nat) → Nat → Bool
  | [], _ => true
  | r :: rs, k => decide (frameEnd prev (k + r.2.2.1) + gap ≤ r.1) && runsFollow prev gap rs (k + r.2.2.1)

/-- The frames that runs offer in a cycle. -/
def framesOffered (rs : List (Nat × Nat × Nat × Nat)) : Nat := (rs.map (fun r => r.2.2.1)).foldl (· + ·) 0

/-- The latency of a hop in slots at F_MIN: six cycles of a router, and sixteen of a crossing (Table 19-2, R93). -/
def hopSlots (b : Bank) (crossing : Bool) : Nat := ((if crossing then 22 else 6) * 4000 + 128 * bankFMin b - 1) / max 1 (128 * bankFMin b)

/-- The streams that a map runs. -/
def MapAt.ids (x : MapAt) : List Nat := (x.m.streams.map (· / 65536)).eraseDups

/-- Whether a hop's runs follow those that bring its frames, after a gap, and offer as many frames (AV6). -/
def hopFollows (prev : List (Nat × Nat × Nat × Nat)) (gap : Nat) (y : MapAt) (id : Nat) : Bool :=
  framesOffered (y.runsOf id) == framesOffered prev && runsFollow prev gap (y.runsOf id) 0

/-- AV6 of a stream at a hop within the package: there is a next hop, and its runs follow this one's and offer as many frames (log 45). -/
def av6Hop (p : Package) (b : Bank) (ms : List MapAt) (x : MapAt) (id : Nat) : Bool :=
  let gap := hopSlots b ((nextRouter p x).map (·.2) == some true) + bankDieGuard b
  let prev := x.runsOf id
  let next := nextMaps p ms x id
  prev.isEmpty || (nextRouter p x).isNone || (!next.isEmpty && next.all (fun y => hopFollows prev gap y id))

/-- The port at whose router a map stands. -/
def MapAt.port (p : Package) (x : MapAt) : Option Nat :=
  (List.range (portCount p)).find? (fun q => routerUnit (portDie p q) (portRouter p q) == x.u)

/-- The port by which a stream's frames reach a link direction from a cable: its router's, where no map of the package brings them there. -/
def cableHop (p : Package) (ms : List MapAt) (x : MapAt) (id : Nat) : Option Nat :=
  if (x.runsOf id).isEmpty || isInjection x.link || ms.any (fun y => (nextMaps p ms y id).any (fun z => z.u == x.u && z.link == x.link && z.plane == x.plane))
  then none else x.port p

/-- The one-way latency of a port's cable in slots, from its CABLE record (Table 16-10, R93). -/
def cableSlots (p : Package) (b : Bank) (q : Nat) : Nat :=
  (((recFor b.recs 0x0306 (portUnit p q)).map (fun r => leAt r.payload 0 4)).getD 0 + 127) / 128

/-- AV6 of a stream at the first hop after a cable: the runs follow those of the sender, which its own image gives, by the cable's latency and
GUARD_SLOTS (R93, log 45). -/
def Valid.av6Cable (v : Valid) (b : Bank) (ms : List MapAt) (x : MapAt) (id : Nat) : Bool :=
  match cableHop v.s.pkg ms x id with
  | none => true
  | some q => hopFollows (Config.farRuns v.img.bytes q x.plane id) (cableSlots v.s.pkg b q + bankGuard b) x id

/-- AV6 of a stream at a map. -/
def Valid.av6Stream (v : Valid) (b : Bank) (ms : List MapAt) (x : MapAt) (id : Nat) : Bool := av6Hop v.s.pkg b ms x id && v.av6Cable b ms x id

/-- AV6 of a map. -/
def Valid.av6Map (v : Valid) (b : Bank) (ms : List MapAt) (x : MapAt) : Bool := x.ids.all (v.av6Stream b ms x)

/-- The VC0 buffer that a hop's frames wait in, in flits: the NI's own, or a mesh or crossing input (Table 06-2). -/
def vc0Flits (p : Package) (x : MapAt) : Option Nat := if isInjection x.link then none else (nextRouter p x).map (fun n => if n.2 then 48 else 16)

/-- The spans in which frames may wait between the runs that bring them and the runs that take them: from the start of each run to the end of the run
there that sends its last frame, with its frames and units. -/
def spansFrom (here there : List (Nat × Nat × Nat × Nat)) : List (Nat × Nat × Nat × Nat) :=
  (here.foldl (fun (a : Nat × List (Nat × Nat × Nat × Nat)) r =>
    (a.1 + r.2.2.1, a.2 ++ [(r.1, frameEnd there (a.1 + r.2.2.1), r.2.2.1, r.2.2.2)])) (0, [])).2

/-- The spans in which a hop's frames of a stream may wait for their run, with their flits. -/
def waitSpans (x y : MapAt) (id : Nat) : List (Nat × Nat × Nat) :=
  (spansFrom (x.runsOf id) (y.runsOf id)).map (fun e => (e.1, e.2.1, e.2.2.1 * flitCount x.plane (e.2.2.2 * 256)))

/-- Whether the frames that can wait at once in spans fit in a buffer. -/
def spansFit (cap : Nat) (spans : List (Nat × Nat × Nat)) : Bool :=
  spans.all (fun a => decide (((spans.filter (fun b => decide (b.1 ≤ a.1 ∧ a.1 < b.2.1))).map (fun b => b.2.2)).foldl (· + ·) 0 ≤ cap))

/-- The spans in which frames of a stream from a cable may wait in the port's VC0, in bytes on the wire. -/
def Valid.cableSpans (v : Valid) (ms : List MapAt) (q plane : Nat) : List (Nat × Nat × Nat) :=
  ms.flatMap (fun y => if y.plane ≠ plane then [] else y.ids.flatMap (fun id =>
    if cableHop v.s.pkg ms y id = some q then
      (spansFrom (Config.farRuns v.img.bytes q plane id) (y.runsOf id)).map (fun e => (e.1, e.2.1, e.2.2.1 * 64 * unitCount (e.2.2.2 * 256)))
    else []))

/-- AV7 of a map: the frames that can wait at once for a run fit in the VC0 buffer, of the hop within the package and, after a cable, of the port
(Table 06-2: 160 KiB). -/
def Valid.av7Map (v : Valid) (ms : List MapAt) (x : MapAt) : Bool :=
  (match vc0Flits v.s.pkg x with
   | none => true
   | some cap => spansFit cap (x.ids.flatMap (fun id => (nextMaps v.s.pkg ms x id).flatMap (fun y => waitSpans x y id)))) &&
  (match x.port v.s.pkg with
   | none => true
   | some q => spansFit (160 * 1024) (v.cableSpans ms q x.plane))

/-- The first slot of a map's first SCHEDULED run. -/
def firstRun : List Run → Nat → Option Nat
  | [], _ => none
  | r :: rs, at_ => if r.kind = 1 then some at_ else firstRun rs (at_ + r.len)

/-- AV8 of an injection map. -/
def av8Map (b : Bank) (x : MapAt) : Bool :=
  !isInjection x.link ||
  (decide (x.m.wave < bankWaves b) &&
   match firstRun x.m.runs 0 with
   | some t => decide ((x.m.wave * bankSpacingMax b + 127) / 128 ≤ t)
   | none => true)

/-- The station at the end of an injection map. -/
def injStation (p : Package) (x : MapAt) : Option Nat :=
  if isInjection x.link then (allStations p).find? (fun st => routerUnit (st / 2048) (stationRouter p st) == x.u && injectLink p st == x.link) else none

/-- AV8 of a bank: the parameters' ranges, and the summed step currents of waves 0 to k, each at most (k + 1) / PROC_WAVES of PROC_CURRENT (R105). A
station counts once in a wave, whatever planes its maps name; its current is free (log 45). -/
def av8Bank (p : Package) (img : List Byte) (b : Bank) (ms : List MapAt) : Bool :=
  let n := bankWaves b
  let limit := bankCurrent b * 100
  let ws := (ms.filterMap (fun x => (injStation p x).map (fun st => (st, x.m.wave)))).eraseDups
  decide (1 ≤ n ∧ n ≤ 64) && decide (bankSpacingMin b ≤ bankSpacingMax b) &&
  (List.range n).all (fun k => decide (((ws.filter (fun w => decide (w.2 ≤ k))).map (fun w => Config.stepCurrent img w.1)).foldl (· + ·) 0 * n ≤ (k + 1) * limit))

/-- The port maps of a bank, by router and plane. -/
def portMaps (p : Package) (b : Bank) : List (Nat × Nat × List Run × List Nat) :=
  ((bankMaps p b).filter (fun x => x.link == 6)).map (fun x => (x.u, x.plane, x.m.runs, x.m.streams))

/-- Whether two lists hold the same items. -/
def sameItems {α : Type} [BEq α] (a b : List α) : Bool := a.all b.contains && b.all a.contains

/-- The die paths of a bank's DIEPATH and DELIVERY records. -/
def bankPaths (p : Package) (b : Bank) : List (Nat × Nat × Nat × (BitVec 40 × W4)) :=
  (b.recs.filter (fun r => r.kind == 0x0301 || r.kind == 0x0302)).flatMap (recPaths p)

/-- Whether no die path of a bank names a die of a list. -/
def pathsAvoid (p : Package) (b : Bank) (dies : List Nat) : Bool := (bankPaths p b).all (fun x => (pathDies x.2.2.2).all (fun d => !dies.contains d))

/-- AV9 of a variant. -/
def Valid.av9 (v : Valid) (id : W16) (b : Bank) : Bool :=
  let p := v.s.pkg
  let k := id.toNat / 4096
  let arg := id.toNat % 4096
  let same (o : Bank) : Bool := sameItems (portMaps p b) (portMaps p o)
  let peer := ((bankParams b).map (fun q => leAt q 24 2)).getD 0
  (if 4 ≤ k ∧ k ≤ 7 then same (bankOf v.img.recs (id - 0x4000)) else true) &&
  (if 8 ≤ k then same v.base else true) &&
  (if k = 8 then pathsAvoid p b [arg] else true) &&
  (if k = 9 then
     (let key := arg / 32 % 16 * 32 + arg % 32
      (bankPaths p b).all (fun x => (v.s.pathCrossings x.1 x.2.1 x.2.2.1 x.2.2.2).all (fun c => c != key && some c != dlPeerKey p key)))
   else true) &&
  (if k = 10 then
     pathsAvoid p b ((setBitsOf arg 4).map (16 + ·)) &&
     (b.recs.filter (fun r => r.kind == 0x0301)).all (fun r => (leAt r.payload 160 1 &&& arg) % 16 == 0) &&
     (b.recs.filter (fun r => r.kind == 0x0305)).all (fun r => (overrides r).all (fun o => decide (28 ≤ routeEntry o.2 0) || !arg.testBit (routeEntry o.2 0 / 7)))
   else true) &&
  (if (1 ≤ k ∧ k ≤ 3) ∨ (5 ≤ k ∧ k ≤ 7) then peer != 0 else true)

/-- Whether the source station of each multicast stream of a record attaches to a router of a mesh, whose row or column its set is (R144, log 45). -/
def multicastOk (p : Package) (r : Rec) : Bool :=
  r.kind != 0x0403 || (List.range (r.payload.length / 24)).all (fun i =>
    let d := streamEntry r.payload i
    !d.multicast || ((stationKind p d.source).isSome && decide (d.source / 2048 < 16)))

/-- AV10 of a bank: its die paths meet R141 and R142, its override routes R139, its multicast sets R144. -/
def Valid.av10 (v : Valid) (b : Bank) : Option Rec :=
  b.recs.find? (fun r => !(v.s.tableOk r && multicastOk v.s.pkg r && (r.kind != 0x0305 || (overrides r).all (fun o => overrideOk v.img.coord o.1 o.2))))

/-- A failure of an almanac rule: at a map's record, or at the bank's BANK record. -/
def Valid.almFail (v : Valid) (k : Nat) (r : Option Rec) : ImgFail := match r with
  | some r => { v.fail (0x0200 + k) r with sec := v.secIndex 4 }
  | none => { code := 0x0200 + k, sec := v.secIndex 4 }

/-- The first rule of Table 04-9 that the image breaks, over BASE and every variant. -/
def Valid.almanac (v : Valid) : Option ImgFail :=
  let p := v.s.pkg
  let param (b : Bank) : Option Rec := (b.recs.filter (fun r => r.kind == 0x0401)).getLast?
  let each (k : Nat) (ok : W16 → Bank → List MapAt → MapAt → Bool) : Option ImgFail :=
    v.banks.findSome? (fun e => let ms := bankMaps p e.2; (ms.find? (fun x => !ok e.1 e.2 ms x)).map (fun x => v.almFail k (some x.r)))
  let whole (k : Nat) (ok : W16 → Bank → Bool) : Option ImgFail :=
    (v.banks.find? (fun e => !ok e.1 e.2)).map (fun e => v.almFail k (param e.2))
  [whole 1 (fun _ b => av1Bank b), each 1 (fun _ b _ x => av1Map p b x), each 2 (fun _ b _ x => av2Map b x), each 3 (fun _ b _ x => av3Map b x),
   each 4 (fun i b _ x => v.av4Map i b x), each 5 (fun i b _ x => v.av5Map i b x), each 6 (fun _ b ms x => v.av6Map b ms x),
   each 7 (fun _ _ ms x => v.av7Map ms x), whole 8 (fun _ b => av8Bank p v.img.bytes b (bankMaps p b)), each 8 (fun _ b _ x => av8Map b x),
   whole 9 (fun i b => v.av9 i b), v.banks.findSome? (fun e => (v.av10 e.2).map (fun r => v.almFail 10 (some r)))].findSome? id

/-! ## The groups (Table 08-7) -/

/-- Whether a group's pods reach a common switch tier, as far as the image tells: a package has an enabled uplink on each I/O die that carries the
group, and a Priberun-S a valid switch-table entry for every member package (R186, log 45). -/
def Valid.podsReach (v : Valid) (g : Group) : Bool :=
  if v.s.pkg.isS then
    (List.range (g.ext 0 * g.ext 1 * g.ext 2 * g.pods)).all (fun i =>
      (switchEntry v.base (g.coordAt (g.memberPos (i * max 1 g.members.length))).toNat).testBit 7)
  else g.ioDies.all (fun d => v.s.portEnabled (7 * d + 6))

/-- GV1 of a group. -/
def Valid.gv1 (v : Valid) (g : Group) : Bool :=
  let p := v.s.pkg
  let bit (i : Nat) : Bool := g.levels.testBit i
  let ax (a : Nat) : Bool :=
    let o := g.origin.getD a 0
    let e := g.ext a
    let t := g.stride.getD a 0
    decide (o < 8) && decide (1 ≤ e ∧ e ≤ 8) && [1, 2, 4].contains t && decide (e * t ≤ 8) && (bit (2 + a) == decide (1 < e))
  decide (1 ≤ g.key ∧ g.key ≤ 4095) && decide (g.num < 4096) && decide (g.levels < 64) && bit 0 && bit 1 && decide (1 ≤ g.depth ∧ g.depth ≤ 4) &&
  decide (256 ≤ g.quantum ∧ g.quantum ≤ 65536) && g.quantum % 256 == 0 && decide (1 ≤ g.pods ∧ g.pods ≤ 256) &&
  (List.range 3).all ax && (if bit 5 then decide (1 ≤ g.podStride ∧ g.podOrigin + (g.pods - 1) * g.podStride ≤ 255) && v.podsReach g else g.pods == 1) &&
  decide (1 ≤ g.members.length ∧ g.members.length ≤ 1024) &&
  (List.range (g.members.length - 1)).all (fun i => decide (g.members.getD i 0 < g.members.getD (i + 1) 0)) &&
  (if p.isS then g.members.all (fun q => decide (q < 64) && v.s.portEnabled q)
   else
     g.ioMask != 0 && g.members.all (fun st => stationKind p st == some .compute && !v.s.stationAbsent st) &&
     (!bit 5 || p.variant != 1))

/-- The in-edges that a group gives an engine, the most of any chunk. -/
def inEdges (p : Package) (g : Group) (coord : BitVec 17) (st : Nat) : Nat :=
  (List.range (if p.isS then 1 else planPeriod g)).foldl (fun a c => max a (((enginePlan p g coord c st none none).map (fun n => n.ins.length)).getD 0)) 0

/-- GV3 of a bank's groups: reservations at every engine, and at every member NI, whose own contribution crosses no edge. -/
def Valid.gv3 (v : Valid) (gs : List Group) : Bool :=
  let p := v.s.pkg
  let coord := v.img.coord
  let sum (f : Group → Nat) : Nat := (gs.map f).foldl (· + ·) 0
  ((allStations p).filter (isEngine p)).all (fun st => decide (sum (fun g => inEdges p g coord st * (g.depth + 1)) ≤ 32768)) &&
  ((gs.flatMap (·.members)).eraseDups).all (fun st => p.isS || decide (sum (fun g => match g.memberOf coord st with
    | some m => ((niPlan g m none none).ins.filter (fun e => e.member != some m)).length * (g.depth + 1) + (if g.size ≤ 1024 then 2 * g.size else 0)
    | none => 0) ≤ 4096))

/-- GV4 of a group: its ring segments as override routes. -/
def Valid.gv4 (v : Valid) (g : Group) : Bool :=
  v.s.pkg.isS ||
  match g.pos v.img.coord with
  | none => true
  | some q => g.axes.all (fun a => (List.range (2 * max 1 g.ioDies.length)).all (fun c =>
      let n := g.ext a
      let here := q.xyz.getD a 0
      let far := q.move a (if g.plus c then (here + 1) % n else (here + n - 1) % n)
      n ≤ 1 || overrideOk (g.coordAt q) (g.coordAt far) (ringRoute g c a (g.coordAt q) (g.coordAt far))))

/-- GV5 of a group: its edge streams are declared, on CV, and pass AV4–AV7 at every link direction that runs them. -/
def Valid.gv5 (v : Valid) (id : W16) (b : Bank) (g : Group) : Bool :=
  let ms := bankMaps v.s.pkg b
  g.streams.all (fun i => ((findStream b i).map (·.onCv)).getD false &&
    (ms.filter (fun x => !(x.runsOf i).isEmpty)).all (fun x => v.av4Map id b x && v.av5Map id b x && v.av6Stream b ms x i && v.av7Map ms x))

/-- The first rule of Table 08-7 that the image breaks. -/
def Valid.groups (v : Valid) : Option ImgFail :=
  let at_ (k : Nat) (ok : W16 → Bank → Group → Bool) : Option ImgFail :=
    v.banks.findSome? (fun e => ((e.2.recs.filter (fun r => r.kind == 0x0601)).find? (fun r => !ok e.1 e.2 (groupOf r.payload))).map (v.fail (0x0300 + k)))
  let sec : ImgFail := { code := 0, sec := v.secIndex 6 }
  [at_ 1 (fun _ _ g => v.gv1 g), at_ 2 (fun _ _ g => decide (g.size ≤ 2 ^ 27)),
   if v.banks.all (fun e => v.gv3 (bankGroups e.2)) then none else some { sec with code := 0x0303 },
   at_ 4 (fun _ _ g => v.gv4 g), at_ 5 v.gv5,
   if v.banks.all (fun e => (v.av10 e.2).isNone) then none else some { sec with code := 0x0306 }].findSome? id

/-! ## The whole (R367) -/

/-- The rules of one section: its records in order, and the rules after its last record. -/
def Valid.section_ (v : Valid) (type : Nat) : Option ImgFail :=
  match (v.img.recs.filter (fun r => r.sec == type)).findSome? v.recFail with
  | some f => some f
  | none => if type = 4 then v.almanac else if type = 6 then v.groups else none

/-- 0x040A of a field that the committed image sets and the new one does not: it would fall back to its cold value. -/
def Valid.keptOk (v : Valid) : Bool :=
  let full := v.s.allFields v.img false
  v.s.regs.all (fun e =>
    let u := e.1 / 4096
    let off := e.1 % 4096
    (v.s.reg u off ^^^ full.reg u off) &&& maskOf (fieldsAt v.s.pkg u off) (fun f => f.warm == .image && f.acc != .rw) == 0)

/-- The first rule that an image breaks, sections in section-table order (R367). -/
def State.validate (s : State) (img : Image) (live : Bool) : Option ImgFail :=
  let v := s.validCtx img live
  match ((imgSecs img.bytes).map (·.type)).findSome? v.section_ with
  | some f => some f
  | none => if live && !v.keptOk then some { code := 0x040A } else none

/-- SPARSE_OK as the validator sets it: every engine of the group's plan has at most four in-edges (R178). -/
def sparseOk (p : Package) (coord : BitVec 17) (g : Group) : Bool :=
  ((allStations p).filter (isEngine p)).all (fun st => decide (inEdges p g coord st ≤ 4))

/-- An image as the validator leaves it: SPARSE_OK set or cleared in its groups. -/
def Image.marked (img : Image) (p : Package) : Image :=
  { img with recs := img.recs.map (fun r =>
      if r.kind = 0x0601 then
        let b := (r.payload.getD 7 0).toNat
        { r with payload := r.payload.set 7 (BitVec.ofNat 8 (b / 2 * 2 + bitNat (sparseOk p img.coord (groupOf r.payload)))) }
      else r) }

end Sys2Proof.Machine
end

