-- ==== Sys2Proof/Machine/Reset.lean ====
section
/-! DEFINITION. Cold and warm reset (R338, R399, Table 18-8): what each leaves in every part of the state. -/
namespace Sys2Proof.Machine

/-! ## Registers and counters over a warm reset (Table 18-8) -/

/-- The bits of a register word that a warm reset keeps. -/
def keepBits (p : Package) (u off : Nat) : W32 := maskOf (fieldsAt p u off) (fun f => f.warm == .keep)

/-- A register word after a warm reset: its kept bits, and the cold value elsewhere. -/
def warmWord (p : Package) (u off : Nat) (w : W32) : W32 :=
  let m := keepBits p u off
  (coldOf p u off &&& ~~~ m) ||| (w &&& m)

/-- The registers after a warm reset. -/
def warmRegs (p : Package) (regs : KMap W32) : KMap W32 :=
  regs.foldl (fun m e => kput (coldOf p (e.1 / 4096) (e.1 % 4096)) m e.1 (warmWord p (e.1 / 4096) (e.1 % 4096) e.2)) []

/-- Whether a warm reset keeps the counters of a unit, or the NI counter at an offset (R251, R252, R319, R337, R372, R387, R398). -/
def keptCtr (p : Package) (u off : Nat) : Bool := match unitKind p u with
  | some .global => true
  | some .fault => true
  | some .chron => true
  | some .diary => true
  | some .trace => true
  | some .mbx => true
  | some .ni => off == R.NI_JRNL_LOST || off == R.NI_JRNL_HELD || off == R.NI_STATS_LOST
  | _ => false

/-! ## The parts of the state over a warm reset -/

/-- A network interface after a warm reset: the fence bitmap, the loaded journal ring with the FT of its last entry, and the times of its RESETs are
kept (R242, R313, R320). -/
def Ni.warm (n : Ni) : Ni := { fenced := n.fenced, ring := n.ring, ringBase := n.ringBase, jrnlAt := n.jrnlAt, resets := n.resets }

/-- A reduction engine after a warm reset: what REDUCE_LATE_MEMBER, _SLOTS and _STEP read is kept (Table 08-16). -/
def Eng.warm (e : Eng) : Eng := { late := e.late }

/-- The trace unit after a warm reset: TRACE_TRIG_FT is kept (Table 17-14). -/
def Trace.warm (t : Trace) : Trace := { trigFt := t.trigFt }

/-- A Chronicle controller after a reset: its device is to be mounted again (R332), and its running counts go on after a warm one (R325). -/
def ChDev.restart (d : ChDev) (cold : Bool) : ChDev :=
  if cold then { sectors := d.sectors }
  else { sectors := d.sectors, spare := d.spare, seqNext := d.seqNext, seconds := d.seconds, cycles := d.cycles, cold := d.cold }

/-- The mailbox after a warm reset: the rings, the unanswered commands, the mask and the vectors are kept, and the FM's own answers are lost (R364). -/
def Mbx.warm (m : Mbx) : Mbx := { m with jobs := [], waiting := [] }

/-- The NIs' incarnations advance (R314). -/
def State.incAll (s : State) : State :=
  (allStations s.pkg).foldl (fun s st =>
    s.setFld (niUnit st) F.NI_FAULT_STATUS_INC ((s.fld (niUnit st) F.NI_FAULT_STATUS_INC + 1) % 16)) s

/-- The captures in progress are lost, and RECORD_LOST is set (R316). -/
def State.captureLost (s : State) : State :=
  s.flt.dies.foldl (fun s e =>
    if e.2.capture.isEmpty then s
    else (s.updFdie e.1 (fun d => { d with capture := [] })).event (faultUnit e.1) F.FAULT_EVENT_RECORD_LOST) s

/-- The package leaves Holiday through the reset (R382): what the Holiday held of the fault and power controllers acts. -/
def State.leaveHoliday (s : State) : State :=
  if s.hol.active then
    ({ s.faultRelease.gateRelease with hol := { lastId := s.hol.lastId } }).emit (.pin .holidayOut true)
  else { s with hol := { lastId := s.hol.lastId } }

/-- The block domain, the links and the management cores restart (R338). -/
def State.warmParts (s : State) : State :=
  { s with
    regs := warmRegs s.pkg s.regs,
    ctrs := s.ctrs.filter (fun e => keptCtr s.pkg (e.1 / 4096) (e.1 % 4096)),
    shadows := [], staged := [], committed := false, tree := [], treeWait := [],
    ni := (s.ni.map (fun e => (e.1, e.2.warm))).filter (fun e => e.2 != {}),
    pools := [], time := { s.time with exch := [], ports := s.time.ports.map (fun e => (e.1, { e.2 with heard := false, good := 0, last := none })) }, isl := s.isl.map (fun e => (e.1, { e.2 with running := false, locked := false, ftValid := false })),
    holder := none, staging := none, image := none, trace := s.trace.warm, rtr := [], ports := [], dlinks := [], arbs := [],
    eng := (s.eng.map (fun e => (e.1, e.2.warm))).filter (fun e => e.2 != {}),
    pwr := { kwarn := s.pwr.kwarn, pins := s.pwr.pins },
    chron := { s.chron with d0 := s.chron.d0.restart false, d1 := s.chron.d1.restart false },
    mbx := s.mbx.warm, boot := { f0 := s.boot.f0, f1 := s.boot.f1 }, lease := {}, live := 0,
    diary := { s.diary with d0 := {}, d1 := {}, held := [] } }

/-- The throttle computed afresh from the pins, without its hold timer (R292). -/
def State.throttleAfresh (s : State) (n valid : Nat) : State :=
  ((s.setPw F.POWER_STATUS_THROTTLE_N n).setPw F.POWER_STATUS_PC_VALID valid).throttleEval

/-- A field of BOOT_STATUS on both sides (R357). -/
def State.setBoot (s : State) (f : Fld) (v : Nat) : State := (s.setFld (bootUnit s.pkg 0) f v).setFld (bootUnit s.pkg 1) f v

/-- A warm reset of a kind: 1 commanded, 2 warm_reset_n, 3 step timeout (R338). -/
def State.warmReset (s : State) (kind : Nat) : State :=
  let n := s.pw F.POWER_STATUS_THROTTLE_N
  let v := s.pw F.POWER_STATUS_PC_VALID
  ((s.leaveHoliday.captureLost.warmParts.incAll).throttleAfresh n v).setBoot F.BOOT_STATUS_RESET_KIND kind

/-- A cold reset (R338): the state after reset, with the flash devices as they are. -/
def State.coldReset (s : State) : State :=
  { State.reset with
    pkg := s.pkg, pending := s.pending, out := s.out, freeCtr := s.freeCtr,
    chron := { d0 := s.chron.d0.restart true, d1 := s.chron.d1.restart true }, boot := { f0 := s.boot.f0, f1 := s.boot.f1 } }

/-- COLD_RESET (R338). -/
def execColdReset (s : State) : Res := done s s.coldReset

/-- WARM_RESET_PIN (R338): warm_reset_n has been low for 1 µs. -/
def execWarmResetPin (s : State) : Res := done s (s.warmReset 2)

/-- Whether a write at a side's BOOT unit acts: it is the active core's (R357). -/
def State.bootActs (s : State) (side : Nat) : Bool := s.holder == some side

/-- BOOT_CMD WARM_RESET at a side (R338, R357). -/
def State.bootWarm (s : State) (side : Nat) : State := if s.bootActs side then s.warmReset 1 else s

/-- BOOT_WARM_RESET (R338). -/
def execBootWarmReset (side : Nat) (s : State) : Res := onUnit (decide (side < 2)) s (s.bootWarm side)

end Sys2Proof.Machine
end

