-- ==== Sys2Proof/Machine/Boot.lean ====
section
/-! DEFINITION. Bring-up (R338–R351): the journal and the boot state in flash, the step levels, the work of each step, and the commands of the
sequencer. -/
namespace Sys2Proof.Machine

/-! ## The sequencer's registers -/

/-- BOOT_STATUS.STATE: 0 B0, 1 RUNNING, 2 WAIT_IMAGE, 3 READY, 4 FAILED (Table 15-8). -/
def State.bootState (s : State) : Nat := s.fld (bootUnit s.pkg 0) F.BOOT_STATUS_STATE

/-- BOOT_STATUS.STEP. -/
def State.bootStep (s : State) : Nat := s.fld (bootUnit s.pkg 0) F.BOOT_STATUS_STEP

/-- BOOT_NO. -/
def State.bootNo (s : State) : Nat := s.fld (bootUnit s.pkg 0) F.BOOT_NO_COUNT

/-- The preferred core (R343, R352). -/
def State.prefCore (s : State) : Nat := bitNat s.pkg.pref

/-- The side whose BOOT registers govern: the active core's, or before the election the preferred one's (R357). -/
def State.bootSide (s : State) : Nat := s.holder.getD s.prefCore

/-- A field of the governing BOOT unit. -/
def State.bootFld (s : State) (f : Fld) : Nat := s.fld (bootUnit s.pkg s.bootSide) f

/-- A BOOT_EVENT bit: at the active unit, or during B0 at both (R347, R357). -/
def State.bootEvent (s : State) (f : Fld) : State := match s.holder with
  | some side => s.event (bootUnit s.pkg side) f
  | none => (s.event (bootUnit s.pkg 0) f).event (bootUnit s.pkg 1) f

/-- The level of a step in a LEVELS word (Table 15-4). -/
def levelOf (levels step : Nat) : Nat := levels / 4 ^ step % 4

/-- The level of a step in force. -/
def State.stepLevel (s : State) (step : Nat) : Nat := levelOf (s.fld (bootUnit s.pkg 0) F.BOOT_LEVELS_LEVELS) step

/-- The highest level of a step (Table 15-5). -/
def topLevel (step : Nat) : Nat := if step = 3 ∨ step = 4 ∨ step = 5 then 3 else 2

/-! ## Flash (R346–R348) -/

/-- A side's flash. -/
def State.bootFlash (s : State) (side : Nat) : BootFlash := if side = 0 then s.boot.f0 else s.boot.f1

/-- The sequencer's state changed. -/
def State.updBoot (s : State) (f : Boot → Boot) : State := { s with boot := f s.boot }

/-- Both flash devices changed: the standby follows the active unit, and in B0 each unit acts for itself alike (R347). -/
def State.updFlash (s : State) (f : BootFlash → BootFlash) : State := s.updBoot (fun b => { b with f0 := f b.f0, f1 := f b.f1 })

/-- The greatest BOOT_NO of a journal. -/
def lastBoot (j : List JEntry) : Nat := j.foldl (fun m e => max m e.bootNo.toNat) 0

/-- The journal that governs: the copy with the greater BOOT_NO (R347). -/
def State.bootJournal (s : State) : List JEntry :=
  if lastBoot s.boot.f0.journal < lastBoot s.boot.f1.journal then s.boot.f1.journal else s.boot.f0.journal

/-- The boot state that governs: the block with the highest GENERATION (R348). -/
def State.bootBlock (s : State) : Option BootBlock := match s.boot.f0.block, s.boot.f1.block with
  | some a, some b => some (if a.generation.toNat < b.generation.toNat then b else a)
  | some a, none => some a
  | none, b => b

/-- The 32 bytes of a journal entry (Table 15-3). The table gives FT's 64 bits and no place for its quality, which R62 pairs with it. -/
def JEntry.bytes (e : JEntry) : List Byte :=
  leBytes 4 e.bootNo.toNat ++ leBytes 1 e.step ++ leBytes 1 e.event ++ leBytes 1 (e.level + 4 * e.kind) ++ [0] ++ leBytes 8 e.ft.toNat ++
    leBytes 4 e.subject ++ leBytes 4 e.detail.toNat ++ leBytes 4 e.seconds ++ [0, 0, 0, 0x0F]

/-- The units of a list that a bitmap shows: bit i of n bytes for unit at i. -/
def disBits (n : Nat) (at_ : Nat → Bool) : List Byte := leBytes n ((List.range (8 * n)).foldl (fun v i => if at_ i then v + 2 ^ i else v) 0)

/-- The 256 bytes of a boot state block (Table 15-4). -/
def BootBlock.bytes (b : BootBlock) (p : Package) : List Byte :=
  let head := leBytes 4 0x53544F42 ++ leBytes 4 b.generation.toNat ++ leBytes 4 b.fuseHash.toNat ++ leBytes 4 b.settingsCrc.toNat ++
    leBytes 2 b.levels ++ leBytes 1 (bitNat b.lastReady + 2 * b.fwSlot) ++ [0] ++ disBits 2 (fun d => b.dis.contains (globalUnit d)) ++ [0, 0] ++
    disBits 8 (fun q => decide (q < portCount p) && b.dis.contains (portUnit p q)) ++
    disBits 64 (fun i => b.dis.contains (dlinkUnit (i / 32) (i % 32))) ++
    disBits 32 (fun i => b.dis.contains (niUnit (i / 16 * 2048 + 64 + i % 16))) ++
    disBits 1 (fun i => b.dis.contains (niUnit ((16 + i % 4) * 2048 + 104 + i / 4)))
  let body := head ++ List.replicate (252 - head.length) 0
  body ++ leBytes 4 (crc32c body).toNat

/-- The severity of a journal event's Chronicle record (R351): 0 INFO, 1 NOTE, 2 DEGRADED, 3 SEVERE. -/
def journalSeverity (event : Nat) : Nat :=
  if event = 3 ∨ event = 10 then 1 else if event = 4 ∨ event = 5 then 2 else if event = 6 ∨ event = 7 then 3 else 0

/-- A journal's entries after one more: sixteen sectors of 2,046 entries, the oldest sector erased when the ring is full (R347). -/
def pushEntry (j : List JEntry) (e : JEntry) : List JEntry := (if j.length < 16 * 2046 then j else j.drop 2046) ++ [e]

/-- A journal entry is written into both devices, and submitted to the Chronicle unless it is a SUBJECT (R347, R351). A record holds 7 payload
bytes, so the last of the eight bytes 16–23 finds no place in it. -/
def State.journalWrite (s : State) (step event subject : Nat) (detail : W32) : State :=
  let e : JEntry := {
    bootNo := BitVec.ofNat 32 s.bootNo, step := step, event := event, level := s.stepLevel step,
    kind := s.fld (bootUnit s.pkg 0) F.BOOT_STATUS_RESET_KIND, ft := s.time.ft, qual := s.quality, subject := subject, detail := detail,
    seconds := (s.chDev s.chActive).seconds }
  let s := ((s.updFlash (fun f => { f with journal := pushEntry f.journal e })).emit (.bootFlash 0 e.bytes)).emit (.bootFlash 1 e.bytes)
  if event = 1 then s
  else s.chSubmit { s.chOwn (0x0200 + 0x10 * step + event) (journalSeverity event) ((e.bytes.drop 16).take 7) with source := bootUnit s.pkg s.bootSide }

/-- The boot state is written into the next slot of both devices (R348). -/
def State.writeBlock (s : State) (f : BootBlock → BootBlock) : State :=
  let old := s.bootBlock.getD {}
  let b := { f old with generation := old.generation + 1 }
  let bytes := b.bytes s.pkg
  ((s.updFlash (fun x => { x with block := some b, slot := (x.slot + 1) % 32 })).emit (.bootFlash 0 bytes)).emit (.bootFlash 1 bytes)

/-! ## What the journal says (R349) -/

/-- Whether a boot wrote an event for a step. -/
def wrote (j : List JEntry) (boot step event : Nat) : Bool := j.any (fun e => e.bootNo.toNat == boot && e.step == step && e.event == event)

/-- The run of numbers from n downward that a check holds for. -/
def countBack (ok : Nat → Bool) : Nat → Nat
  | 0 => 0
  | n + 1 => if ok (n + 1) then countBack ok n + 1 else 0

/-- u(s): the consecutive most recent boots, of those before a boot, in which a step was started and neither finished nor skipped, back to the last
CLEAR_LEVELS and to the last rise of the step's level (R349). -/
def unfinished (j : List JEntry) (before_ clearedAt step : Nat) : Nat :=
  let risen := (j.filter (fun e => e.step == step && e.event == 4 && decide (e.bootNo.toNat < before_))).foldl (fun m e => max m e.bootNo.toNat) 0
  countBack (fun b => wrote j b step 0 && !wrote j b step 2 && !wrote j b step 6 && decide (clearedAt < b) && decide (risen ≤ b)) (before_ - 1)

/-- u(s) of the boots before this one. -/
def State.unfinishedOf (s : State) (step : Nat) : Nat := unfinished s.bootJournal s.bootNo (s.bootBlock.getD {}).clearedAt.toNat step

/-- The subject of the last SUBJECT entry that the last earlier boot to start a step wrote for it (R350). -/
def State.lastSubject (s : State) (step : Nat) : Option Nat :=
  let j := s.bootJournal.filter (fun e => e.step == step && decide (e.bootNo.toNat < s.bootNo))
  let b := (j.filter (fun e => e.event == 0)).foldl (fun m e => max m e.bootNo.toNat) 0
  ((j.filter (fun e => e.bootNo.toNat == b && e.event == 1)).getLast?).map (·.subject)

/-- Whether a subject is a unit of an I/O die that no level disables: a die. -/
def ioDieSubject (p : Package) (u : Nat) : Bool := unitClass u == 0 && !dieCompute p (unitDie u)

/-! ## Disabling units (R344, R350) -/

/-- A compute die that the boot state disables is off: its islands are stopped and hold nothing, its crossings are idle at both ends, and it reads
FUSED_OFF (R38, R344). -/
def State.dieOffBoot (s : State) (d : Nat) : State := (((s.eraseDie d).setDieState d 4).updIslands d (fun _ => {})).idleFacing d

/-- The units that the boot state disables take effect (R344). -/
def State.applyDis (s : State) (dis : List Nat) : State :=
  let s := { s with bootDis := dis }
  (List.range 16).foldl (fun s d =>
    if !dieCompute s.pkg d || dieFused s.pkg d then s
    else if s.dieDisabled d then s.dieOffBoot d
    else if s.dieState d = 4 then s.setDieState d 0 else s) s

/-- A unit is disabled by a step: recorded in the boot state and written as a DISABLED entry; from B1 on it is applied at once (R350). -/
def State.disableUnit (s : State) (step u : Nat) (now : Bool) : State :=
  if ioDieSubject s.pkg u then s
  else
    let s := (s.journalWrite step 5 u 0).writeBlock (fun b => { b with lastReady := false, dis := if b.dis.contains u then b.dis else b.dis ++ [u] })
    if now then s.applyDis (s.bootBlock.getD {}).dis else s

/-- The crossings of the package, each by its lower end. -/
def State.crossings (s : State) : List Nat :=
  (List.range 640).filter (fun key => s.dlAllowed key && match dlPeerKey s.pkg key with
    | some k => decide (key < k)
    | none => false)

/-- The ends of a crossing. -/
def crossingEnds (p : Package) (key : Nat) : List Nat := match dlPeerKey p key with
  | some k => [key, k]
  | none => [key]

/-- The enabled memory stations, of dies that are ON. -/
def State.memoryStations (s : State) : List Nat := (allStations s.pkg).filter (fun st =>
  match stationKind s.pkg st with
  | some .hbm => !s.stationAbsent st && s.dieLive (st / 2048)
  | some .lpddr => !s.stationAbsent st
  | some .cxl => !s.stationAbsent st
  | _ => false)

/-- The enabled ports. -/
def State.enabledPorts (s : State) : List Nat := (List.range (portCount s.pkg)).filter s.portEnabled

/-- The subjects of a step, in the order it works on them (R347). -/
def State.subjects (s : State) (step : Nat) : List Nat :=
  if step = 3 then s.liveDies.map globalUnit ++ s.crossings.map (fun k => dlinkUnit (k / 32) (k % 32))
  else if step = 4 then s.memoryStations.map niUnit
  else if step = 5 then s.enabledPorts.map (portUnit s.pkg) else []

/-! ## Outcomes of a step (R340, R342, R350) -/

/-- The package stops in FAILED; a FAILED entry's DETAIL is the step's cause, to which no table gives a code (log 2). -/
def State.bootFail (s : State) (step : Nat) : State :=
  let (v, s) := s.takeFree
  let s := (s.journalWrite step 7 0 (v.extractLsb' 0 32)).setBoot F.BOOT_STATUS_STATE 4
  let s := if step = 0 then s.setMb F.MBX_CTRL_EN 1 else s
  (((s.updBoot (fun b => { b with started := false })).bootEvent F.BOOT_EVENT_STEP_FAILED)).mbxRecord 7 step []

/-- The package waits for an image at the end of a step, or at B6 (R341). -/
def State.waitImage (s : State) (step : Nat) : State :=
  ((((s.setBoot F.BOOT_STATUS_STATE 2).setBoot F.BOOT_STATUS_STEP step).journalWrite step 8 0 0).bootEvent F.BOOT_EVENT_WAIT_IMAGE).mbxRecord 6 step []

/-- The bytes over which SETTINGS_CRC runs (R345). -/
def State.settingsBytes (s : State) : List Byte :=
  (List.range (portCount s.pkg)).flatMap s.savedBytes ++
    ((List.range 640).filter (fun k => unitKind s.pkg (dlinkUnit (k / 32) (k % 32)) == some .dlink)).flatMap (fun k => leBytes 1 (s.dl k F.DLINK_STATUS_QUAL))

/-- READY (R342, R348, R362). -/
def State.bootReady (s : State) : State :=
  let s := s.setBoot F.BOOT_STATUS_STATE 3
  let less := !s.bootDis.isEmpty || (List.range (portCount s.pkg)).any (fun q => !portFused s.pkg q && !s.portEnabled q)
  let s := if less then s.setBoot F.BOOT_STATUS_REDUCED 1 else s
  let crc := crc32c s.settingsBytes
  let s := (s.journalWrite 7 9 0 0).writeBlock (fun b => { b with lastReady := true, fuseHash := s.pkg.hash, settingsCrc := crc })
  (s.bootEvent F.BOOT_EVENT_READY).mbxRecord 1 s.bootNo []

/-- The sequence goes to a step that is to start. -/
def State.goStep (s : State) (step : Nat) : State :=
  ((s.setBoot F.BOOT_STATUS_STATE (if step = 0 then 0 else 1)).setBoot F.BOOT_STATUS_STEP step).updBoot (fun b => { b with started := false })

/-- What follows a step that is finished or skipped (R339, R341, R342): the next step, WAIT_IMAGE after B4 with no image, or READY. -/
def State.afterStep (s : State) (step : Nat) : State :=
  let s := s.updBoot (fun b => { b with started := false })
  if step = 7 then s.bootReady
  else if step = 4 && s.staging.isNone then s.waitImage 4
  else s.goStep (step + 1)

/-- The earliest step of B2–B5, up to a step, whose image fields would change (R341). -/
def State.changedStep (s : State) (img : Image) (upTo : Nat) : Option Nat :=
  [2, 3, 4, 5].find? (fun k => decide (k ≤ upTo) && (s.stepFields img k).regs != s.regs)

/-- An image that is staged ends WAIT_IMAGE: B1 goes on, or the sequence goes on from the earliest step whose fields change (R341). -/
def State.imageStaged (s : State) (img : Image) : State :=
  if s.bootState ≠ 2 then s
  else
    let k := s.bootStep
    if k = 1 then s.setBoot F.BOOT_STATUS_STATE 1
    else match s.changedStep img k with
      | some j => s.goStep j
      | none => s.goStep (if k = 4 then 5 else k)

/-! ## The work of the steps (Table 15-1) -/

/-- A side's firmware in a slot verifies (Table 15-1). -/
def State.firmwareOk (s : State) (side slot : Nat) : Bool :=
  let f := s.bootFlash side
  Config.firmwareValid s.pkg.keyHash (if slot = 0 then f.fw0 else f.fw1)

/-- The firmware slot in use: the boot state's, or at level 1 of B0 the other (Table 15-5). -/
def State.fwSlot (s : State) : Nat :=
  let n := (s.bootBlock.getD {}).fwSlot
  if s.stepLevel 0 = 1 then 1 - n else n

/-- QUALIFIED cleared and the CRC recomputed in a port's record (R345). -/
def State.unqualify (s : State) (q : Nat) : State :=
  let b := s.savedBytes q
  s.setSaved q (b.take 6 ++ [BitVec.ofNat 8 (leAt b 6 1 / 2 * 2)] ++ b.drop 7)

/-- Every crossing's QUAL cleared. -/
def State.clearQuals (s : State) : State :=
  ((List.range 640).filter (fun k => unitKind s.pkg (dlinkUnit (k / 32) (k % 32)) == some .dlink)).foldl (fun s k =>
    if s.dl k F.DLINK_STATUS_QUAL = 0 then s else s.setDl k F.DLINK_STATUS_QUAL 0) s

/-- Whether the warm fast path is taken (R345). -/
def State.fastPath (s : State) : Bool := match s.bootBlock with
  | none => false
  | some b =>
    s.bootFld F.BOOT_CTRL_FAST_EN == 1 && b.lastReady && wrote s.bootJournal (s.bootNo - 1) 7 9 && b.levels == 0 && b.fuseHash == s.pkg.hash &&
      b.settingsCrc == crc32c s.settingsBytes

/-- The fast path after a warm reset, or the loss of what would be inherited (R345). -/
def State.warmPath (s : State) : State :=
  if s.fld (bootUnit s.pkg 0) F.BOOT_STATUS_RESET_KIND = 0 then s
  else if s.fastPath then s.setBoot F.BOOT_STATUS_FAST 1
  else ((List.range (portCount s.pkg)).foldl State.unqualify s).clearQuals

/-- A step that has gone unfinished in two boots rises one level; the rise to level 2 disables its last subject (R349, R350). -/
def State.escalate (s : State) (step : Nat) : State :=
  let l := s.stepLevel step
  if s.unfinishedOf step < 2 ∨ topLevel step ≤ l then s
  else
    let subject := s.lastSubject step
    let s := s.setBoot F.BOOT_LEVELS_LEVELS (s.fld (bootUnit s.pkg 0) F.BOOT_LEVELS_LEVELS + 4 ^ step)
    let levels := s.fld (bootUnit s.pkg 0) F.BOOT_LEVELS_LEVELS
    let s := ((s.journalWrite step 4 0 (BitVec.ofNat 32 (l + 1))).writeBlock (fun b => { b with levels := levels, lastReady := false })).bootEvent
      F.BOOT_EVENT_ALTERNATE
    match l, subject with
    | 1, some u => s.disableUnit step u false
    | _, _ => s

/-- What B0 reads before it starts: BOOT_NO, the levels, and their rises (R348, R349). -/
def State.bootRead (s : State) : State :=
  let s := s.setBoot F.BOOT_NO_COUNT (lastBoot s.bootJournal + 1)
  let s := s.setBoot F.BOOT_LEVELS_LEVELS (s.bootBlock.getD {}).levels
  (List.range 8).foldl State.escalate s

/-- B0: the fast path is judged, the firmware is verified on both cores, and the preferred core requests the lease (R345, R352). -/
def State.workB0 (s : State) : State :=
  let s := s.warmPath
  let up := [0, 1].filter (fun side => s.firmwareOk side s.fwSlot)
  let s := s.updBoot (fun b => { b with fwUp := up })
  if up.contains s.prefCore then s.emit (.leaseRequest s.prefCore) else s

/-- B1: the boot-disabled units are applied, the FM takes mailbox commands and answers what was left, and the stored image is staged
(R341, R343, R364). -/
def State.workB1 (s : State) : State :=
  let s := ((s.applyDis (s.bootBlock.getD {}).dis).setMb F.MBX_CTRL_EN 1).mbxAbort
  if s.bootFld F.BOOT_CTRL_IMAGE_SRC = 0 then s
  else match s.parseImage (s.bootFlash s.bootSide).stored false with
    | .ok img => { s with staging := some img }
    | .error _ => s

/-- B2: after a cold reset FT counts from TIME_EPOCH_SET while FREE; a warm reset keeps it (R61, Table 03-9). A GM_FREE package leaves FREE, and every
island of a die that is ON locks at 2,000 MHz, has its lattice delay measured, which the hardware gives and no rule, and loads FT (R64, R68, R74). -/
def State.workB2 (s : State) : State :=
  let s := if s.time.state = 0 then
      let s := if s.fld (bootUnit s.pkg 0) F.BOOT_STATUS_RESET_KIND = 0 then
          (s.updTime (fun t => { t with ft := s.pair (timeUnit s.pkg) R.TIME_EPOCH_SET, frac := 0 })).ftLoaded
        else s
      if s.role = 1 then s.leaveFree else s
    else s
  s.liveDies.foldl (fun s d => (List.range 64).foldl (fun s i =>
    if islExists s.pkg d i then
      (s.setIsland d i { s.island d i with running := true, locked := true, freq := 80, delay := (Config.latticeDelay (islKey d i)).toNat }).loadIsland d i
    else s) s) s

/-- B3: every enabled crossing trains; a level keeps it from inheriting its qualification (R270, Table 15-5). -/
def State.workB3 (s : State) (level : Nat) : State :=
  let s := if level = 0 then s else s.clearQuals
  (s.crossings.flatMap (crossingEnds s.pkg)).foldl (fun s k => if s.dieLive (k / 32) then (s.dlEnable k).noteCtl (dlinkUnit (k / 32) (k % 32)) else s) s

/-- RX_EN set at stations of some kinds, as the enable map allows (R344). -/
def State.openNis (s : State) (kinds : List StationKind) (cmd : Bool) : State :=
  ((allStations s.pkg).filter (fun st => match stationKind s.pkg st with
    | some k => kinds.contains k && !s.stationAbsent st && s.dieLive (st / 2048)
    | none => false)).foldl (fun s st =>
      let s := s.setFld (niUnit st) F.NI_CTRL_RX_EN 1
      (if cmd then s.setFld (niUnit st) F.NI_CTRL_CMD_EN 1 else s).noteCtl (niUnit st)) s

/-- The pool instances of the dies that have one accept requests (R169, R344). -/
def State.openPools (s : State) : State :=
  (s.liveDies.filter (fun d => unitKind s.pkg (poolUnit d) == some .pool && s.poolPresent d)).foldl (fun s d =>
    (s.setFld (poolUnit d) F.POOL_CTRL_EN 1).noteCtl (poolUnit d)) s

/-- B4: memory stations are probed; the memory, management and host NIs, the pools and the Diary open; the tables are written (Table 15-1, Table 16-10). -/
def State.workB4 (s : State) : State :=
  let s := s.memoryStations.foldl (fun s st => s.emit (.memProbe st)) s
  let s := ((s.openNis [.hbm, .lpddr, .cxl, .mgmt, .host] false).openPools).setFld (diaryUnit s.pkg) F.TRACE_DIARY_CTRL_EN 1
  match s.staging with
  | some img => s.writeTables img
  | none => s

/-- B5: every enabled port trains; a level forces USE_SAVED to 0; the port NIs open (Table 15-1, Table 15-5). -/
def State.workB5 (s : State) (level : Nat) : State :=
  let s := s.enabledPorts.foldl (fun s q =>
    ((if level = 0 then s else s.setPt q F.PORT_CTRL_USE_SAVED 0).portEnable q).noteCtl (portUnit s.pkg q)) s
  s.openNis [.port] false

/-- At a commit stream sequences restart (R49), and the policer sets are loaded with full buckets (R166). -/
def State.restartStreams (s : State) : State :=
  { s with ni := (s.ni.map (fun e => (e.1, { e.2 with seqNext := [], rx := [], spent := [] }))).filter (fun e => e.2 != {}) }

/-- The commit of an image (R17, R99, R341): every image field, the tables, the lock of the RWL fields, and the base almanac in the other bank, armed for
the first Kalends that may take it. ALM_EVENT.LOAD_DONE is set by a LOAD command alone (DESIGN CHOICE, log 72). -/
def State.commit (s : State) (img : Image) : State :=
  let img := img.marked s.pkg
  let s := (s.allFields img false).writeTables img
  let s := ({ s with image := some img, staging := none, committed := true }).restartStreams
  let s := (s.updAlm (fun a => { a with loading := none, byPower := false, cool := none })).setOther (bankOf img.recs 0)
  s.updAlm (fun a => { a with other := .armed, target := BitVec.ofNat 64 s.firstTarget })

/-- An image that the validator rejects at B6 is dropped and reported, and the package waits for another (R341, R362, R368). -/
def State.rejectB6 (s : State) (f : ImgFail) : State :=
  (({ s with staging := none }).mbxRecord 3 f.code f.result).waitImage 6

/-- The image that B6 commits: the staged one, or at level 1 the stored one until it has been rejected (Table 15-5). -/
def State.imageB6 (s : State) (level : Nat) : Except ImgFail Image :=
  if level = 1 && !s.boot.asked then s.parseImage (s.bootFlash s.bootSide).stored false
  else match s.staging with
    | some img => .ok img
    | none => .error { code := 0x0101 }

/-- B6: the staged image is validated and committed; level 2 first waits for one from the host (R341, R367, Table 15-5). -/
def State.workB6 (s : State) (level : Nat) : State :=
  if level = 2 && !s.boot.asked then (({ s with staging := none }).updBoot (fun b => { b with asked := true, started := false })).waitImage 6
  else match s.imageB6 level with
    | .error f => (s.rejectB6 f).updBoot (fun b => { b with asked := true, started := false })
    | .ok img =>
      match s.validate img false with
      | some f => (s.rejectB6 f).updBoot (fun b => { b with asked := true, started := false })
      | none => s.commit img

/-- B7: with the Equinox taken, every enabled engine and NI is released (Table 15-1). -/
def State.workB7 (s : State) : State :=
  let s := ((allStations s.pkg).filter (fun st => isEngine s.pkg st && !s.stationAbsent st && s.dieLive (st / 2048))).foldl (fun s st =>
    (s.setFld (reduceUnit st) F.REDUCE_CTRL_EN 1).noteCtl (reduceUnit st)) s
  (s.openNis [.compute] true).openNis [.engine] false

/-- A step's work at its level. -/
def State.stepWork (s : State) (step level : Nat) : State :=
  match step with
  | 0 => s.workB0
  | 1 => s.workB1
  | 2 => s.workB2
  | 3 => s.workB3 level
  | 4 => s.workB4
  | 5 => s.workB5 level
  | 6 => s.workB6 level
  | _ => s

/-! ## BOOT_STEP_START -/

/-- Whether a step at its level ends in FAILED (Table 15-5, R349): B0 and B7 at level 2, B3 at level 2 where the subject is an I/O die, and B1 and B2
once two boots have not finished them at level 2. -/
def State.stepFails (s : State) (step level : Nat) : Bool :=
  level == 2 &&
    (step == 0 || step == 7 || ((step == 1 || step == 2) && decide (2 ≤ s.unfinishedOf step)) ||
     (step == 3 && match s.lastSubject 3 with
      | some u => ioDieSubject s.pkg u
      | none => false))

/-- A step at level 3 is skipped: each of its subjects is disabled (R350). -/
def State.stepSkip (s : State) (step : Nat) : State :=
  let us := s.subjects step
  (us.foldl (fun s u => s.disableUnit step u true) (s.journalWrite step 6 0 0)).afterStep step

/-- A step starts (R339, R341, R350): STARTED is written, then it is skipped, fails, or writes its image fields and begins its work. -/
def State.stepStart (s : State) (step : Nat) : State :=
  let s := if step = 0 then s.bootRead else s
  let level := s.stepLevel step
  let s := (s.setBoot F.BOOT_STATUS_LEVEL level).journalWrite step 0 0 0
  if level = 3 then s.stepSkip step
  else if s.stepFails step level then s.bootFail step
  else
    let s := match s.staging with
      | some img => if 2 ≤ step ∧ step ≤ 5 then s.stepFields img step else s
      | none => s
    let s := (s.subjects step).foldl (fun s u => s.journalWrite step 1 u 0) s
    (s.updBoot (fun b => { b with started := true })).stepWork step level

/-- Whether the sequencer may start its step: it is B0 or RUNNING, the step has not started, and from B1 on a core holds the lease (R339). -/
def State.mayStart (s : State) : Bool :=
  !s.boot.started && ((s.bootState == 0 && s.bootStep == 0) || (s.bootState == 1 && s.holder.isSome)) && !s.hol.active

/-- BOOT_STEP_START (R339, R341, R345, R347–R350). -/
def execBootStepStart (s : State) : Res := done s (if s.mayStart then s.stepStart s.bootStep else s)

/-! ## BOOT_STEP_FINISH -/

/-- The islands of the dies that are ON. -/
def State.liveIslands (s : State) : List (Nat × Nat) :=
  s.liveDies.flatMap (fun d => ((List.range 64).filter (fun i => islExists s.pkg d i)).map (fun i => (d, i)))

/-- Whether a step's finish condition holds, as far as the state shows it (Table 15-1): fuse CRCs, BIST and the memory stations' answers are the
event's own (log 46). -/
def State.finishHolds (s : State) (step : Nat) : Bool :=
  match step with
  | 0 => s.boot.fwUp.contains 0 && s.boot.fwUp.contains 1 && s.holder.isSome && s.chron.d0.mounted && s.chron.d1.mounted
  | 2 => s.liveIslands.all (fun x => (s.island x.1 x.2).running && (s.island x.1 x.2).ftValid)
  | 3 => (s.crossings.flatMap (crossingEnds s.pkg)).all (fun k => !s.dieLive (k / 32) || s.dl k F.DLINK_STATUS_QUAL == 2)
  | 5 => s.enabledPorts.all (fun q => s.pt q F.PORT_STATUS_QUAL == 2) && s.time.state != 0
  | 6 => s.image.isSome && s.committed
  | 7 => s.alm.other != .armed && s.image.isSome
  | _ => true

/-- A step is finished (R339): FINISHED, and what follows. -/
def State.stepDone (s : State) (step : Nat) : State := (s.journalWrite step 2 0 0).afterStep step

/-- A step finishes; B1 with no stored image waits for one instead (R341). -/
def State.stepFinish (s : State) (step : Nat) : State :=
  if step = 1 && s.bootFld F.BOOT_CTRL_IMAGE_SRC == 1 && s.staging.isNone && !s.boot.noImage then s.waitImage 1
  else if s.finishHolds step then (if step = 7 then s.workB7 else s).stepDone step
  else s

/-- BOOT_STEP_FINISH (R339, R341, R342). -/
def execBootStepFinish (s : State) : Res :=
  done s (if s.boot.started && decide (s.bootState < 2) && !s.hol.active then s.stepFinish s.bootStep else s)

/-! ## Timeout, deadline and commands (R340, R341, R349) -/

/-- A step's timeout in ms (Table 15-1); B5 has none. -/
def State.stepTimeout (s : State) (step : Nat) : Option Nat :=
  match step with
  | 0 => some 3000
  | 1 => some (if s.bootFld F.BOOT_CTRL_IMAGE_SRC = 1 then 1000 else 10)
  | 2 => some 20
  | 3 => some 500
  | 4 => some 3000
  | 5 => none
  | 6 => some 20000
  | _ => some 100

/-- A step's timeout expires: TIMEOUT is written, then a warm reset or FAILED (R340). -/
def State.bootTimeout (s : State) : State := match s.stepTimeout s.bootStep with
  | none => s
  | some ms =>
    let s := s.journalWrite s.bootStep 3 0 (BitVec.ofNat 32 ms)
    if s.bootFld F.BOOT_CTRL_AUTO_WARM = 1 then s.warmReset 3 else s.bootFail s.bootStep

/-- BOOT_STEP_TIMEOUT (R340): frozen in WAIT_IMAGE and during Holiday. -/
def execBootStepTimeout (s : State) : Res :=
  done s (if s.boot.started && decide (s.bootState < 2) && !s.hol.active then s.bootTimeout else s)

/-- Whether B5 is under way. -/
def State.inB5 (s : State) : Bool := s.boot.started && s.bootState == 1 && s.bootStep == 5

/-- BOOT_DEADLINE_EXPIRY (R340): BOOT_DEADLINE seconds have passed in B5, which goes on. -/
def execBootDeadlineExpiry (s : State) : Res :=
  done s
    (if s.inB5 && s.bootFld F.BOOT_DEADLINE_S != 0 && !s.hol.active then (s.journalWrite 5 10 0 0).bootEvent F.BOOT_EVENT_LATE else s)

/-- A BOOT_CMD refused (Table 15-8). -/
def State.bootReject (s : State) : State := s.bootEvent F.BOOT_EVENT_CMD_REJECT

/-- CONTINUE_NO_IMAGE (R341): in WAIT_IMAGE at the end of B1 the sequence goes on without an image. -/
def State.bootContinue (s : State) (side : Nat) : State :=
  if !s.bootActs side then s
  else if s.bootState = 2 ∧ s.bootStep = 1 then (s.updBoot (fun b => { b with noImage := true })).setBoot F.BOOT_STATUS_STATE 1
  else s.bootReject

/-- BOOT_CONTINUE_NO_IMAGE (R341). -/
def execBootContinueNoImage (side : Nat) (s : State) : Res := onUnit (decide (side < 2)) s (s.bootContinue side)

/-- PROCEED (R340): the enabled ports that have not passed are turned off, B5 is finished, and the package is REDUCED. -/
def State.bootProceed (s : State) (side : Nat) : State :=
  if !s.bootActs side then s
  else if s.inB5 then
    let s := (s.enabledPorts.filter (fun q => s.pt q F.PORT_STATUS_QUAL != 2 && s.pt q F.PORT_CTRL_EN == 1)).foldl (fun s q =>
      (s.portDisable q).noteCtl (portUnit s.pkg q)) s
    (s.setBoot F.BOOT_STATUS_REDUCED 1).stepDone 5
  else s.bootReject

/-- BOOT_PROCEED (R340). -/
def execBootProceed (side : Nat) (s : State) : Res := onUnit (decide (side < 2)) s (s.bootProceed side)

/-- CLEAR_LEVELS (R349): the levels of the next boot are zero, and its counts run back to here. -/
def State.clearLevels (s : State) (side : Nat) : State :=
  if s.bootActs side then s.writeBlock (fun b => { b with levels := 0, clearedAt := BitVec.ofNat 32 s.bootNo }) else s

/-- BOOT_CLEAR_LEVELS (R349). -/
def execBootClearLevels (side : Nat) (s : State) : Res := onUnit (decide (side < 2)) s (s.clearLevels side)

/-- CLEAR_DISABLES (R349): the next boot disables nothing. -/
def State.clearDisables (s : State) (side : Nat) : State :=
  if s.bootActs side then s.writeBlock (fun b => { b with dis := [] }) else s

/-- BOOT_CLEAR_DISABLES (R349). -/
def execBootClearDisables (side : Nat) (s : State) : Res := onUnit (decide (side < 2)) s (s.clearDisables side)

end Sys2Proof.Machine
end

