-- ==== Sys2Proof/Machine/Lease.lean ====
section
/-! DEFINITION. The management pair (R352–R356): voters and grants, heartbeats, the loss of the lease, takeover, and the mirror. -/
namespace Sys2Proof.Machine

/-- The pair's state changed. -/
def State.updLease (s : State) (f : Lease → Lease) : State := { s with lease := f s.lease }

/-- Voters of the package (R352). -/
def voterCount (p : Package) : Nat := if p.isS then 3 else 4

/-- The votes a majority needs (R352). -/
def majority (p : Package) : Nat := if p.isS then 2 else 3

/-- The lease's length in quanta (BOOT_HB_CFG.LEASE_US of the governing unit). -/
def State.leaseQuanta (s : State) : Nat := 4000 * s.bootFld F.BOOT_HB_CFG_LEASE_US

/-- When a grant or renewal made now expires. -/
def State.leaseEnd (s : State) : FT := s.time.ft + BitVec.ofNat 64 s.leaseQuanta

/-- The voters whose grants a core holds. -/
def Lease.held (l : Lease) (core : Nat) : List Nat := (l.votes.filter (fun e => e.2.1 == core)).map (·.1)

/-- Whether a core holds a majority (R352). -/
def State.hasMajority (s : State) (core : Nat) : Bool := decide (majority s.pkg ≤ (s.lease.held core).length)

/-- A voter grants its vote to a core. -/
def State.grantVote (s : State) (voter core : Nat) : State :=
  let e := s.leaseEnd
  let now := s.time.ft
  s.updLease (fun l => { l with votes := kins l.votes voter (core, e), fresh := kins l.fresh voter now })

/-- A request reaches a voter (R352, R356): granted where it holds no grant; of two requests in one cycle the preferred core's wins. -/
def State.leaseRequest (s : State) (voter core : Nat) : State :=
  match kfind s.lease.votes voter with
  | none => s.grantVote voter core
  | some (c, _) => if c != core && core == s.prefCore && kfind s.lease.fresh voter == some s.time.ft then s.grantVote voter core else s

/-- LEASE_REQUEST_RECEIVE (R352). -/
def execLeaseRequestReceive (voter core : Nat) (s : State) : Res :=
  onUnit (decide (voter < voterCount s.pkg) && decide (core < 2)) s (s.leaseRequest voter core)

/-- A grant expires; a holder left without its majority no longer holds the lease (R352, R353). -/
def State.grantExpires (s : State) (voter : Nat) : State :=
  let s := s.updLease (fun l => { l with votes := kdel l.votes voter, fresh := kdel l.fresh voter })
  match s.holder with
  | none => s
  | some c =>
    if s.hasMajority c then s
    else (({ s with holder := none }).updLease (fun l => { l with lapsed := some c })).setFld (bootUnit s.pkg c) F.BOOT_STATUS_ACTIVE 0

/-- LEASE_GRANT_EXPIRY (R352). -/
def execLeaseGrantExpiry (voter : Nat) (s : State) : Res :=
  onUnit (decide (voter < voterCount s.pkg)) s (if (kfind s.lease.votes voter).isSome then s.grantExpires voter else s)

/-- A record of the management pair (R351). -/
def State.pairRecord (s : State) (code sev side : Nat) : State := s.chSubmit { s.chOwn code sev [] with source := bootUnit s.pkg side }

/-- An active core that has lost its majority finds it out at a renewal (R353): reported, recorded, and the core is reset; it boots again as the
standby where its firmware verifies. -/
def State.leaseLost (s : State) (side : Nat) : State :=
  let s := (s.updLease (fun l => { l with lapsed := none, kick := kdel l.kick side, misses := kdel l.misses side })).faultEvent (bootUnit s.pkg side) 13 3
  let s := ((s.event (bootUnit s.pkg side) F.BOOT_EVENT_LEASE_LOST).pairRecord 0x0281 2 side).emit (.coreReset side)
  if s.firmwareOk side s.fwSlot then s else s.updBoot (fun b => { b with fwUp := b.fwUp.filter (· != side) })

/-- Whether a core's FM has kicked within the last 400 µs (R353). -/
def State.fmAlive (s : State) (side : Nat) : Bool := match kfind s.lease.kick side with
  | some t => decide (ftSince s.time.ft t ≤ 1600000)
  | none => false

/-- HB_MISS of the governing unit. -/
def State.hbLimit (s : State) : Nat := s.bootFld F.BOOT_HB_CFG_HB_MISS

/-- The standby counts a missed heartbeat; at HB_MISS in a row it reports a MGMT fault with DETAIL 2 and requests the lease (R353). -/
def State.heartbeatMiss (s : State) (side : Nat) : State :=
  if s.holder == some side then s
  else
    let n := kget 0 s.lease.misses side + 1
    let s := s.updLease (fun l => { l with misses := kput 0 l.misses side n })
    if n = s.hbLimit then (s.faultEvent (bootUnit s.pkg side) 13 2).emit (.leaseRequest side) else s

/-- HEARTBEAT_MISS (R353): a heartbeat does not arrive at a side. -/
def execHeartbeatMiss (side : Nat) (s : State) : Res := onUnit (decide (side < 2)) s (s.heartbeatMiss side)

/-- The renewal of the core that holds the lease. -/
def State.renew (s : State) (core : Nat) : State :=
  let e := s.leaseEnd
  s.updLease (fun l => { l with votes := l.votes.map (fun v => (v.1, if v.2.1 == core then (core, e) else v.2)),
                                fresh := l.fresh.filter (fun v => !(l.held core).contains v.1) })

/-- A heartbeat of a side (R353): sent with FM_ALIVE; the other side counts one without it as missed; the active core renews with it; a core that
lost its majority finds it out; a core that has missed its limit goes on requesting (R356). -/
def State.heartbeat (s : State) (side : Nat) : State :=
  let alive := s.fmAlive side
  let s := s.emit (.heartbeat side alive)
  let s := if alive then s.updLease (fun l => { l with misses := kdel l.misses (1 - side) }) else s.heartbeatMiss (1 - side)
  if s.lease.lapsed == some side then s.leaseLost side
  else if s.holder == some side then (if alive then s.renew side else s)
  else if s.hbLimit ≤ kget 0 s.lease.misses side then s.emit (.leaseRequest side) else s

/-- HEARTBEAT_TICK (R353). -/
def execHeartbeatTick (side : Nat) (s : State) : Res := onUnit (decide (side < 2)) s (s.heartbeat side)

/-- BOOT_HB_KICK (R353). -/
def execBootHbKick (side : Nat) (s : State) : Res :=
  let now := s.time.ft
  onUnit (decide (side < 2)) s (s.updLease (fun l => { l with kick := kins l.kick side now }))

/-- COLD_START_LEASE_REQUEST (R352): the core that is not preferred, its firmware authenticated, requests the lease while none holds it. -/
def execColdStartLeaseRequest (core : Nat) (s : State) : Res :=
  onUnit (decide (core < 2)) s
    (if core != s.prefCore && s.boot.fwUp.contains core && s.holder.isNone then s.emit (.leaseRequest core) else s)

/-! ## TAKEOVER (R355) -/

/-- The interrupts held without a lease whose bits are still set are delivered (R407). -/
def State.deliverHeld (s : State) : State :=
  s.irqHeld.foldl (fun s h => if (s.reg (h.1 / 4096) (h.1 % 4096)).getLsbD h.2 then s.emit (.irq h.1 h.2) else s) { s with irqHeld := [] }

/-- What the first election of a boot and a takeover share: the core is active under the next epoch, its die's TIME unit is the root (R63), and what
waited for a lease acts (R303, R352, R355, R407). -/
def State.becomeActive (s : State) (core : Nat) : State :=
  let old := s.pinSide
  let s := ({ s.timeTakeover core with holder := some core }).powerTakeover old
  let s := s.updLease (fun l =>
    { l with epoch := (l.epoch + 1) % 65536, misses := kdel l.misses core, lapsed := if s.holder.isSome && s.holder != some core then s.holder else l.lapsed })
  ((((s.setFld (bootUnit s.pkg core) F.BOOT_STATUS_ACTIVE 1).setFld (bootUnit s.pkg (1 - core)) F.BOOT_STATUS_ACTIVE 0).deliverHeld).fencesDue)

/-- A takeover (R355, R356): accesses under the old epoch are dropped, the units take the package roles, and a step of a bring-up in progress
restarts. -/
def State.takeOver (s : State) (core : Nat) : State :=
  let stale := s.fld (bootUnit s.pkg core) F.BOOT_STATUS_SYNCED = 0
  let s := { s.becomeActive core with tree := [], treeWait := [] }
  let s := (if stale then s.setFld (bootUnit s.pkg core) F.BOOT_STATUS_MIRROR_STALE 1 else s).setBoot F.BOOT_STATUS_SYNCED 0
  let s := (s.chTakeover core).catchUp.2
  let s := s.diaryTakeover
  let s := (s.pairRecord 0x0280 3 core).event (bootUnit s.pkg core) F.BOOT_EVENT_TAKEOVER
  let s := ((s.mbxEvent F.MBX_EVENT_TAKEOVER).mbxAbort.mbxFlush).mbxRecord 2 s.lease.epoch []
  if s.boot.started && s.bootState == 1 then s.updBoot (fun b => { b with started := false }) else s

/-- A core with a majority becomes active: elected where no core has held the lease since the reset, else by a takeover. -/
def State.takeLease (s : State) (core : Nat) : State :=
  if !s.hasMajority core || s.holder == some core then s
  else if s.lease.epoch = 0 then s.becomeActive core
  else s.takeOver core

/-- TAKEOVER (R352, R355). -/
def execTakeover (core : Nat) (s : State) : Res := onUnit (decide (core < 2)) s (s.takeLease core)

/-! ## The mirror (R354) -/

/-- BOOT_MIRROR_FENCE (R354): FENCE_PENDING until every earlier mirror write is in the standby's memory; how many KiB wait is the FM's matter (log 2). -/
def State.mirrorFence (s : State) (side : Nat) : State :=
  if s.holder != some side then s
  else
    let (v, s) := s.takeFree
    (s.setFld (bootUnit s.pkg side) F.BOOT_MIRROR_STATUS_FENCE_PENDING 1).setFld (bootUnit s.pkg side) F.BOOT_MIRROR_STATUS_BACKLOG_KIB (v.toNat % 65536)

/-- BOOT_MIRROR_FENCE (R354). -/
def execBootMirrorFence (side : Nat) (s : State) : Res := onUnit (decide (side < 2)) s (s.mirrorFence side)

/-- MIRROR_FENCE_DONE (R354). -/
def execMirrorFenceDone (s : State) : Res :=
  done s (match s.holder with
    | some side => (s.setFld (bootUnit s.pkg side) F.BOOT_MIRROR_STATUS_FENCE_PENDING 0).setFld (bootUnit s.pkg side) F.BOOT_MIRROR_STATUS_BACKLOG_KIB 0
    | none => s)

/-- STANDBY_SYNC_DONE (R354): the whole region has been copied. -/
def State.standbySynced (s : State) : State := match s.holder with
  | none => s
  | some side =>
    if s.fld (bootUnit s.pkg side) F.BOOT_STATUS_SYNCED = 1 then s
    else ((s.setBoot F.BOOT_STATUS_SYNCED 1).pairRecord 0x0283 0 side).event (bootUnit s.pkg side) F.BOOT_EVENT_STANDBY_SYNCED

/-- STANDBY_SYNC_DONE (R354). -/
def execStandbySyncDone (s : State) : Res := done s s.standbySynced

/-- STANDBY_LOST (R354): the active core no longer hears the standby. -/
def State.standbyLost (s : State) : State := match s.holder with
  | none => s
  | some side => ((s.setBoot F.BOOT_STATUS_SYNCED 0).pairRecord 0x0282 2 side).event (bootUnit s.pkg side) F.BOOT_EVENT_STANDBY_LOST

/-- STANDBY_LOST (R354). -/
def execStandbyLost (s : State) : Res := done s s.standbyLost

end Sys2Proof.Machine
end

