-- ==== Sys2Proof/Machine/RegView.lean ====
section
/-! DEFINITION. Reading registers over the management tree: which die answers an address, what a unit that holds no state of its own for a
register computes for it, and the read itself (R21, R82, R388–R398). -/
namespace Sys2Proof.Machine

/-! ## Who answers (R388–R398) -/

/-- Whether an assigned unit is powered (R344, R395): on a compute die that is disabled or not ON only the always-on domain is; a die without
HBM stations has no pool instance. -/
def State.unitPowered (s : State) (u : Nat) : Bool :=
  let d := unitDie u
  let c := unitClass u
  (!dieCompute s.pkg d || c == 0 || c == 9 || c == 13 || (!s.dieDisabled d && s.dieState d == 0)) && (c != 12 || s.poolPresent d)

/-- Whether an address is neither reserved, unassigned nor unpowered (R388, R395). -/
def State.addrOk (s : State) (addr : W32) : Bool :=
  addr.toNat % 4 == 0 && regPresent s.pkg (unitOf addr) (offOf addr) && s.unitPowered (unitOf addr)

/-- The die that answers an address: the root's for a die or class that is not there (R395). -/
def State.answerDie (s : State) (addr : W32) : Nat :=
  if dieExists s.pkg (unitDie (unitOf addr)) && decide (unitClass (unitOf addr) < 16) then unitDie (unitOf addr) else s.rootDie

/-- An access that an address completes RESERVED: event and count on the die that answered (R395). -/
def State.reservedAccess (s : State) (addr : W32) : State :=
  let g := globalUnit (s.answerDie addr)
  (s.event g F.GLOBAL_TREE_EVENT_RESERVED_ACCESS).count g R.GLOBAL_TREE_RESERVED 1

/-- The accesses in flight through a die's hub (Table 18-6): all of them at the root. -/
def State.inFlight (s : State) (d : Nat) : Nat :=
  ((s.tree.filter (fun a => !a.lost && (d == s.rootDie || unitDie (unitOf a.addr) == d))).length)

/-! ## What the block computes for a register -/

/-- A field's bits set in a word. -/
def put (f : Fld) (v : Nat) (w : W32) : W32 := setBits w f.hi f.lo v

/-- A 64-bit value's half that an offset of a pair names. -/
def halfOf (v : FT) (hi : Bool) : W32 := if hi then v.extractLsb' 32 32 else v.extractLsb' 0 32

/-- A signed value held in 32 bits, saturating. -/
def sat32 (v : Int) : W32 := BitVec.ofInt 32 (max (-(2 ^ 31)) (min (2 ^ 31 - 1) v))

/-- A word of the window table that the NI checks against (R46, R95): the WINDOWS record of the bank in force where it has one, else the
NI_WIN registers. -/
def State.windowWord (s : State) (u off : Nat) (w : W32) : W32 :=
  match recFor s.bankIn.recs 0x0102 u with
  | some r => BitVec.ofNat 32 (leAt r.payload (24 * ((off - R.NI_WIN_BASE) / 32) + (off - R.NI_WIN_BASE) % 32) 4)
  | none => w

/-- An NI's registers. -/
def State.niView (s : State) (u off : Nat) (w : W32) : W32 :=
  let n := s.getNi (niStation u)
  if off = R.NI_STATUS then
    put F.NI_STATUS_CPL_LEVEL n.cpl.length (put F.NI_STATUS_CMD_STALLED
      (bitNat (decide (64 ≤ n.cpl.length) || (n.freeTxn.isNone && !n.cmdWait.isEmpty) || !n.collWait.isEmpty)) w)
  else if off = R.NI_SHAPE_STATUS then
    put F.NI_SHAPE_STATUS_YELLOW_LEVEL n.yellow.length (put F.NI_SHAPE_STATUS_YELLOW_FULL (bitNat (decide (64 ≤ n.yellow.length))) w)
  else if off = R.NI_FAULT_STATUS then
    put F.NI_FAULT_STATUS_WR_OUT (bitNat (!n.wr.isEmpty)) (put F.NI_FAULT_STATUS_TXN_OUT n.txn.length
      (put F.NI_FAULT_STATUS_TXN_RETIRED n.retired.length
        (put F.NI_FAULT_STATUS_GRANTS (min 511 (n.grants.filter (fun g => g.2.granted)).length) w)))
  else if R.NI_WIN_BASE ≤ off ∧ off < R.NI_WIN_BASE + 64 * 32 then s.windowWord u off w
  else w

/-- A POOL instance's registers. -/
def State.poolView (s : State) (u off : Nat) (w : W32) : W32 :=
  let d := unitDie u
  let key := s.fld u F.POOL_PART_SEL_PKEY
  if off = R.POOL_STATUS then put F.POOL_STATUS_QUEUED (s.getPool d).queue.length (put F.POOL_STATUS_FREE (s.poolFree d) w)
  else if off = R.POOL_PART_USE then put F.POOL_PART_USE_CEILING (s.ceiling u key) (put F.POOL_PART_USE_IN_USE ((s.getPool d).held key) w)
  else w

/-- A PORT's registers. A port that the effective enable map disables reads DOWN with cause DISABLED (R259, R344). -/
def State.portView (s : State) (u off : Nat) (w : W32) : W32 :=
  let h := (s.getPort (portOfUnit s.pkg u)).held
  if off = R.PORT_STATUS then (if s.portEnabled (portOfUnit s.pkg u) then w else put F.PORT_STATUS_DOWN_CAUSE 2 w)
  else if off = R.PORT_REPLAY_STATUS then
    put F.PORT_REPLAY_STATUS_FRAMES h.length (put F.PORT_REPLAY_STATUS_UNITS ((h.map (·.units)).foldl (· + ·) 0) w)
  else w

/-- A REDUCE unit's registers. -/
def State.reduceView (s : State) (u off : Nat) (w : W32) : W32 :=
  let st := niStation u
  let e := s.getEng st
  let l := (kfind e.late (s.fld u F.REDUCE_LATE_SEL_GROUP)).getD (0, 0, 0)
  if off = R.REDUCE_STATUS then put F.REDUCE_STATUS_RSV_USED e.rsvUsed (put F.REDUCE_STATUS_STAGE_FREE (s.stageFree st) w)
  else if off = R.REDUCE_PROMO_STATUS then put F.REDUCE_PROMO_STATUS_HWM e.hwm (put F.REDUCE_PROMO_STATUS_IN_USE e.slots w)
  else if off = R.REDUCE_LATE_MEMBER then put F.REDUCE_LATE_MEMBER_MEMBER l.1 w
  else if off = R.REDUCE_LATE_SLOTS then put F.REDUCE_LATE_SLOTS_SLOTS (min (2 ^ 24 - 1) l.2.1) w
  else if off = R.REDUCE_LATE_STEP then l.2.2
  else w

/-- The TIME unit's registers (chapter 03); side is the side of the unit that is read. -/
def State.timeView (s : State) (side off : Nat) (w : W32) : W32 :=
  let t := s.time
  let pair (base : Nat) (v : FT) (w : W32) : W32 := if off = base then halfOf v false else if off = base + 4 then halfOf v true else w
  if off = R.TIME_STATUS then
    put F.TIME_STATUS_NBR_PORT t.nbrPort (put F.TIME_STATUS_REALIGN_ARMED (bitNat !t.records.isEmpty) (put F.TIME_STATUS_REF10M_OK (bitNat t.ref10mOk)
      (put F.TIME_STATUS_PPS_IN_OK (bitNat t.ppsInOk) (put F.TIME_STATUS_TIME_VALID (bitNat t.valid) (put F.TIME_STATUS_STEPS_REMOVED t.steps
        (put F.TIME_STATUS_UPSTREAM_VALID (bitNat t.upstream.isSome) (put F.TIME_STATUS_UPSTREAM (t.upstream.getD 0)
          (put F.TIME_STATUS_STATE t.state (put F.TIME_STATUS_QUALITY s.quality w)))))))))
  else if off = R.TIME_ERR_EST then BitVec.ofNat 32 s.errEst
  else if off = R.TIME_OFFSET then sat32 t.offset
  else if off = R.TIME_NOW_QUAL then BitVec.ofNat 32 (kget 0 t.nowQual side)
  else pair R.TIME_NOW t.ft (pair R.TIME_REALIGN_D (BitVec.ofInt 64 t.d) (pair R.TIME_ACCEPTED_OFFSET (BitVec.ofInt 64 t.accepted) w))

/-- The almanac controller's registers (chapter 04). -/
def State.almView (s : State) (off : Nat) (w : W32) : W32 :=
  let a := s.alm
  if off = R.ALM_BANK_STATUS then
    put F.ALM_BANK_STATUS_COOL_PENDING (bitNat a.cool.isSome) (put F.ALM_BANK_STATUS_LEAP_ACTIVE (bitNat (a.leap != 0 || a.t != 0))
      (put F.ALM_BANK_STATUS_OTHER_STATE (otherCode a.other) (put F.ALM_BANK_STATUS_IN_FORCE a.inForce w)))
  else if off = R.ALM_VARIANT then
    put F.ALM_VARIANT_OTHER s.bankOther.variant.toNat (put F.ALM_VARIANT_IN_FORCE s.bankIn.variant.toNat w)
  else if off = R.ALM_POS then
    put F.ALM_POS_LOG2N (bankLog2N s.bankIn) (put F.ALM_POS_SLOT (ftSince s.time.ft a.start / 128) w)
  else if off = R.ALM_CYCLE then halfOf a.cycles false
  else if off = R.ALM_CYCLE + 4 then halfOf a.cycles true
  else if off = R.ALM_LEAP_PENDING then sat32 a.leap
  else if off = R.ALM_SPACING then put F.ALM_SPACING_QUANTA a.spacing w
  else w

/-- A FAULT unit's registers (Table 13-11): the unit that FAULT_UNIT_SEL names. -/
def State.faultView (s : State) (u off : Nat) (w : W32) : W32 :=
  let x := s.funit (s.selUnit (unitDie u))
  if off = R.FAULT_UNIT_STATE then
    put F.FAULT_UNIT_STATE_SEVERITY x.sev (put F.FAULT_UNIT_STATE_ISOLATED (bitNat (!x.iso.isEmpty)) (put F.FAULT_UNIT_STATE_JUBILEE (min 255 x.jubilee)
      (put F.FAULT_UNIT_STATE_ACTIVE ((List.range 16).foldl (fun n c => n + (if (x.at_ c).st = 0 then 0 else 2 ^ c)) 0) w)))
  else w

/-- A CHRON controller's registers (Table 14-8). -/
def State.chronView (s : State) (side off : Nat) (w : W32) : W32 :=
  let d := s.chDev side
  let st := if !d.mounted then 0 else if s.frozen then 3 else if d.need then 2 else 1
  if off = R.CHRON_STATUS then
    put F.CHRON_STATUS_HOLD_LEVEL (if s.chGoverns side then s.chron.hold.length else 0) (put F.CHRON_STATUS_FREE_SECTORS d.free.length
      (put F.CHRON_STATUS_DEVICE_OK (bitNat d.ok) (put F.CHRON_STATUS_FULL (bitNat d.full) (put F.CHRON_STATUS_STATE st w))))
  else if off = R.CHRON_SEQ_NEXT then d.seqNext
  else if off = R.CHRON_SEQ_OLDEST then (match lowestSeq d.live with
    | some x => x.seq
    | none => 0)
  else w

/-- The Holiday controller's registers (chapter 17). -/
def State.holView (s : State) (off : Nat) (w : W32) : W32 :=
  let h := s.hol
  if off = R.TRACE_HOLIDAY_STATUS then
    put F.TRACE_HOLIDAY_STATUS_ID (if h.active then h.id else 0) (put F.TRACE_HOLIDAY_STATUS_CAUSE (if h.active then h.cause else 0)
      (put F.TRACE_HOLIDAY_STATUS_SCAN_READY (bitNat h.scanReady) (put F.TRACE_HOLIDAY_STATUS_RESUMING (bitNat h.resuming)
        (put F.TRACE_HOLIDAY_STATUS_STOPPED (bitNat h.stopped) (put F.TRACE_HOLIDAY_STATUS_ACTIVE (bitNat h.active) w)))))
  else if off = R.TRACE_HOLIDAY_LAST_ID then BitVec.ofNat 32 h.lastId
  else w

/-- The trace unit's registers (chapter 17). -/
def State.traceView (s : State) (off : Nat) (w : W32) : W32 :=
  let t := s.trace
  if off = R.TRACE_STATUS then put F.TRACE_STATUS_STATE t.st (put F.TRACE_STATUS_LEVEL_KIB (t.level / 1024) w)
  else if off = R.TRACE_TRIG_FT then halfOf t.trigFt false
  else if off = R.TRACE_TRIG_FT + 4 then halfOf t.trigFt true
  else if R.TRACE_WIN ≤ off ∧ off < R.TRACE_WIN + 64 then
    BitVec.ofNat 32 (leAt (t.ring.flatten.drop t.headOff) (off - R.TRACE_WIN) 4)
  else w

/-- A POWER unit's registers (Tables 12-3, 12-5); the package registers of either root-capable die read the same. -/
def State.powerView (s : State) (u off : Nat) (w : W32) : W32 :=
  let d := unitDie u
  let i := (off - R.POWER_ISL_STATUS) / 4
  if off = R.POWER_DIE_STATUS then put F.POWER_DIE_STATUS_USED (bitNat (s.dieUsed d)) w
  else if off = R.POWER_CTRL ∨ off = R.POWER_STATUS ∨ off = R.POWER_RAMP then s.reg (powerUnit s.pkg) off
  else if R.POWER_ISL_STATUS ≤ off ∧ off < R.POWER_ISL_STATUS + 256 then
    put F.POWER_ISL_STATUS_FREQ (s.island d i).freq (put F.POWER_ISL_STATUS_RUNNING (bitNat (s.island d i).running)
      (put F.POWER_ISL_STATUS_GLIDING (bitNat (s.gliding d i)) w))
  else w

/-- The MBX unit's registers (Table 16-14). -/
def State.mbxView (s : State) (off : Nat) (w : W32) : W32 :=
  if off = R.MBX_STATUS then
    put F.MBX_STATUS_UNANSWERED (min 256 s.mbx.open_.length) (put F.MBX_STATUS_FM_ACTIVE (bitNat s.holder.isSome)
      (put F.MBX_STATUS_CMD_FULL (bitNat (s.cmdLevel == 256)) (put F.MBX_STATUS_RSP_FULL (bitNat s.rspFull) w)))
  else w

/-- A BOOT unit's registers (Tables 15-8 to 15-10): its own core's grants, and the fuse word that BOOT_FUSE_STN_SEL names. -/
def State.bootView (s : State) (u side off : Nat) (w : W32) : W32 :=
  if off = R.BOOT_LEASE then
    put F.BOOT_LEASE_EPOCH s.lease.epoch (put F.BOOT_LEASE_VOTES ((s.lease.held side).foldl (fun n v => n + 2 ^ v) 0)
      (put F.BOOT_LEASE_HOLDER (s.holder.getD 0) w))
  else if off = R.BOOT_FUSE_STN then kget 0 s.pkg.badStations (s.fld u F.BOOT_FUSE_STN_SEL_DIE * 16 + s.fld u F.BOOT_FUSE_STN_SEL_WORD)
  else w

/-- A GLOBAL instance's registers (Table 18-6). -/
def State.globalView (s : State) (u off : Nat) (w : W32) : W32 :=
  if off = R.GLOBAL_DIE then put F.GLOBAL_DIE_ENABLED (bitNat (!s.dieDisabled (unitDie u))) w
  else if off = R.GLOBAL_TREE_STATUS then
    put F.GLOBAL_TREE_STATUS_EPOCH s.lease.epoch (put F.GLOBAL_TREE_STATUS_OUTSTANDING (min 16 (s.inFlight (unitDie u))) w)
  else w

/-- The management side that a unit of the pair belongs to. -/
def unitSide (p : Package) (u : Nat) : Nat :=
  if p.isS then unitInst u % 2 else if unitDie u = 18 then 1 else 0

/-- The word that a register reads as, apart from counters and shadows. Each instance has its own ID word (R397). -/
def State.view (s : State) (u off : Nat) : W32 :=
  let w := if off = 0xFFC then coldOf s.pkg u off else s.reg u off
  match unitKind s.pkg u with
  | some .global => s.globalView u off w
  | some .ni => s.niView u off w
  | some .port => s.portView u off w
  | some .reduce => s.reduceView u off w
  | some .time => s.timeView (unitSide s.pkg u) off w
  | some .almCtl => s.almView off w
  | some .fault => s.faultView u off w
  | some .chron => s.chronView (unitSide s.pkg u) off w
  | some .holiday => s.holView off w
  | some .trace => s.traceView off w
  | some .pool => s.poolView u off w
  | some .power => s.powerView u off w
  | some .mbx => s.mbxView off w
  | some .boot => s.bootView u (unitSide s.pkg u) off w
  | _ => w

/-! ## The read (R21, R391, R395) -/

/-- What a counter pair, or a pair that the block writes, reads as at one half, before shadows. -/
def State.pairWord (s : State) (k : RegKind) (u off : Nat) (hi : Bool) : W32 :=
  if k == .counter then
    let c := s.ctrAt u (if hi then off - 4 else off)
    if hi then BitVec.ofNat 32 (c.toNat / 2 ^ 32) else c.extractLsb' 0 32
  else s.view u off

/-- A read of an existing address (R21, R82): a low half captures its upper half, unread; a high half returns a capture once, then the live value.
TIME_NOW_LO also captures the quality. -/
def State.readAt (s : State) (u off : Nat) (k : RegKind) (hi : Bool) : State × W32 :=
  let key := regAddr u (if hi then off - 4 else off)
  if k == .counter || k == .roPair then
    if hi then
      match kfind s.shadows key with
      | some v => ({ s with shadows := kdel s.shadows key }, v)
      | none => (s, s.pairWord k u off true)
    else
      let t := { s with shadows := kins s.shadows key (s.pairWord k u (off + 4) true) }
      let side := unitSide s.pkg u
      (if unitClass u = 7 ∧ off = R.TIME_NOW then
         t.updTime (fun x => { x with nowQual := kput 0 x.nowQual side s.quality }) else t,
       s.pairWord k u off false)
  else (s, s.view u off)

/-- A read over the tree: status and data (R391, R395). -/
def State.readReg (s : State) (addr : W32) : State × Nat × W32 :=
  if !s.addrOk addr then (s.reservedAccess addr, trReserved, 0)
  else
    let u := unitOf addr
    let off := offOf addr
    match (unitKind s.pkg u).bind (fun k => rowAt k off) with
    | none => (s, trReserved, 0)
    | some r =>
      let (t, v) := s.readAt u off r.kind (isHi r off)
      (t, trOk, v)

/-- A register read, which answers with status and data. -/
def State.readOut (s : State) (addr : W32) : State :=
  let (t, st, v) := s.readReg addr
  t.emit (.readData addr st v)

/-- COUNTER_LO_READ (R21). -/
def execCounterLoRead (addr : W32) (s : State) : Res := done s (s.readOut addr)

/-- COUNTER_HI_READ (R21). -/
def execCounterHiRead (addr : W32) (s : State) : Res := done s (s.readOut addr)

/-- TIME_NOW_LO_READ (R82): of a side's TIME unit. -/
def execTimeNowLoRead (side : Nat) (s : State) : Res :=
  onUnit (decide (side < 2)) s (s.readOut (BitVec.ofNat 32 (regAddr (sideUnit s.pkg 7 side) R.TIME_NOW)))

end Sys2Proof.Machine
end

