-- ==== Sys2Proof/Machine/RegAccess.lean ====
section
/-! DEFINITION. Writing registers over the management tree: what each field takes (R17, R18), what a write makes its unit do, 64-bit pairs
(R394), counter clears (R20), accesses that wait, and their completions (R391–R396). -/
namespace Sys2Proof.Machine

/-! ## What a field takes (R17, R18) -/

/-- Whether a code names an input link or an output link of a router (Table 16-9): 0–10, and 16–43 on a Priberun-S. -/
def linkCodeOk (p : Package) (v : Nat) : Bool := decide (v ≤ 10) || (p.isS && decide (16 ≤ v ∧ v ≤ 43))

/-- The buffer of a port's plane in 256 B units (R265). -/
def planeBuffer (pl : Nat) : Nat := if pl ≤ 1 then 256 else 2560

/-- Whether PORT_VC_CFG(i) may take a word: the plane's capacities fit its buffer, and HEADROOM is below a CAPACITY that is not 0 (R265). -/
def State.vcCfgOk (s : State) (u i : Nat) (data : W32) : Bool :=
  let cap (j : Nat) : Nat := if j = i then getBits data 27 16 else s.fldAt u F.PORT_VC_CFG_CAPACITY j
  let sum := ((List.range 4).map (fun v => cap (4 * (i / 4) + v))).foldl (· + ·) 0
  let c := getBits data 27 16
  let h := getBits data 11 0
  decide (sum ≤ planeBuffer (i / 4)) && (decide (h < c) || (c == 0 && h == 0))

/-- Whether a value is a legal encoding of a field, where that rests on more than the value (R18). -/
def State.encodingOk (s : State) (k : UnitKind) (u : Nat) (r : RegRow) (i : Nat) (f : Fld) (data : W32) : Bool :=
  let v := getBits data f.hi f.lo
  if r.off = R.NI_INJ ∧ injectKind k = true then f.lo != 24 || v != 63 || k == .port || k == .dlink else
  match k with
  | .ni =>
    if r.off = R.NI_VIGIL_RETIRE then decide (s.fld u F.NI_VIGIL_MACH_US ≤ 1000 * v)
    else if r.off = R.NI_PFENCE_CMD then
      let set := data.getLsbD 13
      let clear := data.getLsbD 12
      !(set && clear) && !((set || clear) && getBits data 11 0 == 0)
    else true
  | .port => r.off != R.PORT_VC_CFG || s.vcCfgOk u i data
  | .power =>
    if r.off = R.POWER_ISL_CTRL ∧ f.lo = 0 then decide (s.islFloor ≤ 25 * v) else r.off != R.POWER_DIE_CTRL || decide (v ≤ 2)
  | .fault => if r.off = R.FAULT_UNIT_SEL then unitDie v == unitDie u else r.off != R.FAULT_UNIT_CMD || decide (v ≤ 4)
  | .boot => if r.off = R.BOOT_FUSE_STN_SEL ∧ f.lo = 4 then dieExists s.pkg v else r.off != R.BOOT_CMD || decide (v ≤ 5)
  | .probe => !(r.off == R.PROBE_CTRL && f.lo == 22) || v == 63 || linkCodeOk s.pkg v
  | .holiday =>
    if r.off = R.TRACE_HOLIDAY_SCAN_SEL then
      let t := unitKind s.pkg (getBits data 19 0)
      if f.lo = 0 then t == some .router || t == some .port
      else if f.lo = 22 then (if t == some .port then v == 0 else linkCodeOk s.pkg v) else true
    else r.off != R.TRACE_HOLIDAY_CMD || decide (v ≤ 4)
  | .almCtl => !(r.off == R.ALM_BANK_CTRL && f.lo == 0) || decide (v ≤ 4)
  | .chron => r.off != R.CHRON_RD_CMD || decide (v ≤ 2)
  | _ => true

/-- Whether a field's chapter locks it against a value (Table 18-4): the enables of a unit that the enable map disables (R344), the journal's head in
REPLAY, every field of a write that arms an injector while INJ_EN is 0 (R318). -/
def State.fieldLocked (s : State) (k : UnitKind) (u : Nat) (r : RegRow) (f : Fld) (v : Nat) (data : W32) : Bool :=
  if r.off = R.NI_INJ ∧ injectKind k = true then data.getLsbD 31 && !s.bit (faultUnit (unitDie u)) F.FAULT_CTRL_INJ_EN else
  match k with
  | .ni =>
    if r.off = R.NI_CTRL then decide (f.lo ≤ 1) && v == 1 && s.stationAbsent (niStation u)
    else r.off == R.NI_JRNL_REPLAY_HEAD && s.fld u F.NI_JRNL_CTRL_MODE == 2
  | .dlink => r.off == R.DLINK_CTRL && f.lo == 0 && v == 1 && !s.dlAllowed (dlKeyOf u)
  | _ => false

/-- The status that a field gives a write of its register, from the word it holds (R17, R18). -/
def State.fieldStatus (s : State) (k : UnitKind) (u : Nat) (r : RegRow) (i : Nat) (f : Fld) (old data : W32) : Nat :=
  let v := getBits data f.hi f.lo
  if f.acc = .ro ∨ f.acc = .w1c ∨ f.acc = .w1s then trOk
  else if !legalOk f.legal v || !s.encodingOk k u r i f data then trReserved
  else if s.fieldLocked k u r f v data || (f.acc == .rwl && s.committed && v != getBits old f.hi f.lo) then trLocked
  else trOk

/-- Fields that the unit's action sets, and not the write itself. -/
def actsItself (k : UnitKind) (r : RegRow) (f : Fld) : Bool :=
  (k == .port && r.off == R.PORT_CTRL && f.lo == 0) || (k == .dlink && r.off == R.DLINK_CTRL && f.lo == 0) ||
  (k == .ni && r.off == R.NI_JRNL_CTRL) || (k == .chron && r.off == R.CHRON_CTRL && f.lo == 1) ||
  (k == .trace && r.off == R.TRACE_CTRL && f.lo == 0) || (k == .mbx && (r.off == R.MBX_CMD_PROD || r.off == R.MBX_RSP_CONS))

/-- One field of the word after a write (Table 00-5). -/
def State.fieldNext (s : State) (k : UnitKind) (u : Nat) (r : RegRow) (i : Nat) (old data : W32) (w : W32) (f : Fld) : W32 :=
  let v := getBits data f.hi f.lo
  let o := getBits old f.hi f.lo
  match f.acc with
  | .ro => w
  | .wo => w
  | .w1c => setBits w f.hi f.lo (o &&& (2 ^ (f.hi - f.lo + 1) - 1 - v))
  | .w1s => setBits w f.hi f.lo (o ||| v)
  | _ => if actsItself k r f || s.fieldStatus k u r i f old data != trOk then w else setBits w f.hi f.lo v

/-- The status of a write: the first of RESERVED, LOCKED and OK that one of its fields gives (R18). -/
def State.wordStatus (s : State) (k : UnitKind) (u : Nat) (r : RegRow) (i : Nat) (old data : W32) : Nat :=
  r.flds.foldl (fun st f => worseStatus st (s.fieldStatus k u r i f old data)) trOk

/-- The word after a write. -/
def State.wordNext (s : State) (k : UnitKind) (u : Nat) (r : RegRow) (i : Nat) (old data : W32) : W32 :=
  r.flds.foldl (s.fieldNext k u r i old data) old

/-! ## What a write makes its unit do -/

/-- n free words: what the NI reads from memory beyond the block's ken. -/
def freeWords : Nat → State → List FT × State
  | 0, s => ([], s)
  | n + 1, s =>
    let (v, s) := s.takeFree
    let (vs, s) := freeWords n s
    (v :: vs, s)

/-- The counters that a write of a clear register zeroes: data's bits against the map of the kind (R20). -/
def clearedBy (k : UnitKind) (off : Nat) (data : W32) : List Nat :=
  ((clearsOf k).filter (fun c => c.1 == off && data.getLsbD c.2.1)).map (·.2.2)

/-- The counters zeroed, and the histograms and high-water marks that the same registers clear (R171, R172, R230, R386). -/
def State.clearCounters (s : State) (k : UnitKind) (u off : Nat) (data : W32) : State :=
  let s := (clearedBy k off data).foldl (fun s c => s.setCtr u c 0) s
  if k = .probe ∧ off = R.PROBE_CNT_CLR then
    (List.range 256).foldl (fun s b => if data.getLsbD (b / 16) then s.setFldAt u F.PROBE_HIST_COUNT b 0 else s) s
  else if k = .ni ∧ off = R.NI_SHAPE_CNT_CLR ∧ data.getLsbD 3 = true then
    (List.range 16).foldl (fun s q => s.setReg u (R.NI_Q_HWM + F.NI_Q_HWM_DEPTH.stride * q) 0) s
  else if k = .port ∧ off = R.PORT_SHAPE_CNT_CLR ∧ data.getLsbD 3 = true then
    (List.range 32).foldl (fun s q => s.setReg u (R.PORT_Q_HWM + F.PORT_Q_HWM_DEPTH.stride * q) 0) s
  else if k = .reduce ∧ off = R.REDUCE_PROMO_CNT_CLR ∧ data.getLsbD 3 = true then
    s.updEng (niStation u) (fun e => { e with hwm := e.slots })
  else s

/-- NI registers that act (R42, R249, R303). -/
def State.niWrite (s : State) (u off : Nat) (data : W32) (ok : Bool) : State :=
  let st := niStation u
  if off = R.NI_CTRL then
    let s := if data.getLsbD 7 then s.updNi st (fun n => { n with xlat := [] }) else s
    let s := if data.getLsbD 6 then s.updNi st Ni.disarmAll else s
    (s.service st).noteCtl u
  else if off = R.NI_JRNL_CTRL then
    let m := getBits data 1 0
    if m = 2 then
      let (ring, s) := freeWords (s.fld u F.NI_JRNL_REPLAY_END_INDEX - s.fld u F.NI_JRNL_REPLAY_HEAD_INDEX) s
      s.jrnlMode st m ring
    else s.jrnlMode st m []
  else if off = R.NI_PFENCE_CMD ∧ ok = true then
    let key := getBits data 11 0
    if data.getLsbD 13 then s.updNi st (fun n => n.fence key)
    else if data.getLsbD 12 then s.updNi st (fun n => { n with fenced := n.fenced.filter (· != key) })
    else s
  else s

/-- PORT_CTRL (R263, R264). -/
def State.portWrite (s : State) (u off : Nat) (data : W32) : State :=
  let q := portOfUnit s.pkg u
  if off = R.PORT_CTRL then
    let s := if data.getLsbD 0 then s.portEnable q else if s.pt q F.PORT_CTRL_EN = 1 then s.portDisable q else s
    let s := if data.getLsbD 6 then s.portCold q else if data.getLsbD 8 then s.portFull q else if data.getLsbD 7 then s.portAgain q else s
    s.noteCtl u
  else s

/-- DLINK_CTRL (R269, R270). -/
def State.dlinkWrite (s : State) (u off : Nat) (data : W32) : State :=
  let key := dlKeyOf u
  if off = R.DLINK_CTRL then
    let was := s.dl key F.DLINK_CTRL_EN
    let s := if data.getLsbD 0 then (if was = 1 then s else s.dlEnable key) else if was = 1 then s.dlDisable key else s
    (if data.getLsbD 2 then s.crossingRetrain key else s).noteCtl u
  else s

/-- ALM_BANK_CTRL.CMD (Table 04-11). -/
def State.almWrite (s : State) (off : Nat) (data : W32) (ok : Bool) : State :=
  let c := getBits data 2 0
  if off = R.ALM_BANK_CTRL ∧ ok = true then
    if c = 1 then s.almLoad (BitVec.ofNat 16 (getBits data 27 12))
    else if c = 2 then s.almCopy
    else if c = 3 then s.almArmAt (s.pair (almUnit s.pkg) R.ALM_EQX_AT) false
    else if c = 4 then s.almDisarm
    else s
  else s

/-- FAULT_UNIT_CMD (Table 13-11). -/
def State.faultWrite (s : State) (die off : Nat) (data : W32) : State :=
  let c := getBits data 2 0
  let u := s.selUnit die
  if off = R.FAULT_UNIT_CMD then
    if c = 1 then s.unitReset die u else if c = 2 then s.unitClear u else if c = 3 then s.unitRestore u else if c = 4 then s.clearJubilee u else s
  else s

/-- The CHRON command registers (R326, R330, R334, R335). -/
def State.chronWrite (s : State) (side off : Nat) (data : W32) : State :=
  if off = R.CHRON_CTRL then (if data.getLsbD 1 then s.freezeCmd side else s.unfreezeCmd side)
  else if off = R.CHRON_RD_CMD then
    (if getBits data 1 0 = 1 then s.chReadCmd side false else if getBits data 1 0 = 2 then s.chReadCmd side true else s)
  else if off = R.CHRON_CMD ∧ data.getLsbD 0 = true then s.retireCmd side
  else if off = R.CHRON_SW_CMD ∧ data.getLsbD 0 = true then s.swSubmit side
  else s

/-- TRACE_HOLIDAY_CMD (R376, R380, R381). -/
def State.holidayWrite (s : State) (off : Nat) (data : W32) : State :=
  let c := getBits data 2 0
  if off = R.TRACE_HOLIDAY_CMD then
    if c = 1 then s.holidayLocal 0 false else if c = 2 then s.holidayLocal 1 true else if c = 3 then s.holidayRelease none none
    else if c = 4 then s.holidayScan else s
  else s

/-- TRACE_CTRL and TRACE_CMD (R384, R385). -/
def State.traceWrite (s : State) (off : Nat) (data : W32) : State :=
  if off = R.TRACE_CTRL then (if data.getLsbD 0 then s.tracePort else s.setFld (traceUnit s.pkg) F.TRACE_CTRL_PORT_EN 0)
  else if off = R.TRACE_CMD then
    let c := getBits data 1 0
    if c = 1 then s.traceArm else if c = 2 then s.trigger 0 else if c = 3 then s.traceAdvance else s
  else s

/-- An island's STOP as written (R278). -/
def State.stopWrite (s : State) (die inst : Nat) (stop : Bool) : State :=
  let i := s.island die inst
  (s.setIsland die inst (if stop then { i with running := false } else i.start)).noteCtl (dieUnit die)

/-- POWER registers that act (R278, R281, R287). -/
def State.powerWrite (s : State) (u : Nat) (r : RegRow) (i : Nat) (data : W32) : State :=
  let d := unitDie u
  if r.off = R.POWER_DIE_CTRL then
    (if getBits data 1 0 = 1 then s.gateCmd d true else if getBits data 1 0 = 2 then s.gateCmd d false else s)
  else if r.off = R.POWER_CTRL then s.throttle
  else if r.off = R.POWER_ISL_CTRL then s.stopWrite d i (data.getLsbD 8)
  else s

/-- BOOT_CMD, BOOT_HB_KICK and BOOT_MIRROR_FENCE (R340–R342, R349, R353, R354). -/
def State.bootWrite (s : State) (side off : Nat) (data : W32) : State :=
  let c := getBits data 2 0
  if off = R.BOOT_CMD then
    if c = 1 then s.bootWarm side else if c = 2 then s.bootContinue side else if c = 3 then s.bootProceed side
    else if c = 4 then s.clearLevels side else if c = 5 then s.clearDisables side else s
  else if off = R.BOOT_HB_KICK ∧ data.getLsbD 0 = true then s.updLease (fun l => { l with kick := kins l.kick side s.time.ft })
  else if off = R.BOOT_MIRROR_FENCE ∧ data.getLsbD 0 = true then s.mirrorFence side
  else s

/-- TIME registers that act (R77, R80). -/
def State.timeWrite (s : State) (side off : Nat) (data : W32) : State :=
  if off = R.TIME_REALIGN ∧ data.getLsbD 0 = true then s.realignArm side
  else if off = R.TIME_CTRL ∧ data.getLsbD 6 = false ∧ s.time.ppsOut = true then
    (s.updTime (fun t => { t with ppsOut := false })).emit (.pin (.ppsOut s.pinSide) false)
  else s

/-- What a unit does once a register of one word has taken a write. ok: whether the write completed OK. -/
def State.wordAct (s : State) (k : UnitKind) (u : Nat) (r : RegRow) (i off : Nat) (data : W32) (ok : Bool) : State :=
  let s := s.clearCounters k u off data
  match k with
  | .ni => s.niWrite u off data ok
  | .port => if ok then s.portWrite u off data else s
  | .dlink => if ok then s.dlinkWrite u off data else s
  | .reduce => if off = R.REDUCE_CTRL then s.noteCtl u else s
  | .pool => if off = R.POOL_CTRL then (if data.getLsbD 16 then s else s.poolDisable (unitDie u)).noteCtl u else s
  | .time => s.timeWrite (unitSide s.pkg u) off data
  | .almCtl => s.almWrite off data ok
  | .fault => if ok then s.faultWrite (unitDie u) off data else s
  | .chron => if ok then s.chronWrite (unitSide s.pkg u) off data else s
  | .holiday => if ok then s.holidayWrite off data else s
  | .trace => s.traceWrite off data
  | .power => if ok || r.off = R.POWER_ISL_CTRL then s.powerWrite u r i data else s
  | .mbx =>
    if off = R.MBX_CMD_PROD then s.cmdProd (data.extractLsb' 0 16) []
    else if off = R.MBX_RSP_CONS then s.rspCons (data.extractLsb' 0 16) else s
  | .boot => if ok then s.bootWrite (unitSide s.pkg u) off data else s
  | _ => s

/-- The word in effect that a write is compared with: a window's register holds the record in force (R17, R46, R95). -/
def State.held (s : State) (k : UnitKind) (u off : Nat) : W32 :=
  if k = .ni ∧ R.NI_WIN_BASE ≤ off ∧ off < R.NI_WIN_BASE + 64 * 32 then s.windowWord u off (s.reg u off) else s.reg u off

/-- A write of a register of one word: the fields it sets, then what the unit does. -/
def State.writeWord (s : State) (k : UnitKind) (u : Nat) (r : RegRow) (off : Nat) (data : W32) : State × Nat :=
  let i := rowIndex r off
  let old := s.held k u off
  let st := s.wordStatus k u r i old data
  ((s.setReg u off (s.wordNext k u r i old data)).wordAct k u r i off data (st == trOk), st)

/-! ## Pairs (R394) -/

/-- The low bits that a pair does not hold: ring bases are 64-byte aligned, windows 4 KiB (Tables 05-6, 10-8, 10-11). -/
def pairLow (k : UnitKind) (base : Nat) : Nat := match k with
  | .ni =>
    if base = R.NI_JRNL_BASE ∨ base = R.NI_STATS_BASE then 6
    else if R.NI_WIN_BASE ≤ base ∧ base < R.NI_WIN_BASE + 64 * 32 then 12 else 0
  | .diary => if base = R.TRACE_DIARY_BASE ∨ base = R.TRACE_STATS_BASE then 6 else 0
  | _ => 0

/-- A low half as its pair holds it. -/
def pairMask (k : UnitKind) (base : Nat) (w : W32) : W32 := (w >>> pairLow k base) <<< pairLow k base

/-- A pair takes a value: read pointers stay at or below what was written (R235, R240, R247), TIME_EPOCH_SET is ignored outside FREE and TIME_PPS_FT
takes whole seconds (Tables 03-2, 03-9). -/
def State.pairTake (s : State) (k : UnitKind) (u base : Nat) (v : FT) : State × Nat :=
  let below (wr : Nat) : State × Nat := if ftGe (s.pair u wr) v then (s.setPair u base v, trOk) else (s, trReserved)
  if k = .ni ∧ base = R.NI_JRNL_RD then below R.NI_JRNL_WR
  else if k = .ni ∧ base = R.NI_STATS_RD then below R.NI_STATS_WR
  else if k = .diary ∧ base = R.TRACE_DIARY_RD then s.diaryRd R.TRACE_DIARY_WR R.TRACE_DIARY_RD v
  else if k = .diary ∧ base = R.TRACE_STATS_RD then
    (if v.toNat % 64 = 0 then s.diaryRd R.TRACE_STATS_WR R.TRACE_STATS_RD v else (s, trReserved))
  else if k = .time ∧ base = R.TIME_EPOCH_SET then (if s.time.state = 0 then s.setPair u base v else s, trOk)
  else if k = .time ∧ base = R.TIME_PPS_FT then
    (if v.toNat % 1024 = 0 ∧ v.toNat % 4000000000 = 0 then ((s.setPair u base v).updTime (fun t => { t with ppsWritten := true }), trOk)
     else (s, trReserved))
  else (s.setPair u base v, trOk)

/-- Whether a pair is locked: it is RWL and the image is committed (R17). -/
def State.pairLocked (s : State) (r : RegRow) : Bool := s.committed && r.flds.any (fun f => f.acc == .rwl)

/-- A write of a low half: staged, or compared where the pair is locked. -/
def State.writeLo (s : State) (k : UnitKind) (u : Nat) (r : RegRow) (base : Nat) (data : W32) : State × Nat :=
  if s.pairLocked r then (s, if pairMask k base data = s.held k u base then trOk else trLocked)
  else ({ s with staged := kins s.staged (regAddr (homeUnit s.pkg u) base) data }, trOk)

/-- A write of a high half: both halves in one cycle. -/
def State.writeHi (s : State) (k : UnitKind) (u : Nat) (r : RegRow) (base : Nat) (data : W32) : State × Nat :=
  if s.pairLocked r then (s, if data = s.held k u (base + 4) then trOk else trLocked)
  else
    let key := regAddr (homeUnit s.pkg u) base
    let lo := (kfind s.staged key).getD (s.held k u base)
    State.pairTake { s with staged := kdel s.staged key } k u base (data ++ pairMask k base lo)

/-! ## The write -/

/-- Whether a unit ignores writes to a register, with status OK: the standby's controllers and mirrored registers (R79, R109, R252, R337, R357,
R387, R395). -/
def State.ignoresWrite (s : State) (k : UnitKind) (u off : Nat) : Bool :=
  let side := unitSide s.pkg u
  match k with
  | .boot => s.holder != some side && (off == R.BOOT_CTRL || off == R.BOOT_CMD || off == R.BOOT_DEADLINE || off == R.BOOT_HB_CFG)
  | .chron => !s.chGoverns side && (off == R.CHRON_CTRL || off == R.CHRON_CMD || off == R.CHRON_SW_CMD)
  | .time => !s.sideActs side
  | .diary => !s.sideActs side
  | .holiday => !s.sideActs side
  | .almCtl => unitDie u != s.rootDie
  | .power => (off == R.POWER_CTRL) && unitDie u != s.rootDie
  | _ => false

/-- A write over the tree that has reached its unit: the state and the status (R17, R18, R394, R395). -/
def State.writeReg (s : State) (addr : W32) (data : W32) : State × Nat :=
  if !s.addrOk addr then (s.reservedAccess addr, trReserved)
  else
    let u := unitOf addr
    let off := offOf addr
    match unitKind s.pkg u with
    | none => (s, trReserved)
    | some k => match rowAt k off with
      | none => (s, trReserved)
      | some r =>
        if s.ignoresWrite k u off then (s, trOk)
        else match r.kind with
          | .single => s.writeWord k (if k = .power ∧ off = R.POWER_CTRL then powerUnit s.pkg else u) r off data
          | .rwPair => if isHi r off then s.writeHi k u r (off - 4) data else s.writeLo k u r off data
          | _ => (s, trOk)

/-- A write that answers with its status. -/
def State.writeOut (s : State) (addr data : W32) : State :=
  let (t, st) := s.writeReg addr data
  t.emit (.writeDone addr st)

/-! ## Accesses that wait (R278, R391–R393, R396) -/

/-- The island whose clock a unit's registers need; none where they lie outside the islands (R278). GLOBAL and FAULT of an I/O die lie in the
island of router 14 (R294, R398). -/
def unitIsl (p : Package) (u : Nat) : Option Nat :=
  let d := unitDie u
  let i := unitInst u
  match unitKind p u with
  | some .global => if !p.isS && decide (16 ≤ d) then some (islKey d 14) else none
  | some .fault => if !p.isS && decide (16 ≤ d) then some (islKey d 14) else none
  | some .router => some (islKey d i)
  | some .almRouter => some (islKey d i)
  | some .probe => some (islKey d i)
  | some .ni => some (stationIsl p (niStation u))
  | some .memst => some (stationIsl p (niStation u))
  | some .reduce => some (stationIsl p (niStation u))
  | some .port => some (islKey (portDie p (portOfUnit p u)) (portRouter p (portOfUnit p u)))
  | some .dlink => some (dlRouter (dlKeyOf u)).1
  | _ => none

/-- Whether an access to a unit waits at the crossing of a stopped island. -/
def State.unitStopped (s : State) (u : Nat) : Bool := match unitIsl s.pkg u with
  | some k => !(kget {} s.isl k).running
  | none => false

/-- Whether a write starts a warm reset, which loses its completion (R400). -/
def State.startsReset (s : State) (addr data : W32) : Bool :=
  let u := unitOf addr
  unitKind s.pkg u == some .boot && offOf addr == R.BOOT_CMD && getBits data 2 0 == 1 && s.bootActs (unitSide s.pkg u)

/-- A write of the tree takes effect and completes. -/
def State.finish (s : State) (a : TreeAcc) : State :=
  let (t, st) := s.writeReg a.addr a.data
  if a.lost || s.startsReset a.addr a.data then t else t.emit (.treeDone a.core a.tag st 0)

/-- The accesses that hold a place at the root. -/
def State.outstanding (s : State) : List TreeAcc := s.tree.filter (fun a => !a.lost)

/-- The root issues a request: a tag that is outstanding completes RESERVED; a write for a stopped island waits there. -/
def State.issue (s : State) (a : TreeAcc) : State :=
  if s.outstanding.any (fun b => b.tag == a.tag) then s.emit (.treeDone a.core a.tag trReserved 0)
  else if s.addrOk a.addr && s.unitStopped (unitOf a.addr) then { s with tree := s.tree ++ [a] }
  else s.finish a

/-- The writes that waited for islands that run again take effect, in order. -/
def State.flushTree (s : State) : State :=
  let ready := s.tree.filter (fun a => !s.unitStopped (unitOf a.addr))
  let stay := s.tree.filter (fun a => s.unitStopped (unitOf a.addr))
  ready.foldl State.finish { s with tree := stay }

/-- Requests that wait at the core are issued while places are free. -/
def drainTree : Nat → State → State
  | 0, s => s
  | n + 1, s => match s.treeWait with
    | [] => s
    | a :: rest => if 16 ≤ s.outstanding.length then s else drainTree n (State.issue { s with treeWait := rest } a)

/-- What waits at the tree goes on as far as it can. -/
def settleTree : Nat → State → State
  | 0, s => s
  | n + 1, s => settleTree n (drainTree s.treeWait.length s.flushTree)

/-- The tree settled. -/
def State.settle (s : State) : State := settleTree (s.tree.length + s.treeWait.length) s

/-- A write that a core requests (R391, R396, R400). -/
def State.treeWrite (s : State) (core tag epoch : Nat) (addr data : W32) : State :=
  let d := s.answerDie addr
  if s.holder != some core then s.emit (.treeDone core tag trLocked 0)
  else if epoch != s.lease.epoch then s.event (globalUnit d) F.GLOBAL_TREE_EVENT_EPOCH_DROP
  else
    let a : TreeAcc := { core := core, tag := tag, addr := addr, write := true, data := data }
    if 16 ≤ s.outstanding.length ∨ s.treeWait ≠ [] then { s with treeWait := s.treeWait ++ [a] } else (s.issue a).settle

/-- REGISTER_WRITE (R17, R18, R391, R395, R396). -/
def execRegisterWrite (core tag epoch : Nat) (addr data : W32) (s : State) : Res :=
  onUnit (decide (core < 2)) s (s.treeWrite core tag epoch addr data)

/-- A timed-out access is captured, counted and reported by the die that timed it (R393). -/
def State.captureTimeout (s : State) (d : Nat) (addr : W32) (write : Bool) : State :=
  let g := globalUnit d
  let s := (s.event g F.GLOBAL_TREE_EVENT_TIMEOUT).count g R.GLOBAL_TREE_TIMEOUTS 1
  let s := if s.bit g F.GLOBAL_TREE_ERR_INFO_VALID then s
    else (((s.setFld g F.GLOBAL_TREE_ERR_INFO_VALID 1).setFld g F.GLOBAL_TREE_ERR_INFO_WRITE (bitNat write)).setFld g
      F.GLOBAL_TREE_ERR_INFO_STATUS trTimeout).setReg g R.GLOBAL_TREE_ERR_ADDR addr
  s.faultEvent g 13 1

/-- An access that has not completed ends TIMEOUT (R393); a write that waits stays in its crossing, and its late completion is discarded. A write that
waits nowhere has completed already. -/
def State.treeTimeout (s : State) (tag : Nat) (addr : W32) (write atRoot : Bool) : State :=
  let d := if atRoot || !dieExists s.pkg (unitDie (unitOf addr)) then s.rootDie else unitDie (unitOf addr)
  let mine (a : TreeAcc) : Bool := !a.lost && a.tag == tag && a.addr == addr
  if write && !s.tree.any mine then s
  else
    let t := { s with tree := s.tree.map (fun a => if write && mine a then { a with lost := true } else a) }
    ((t.captureTimeout d addr write).emit (.treeDone (s.holder.getD 0) tag trTimeout 0)).settle

/-- TREE_TIMEOUT (R393). -/
def execTreeTimeout (tag : Nat) (addr : W32) (write atRoot : Bool) (s : State) : Res := done s (s.treeTimeout tag addr write atRoot)

/-! ## Writes with rows of their own -/

/-- The row of the register index that an address names. -/
def State.rowOf (s : State) (addr : W32) : Option (UnitKind × RegRow) :=
  (unitKind s.pkg (unitOf addr)).bind (fun k => (rowAt k (offOf addr)).map (fun r => (k, r)))

/-- A write where the address is one that the row is about; another address is no such write. -/
def State.writeIf (s : State) (about : UnitKind → RegRow → Bool) (addr data : W32) : State := match s.rowOf addr with
  | some (k, r) => if about k r then s.writeOut addr data else s
  | none => s

/-- PAIR_LO_WRITE (R394). -/
def execPairLoWrite (addr data : W32) (s : State) : Res :=
  done s (s.writeIf (fun _ r => r.kind == .rwPair && !isHi r (offOf addr)) addr data)

/-- PAIR_HI_WRITE (R394). -/
def execPairHiWrite (addr data : W32) (s : State) : Res :=
  done s (s.writeIf (fun _ r => r.kind == .rwPair && isHi r (offOf addr)) addr data)

/-- Whether a register shapes a queue (R164, R172). -/
def shaperRow (k : UnitKind) (r : RegRow) : Bool :=
  (k == .ni && (r.off == R.NI_Q_CFG || r.off == R.NI_Q_RATE || r.off == R.NI_Q_BURST)) ||
  (k == .port && (r.off == R.PORT_Q_CFG || r.off == R.PORT_Q_RATE || r.off == R.PORT_Q_BURST))

/-- SHAPER_CONFIG_WRITE (R164): the registers take the value; the shaper takes it at its next refill. -/
def execShaperConfigWrite (addr data : W32) (s : State) : Res := done s (s.writeIf shaperRow addr data)

/-- INJECT_ARM_WRITE (R318). -/
def execInjectArmWrite (addr data : W32) (s : State) : Res := done s (s.writeIf (fun k r => injectKind k && r.off == R.NI_INJ) addr data)

/-- COUNTER_CLEAR (R20): the selected counters read 0; one whose event falls in the same cycle reads 1. -/
def State.counterClear (s : State) (addr data coincident : W32) : State :=
  let u := unitOf addr
  let off := offOf addr
  match s.rowOf addr with
  | some (k, _) =>
    if (clearsOf k).any (fun c => c.1 == off) then
      let t := s.writeOut addr data
      if s.addrOk addr && !s.ignoresWrite k u off then (clearedBy k off (data &&& coincident)).foldl (fun t c => t.setCtr u c 1) t else t
    else s
  | none => s

/-- COUNTER_CLEAR (R20). -/
def execCounterClear (addr data coincident : W32) (s : State) : Res := done s (s.counterClear addr data coincident)

/-! ## Enables and clocks as their rows write them (R169, R263, R270, R278, R315) -/

/-- PORT_ENABLE (R263, R315). -/
def execPortEnable (port : Nat) (s : State) : Res :=
  onUnit (decide (port < portCount s.pkg)) s ((onPath s (s.portEnable port)).noteCtl (portUnit s.pkg port))

/-- PORT_DISABLE (R263, R264, R315). -/
def execPortDisable (port : Nat) (s : State) : Res :=
  onUnit (decide (port < portCount s.pkg)) s
    ((if s.pt port F.PORT_CTRL_EN = 0 then s else onPath s (s.portDisable port)).noteCtl (portUnit s.pkg port))

/-- Whether a die has a DLINK instance (Table 18-3). -/
def dlinkThere (p : Package) (die n : Nat) : Bool := unitKind p (dlinkUnit die n) == some .dlink

/-- DLINK_ENABLE (R270, R344, R315). -/
def execDlinkEnable (die n : Nat) (s : State) : Res :=
  onUnit (dlinkThere s.pkg die n) s ((onPath s (s.dlEnable (die * 32 + n))).noteCtl (dlinkUnit die n))

/-- DLINK_DISABLE (R152, R272, R315). -/
def execDlinkDisable (die n : Nat) (s : State) : Res :=
  onUnit (dlinkThere s.pkg die n) s ((onPath s (s.dlDisable (die * 32 + n))).noteCtl (dlinkUnit die n))

/-- POOL_DISABLE (R169, R315). -/
def execPoolDisable (die : Nat) (s : State) : Res :=
  onUnit (unitKind s.pkg (poolUnit die) == some .pool && !s.dieDisabled die) s ((s.poolDisable die).noteCtl (poolUnit die))

/-- ISLAND_STOP (R278): STOP is 1 and the clock stops; everything keeps its value. -/
def execIslandStop (isl : Island) (s : State) : Res :=
  onUnit (islExists s.pkg isl.die isl.inst) s
    ((s.setFldAt (dieUnit isl.die) F.POWER_ISL_CTRL_STOP isl.inst 1).stopWrite isl.die isl.inst true)

/-- ISLAND_START (R278, R393): STOP is 0 and the clock restarts; writes that waited in its crossing take effect. -/
def execIslandStart (isl : Island) (s : State) : Res :=
  onUnit (islExists s.pkg isl.die isl.inst) s
    ((s.setFldAt (dieUnit isl.die) F.POWER_ISL_CTRL_STOP isl.inst 0).stopWrite isl.die isl.inst false).settle

/-- PLL_RELOCK (R279, R292): the island of a die that is ON restarts with its state kept unless STOP is 1, in which case it will restart from 2,000 MHz. -/
def execPllRelock (isl : Island) (s : State) : Res :=
  let i := s.island isl.die isl.inst
  let stop := s.fldAt (dieUnit isl.die) F.POWER_ISL_CTRL_STOP isl.inst == 1
  onUnit (islExists s.pkg isl.die isl.inst) s
    (if i.locked || s.dieState isl.die != 0 then s
     else (s.setIsland isl.die isl.inst (if stop then { i with locked := true, freq := 80 } else ({ i with locked := true } : Isl).start)).settle)

end Sys2Proof.Machine
end

