-- ==== Sys2Proof/Machine/MbxCmd.lean ====
section
/-! DEFINITION. The host mailbox's commands that reach beyond the mailbox (R361, Table 16-4), and the end of a live change (R367–R371). -/
namespace Sys2Proof.Machine

/-- A mailbox command that may reach every part of the block. -/
def State.mbxRun (s : State) (op : Nat) (act : State → W32 → Desc → State) : Res := done s (s.mbxRow op act)

/-- RESULT of GET_INFO (Table 16-4); the firmware's version is the FM's own (log 2). -/
def State.infoBytes (s : State) (version : W32) : List Byte :=
  leBytes 4 (s.view (bootUnit s.pkg s.bootSide) R.BOOT_STATUS).toNat ++ leBytes 4 (s.reg (bootUnit s.pkg s.bootSide) R.BOOT_FUSE_VARIANT).toNat ++
    leBytes 8 ((s.image.map (fun i => i.id.toNat)).getD 0) ++ leBytes 8 ((s.staging.map (fun i => i.id.toNat)).getD 0) ++
    leBytes 4 version.toNat ++ leBytes 4 s.bootNo ++ leBytes 8 s.time.ft.toNat ++ leBytes 1 s.quality

/-- MBX_GET_INFO (R361). -/
def execMbxGetInfo (s : State) : Res := s.mbxRun 0x0002 (fun s h _ =>
  let (v, s) := s.takeFree
  s.mbxAnswer h 0x0002 0 0 (s.infoBytes (v.extractLsb' 0 32)))

/-! ## Images (R367–R371) -/

/-- An image written into the stored image's sectors of both devices (Table 15-2). -/
def State.storeImage (s : State) (img : Image) : State :=
  ((s.updFlash (fun f => { f with stored := img.bytes })).emit (.fmFlash 0 256 img.bytes)).emit (.fmFlash 1 256 img.bytes)

/-- IMAGE_STAGE (R341, R367, R371): BUSY during a live change, DMA_ERROR, the staging checks, and the staged image, stored where STORE is set. -/
def State.imageStage (s : State) (h : W32) (d : Desc) (dma : Dma) : State :=
  let bytes := dma.bytes.take (dBytes d 16 4)
  if 1 < dByte d 20 then s.mbxLater h 0x0010 2 20 []
  else if s.live != 0 then s.mbxLater h 0x0010 5 (otherCode s.alm.other) []
  else if dma.status != 0 then s.mbxLater h 0x0010 9 dma.status []
  else match s.parseImage bytes (dByte d 20 == 1) with
    | .error f => s.mbxLater h 0x0010 6 f.code f.result
    | .ok img =>
      let s := State.imageStaged { s with staging := some img } img
      (if img.store then s.storeImage img else s).mbxLater h 0x0010 0 0 (leBytes 8 img.id.toNat)

/-- MBX_IMAGE_STAGE (R367). -/
def execMbxImageStage (dma : Dma) (s : State) : Res := s.mbxRun 0x0010 (fun s h d => s.imageStage h d dma)

/-- The variant of an image that a live change loads: the id in force, or BASE (R369). -/
def State.liveVariant (s : State) (img : Image) : W16 := if variantExists img.recs s.bankIn.variant then s.bankIn.variant else 0

/-- IMAGE_COMMIT (R369): validation, a FREE other bank, the tables, the load, the arm and the fence of the mirror, in that order. -/
def State.imageCommit (s : State) (h : W32) (d : Desc) : State :=
  let answer (s : State) (status detail : Nat) (r : List Byte) : State := s.mbxAnswer h 0x0011 status detail r
  match s.staging with
  | none => answer s 4 s.bootState []
  | some img =>
    match s.validate img true with
    | some f => answer s 6 f.code f.result
    | none =>
      if s.alm.other != .free then answer s 5 (otherCode s.alm.other) []
      else
        let img := img.marked s.pkg
        let v := s.liveVariant img
        let s := (s.writeTables img).setOther (bankOf img.recs v)
        let s := (s.updAlm (fun a => { a with other := .ready })).almEvent F.ALM_EVENT_LOAD_DONE
        let target := dBytes d 8 8
        let s := s.almArmAt (BitVec.ofNat 64 target) false
        if s.alm.other == .armed then
          answer (State.mirrorFence { s with staging := some img, live := 1 } s.bootSide) 0 0 (leBytes 8 target ++ leBytes 2 v.toNat)
        else answer (s.updAlm (fun a => { a with other := .free })) 2 1 []

/-- MBX_IMAGE_COMMIT (R369). -/
def execMbxImageCommit (s : State) : Res := s.mbxRun 0x0011 (fun s h d => s.imageCommit h d)

/-- IMAGE_ABORT (R371): before the Equinox the change is disarmed and its bank freed; after it the change stands. -/
def State.imageAbort (s : State) (h : W32) : State :=
  if s.live = 2 then s.mbxAnswer h 0x0012 4 s.bootState []
  else
    let s := if s.live = 1 then s.updAlm (fun a => { a with other := .free, byPower := false }) else s
    State.mbxAnswer { s with staging := none, live := 0 } h 0x0012 0 0 []

/-- MBX_IMAGE_ABORT (R371). -/
def execMbxImageAbort (s : State) : Res := s.mbxRun 0x0012 (fun s h _ => s.imageAbort h)

/-- The end of a live change (R370): the unbanked RW fields, the stored copy, full token buckets for the policer sets loaded (R166), stream sequences,
and the committed image. -/
def State.liveFinish (s : State) : State :=
  match s.staging with
  | some img =>
    if s.live = 2 then
      let s := s.allFields img true
      let s := if img.store && (s.boot.f0.stored != img.bytes || s.boot.f1.stored != img.bytes) then s.storeImage img else s
      State.restartStreams { s with image := some img, staging := none, live := 0 }
    else s
  | none => s

/-- LIVE_CHANGE_FINISH (R370, R49). -/
def execLiveChangeFinish (s : State) : Res := done s s.liveFinish

/-! ## Firmware and reset (R361) -/

/-- FW_WRITE (R361): verified as B0 does, into a slot that is not in use; a signature that fails is answered REJECTED with the code of an image's. -/
def State.fwWrite (s : State) (h : W32) (d : Desc) (dma : Dma) : State :=
  let slot := dByte d 20
  let bytes := dma.bytes.take (dBytes d 16 4)
  let later (s : State) (status detail : Nat) : State := s.mbxLater h 0x0020 status detail []
  if 8 * 2 ^ 20 < dBytes d 16 4 then later s 2 16
  else if 1 < slot then later s 2 20
  else if slot = s.fwSlot then later s 4 s.bootState
  else if dma.status != 0 then later s 9 dma.status
  else if !Config.firmwareValid s.pkg.keyHash bytes then later s 6 0x0104
  else
    let s := s.updFlash (fun f => if slot = 0 then { f with fw0 := bytes } else { f with fw1 := bytes })
    later ((s.emit (.fmFlash 0 (128 * slot) bytes)).emit (.fmFlash 1 (128 * slot) bytes)) 0 0

/-- MBX_FW_WRITE (R361). -/
def execMbxFwWrite (dma : Dma) (s : State) : Res := s.mbxRun 0x0020 (fun s h d => s.fwWrite h d dma)

/-- MBX_FW_SELECT (R361): the boot state's slot for the next boot. -/
def execMbxFwSelect (s : State) : Res := s.mbxRun 0x0021 (fun s h d =>
  if 1 < dByte d 8 then s.mbxAnswer h 0x0021 2 8 []
  else (s.writeBlock (fun b => { b with fwSlot := dByte d 8 })).mbxAnswer h 0x0021 0 0 [])

/-- MBX_WARM_RESET (R338, R361): answered, and then the warm reset. -/
def execMbxWarmReset (s : State) : Res := s.mbxRun 0x0030 (fun s h _ => (s.mbxAnswer h 0x0030 0 0 []).warmReset 1)

/-! ## Registers (R361) -/

/-- An access of the FM's that waits in a stopped island until the hub's limit expires (R393). -/
def State.fmTimeout (s : State) (addr : W32) (write : Bool) : State := s.captureTimeout (s.answerDie addr) addr write

/-- MBX_REG_READ (R361). -/
def execMbxRegRead (s : State) : Res := s.mbxRun 0x0040 (fun s h d =>
  let addr := dw d 2
  if s.addrOk addr && s.unitStopped (unitOf addr) then (s.fmTimeout addr false).mbxAnswer h 0x0040 8 trTimeout []
  else
    let (t, st, v) := s.readReg addr
    if st = trOk then t.mbxAnswer h 0x0040 0 0 (leBytes 4 v.toNat) else t.mbxAnswer h 0x0040 8 st [])

/-- REG_WRITE: a write that starts a warm reset is answered ABORTED after it (R364). -/
def State.mbxWrite (s : State) (h : W32) (addr data : W32) : State :=
  if s.addrOk addr && s.unitStopped (unitOf addr) then
    let a : TreeAcc := { core := s.bootSide, tag := 0, addr := addr, write := true, data := data, lost := true }
    State.mbxAnswer { s.fmTimeout addr true with tree := s.tree ++ [a] } h 0x0041 8 trTimeout []
  else
    let (t, st) := s.writeReg addr data
    if s.startsReset addr data then t
    else t.settle.mbxAnswer h 0x0041 (if st = trOk then 0 else 8) st []

/-- MBX_REG_WRITE (R361). -/
def execMbxRegWrite (s : State) : Res := s.mbxRun 0x0041 (fun s h d => s.mbxWrite h (dw d 2) (dw d 3))

/-! ## Logs (R361) -/

/-- The live records of the active controller's device from a SEQ on, in SEQ order. -/
def State.liveFrom (s : State) (first : W32) : List ChSlot :=
  ((s.chDev s.chActive).live.filter (fun x => !seqLt x.seq first)).foldr insSeq []

/-- MBX_CHRON_READ (R361). -/
def execMbxChronRead (s : State) : Res := s.mbxRun 0x0050 (fun s h d =>
  let first := dw d 4
  let xs := (s.liveFrom first).take (dBytes d 20 4)
  let next := (xs.getLast?.map (fun x => x.seq + 1)).getD first
  let s := if xs.isEmpty then s else s.emit (.fmWrite (BitVec.ofNat 64 (dBytes d 8 8)) (xs.flatMap ChSlot.bytes))
  s.mbxLater h 0x0050 0 0 (leBytes 4 xs.length ++ leBytes 4 next.toNat))

/-- The entries of the Diary ring from an index on that have been written and not been overwritten, at most n. -/
def State.diaryFrom (s : State) (first n : Nat) : List (List Byte) :=
  let u := diaryUnit s.pkg
  let size := s.fld u F.TRACE_DIARY_SIZE_ENTRIES
  let wr := (s.pair u R.TRACE_DIARY_WR).toNat
  if size = 0 ∨ first + size < wr then [] else (List.range (min n (wr - first))).map (fun i => kget [] s.diary.ring ((first + i) % size))

/-- DIARY_READ (R361): entries are copied, and ADVANCE_RD consumes them. -/
def State.diaryRead (s : State) (h : W32) (d : Desc) : State :=
  let first := dBytes d 16 8
  let xs := s.diaryFrom first (dBytes d 24 4)
  let next := first + xs.length
  if 1 < dByte d 28 then s.mbxLater h 0x0051 2 28 []
  else
    let s := if xs.isEmpty then s else s.emit (.fmWrite (BitVec.ofNat 64 (dBytes d 8 8)) xs.flatten)
    let s := if dByte d 28 = 1 then (s.diaryRd R.TRACE_DIARY_WR R.TRACE_DIARY_RD (BitVec.ofNat 64 next)).1 else s
    s.mbxLater h 0x0051 0 0 (leBytes 4 xs.length ++ leBytes 8 next)

/-- MBX_DIARY_READ (R361). -/
def execMbxDiaryRead (s : State) : Res := s.mbxRun 0x0051 (fun s h d => s.diaryRead h d)

end Sys2Proof.Machine
end

