-- ==== Sys2Proof/Machine/Dispatch.lean ====
section
/-! DEFINITION. The dispatch: one arm per command, each one call of its meaning. -/
namespace Sys2Proof.Machine
open Sys2Proof

/-- The effect of a command on everything but the queue. -/
def exec (i : Instr) (s : State) : Host.Outcome State Fault Refusal :=
  match i with
  | .registerWrite core tag epoch addr data => Sys2Proof.Machine.execRegisterWrite core tag epoch addr data s
  | .treeTimeout tag addr write atRoot => Sys2Proof.Machine.execTreeTimeout tag addr write atRoot s
  | .counterLoRead addr => Sys2Proof.Machine.execCounterLoRead addr s
  | .counterHiRead addr => Sys2Proof.Machine.execCounterHiRead addr s
  | .timeNowLoRead side => Sys2Proof.Machine.execTimeNowLoRead side s
  | .pairLoWrite addr data => Sys2Proof.Machine.execPairLoWrite addr data s
  | .pairHiWrite addr data => Sys2Proof.Machine.execPairHiWrite addr data s
  | .counterClear addr data coincident => Sys2Proof.Machine.execCounterClear addr data coincident s
  | .opNop st d => Sys2Proof.Machine.execOpNop st d s
  | .opPut st d => Sys2Proof.Machine.execOpPut st d s
  | .opGet st d => Sys2Proof.Machine.execOpGet st d s
  | .opIndexedRead st d => Sys2Proof.Machine.execOpIndexedRead st d s
  | .opMessage st d => Sys2Proof.Machine.execOpMessage st d s
  | .opAtomic st d => Sys2Proof.Machine.execOpAtomic st d s
  | .opCounterAdd st d => Sys2Proof.Machine.execOpCounterAdd st d s
  | .opCounterSet st d => Sys2Proof.Machine.execOpCounterSet st d s
  | .opStreamPut st d => Sys2Proof.Machine.execOpStreamPut st d s
  | .descriptorTriggerStore st d => Sys2Proof.Machine.execDescriptorTriggerStore st d s
  | .triggerFire st slot => Sys2Proof.Machine.execTriggerFire st slot s
  | .xlatMissFetchDone st pkgEntry stnEntry => Sys2Proof.Machine.execXlatMissFetchDone st pkgEntry stnEntry s
  | .niXlatFlush st => Sys2Proof.Machine.execNiXlatFlush st s
  | .niTrigClearAll st => Sys2Proof.Machine.execNiTrigClearAll st s
  | .writeDone st id => Sys2Proof.Machine.execWriteDone st id s
  | .completionRecordTaken st => Sys2Proof.Machine.execCompletionRecordTaken st s
  | .eventNoticeTaken st ctr => Sys2Proof.Machine.execEventNoticeTaken st ctr s
  | .readDataReturn st id data poisonAt => Sys2Proof.Machine.execReadDataReturn st id data poisonAt s
  | .writeRsvReceive st f => Sys2Proof.Machine.execWriteRsvReceive st f s
  | .writeDataReceive st f => Sys2Proof.Machine.execWriteDataReceive st f s
  | .readReqReceive st f => Sys2Proof.Machine.execReadReqReceive st f s
  | .idxReadReqReceive st f => Sys2Proof.Machine.execIdxReadReqReceive st f s
  | .messageReceive st f => Sys2Proof.Machine.execMessageReceive st f s
  | .atomicReceive st f => Sys2Proof.Machine.execAtomicReceive st f s
  | .streamDataReceive st f => Sys2Proof.Machine.execStreamDataReceive st f s
  | .grantReceive st f => Sys2Proof.Machine.execGrantReceive st f s
  | .ackReceive st f => Sys2Proof.Machine.execAckReceive st f s
  | .readDataReceive st f => Sys2Proof.Machine.execReadDataReceive st f s
  | .idxReadDataReceive st f => Sys2Proof.Machine.execIdxReadDataReceive st f s
  | .atomicRespReceive st f => Sys2Proof.Machine.execAtomicRespReceive st f s
  | .refusalReceive st f => Sys2Proof.Machine.execRefusalReceive st f s
  | .vigilErrReceive st f => Sys2Proof.Machine.execVigilErrReceive st f s
  | .routerFrameReceive isl input plane vc f errs => Sys2Proof.Machine.execRouterFrameReceive isl input plane vc f errs s
  | .arbiterGrant arb extra => Sys2Proof.Machine.execArbiterGrant arb extra s
  | .shaperConfigWrite addr data => Sys2Proof.Machine.execShaperConfigWrite addr data s
  | .yellowRelease st key => Sys2Proof.Machine.execYellowRelease st key s
  | .yellowExpiry st key => Sys2Proof.Machine.execYellowExpiry st key s
  | .poolAllocate die => Sys2Proof.Machine.execPoolAllocate die s
  | .poolWaitExpiry die => Sys2Proof.Machine.execPoolWaitExpiry die s
  | .poolDisable die => Sys2Proof.Machine.execPoolDisable die s
  | .slotBoundary isl => Sys2Proof.Machine.execSlotBoundary isl s
  | .noWindowDrop isl input plane vc => Sys2Proof.Machine.execNoWindowDrop isl input plane vc s
  | .kalends => Sys2Proof.Machine.execKalends s
  | .launchNotice st => Sys2Proof.Machine.execLaunchNotice st s
  | .almLoad variant => Sys2Proof.Machine.execAlmLoad variant s
  | .almCopy => Sys2Proof.Machine.execAlmCopy s
  | .almArm => Sys2Proof.Machine.execAlmArm s
  | .almDisarm => Sys2Proof.Machine.execAlmDisarm s
  | .almLoadComplete ok => Sys2Proof.Machine.execAlmLoadComplete ok s
  | .coolRequestResume => Sys2Proof.Machine.execCoolRequestResume s
  | .bankHoldExpiry => Sys2Proof.Machine.execBankHoldExpiry s
  | .latticePulse isl seen => Sys2Proof.Machine.execLatticePulse isl seen s
  | .islandFtLoad isl => Sys2Proof.Machine.execIslandFtLoad isl s
  | .syncExchangeStart port => Sys2Proof.Machine.execSyncExchangeStart port s
  | .syncReceive port xid => Sys2Proof.Machine.execSyncReceive port xid s
  | .followUpReceive port fu => Sys2Proof.Machine.execFollowUpReceive port fu s
  | .delayReqReceive port xid => Sys2Proof.Machine.execDelayReqReceive port xid s
  | .delayRespReceive port xid t4 => Sys2Proof.Machine.execDelayRespReceive port xid t4 s
  | .upstreamLoss => Sys2Proof.Machine.execUpstreamLoss s
  | .upstreamReturn port => Sys2Proof.Machine.execUpstreamReturn port s
  | .ppsInEdge => Sys2Proof.Machine.execPpsInEdge s
  | .ppsInLoss => Sys2Proof.Machine.execPpsInLoss s
  | .ref10mLoss => Sys2Proof.Machine.execRef10mLoss s
  | .timeRealignArm side => Sys2Proof.Machine.execTimeRealignArm side s
  | .ppsOutRise => Sys2Proof.Machine.execPpsOutRise s
  | .ppsOutFall => Sys2Proof.Machine.execPpsOutFall s
  | .timeValidChange => Sys2Proof.Machine.execTimeValidChange s
  | .codewordReceive port cw => Sys2Proof.Machine.execCodewordReceive port cw s
  | .acwReceive port acw => Sys2Proof.Machine.execAcwReceive port acw s
  | .acwLockTimeout port => Sys2Proof.Machine.execAcwLockTimeout port s
  | .linkFrameReceive port lf => Sys2Proof.Machine.execLinkFrameReceive port lf s
  | .nakResend port => Sys2Proof.Machine.execNakResend port s
  | .ctrlAckReceive port ackSeq => Sys2Proof.Machine.execCtrlAckReceive port ackSeq s
  | .ctrlNakReceive port expected => Sys2Proof.Machine.execCtrlNakReceive port expected s
  | .ctrlFlowReceive port off => Sys2Proof.Machine.execCtrlFlowReceive port off s
  | .flowPeriodic port => Sys2Proof.Machine.execFlowPeriodic port s
  | .replayTimeout port => Sys2Proof.Machine.execReplayTimeout port s
  | .trainReceive port t => Sys2Proof.Machine.execTrainReceive port t s
  | .signalLock port => Sys2Proof.Machine.execSignalLock port s
  | .signalTimeout port => Sys2Proof.Machine.execSignalTimeout port s
  | .alignTimeout port => Sys2Proof.Machine.execAlignTimeout port s
  | .exchangeTimeout port => Sys2Proof.Machine.execExchangeTimeout port s
  | .readyTimeout port => Sys2Proof.Machine.execReadyTimeout port s
  | .retrainTimeout port => Sys2Proof.Machine.execRetrainTimeout port s
  | .cdrLoss port => Sys2Proof.Machine.execCdrLoss port s
  | .txActiveAtAcw port => Sys2Proof.Machine.execTxActiveAtAcw port s
  | .savedSettingsTimeout port => Sys2Proof.Machine.execSavedSettingsTimeout port s
  | .qualWindowEnd port => Sys2Proof.Machine.execQualWindowEnd port s
  | .monitorWindowEnd port => Sys2Proof.Machine.execMonitorWindowEnd port s
  | .portAutoRetry port => Sys2Proof.Machine.execPortAutoRetry port s
  | .portFullRetrain port => Sys2Proof.Machine.execPortFullRetrain port s
  | .portRetrain port => Sys2Proof.Machine.execPortRetrain port s
  | .portCold port => Sys2Proof.Machine.execPortCold port s
  | .portEnable port => Sys2Proof.Machine.execPortEnable port s
  | .portDisable port => Sys2Proof.Machine.execPortDisable port s
  | .portPowerGate port => Sys2Proof.Machine.execPortPowerGate port s
  | .dlinkContainerReceive die n c => Sys2Proof.Machine.execDlinkContainerReceive die n c s
  | .dlinkReplayTimeout die n => Sys2Proof.Machine.execDlinkReplayTimeout die n s
  | .dlinkModuleFail die n m => Sys2Proof.Machine.execDlinkModuleFail die n m s
  | .dlinkHalfTimeout die n => Sys2Proof.Machine.execDlinkHalfTimeout die n s
  | .dlinkTrainDone die n modules repaired => Sys2Proof.Machine.execDlinkTrainDone die n modules repaired s
  | .dlinkQualEnd die n => Sys2Proof.Machine.execDlinkQualEnd die n s
  | .dlinkRetrain die n => Sys2Proof.Machine.execDlinkRetrain die n s
  | .dlinkEnable die n => Sys2Proof.Machine.execDlinkEnable die n s
  | .dlinkDisable die n => Sys2Proof.Machine.execDlinkDisable die n s
  | .islandFreqWrite isl freq => Sys2Proof.Machine.execIslandFreqWrite isl freq s
  | .islandGlideStep isl => Sys2Proof.Machine.execIslandGlideStep isl s
  | .islandStop isl => Sys2Proof.Machine.execIslandStop isl s
  | .islandStart isl => Sys2Proof.Machine.execIslandStart isl s
  | .pllLockLost isl => Sys2Proof.Machine.execPllLockLost isl s
  | .pllRelock isl => Sys2Proof.Machine.execPllRelock isl s
  | .dieGate die => Sys2Proof.Machine.execDieGate die s
  | .dieGateDone die => Sys2Proof.Machine.execDieGateDone die s
  | .dieUngate die => Sys2Proof.Machine.execDieUngate die s
  | .ungateStepTimeout die => Sys2Proof.Machine.execUngateStepTimeout die s
  | .dieUngateDone die => Sys2Proof.Machine.execDieUngateDone die s
  | .engineClockStop st => Sys2Proof.Machine.execEngineClockStop st s
  | .pcInputSample valid ramp budget => Sys2Proof.Machine.execPcInputSample valid ramp budget s
  | .throttleNChange level => Sys2Proof.Machine.execThrottleNChange level s
  | .throttleHoldExpiry => Sys2Proof.Machine.execThrottleHoldExpiry s
  | .forceThrottleWrite value => Sys2Proof.Machine.execForceThrottleWrite value s
  | .kalendsWarnRise => Sys2Proof.Machine.execKalendsWarnRise s
  | .kalendsWarnFall => Sys2Proof.Machine.execKalendsWarnFall s
  | .dieResume => Sys2Proof.Machine.execDieResume s
  | .faultReportReceive die reports => Sys2Proof.Machine.execFaultReportReceive die reports s
  | .faultCaptureDone die => Sys2Proof.Machine.execFaultCaptureDone die s
  | .faultFenceMessage die key => Sys2Proof.Machine.execFaultFenceMessage die key s
  | .faultQuietCheck die => Sys2Proof.Machine.execFaultQuietCheck die s
  | .faultUnitReset die => Sys2Proof.Machine.execFaultUnitReset die s
  | .faultUnitClear die => Sys2Proof.Machine.execFaultUnitClear die s
  | .faultUnitRestore die => Sys2Proof.Machine.execFaultUnitRestore die s
  | .faultClearJubilee die => Sys2Proof.Machine.execFaultClearJubilee die s
  | .niPfenceSet st key => Sys2Proof.Machine.execNiPfenceSet st key s
  | .niPfenceClear st key => Sys2Proof.Machine.execNiPfenceClear st key s
  | .scrubAccess unit sram => Sys2Proof.Machine.execScrubAccess unit sram s
  | .eccWriteBack unit sram word => Sys2Proof.Machine.execEccWriteBack unit sram word s
  | .vigilExpiry st who => Sys2Proof.Machine.execVigilExpiry st who s
  | .grantExpiry st src txn => Sys2Proof.Machine.execGrantExpiry st src txn s
  | .txnRetireExpiry st txn => Sys2Proof.Machine.execTxnRetireExpiry st txn s
  | .stateBeacon die unit => Sys2Proof.Machine.execStateBeacon die unit s
  | .injectArmWrite addr data => Sys2Proof.Machine.execInjectArmWrite addr data s
  | .bucketRefill => Sys2Proof.Machine.execBucketRefill s
  | .recordPlace => Sys2Proof.Machine.execRecordPlace s
  | .chronProgramDone ctl ok => Sys2Proof.Machine.execChronProgramDone ctl ok s
  | .chronCompaction ctl => Sys2Proof.Machine.execChronCompaction ctl s
  | .sectorEraseDone ctl verified => Sys2Proof.Machine.execSectorEraseDone ctl verified s
  | .chronMountDone ctl answers => Sys2Proof.Machine.execChronMountDone ctl answers s
  | .standbyDecisionApply => Sys2Proof.Machine.execStandbyDecisionApply s
  | .chronLoad ctl => Sys2Proof.Machine.execChronLoad ctl s
  | .chronNext ctl => Sys2Proof.Machine.execChronNext ctl s
  | .chronRetireTo ctl => Sys2Proof.Machine.execChronRetireTo ctl s
  | .chronSwSubmit ctl => Sys2Proof.Machine.execChronSwSubmit ctl s
  | .chronFreeze ctl => Sys2Proof.Machine.execChronFreeze ctl s
  | .chronUnfreeze ctl => Sys2Proof.Machine.execChronUnfreeze ctl s
  | .chronFreezeExpiry => Sys2Proof.Machine.execChronFreezeExpiry s
  | .chronSecondsTick ctl => Sys2Proof.Machine.execChronSecondsTick ctl s
  | .coldReset => Sys2Proof.Machine.execColdReset s
  | .warmResetPin => Sys2Proof.Machine.execWarmResetPin s
  | .bootWarmReset side => Sys2Proof.Machine.execBootWarmReset side s
  | .bootContinueNoImage side => Sys2Proof.Machine.execBootContinueNoImage side s
  | .bootProceed side => Sys2Proof.Machine.execBootProceed side s
  | .bootClearLevels side => Sys2Proof.Machine.execBootClearLevels side s
  | .bootClearDisables side => Sys2Proof.Machine.execBootClearDisables side s
  | .bootStepStart => Sys2Proof.Machine.execBootStepStart s
  | .bootStepFinish => Sys2Proof.Machine.execBootStepFinish s
  | .bootStepTimeout => Sys2Proof.Machine.execBootStepTimeout s
  | .bootDeadlineExpiry => Sys2Proof.Machine.execBootDeadlineExpiry s
  | .heartbeatTick side => Sys2Proof.Machine.execHeartbeatTick side s
  | .heartbeatMiss side => Sys2Proof.Machine.execHeartbeatMiss side s
  | .leaseRequestReceive voter core => Sys2Proof.Machine.execLeaseRequestReceive voter core s
  | .leaseGrantExpiry voter => Sys2Proof.Machine.execLeaseGrantExpiry voter s
  | .takeover core => Sys2Proof.Machine.execTakeover core s
  | .bootHbKick side => Sys2Proof.Machine.execBootHbKick side s
  | .bootMirrorFence side => Sys2Proof.Machine.execBootMirrorFence side s
  | .mirrorFenceDone => Sys2Proof.Machine.execMirrorFenceDone s
  | .standbySyncDone => Sys2Proof.Machine.execStandbySyncDone s
  | .mbxCmdProdWrite idx entries => Sys2Proof.Machine.execMbxCmdProdWrite idx entries s
  | .mbxRspConsWrite idx => Sys2Proof.Machine.execMbxRspConsWrite idx s
  | .mbxNop => Sys2Proof.Machine.execMbxNop s
  | .mbxGetInfo => Sys2Proof.Machine.execMbxGetInfo s
  | .mbxImageStage dma => Sys2Proof.Machine.execMbxImageStage dma s
  | .mbxImageCommit => Sys2Proof.Machine.execMbxImageCommit s
  | .mbxImageAbort => Sys2Proof.Machine.execMbxImageAbort s
  | .mbxFwWrite dma => Sys2Proof.Machine.execMbxFwWrite dma s
  | .mbxFwSelect => Sys2Proof.Machine.execMbxFwSelect s
  | .mbxWarmReset => Sys2Proof.Machine.execMbxWarmReset s
  | .mbxRegRead => Sys2Proof.Machine.execMbxRegRead s
  | .mbxRegWrite => Sys2Proof.Machine.execMbxRegWrite s
  | .mbxChronRead => Sys2Proof.Machine.execMbxChronRead s
  | .mbxDiaryRead => Sys2Proof.Machine.execMbxDiaryRead s
  | .mbxEventMask => Sys2Proof.Machine.execMbxEventMask s
  | .mbxBackgroundDone hseq => Sys2Proof.Machine.execMbxBackgroundDone hseq s
  | .msixHoldoffExpiry vector => Sys2Proof.Machine.execMsixHoldoffExpiry vector s
  | .liveChangeFinish => Sys2Proof.Machine.execLiveChangeFinish s
  | .opAllReduce st d => Sys2Proof.Machine.execOpAllReduce st d s
  | .opReduceScatter st d => Sys2Proof.Machine.execOpReduceScatter st d s
  | .opAllGather st d => Sys2Proof.Machine.execOpAllGather st d s
  | .opReduce st d => Sys2Proof.Machine.execOpReduce st d s
  | .opBroadcast st d => Sys2Proof.Machine.execOpBroadcast st d s
  | .opAllToAll st d => Sys2Proof.Machine.execOpAllToAll st d s
  | .opSparseSum st d => Sys2Proof.Machine.execOpSparseSum st d s
  | .opBarrier st d => Sys2Proof.Machine.execOpBarrier st d s
  | .opCancel st d => Sys2Proof.Machine.execOpCancel st d s
  | .stageRsvReceive st f => Sys2Proof.Machine.execStageRsvReceive st f s
  | .stageGrantSend st tag chunk => Sys2Proof.Machine.execStageGrantSend st tag chunk s
  | .stageGrantReceive st f => Sys2Proof.Machine.execStageGrantReceive st f s
  | .chunkReceive st f => Sys2Proof.Machine.execChunkReceive st f s
  | .partialReceive st f => Sys2Proof.Machine.execPartialReceive st f s
  | .sparseReceive st f => Sys2Proof.Machine.execSparseReceive st f s
  | .resultReceive st f => Sys2Proof.Machine.execResultReceive st f s
  | .barrierReceive st f => Sys2Proof.Machine.execBarrierReceive st f s
  | .cancelReceive st f => Sys2Proof.Machine.execCancelReceive st f s
  | .collectiveComplete st tag => Sys2Proof.Machine.execCollectiveComplete st tag s
  | .diaryReportReceive side r => Sys2Proof.Machine.execDiaryReportReceive side r s
  | .diaryRdAdvance rd => Sys2Proof.Machine.execDiaryRdAdvance rd s
  | .statsRdAdvance st rd => Sys2Proof.Machine.execStatsRdAdvance st rd s
  | .jrnlRdAdvance st rd => Sys2Proof.Machine.execJrnlRdAdvance st rd s
  | .replayDiverge st => Sys2Proof.Machine.execReplayDiverge st s
  | .jrnlModeWrite st mode ring => Sys2Proof.Machine.execJrnlModeWrite st mode ring s
  | .holidayStopPackage side => Sys2Proof.Machine.execHolidayStopPackage side s
  | .holidayStopMachine side => Sys2Proof.Machine.execHolidayStopMachine side s
  | .holidayPin => Sys2Proof.Machine.execHolidayPin s
  | .holidayStopFrame port arg => Sys2Proof.Machine.execHolidayStopFrame port arg s
  | .dieStopAck die => Sys2Proof.Machine.execDieStopAck die s
  | .holidayAckTimeout => Sys2Proof.Machine.execHolidayAckTimeout s
  | .holidayRelease side => Sys2Proof.Machine.execHolidayRelease side s
  | .holidayReleaseFrame port arg => Sys2Proof.Machine.execHolidayReleaseFrame port arg s
  | .holidayScan side => Sys2Proof.Machine.execHolidayScan side s
  | .traceCollect die => Sys2Proof.Machine.execTraceCollect die s
  | .traceArm => Sys2Proof.Machine.execTraceArm s
  | .traceTrigger => Sys2Proof.Machine.execTraceTrigger s
  | .traceAdvance => Sys2Proof.Machine.execTraceAdvance s
  | .traceRecordDrained => Sys2Proof.Machine.execTraceRecordDrained s
  | .tracePortEnable => Sys2Proof.Machine.execTracePortEnable s
  | .ref10mReturn => Sys2Proof.Machine.execRef10mReturn s
  | .dlinkNakResend die n => Sys2Proof.Machine.execDlinkNakResend die n s
  | .coldStartLeaseRequest core => Sys2Proof.Machine.execColdStartLeaseRequest core s
  | .standbyLost => Sys2Proof.Machine.execStandbyLost s
  | .msixTableWrite vector addr data masked => Sys2Proof.Machine.execMsixTableWrite vector addr data masked s

end Sys2Proof.Machine
end

