-- ==== Sys2Proof/Machine/Step.lean ====
section
/-! DEFINITION. One step: the command at the front of the queue, or, on an empty queue, one tick of the reference clock. -/
namespace Sys2Proof.Machine

/-- The step: the front command acts on the state with the rest of the queue; an empty queue lets one reference cycle pass (log 16). -/
def step (s : State) : Host.Outcome State Fault Refusal :=
  match s.pending with
  | [] => done s s.cycle.sramCycle
  | c :: rest => exec c { s with pending := rest }

/-- The state with the command that a table word spells put at the front of its queue; no word spells one (log 15). -/
def State.withFetchWord (s : State) (nbits w : Nat) : State :=
  match decodeTableWord nbits w with
  | some c => { s with pending := c :: s.pending }
  | none => s

end Sys2Proof.Machine
end

