-- ==== Sys2Proof/Safety.lean ====
section
/-! DEFINITION. What counts as a safe step, and the conditions of the state that claims name: the units that are there and able to act. -/
namespace Sys2Proof
open Machine

/-- A step from a state goes on: it ends in no fault and no refusal. -/
def safeStep (s : State) : Prop := ∃ t, step s = .next t

/-- A station's NI is there: the instance has the station (R25, R26), and its die is neither disabled (R37, R344) nor gated off (R281). -/
def niThere (s : State) (st : Nat) : Bool := s.stationOn st

/-- No descriptor waits at a station's NI: none is offered and not taken, none is held by a fence (R59), for an instance (R192) or for room in the
yellow list (R167). -/
def niQuiet (s : State) (st : Nat) : Bool :=
  (s.getNi st).cmdq.isEmpty && (s.getNi st).cmdWait.isEmpty && (s.getNi st).collWait.isEmpty && (s.getNi st).yellowWait.isEmpty

/-- A station's NI is there, it is not stopped by Holiday or by its island (R67), and no descriptor waits at it. -/
def niFree (s : State) (st : Nat) : Bool := niThere s st && !s.niStopped st && niQuiet s st

/-- A port is there (R32). -/
def portThere (s : State) (port : Nat) : Bool := decide (port < portCount s.pkg)

/-- A crossing's end is there (R270), and its die is not disabled. -/
def dlinkUp (s : State) (die n : Nat) : Bool := unitKind s.pkg (dlinkUnit die n) == some .dlink && !s.dieDisabled die

/-- A clock island is there (R35). -/
def islThere (s : State) (isl : Island) : Bool := islExists s.pkg isl.die isl.inst

/-- A clock island is there, and its die is not disabled. -/
def islUp (s : State) (isl : Island) : Bool := islThere s isl && !s.dieDisabled isl.die

/-- A pool instance is there (R168), and its die is not disabled. -/
def poolThere (s : State) (die : Nat) : Bool := unitKind s.pkg (poolUnit die) == some .pool && !s.dieDisabled die

/-- A descriptor that a free NI takes at once and starts: ni_cmd_ready is high for it, it is not triggered, and no fence holds it (R55, R58, R59). -/
def descTaken (s : State) (st : Nat) (d : Desc) : Prop :=
  niFree s st = true ∧ s.cmdReady st d = true ∧ dTrigEn d = false ∧ (dFence d = true → (s.getNi st).live = 0)

/-- What a command that answers with effect t leaves: t with the queue and the identity that s had (log 5). -/
def kept (s t : State) : State := { t with pending := s.pending, pkg := s.pkg }

/-- A station's NI is there, and neither Holiday nor its island stops it (R67). -/
def niUp (s : State) (st : Nat) : Bool := niThere s st && !s.niStopped st

/-- What an NI command with effect t leaves of s, once the NI has gone on with the descriptors it holds: the parts that NIs reach. -/
def niAfter (s t : State) (st : Nat) : State :=
  { s with ni := (t.service st).ni, pools := (t.service st).pools, regs := (t.service st).regs, ctrs := (t.service st).ctrs,
           out := (t.service st).out, irqHeld := (t.service st).irqHeld, freeCtr := (t.service st).freeCtr, eng := (t.service st).eng,
           pwr := (t.service st).pwr }

/-- t is s with one station's NI at n, and nothing else changed. -/
def niNow (s t : State) (st : Nat) (n : Ni) : Prop :=
  t = { s with ni := t.ni } ∧ t.getNi st = n ∧ ∀ j, j ≠ st → t.getNi j = s.getNi j

/-- u is s with one more descriptor live at a station's NI. -/
def liveOne (s u : State) (st : Nat) : Prop := niNow s u st { s.getNi st with live := (s.getNi st).live + 1 }

/-- The state once the FM has taken the command at the front of the mailbox's ring: it is consumed, its HSEQ is the last one seen, and it is open (R359, R360). -/
def mbxTaken (s : State) : State :=
  (s.mbxConsume.setMb F.MBX_HOST_SEQ_SEEN_HSEQ (dw s.mbxFront 0).toNat).updMbx (fun m =>
    { m with open_ := m.open_ ++ [(dw s.mbxFront 0, BitVec.ofNat 16 (getBits (dw s.mbxFront 1) 15 0))] })

/-- The front command of the mailbox's ring is of an opcode, and passes the checks that come before it acts: its HSEQ, its ARGS and the boot state (R360, R361). -/
def mbxTakes (s : State) (op : Nat) : Prop :=
  s.mbxReady = true ∧ getBits (dw s.mbxFront 1) 15 0 = op ∧ (dw s.mbxFront 0).toNat = (s.mb F.MBX_HOST_SEQ_SEEN_HSEQ + 1) % 2 ^ 32 ∧
    ∃ n a, mbxCmd op = some (n, a) ∧ badArg s.mbxFront n = none ∧
      mbxStateOk a ((mbxTaken s).fld (bootUnit s.pkg (s.holder.getD 0)) F.BOOT_STATUS_STATE) = true

/-! ## What a command names, and what it reaches -/

/-- What a command names: the unit that must be there for it to act. -/
inductive Site where
  | package
  | ni (st : Nat)
  | station (st : Nat)
  | pool (die : Nat)
  | port (q : Nat)
  | crossing (die n : Nat)
  | crossingEnd (die n : Nat)
  | router (isl : Island)
  | island (isl : Island)
  | arbiter (arb : Arb)
  | die (die : Nat)
  | beacon (die unit : Nat)
  | sram (unit sram : Nat)
  | side (k : Nat)
  | voter (v : Nat)
  | vote (v core : Nat)
  deriving DecidableEq, Repr

/-- Whether the unit that a command names is there: the package has it, and for the gated domain of a die the die is not disabled (R37, R344). -/
def Site.there (s : State) : Site → Bool
  | .package => true
  | .ni st => niThere s st
  | .station st => (stationKind s.pkg st).isSome
  | .pool d => poolThere s d
  | .port q => portThere s q
  | .crossing d n => dlinkUp s d n
  | .crossingEnd d n => dlinkThere s.pkg d n
  | .router i => islUp s i
  | .island i => islThere s i
  | .arbiter a => arbHere s a
  | .die d => dieExists s.pkg d
  | .beacon d u => dieExists s.pkg d && unitDie u == d && (unitKind s.pkg u).isSome
  | .sram u k => (unitKind s.pkg u).isSome && decide (k < 64)
  | .side k => decide (k < 2)
  | .voter v => decide (v < voterCount s.pkg)
  | .vote v k => decide (v < voterCount s.pkg) && decide (k < 2)

/-- What each command names. -/
def Instr.site (c : Instr) : Site :=
  match c with
  | .registerWrite core _ _ _ _ | .takeover core | .coldStartLeaseRequest core => .side core
  | .treeTimeout _ _ _ _ | .counterLoRead _ | .counterHiRead _ | .pairLoWrite _ _ | .pairHiWrite _ _ | .counterClear _ _ _
    | .shaperConfigWrite _ _ | .kalends | .almLoad _ | .almCopy | .almArm | .almDisarm | .almLoadComplete _ | .coolRequestResume
    | .bankHoldExpiry | .upstreamLoss | .ppsOutRise | .ppsOutFall | .timeValidChange
    | .throttleHoldExpiry | .forceThrottleWrite _ | .kalendsWarnRise | .kalendsWarnFall | .dieResume
    | .injectArmWrite _ _ | .bucketRefill | .recordPlace | .standbyDecisionApply | .chronFreezeExpiry | .coldReset | .warmResetPin
    | .bootStepStart | .bootStepFinish | .bootStepTimeout | .bootDeadlineExpiry | .mirrorFenceDone | .standbySyncDone | .mbxCmdProdWrite _ _
    | .mbxRspConsWrite _ | .mbxNop | .mbxGetInfo | .mbxImageStage _ | .mbxImageCommit | .mbxImageAbort | .mbxFwWrite _ | .mbxFwSelect
    | .mbxWarmReset | .mbxRegRead | .mbxRegWrite | .mbxChronRead | .mbxDiaryRead | .mbxEventMask | .mbxBackgroundDone _ | .msixHoldoffExpiry _
    | .liveChangeFinish | .diaryRdAdvance _ | .holidayStopPackage _ | .holidayStopMachine _ | .holidayPin | .holidayStopFrame _ _ | .dieStopAck _
    | .holidayAckTimeout | .holidayRelease _ | .holidayReleaseFrame _ _ | .holidayScan _ | .traceCollect _ | .traceArm | .traceTrigger
    | .traceAdvance | .traceRecordDrained | .tracePortEnable | .standbyLost | .msixTableWrite _ _ _ _ | .ppsInEdge | .ppsInLoss
    | .ref10mLoss | .ref10mReturn => .package
  | .pcInputSample valid _ _ => .side valid.side
  | .throttleNChange level => .side level.side
  | .timeNowLoRead side | .timeRealignArm side | .bootWarmReset side | .bootContinueNoImage side | .bootProceed side | .bootClearLevels side
    | .bootClearDisables side | .heartbeatTick side | .heartbeatMiss side | .bootHbKick side | .bootMirrorFence side | .diaryReportReceive side _ => .side side
  | .opNop st _ | .opPut st _ | .opGet st _ | .opIndexedRead st _ | .opMessage st _ | .opAtomic st _ | .opCounterAdd st _ | .opCounterSet st _
    | .opStreamPut st _ | .descriptorTriggerStore st _ | .triggerFire st _ | .xlatMissFetchDone st _ _ | .niXlatFlush st | .niTrigClearAll st
    | .writeDone st _ | .completionRecordTaken st | .eventNoticeTaken st _ | .readDataReturn st _ _ _ | .writeRsvReceive st _
    | .writeDataReceive st _ | .readReqReceive st _ | .idxReadReqReceive st _ | .messageReceive st _ | .atomicReceive st _
    | .streamDataReceive st _ | .grantReceive st _ | .ackReceive st _ | .readDataReceive st _ | .idxReadDataReceive st _
    | .atomicRespReceive st _ | .refusalReceive st _ | .vigilErrReceive st _ | .yellowRelease st _ | .yellowExpiry st _ | .launchNotice st
    | .niPfenceSet st _ | .niPfenceClear st _ | .vigilExpiry st _ | .grantExpiry st _ _ | .txnRetireExpiry st _ | .opAllReduce st _
    | .opReduceScatter st _ | .opAllGather st _ | .opReduce st _ | .opBroadcast st _ | .opAllToAll st _ | .opSparseSum st _ | .opBarrier st _
    | .opCancel st _ | .stageRsvReceive st _ | .stageGrantSend st _ _ | .stageGrantReceive st _ | .chunkReceive st _ | .partialReceive st _
    | .sparseReceive st _ | .resultReceive st _ | .barrierReceive st _ | .cancelReceive st _ | .collectiveComplete st _ | .statsRdAdvance st _
    | .jrnlRdAdvance st _ | .replayDiverge st | .jrnlModeWrite st _ _ => .ni st
  | .routerFrameReceive isl _ _ _ _ _ | .slotBoundary isl | .noWindowDrop isl _ _ _ => .router isl
  | .arbiterGrant arb _ => .arbiter arb
  | .poolAllocate die | .poolWaitExpiry die | .poolDisable die => .pool die
  | .latticePulse isl _ | .islandFtLoad isl | .islandFreqWrite isl _ | .islandGlideStep isl | .islandStop isl | .islandStart isl
    | .pllLockLost isl | .pllRelock isl => .island isl
  | .syncExchangeStart port | .syncReceive port _ | .followUpReceive port _ | .delayReqReceive port _ | .delayRespReceive port _ _
    | .upstreamReturn port | .codewordReceive port _ | .acwReceive port _ | .acwLockTimeout port | .linkFrameReceive port _ | .nakResend port
    | .ctrlAckReceive port _ | .ctrlNakReceive port _ | .ctrlFlowReceive port _ | .flowPeriodic port | .replayTimeout port | .trainReceive port _
    | .signalLock port | .signalTimeout port | .alignTimeout port | .exchangeTimeout port | .readyTimeout port | .retrainTimeout port
    | .cdrLoss port | .txActiveAtAcw port | .savedSettingsTimeout port | .qualWindowEnd port | .monitorWindowEnd port | .portAutoRetry port
    | .portFullRetrain port | .portRetrain port | .portCold port | .portEnable port | .portDisable port | .portPowerGate port => .port port
  | .dlinkContainerReceive die n _ | .dlinkReplayTimeout die n | .dlinkModuleFail die n _ | .dlinkHalfTimeout die n | .dlinkTrainDone die n _ _
    | .dlinkQualEnd die n | .dlinkRetrain die n | .dlinkNakResend die n => .crossing die n
  | .dlinkEnable die n | .dlinkDisable die n => .crossingEnd die n
  | .dieGate die | .dieGateDone die | .dieUngate die | .ungateStepTimeout die | .dieUngateDone die | .faultReportReceive die _
    | .faultCaptureDone die | .faultFenceMessage die _ | .faultQuietCheck die | .faultUnitReset die | .faultUnitClear die | .faultUnitRestore die
    | .faultClearJubilee die => .die die
  | .engineClockStop st => .station st
  | .scrubAccess unit sram | .eccWriteBack unit sram _ => .sram unit sram
  | .stateBeacon die unit => .beacon die unit
  | .chronProgramDone ctl _ | .chronCompaction ctl | .sectorEraseDone ctl _ | .chronMountDone ctl _ | .chronLoad ctl | .chronNext ctl
    | .chronRetireTo ctl | .chronSwSubmit ctl | .chronFreeze ctl | .chronUnfreeze ctl | .chronSecondsTick ctl => .side ctl
  | .leaseRequestReceive voter core => .vote voter core
  | .leaseGrantExpiry voter => .voter voter

/-- The parts of the state that commands of a kind reach. -/
inductive Part where
  | ni
  | pool
  | path
  | power
  | almanac
  | fault
  | sram
  | chron
  | mbx
  | diary
  | trace
  | all
  deriving DecidableEq, Repr

/-- s with the fields that commands of a kind reach taken from t. None reaches the queue or the package's identity. -/
def Part.put (p : Part) (s t : State) : State :=
  match p with
  | .ni => { s with ni := t.ni, pools := t.pools, regs := t.regs, ctrs := t.ctrs, out := t.out, irqHeld := t.irqHeld, freeCtr := t.freeCtr, eng := t.eng, pwr := t.pwr }
  | .pool => { s with ni := t.ni, pools := t.pools, regs := t.regs, ctrs := t.ctrs, out := t.out, irqHeld := t.irqHeld, freeCtr := t.freeCtr }
  | .path => onPath s t
  | .power => onPower s t
  | .almanac => { s with alm := t.alm, regs := t.regs, out := t.out, irqHeld := t.irqHeld }
  | .fault =>
    { s with flt := t.flt, regs := t.regs, ctrs := t.ctrs, out := t.out, irqHeld := t.irqHeld, freeCtr := t.freeCtr, ni := t.ni, pools := t.pools,
             ports := t.ports, dlinks := t.dlinks, rtr := t.rtr, arbs := t.arbs, chron := t.chron, mbx := t.mbx, hol := t.hol, trace := t.trace,
             time := t.time, pwr := t.pwr, eng := t.eng, diary := t.diary, alm := t.alm, isl := t.isl }
  | .sram => { s with flt := t.flt, regs := t.regs, out := t.out, freeCtr := t.freeCtr }
  | .chron => chronParts s t
  | .mbx => { s with mbx := t.mbx, regs := t.regs, ctrs := t.ctrs, out := t.out, irqHeld := t.irqHeld }
  | .diary => onDiary s t
  | .trace =>
    { s with hol := t.hol, trace := t.trace, regs := t.regs, ctrs := t.ctrs, out := t.out, irqHeld := t.irqHeld, ports := t.ports, rtr := t.rtr
             freeCtr := t.freeCtr }
  | .all => { t with pending := s.pending, pkg := s.pkg }

/-- The parts that each command reaches. -/
def Instr.part (c : Instr) : Part :=
  match c with
  | .registerWrite _ _ _ _ _ | .treeTimeout _ _ _ _ | .counterLoRead _ | .counterHiRead _ | .timeNowLoRead _ | .pairLoWrite _ _
    | .pairHiWrite _ _ | .counterClear _ _ _ | .shaperConfigWrite _ _ | .poolDisable _ | .kalends | .latticePulse _ _ | .islandFtLoad _
    | .syncExchangeStart _ | .syncReceive _ _ | .followUpReceive _ _ | .delayReqReceive _ _ | .delayRespReceive _ _ _ | .upstreamLoss
    | .upstreamReturn _ | .ppsInEdge | .ppsInLoss | .ref10mLoss | .timeRealignArm _ | .ppsOutRise | .ppsOutFall | .timeValidChange
    | .portEnable _ | .portDisable _ | .dlinkEnable _ _ | .dlinkDisable _ _ | .islandStop _ | .islandStart _ | .pllRelock _ | .dieUngateDone _
    | .engineClockStop _ | .kalendsWarnRise | .kalendsWarnFall | .dieResume | .stateBeacon _ _ | .injectArmWrite _ _ | .chronSecondsTick _
    | .coldReset | .warmResetPin | .bootWarmReset _ | .bootContinueNoImage _ | .bootProceed _ | .bootClearLevels _ | .bootClearDisables _
    | .bootStepStart | .bootStepFinish | .bootStepTimeout | .bootDeadlineExpiry | .heartbeatTick _ | .heartbeatMiss _ | .leaseRequestReceive _ _
    | .leaseGrantExpiry _ | .takeover _ | .bootHbKick _ | .bootMirrorFence _ | .mirrorFenceDone | .standbySyncDone | .mbxGetInfo
    | .mbxImageStage _ | .mbxImageCommit | .mbxImageAbort | .mbxFwWrite _ | .mbxFwSelect | .mbxWarmReset | .mbxRegRead | .mbxRegWrite
    | .mbxChronRead | .mbxDiaryRead | .liveChangeFinish | .ref10mReturn | .coldStartLeaseRequest _ | .standbyLost => .all
  | .opNop _ _ | .opPut _ _ | .opGet _ _ | .opIndexedRead _ _ | .opMessage _ _ | .opAtomic _ _ | .opCounterAdd _ _ | .opCounterSet _ _
    | .opStreamPut _ _ | .descriptorTriggerStore _ _ | .triggerFire _ _ | .xlatMissFetchDone _ _ _ | .niXlatFlush _ | .niTrigClearAll _
    | .writeDone _ _ | .completionRecordTaken _ | .eventNoticeTaken _ _ | .readDataReturn _ _ _ _ | .writeRsvReceive _ _ | .writeDataReceive _ _
    | .readReqReceive _ _ | .idxReadReqReceive _ _ | .messageReceive _ _ | .atomicReceive _ _ | .streamDataReceive _ _ | .grantReceive _ _
    | .ackReceive _ _ | .readDataReceive _ _ | .idxReadDataReceive _ _ | .atomicRespReceive _ _ | .refusalReceive _ _ | .vigilErrReceive _ _
    | .yellowRelease _ _ | .yellowExpiry _ _ | .launchNotice _ | .niPfenceSet _ _ | .niPfenceClear _ _ | .vigilExpiry _ _ | .grantExpiry _ _ _
    | .txnRetireExpiry _ _ | .opAllReduce _ _ | .opReduceScatter _ _ | .opAllGather _ _ | .opReduce _ _ | .opBroadcast _ _ | .opAllToAll _ _
    | .opSparseSum _ _ | .opBarrier _ _ | .opCancel _ _ | .stageRsvReceive _ _ | .stageGrantSend _ _ _ | .stageGrantReceive _ _
    | .chunkReceive _ _ | .partialReceive _ _ | .sparseReceive _ _ | .resultReceive _ _ | .barrierReceive _ _ | .cancelReceive _ _
    | .collectiveComplete _ _ | .statsRdAdvance _ _ | .jrnlRdAdvance _ _ | .replayDiverge _ | .jrnlModeWrite _ _ _ => .ni
  | .routerFrameReceive _ _ _ _ _ _ | .arbiterGrant _ _ | .slotBoundary _ | .noWindowDrop _ _ _ _ | .codewordReceive _ _ | .acwReceive _ _
    | .acwLockTimeout _ | .linkFrameReceive _ _ | .nakResend _ | .ctrlAckReceive _ _ | .ctrlNakReceive _ _ | .ctrlFlowReceive _ _
    | .flowPeriodic _ | .replayTimeout _ | .trainReceive _ _ | .signalLock _ | .signalTimeout _ | .alignTimeout _ | .exchangeTimeout _
    | .readyTimeout _ | .retrainTimeout _ | .cdrLoss _ | .txActiveAtAcw _ | .savedSettingsTimeout _ | .qualWindowEnd _ | .monitorWindowEnd _
    | .portAutoRetry _ | .portFullRetrain _ | .portRetrain _ | .portCold _ | .portPowerGate _ | .dlinkContainerReceive _ _ _
    | .dlinkReplayTimeout _ _ | .dlinkModuleFail _ _ _ | .dlinkHalfTimeout _ _ | .dlinkTrainDone _ _ _ _ | .dlinkQualEnd _ _ | .dlinkRetrain _ _
    | .dlinkNakResend _ _ => .path
  | .poolAllocate _ | .poolWaitExpiry _ => .pool
  | .almLoad _ | .almCopy | .almArm | .almDisarm | .almLoadComplete _ | .coolRequestResume | .bankHoldExpiry => .almanac
  | .islandFreqWrite _ _ | .islandGlideStep _ | .pllLockLost _ | .dieGate _ | .dieGateDone _ | .dieUngate _ | .ungateStepTimeout _
    | .pcInputSample _ _ _ | .throttleNChange _ | .throttleHoldExpiry | .forceThrottleWrite _ => .power
  | .faultReportReceive _ _ | .faultCaptureDone _ | .faultFenceMessage _ _ | .faultQuietCheck _ | .faultUnitReset _ | .faultUnitClear _
    | .faultUnitRestore _ | .faultClearJubilee _ => .fault
  | .scrubAccess _ _ | .eccWriteBack _ _ _ => .sram
  | .bucketRefill | .recordPlace | .chronProgramDone _ _ | .chronCompaction _ | .sectorEraseDone _ _ | .chronMountDone _ _
    | .standbyDecisionApply | .chronLoad _ | .chronNext _ | .chronRetireTo _ | .chronSwSubmit _ | .chronFreeze _ | .chronUnfreeze _
    | .chronFreezeExpiry => .chron
  | .mbxCmdProdWrite _ _ | .mbxRspConsWrite _ | .mbxNop | .mbxEventMask | .mbxBackgroundDone _ | .msixHoldoffExpiry _ | .msixTableWrite _ _ _ _ => .mbx
  | .diaryReportReceive _ _ | .diaryRdAdvance _ => .diary
  | .holidayStopPackage _ | .holidayStopMachine _ | .holidayPin | .holidayStopFrame _ _ | .dieStopAck _ | .holidayAckTimeout | .holidayRelease _
    | .holidayReleaseFrame _ _ | .holidayScan _ | .traceCollect _ | .traceArm | .traceTrigger | .traceAdvance | .traceRecordDrained
    | .tracePortEnable => .trace

end Sys2Proof
end

