-- ==== Sys2Proof/WellFormed.lean ====
section
/-! DEFINITION. Well-formed commands: every operand that names a unit or a code lies within the numbers that the specification
gives (R13, R25, R26, R32, R35, R352, R388). -/
namespace Sys2Proof

/-- A die number: 0 to 19 (R13). -/
def okDie (d : Nat) : Bool := decide (d < 20)
/-- A station id: five bits of die, eleven of station (R25). -/
def okSt (st : Nat) : Bool := decide (st < 40960)
/-- A port number: a route port of Priberun-A or a port of Priberun-S (R32). -/
def okPort (q : Nat) : Bool := decide (q < 64)
/-- A management side, controller or core: 0 or 1 (R352). -/
def okSide (i : Nat) : Bool := decide (i < 2)
/-- A router or island: an instance 0 to 63 (R26, R35). -/
def okIsl (i : Island) : Bool := okDie i.die && decide (i.inst < 64)
/-- A unit address: 20 bits (R388). -/
def okUnit (u : Nat) : Bool := decide (u < 1048576)
/-- A plane: RQ, RS, BK, CV. -/
def okPlane (p : Nat) : Bool := decide (p < 4)

/-- Whether an arbiter names units that can exist. -/
def okArb : Arb → Bool
  | .routerOut isl plane out => okIsl isl && okPlane plane && decide (out < 64)
  | .staging port plane => okPort port && okPlane plane
  | .portMux port => okPort port
  | .niIssue st => okSt st
  | .engineIn st => okSt st
  | .sram unit index => okUnit unit && decide (index < 64)

/-- Whether a command's operands name units and codes that can exist. -/
def Instr.wellFormed (i : Instr) : Bool :=
  match i with
  | .registerWrite core tag _ _ _ => okSide core && decide (tag < 256)
  | .treeTimeout tag _ _ _ => decide (tag < 256)
  | .counterLoRead _ => true
  | .counterHiRead _ => true
  | .timeNowLoRead side => okSide side
  | .pairLoWrite _ _ => true
  | .pairHiWrite _ _ => true
  | .counterClear _ _ _ => true
  | .opNop st _ => okSt st
  | .opPut st _ => okSt st
  | .opGet st _ => okSt st
  | .opIndexedRead st _ => okSt st
  | .opMessage st _ => okSt st
  | .opAtomic st _ => okSt st
  | .opCounterAdd st _ => okSt st
  | .opCounterSet st _ => okSt st
  | .opStreamPut st _ => okSt st
  | .descriptorTriggerStore st _ => okSt st
  | .triggerFire st slot => okSt st && decide (slot < 4096)
  | .xlatMissFetchDone st _ _ => okSt st
  | .niXlatFlush st => okSt st
  | .niTrigClearAll st => okSt st
  | .writeDone st id => okSt st && decide (id < 256)
  | .completionRecordTaken st => okSt st
  | .eventNoticeTaken st ctr => okSt st && decide (ctr < 4096)
  | .readDataReturn st id _ _ => okSt st && decide (id < 256)
  | .writeRsvReceive st _ => okSt st
  | .writeDataReceive st _ => okSt st
  | .readReqReceive st _ => okSt st
  | .idxReadReqReceive st _ => okSt st
  | .messageReceive st _ => okSt st
  | .atomicReceive st _ => okSt st
  | .streamDataReceive st _ => okSt st
  | .grantReceive st _ => okSt st
  | .ackReceive st _ => okSt st
  | .readDataReceive st _ => okSt st
  | .idxReadDataReceive st _ => okSt st
  | .atomicRespReceive st _ => okSt st
  | .refusalReceive st _ => okSt st
  | .vigilErrReceive st _ => okSt st
  | .routerFrameReceive isl input plane vc _ _ => okIsl isl && decide (input < 64) && okPlane plane && decide (vc < 4)
  | .arbiterGrant arb _ => okArb arb
  | .shaperConfigWrite _ _ => true
  | .yellowRelease st key => okSt st && decide (key < 4096)
  | .yellowExpiry st key => okSt st && decide (key < 4096)
  | .poolAllocate die => okDie die
  | .poolWaitExpiry die => okDie die
  | .poolDisable die => okDie die
  | .slotBoundary isl => okIsl isl
  | .noWindowDrop isl input plane vc => okIsl isl && decide (input < 64) && okPlane plane && decide (vc < 4)
  | .kalends => true
  | .launchNotice st => okSt st
  | .almLoad _ => true
  | .almCopy => true
  | .almArm => true
  | .almDisarm => true
  | .almLoadComplete _ => true
  | .coolRequestResume => true
  | .bankHoldExpiry => true
  | .latticePulse isl _ => okIsl isl
  | .islandFtLoad isl => okIsl isl
  | .syncExchangeStart port => okPort port
  | .syncReceive port xid => okPort port && decide (xid < 256)
  | .followUpReceive port _ => okPort port
  | .delayReqReceive port xid => okPort port && decide (xid < 256)
  | .delayRespReceive port xid _ => okPort port && decide (xid < 256)
  | .upstreamLoss => true
  | .upstreamReturn port => okPort port
  | .ppsInEdge => true
  | .ppsInLoss => true
  | .ref10mLoss => true
  | .timeRealignArm side => okSide side
  | .ppsOutRise => true
  | .ppsOutFall => true
  | .timeValidChange => true
  | .codewordReceive port _ => okPort port
  | .acwReceive port _ => okPort port
  | .acwLockTimeout port => okPort port
  | .linkFrameReceive port _ => okPort port
  | .nakResend port => okPort port
  | .ctrlAckReceive port _ => okPort port
  | .ctrlNakReceive port _ => okPort port
  | .ctrlFlowReceive port _ => okPort port
  | .flowPeriodic port => okPort port
  | .replayTimeout port => okPort port
  | .trainReceive port _ => okPort port
  | .signalLock port => okPort port
  | .signalTimeout port => okPort port
  | .alignTimeout port => okPort port
  | .exchangeTimeout port => okPort port
  | .readyTimeout port => okPort port
  | .retrainTimeout port => okPort port
  | .cdrLoss port => okPort port
  | .txActiveAtAcw port => okPort port
  | .savedSettingsTimeout port => okPort port
  | .qualWindowEnd port => okPort port
  | .monitorWindowEnd port => okPort port
  | .portAutoRetry port => okPort port
  | .portFullRetrain port => okPort port
  | .portRetrain port => okPort port
  | .portCold port => okPort port
  | .portEnable port => okPort port
  | .portDisable port => okPort port
  | .portPowerGate port => okPort port
  | .dlinkContainerReceive die n _ => okDie die && decide (n < 32)
  | .dlinkReplayTimeout die n => okDie die && decide (n < 32)
  | .dlinkModuleFail die n m => okDie die && decide (n < 32) && decide (m < 4)
  | .dlinkHalfTimeout die n => okDie die && decide (n < 32)
  | .dlinkTrainDone die n _ _ => okDie die && decide (n < 32)
  | .dlinkQualEnd die n => okDie die && decide (n < 32)
  | .dlinkRetrain die n => okDie die && decide (n < 32)
  | .dlinkEnable die n => okDie die && decide (n < 32)
  | .dlinkDisable die n => okDie die && decide (n < 32)
  | .islandFreqWrite isl _ => okIsl isl
  | .islandGlideStep isl => okIsl isl
  | .islandStop isl => okIsl isl
  | .islandStart isl => okIsl isl
  | .pllLockLost isl => okIsl isl
  | .pllRelock isl => okIsl isl
  | .dieGate die => okDie die
  | .dieGateDone die => okDie die
  | .dieUngate die => okDie die
  | .ungateStepTimeout die => okDie die
  | .dieUngateDone die => okDie die
  | .engineClockStop st => okSt st
  | .pcInputSample valid _ _ => okSide valid.side
  | .throttleNChange level => okSide level.side
  | .throttleHoldExpiry => true
  | .forceThrottleWrite _ => true
  | .kalendsWarnRise => true
  | .kalendsWarnFall => true
  | .dieResume => true
  | .faultReportReceive die _ => okDie die
  | .faultCaptureDone die => okDie die
  | .faultFenceMessage die key => okDie die && decide (key < 4096)
  | .faultQuietCheck die => okDie die
  | .faultUnitReset die => okDie die
  | .faultUnitClear die => okDie die
  | .faultUnitRestore die => okDie die
  | .faultClearJubilee die => okDie die
  | .niPfenceSet st key => okSt st && decide (key < 4096)
  | .niPfenceClear st key => okSt st && decide (key < 4096)
  | .scrubAccess unit sram => okUnit unit && decide (sram < 64)
  | .eccWriteBack unit sram _ => okUnit unit && decide (sram < 64)
  | .vigilExpiry st _ => okSt st
  | .grantExpiry st src txn => okSt st && okSt src && decide (txn < 256)
  | .txnRetireExpiry st txn => okSt st && decide (txn < 256)
  | .stateBeacon die unit => okDie die && okUnit unit
  | .injectArmWrite _ _ => true
  | .bucketRefill => true
  | .recordPlace => true
  | .chronProgramDone ctl _ => okSide ctl
  | .chronCompaction ctl => okSide ctl
  | .sectorEraseDone ctl _ => okSide ctl
  | .chronMountDone ctl _ => okSide ctl
  | .standbyDecisionApply => true
  | .chronLoad ctl => okSide ctl
  | .chronNext ctl => okSide ctl
  | .chronRetireTo ctl => okSide ctl
  | .chronSwSubmit ctl => okSide ctl
  | .chronFreeze ctl => okSide ctl
  | .chronUnfreeze ctl => okSide ctl
  | .chronFreezeExpiry => true
  | .chronSecondsTick ctl => okSide ctl
  | .coldReset => true
  | .warmResetPin => true
  | .bootWarmReset side => okSide side
  | .bootContinueNoImage side => okSide side
  | .bootProceed side => okSide side
  | .bootClearLevels side => okSide side
  | .bootClearDisables side => okSide side
  | .bootStepStart => true
  | .bootStepFinish => true
  | .bootStepTimeout => true
  | .bootDeadlineExpiry => true
  | .heartbeatTick side => okSide side
  | .heartbeatMiss side => okSide side
  | .leaseRequestReceive voter core => decide (voter < 4) && okSide core
  | .leaseGrantExpiry voter => decide (voter < 4)
  | .takeover core => okSide core
  | .bootHbKick side => okSide side
  | .bootMirrorFence side => okSide side
  | .mirrorFenceDone => true
  | .standbySyncDone => true
  | .mbxCmdProdWrite _ _ => true
  | .mbxRspConsWrite _ => true
  | .mbxNop => true
  | .mbxGetInfo => true
  | .mbxImageStage _ => true
  | .mbxImageCommit => true
  | .mbxImageAbort => true
  | .mbxFwWrite _ => true
  | .mbxFwSelect => true
  | .mbxWarmReset => true
  | .mbxRegRead => true
  | .mbxRegWrite => true
  | .mbxChronRead => true
  | .mbxDiaryRead => true
  | .mbxEventMask => true
  | .mbxBackgroundDone _ => true
  | .msixHoldoffExpiry vector => decide (vector < 8)
  | .liveChangeFinish => true
  | .opAllReduce st _ => okSt st
  | .opReduceScatter st _ => okSt st
  | .opAllGather st _ => okSt st
  | .opReduce st _ => okSt st
  | .opBroadcast st _ => okSt st
  | .opAllToAll st _ => okSt st
  | .opSparseSum st _ => okSt st
  | .opBarrier st _ => okSt st
  | .opCancel st _ => okSt st
  | .stageRsvReceive st _ => okSt st
  | .stageGrantSend st _ _ => okSt st
  | .stageGrantReceive st _ => okSt st
  | .chunkReceive st _ => okSt st
  | .partialReceive st _ => okSt st
  | .sparseReceive st _ => okSt st
  | .resultReceive st _ => okSt st
  | .barrierReceive st _ => okSt st
  | .cancelReceive st _ => okSt st
  | .collectiveComplete st _ => okSt st
  | .diaryReportReceive side _ => okSide side
  | .diaryRdAdvance _ => true
  | .statsRdAdvance st _ => okSt st
  | .jrnlRdAdvance st _ => okSt st
  | .replayDiverge st => okSt st
  | .jrnlModeWrite st _ _ => okSt st
  | .holidayStopPackage side => okSide side
  | .holidayStopMachine side => okSide side
  | .holidayPin => true
  | .holidayStopFrame port _ => okPort port
  | .dieStopAck die => okDie die
  | .holidayAckTimeout => true
  | .holidayRelease side => okSide side
  | .holidayReleaseFrame port _ => okPort port
  | .holidayScan side => okSide side
  | .traceCollect die => okDie die
  | .traceArm => true
  | .traceTrigger => true
  | .traceAdvance => true
  | .traceRecordDrained => true
  | .tracePortEnable => true
  | .ref10mReturn => true
  | .dlinkNakResend die n => okDie die && decide (n < 32)
  | .coldStartLeaseRequest core => okSide core
  | .standbyLost => true
  | .msixTableWrite vector _ _ _ => decide (vector < 8)

end Sys2Proof
end

