-- ==== Sys2Proof/Certificates/Slice0/Obligations.lean ====
section
/-! DEFINITION. The statements about the block, for the provers. -/
open Sys2Proof
open Sys2Proof.Machine

/-! ## Network interfaces -/

/-- Parts of R52–R54: NOP, COUNTER_ADD and COUNTER_SET complete OK; NOP advances LOCAL_CTR where it enables it, and the add or the set acts after the
completion's own increment. -/
def Obligations.LocalDescriptorsComplete : Prop :=
  ∀ (s : State) (st : Nat) (d w : Desc),
    (w = withOpcode d 0 → descTaken s st w → s.descFails st w = none →
      ∃ u, liveOne s u st ∧ exec (.opNop st d) s = .next ((u.updNi st (fun n => n.localCtr w)).completeNoPeer st w stOk 0)) ∧
    (w = withOpcode d 6 → descTaken s st w → s.descFails st w = none →
      ∃ u, liveOne s u st ∧ exec (.opCounterAdd st d) s =
        .next ((u.completeNoPeer st w stOk 0).updNi st (fun n => n.bump (dLocalCtr w) (dw w 10).toNat))) ∧
    (w = withOpcode d 7 → descTaken s st w → s.descFails st w = none →
      ∃ u, liveOne s u st ∧ exec (.opCounterSet st d) s =
        .next ((u.completeNoPeer st w stOk 0).updNi st (fun n => n.setTo (dLocalCtr w) (w.extractLsb' 320 48))))

/-- Parts of R41, R47, R48, R52, R160: a transfer descriptor that names directly a station of its package whose die has power, toward which the die path is
sound, and that nothing polices, enters the queue of its key. -/
def Obligations.DirectTransfersQueue : Prop :=
  ∀ (s : State) (st op : Nat) (d w : Desc) (c : Instr) (x : Task),
    (op, c) ∈ [(1, Instr.opPut st d), (2, Instr.opGet st d), (3, Instr.opIndexedRead st d), (4, Instr.opMessage st d), (5, Instr.opAtomic st d)] →
    w = withOpcode d op → descTaken s st w → s.descFails st w = none → dDirect w = true →
    x = { d := w, coord := s.coord, dest := BitVec.ofNat 16 (dDest w), acc := s.stFt st } →
    s.tableBad (niUnit st) srPath (s.taskPath st x) = false → s.stationAbsent x.dest.toNat = false → s.dieOff (x.dest.toNat / 2048) = false →
    (dKey w = 0 ∨ s.policerOf (niUnit st) (dKey w) = none) → (s.getNi st).yellow.any (fun y => y.key == dKey w) = false →
    ∃ u, liveOne s u st ∧ exec c s = .next (u.enqueue st x)

/-- Parts of R42, R43: a transfer descriptor that names a rank below RANK_COUNT which the translation cache does not hold is counted as a miss, waits, and the
package-table and station-map entries of the rank are fetched from the addresses of R42. -/
def Obligations.RankMissFetches : Prop :=
  ∀ (s : State) (st op : Nat) (d w : Desc) (c : Instr) (r : RankDesc),
    (op, c) ∈ [(1, Instr.opPut st d), (2, Instr.opGet st d), (3, Instr.opIndexedRead st d), (4, Instr.opMessage st d), (5, Instr.opAtomic st d)] →
    w = withOpcode d op → descTaken s st w → s.descFails st w = none → dDirect w = false →
    rankDesc s.bankIn (dKey w) = some r → s.tableBad (niUnit st) srRank (inBank s.alm.inForce (dKey w)) = false → dDest w < r.count →
    s.xlatHit st (dKey w) (dDest w) = none →
    ∃ t, exec c s = .next t ∧ t.out = .xlatFetch st (r.entries (dDest w)).1 (r.entries (dDest w)).2 :: s.out ∧
      t.ctrAt (niUnit st) R.NI_XLAT_MISS = satAdd48 (s.ctrAt (niUnit st) R.NI_XLAT_MISS) 1 ∧
      t.getNi st = { s.getNi st with
        live := (s.getNi st).live + 1,
        xlatWait := (s.getNi st).xlatWait ++ [{ d := w, coord := 0, dest := 0, acc := s.stFt st }] }

/-- Parts of R49, R57: a STREAM_PUT reads its tile from the station under the lowest free read id, and takes no sequence number yet. -/
def Obligations.StreamPutReadsTile : Prop :=
  ∀ (s : State) (st id : Nat) (d w : Desc),
    w = withOpcode d 8 → descTaken s st w → s.descFails st w = none → kfree (s.getNi st).rd 256 = some id →
    ∃ t, exec (.opStreamPut st d) s = .next t ∧ t.out = .niRead st id (dLocal w) (dLen w) :: s.out ∧
      (t.getNi st).seqNext = (s.getNi st).seqNext ∧ (t.getNi st).live = (s.getNi st).live + 1

/-- Parts of R55: a descriptor with TRIG_EN is stored in its slot and armed; one that breaks R52 completes BAD_OPCODE and is not stored. The slot at the head
of those that are ready fires: it is disarmed, and its descriptor is taken with TRIG_EN 0. NI_CTRL.TRIG_CLEAR_ALL disarms every slot. -/
def Obligations.TriggersStoreFireClear : Prop :=
  ∀ (s : State) (st slot : Nat) (d w : Desc) (ks : List Nat),
    (w = d ||| ((1#512) <<< 472) → niFree s st = true → s.cmdReady st w = true →
      (descMalformed w = false → (opCollective (dOp w) = true → collMalformed w = false) →
        ∃ t, niNow s t st ((s.getNi st).arm w) ∧ exec (.descriptorTriggerStore st d) s = .next t) ∧
      (descMalformed w = true →
        ∃ u, liveOne s u st ∧ exec (.descriptorTriggerStore st d) s = .next (u.completeNoPeer st w stBadOpcode 0))) ∧
    (niUp s st = true → (s.getNi st).fireq = slot :: ks → kfind (s.getNi st).trig slot = some d →
      exec (.triggerFire st slot) s =
        .next (niAfter s ((s.setNi st { s.getNi st with fireq := ks, trig := kdel (s.getNi st).trig slot }).takeDesc st
          (d &&& ~~~ ((1#512) <<< 472))) st)) ∧
    (niFree s st = true →
      exec (.niTrigClearAll st) s = .next (s.updNi st (fun n => { n with trig := [], fireq := [] })))

/-- Parts of R42, R43: the entries of the oldest miss let its descriptor go on with the translation, which is then the most recent of at most 512; an invalid
entry completes it BAD_RANK. A flush invalidates the cache. -/
def Obligations.TranslationsAnswerAndFlush : Prop :=
  ∀ (s : State) (st : Nat) (pkgEntry : W32) (stnEntry : W16) (x : Task) (xs : List Task) (y : Xlat),
    (niUp s st = true → (s.getNi st).xlatWait = x :: xs → pkgEntry.getLsbD 31 = true → stnEntry ≠ 0xFFFF →
      y = { key := dKey x.d, rank := dDest x.d, coord := pkgEntry.extractLsb' 0 17, station := stnEntry } →
      ∃ u, niNow s u st { s.getNi st with
          xlatWait := xs,
          xlat := (y :: (s.getNi st).xlat.filter (fun z => !(z.key == y.key && z.rank == y.rank))).take 512 } ∧
        exec (.xlatMissFetchDone st pkgEntry stnEntry) s =
          .next (niAfter s (u.destKnown st { x with coord := y.coord, dest := y.station, acc := s.stFt st }) st)) ∧
    (niUp s st = true → (s.getNi st).xlatWait = x :: xs → (pkgEntry.getLsbD 31 = false ∨ stnEntry = 0xFFFF) →
      exec (.xlatMissFetchDone st pkgEntry stnEntry) s =
        .next (niAfter s ((s.setNi st { s.getNi st with xlatWait := xs }).completeNoPeer st x.d stBadRank 0) st)) ∧
    (niFree s st = true → exec (.niXlatFlush st) s = .next (s.updNi st (fun n => { n with xlat := [] })))

/-- Parts of R57, R58: a write id that the station reports visible is freed and lets what waited for it proceed; so is a read id with its data, of which the
beats that came with st_rdd_poison are marked. A completion record that is taken leaves on ni_cpl_data and makes room for those that wait; an event notice that
is taken leaves with its value and is no longer pending. -/
def Obligations.StationSignalsAct : Prop :=
  ∀ (s : State) (st id ctr : Nat) (data : List Byte) (poisoned : List Nat) (w : WrFor) (r : RdFor) (c : Cpl) (cs : List Cpl) (v : W48),
    (niUp s st = true → kfind (s.getNi st).wr id = some w →
      exec (.writeDone st id) s = .next (niAfter s ((s.freeWr st id).visible st w) st)) ∧
    (niUp s st = true → kfind (s.getNi st).rd id = some r →
      exec (.readDataReturn st id data poisoned) s =
        .next (niAfter s ((s.freeRd st id).readBack st r data (beatMarks data.length poisoned)) st)) ∧
    (niFree s st = true → (s.getNi st).cpl = c :: cs →
      exec (.completionRecordTaken st) s = .next ((s.updNi st (fun n => drainDue n.due { n with cpl := cs })).emit (.niCpl st c.bytes))) ∧
    (niFree s st = true → kfind (s.getNi st).evt ctr = some v →
      exec (.eventNoticeTaken st ctr) s = .next ((s.updNi st (fun n => { n with evt := kdel n.evt ctr })).emit (.niEvt st ctr v)))

/-- Parts of R46, R57, R58: a request that passes the checks of its destination reaches the station: the data of a granted WRITE_DATA, a MESSAGE and a stream
frame are written in beats of 128 bytes, and the bytes of a READ_REQ, the first row of an IDX_READ_REQ that lies in a window and the target of the first ATOMIC
are read, under the lowest free id. -/
def Obligations.RequestsReachTheStation : Prop :=
  ∀ (s : State) (st id k : Nat) (f : Frame) (g : Grant), niFree s st = true →
    (s.destChecks st f (s.windowOk st f.epoch f.pkey.toNat f.addr.toNat f.length.toNat 1) = none →
      (s.getNi st).grantOf f = some (k, g) → g.granted = true → g.bufs ≠ 0 → kfree (s.getNi st).wr 256 = some id →
      ∃ t, exec (.writeDataReceive st f) s = .next t ∧
        t.out = .niWrite st id (niBeats f.addr (f.payload.take f.length.toNat) (frameMarks f)) :: s.out) ∧
    (s.destChecks st f (s.windowOk st f.epoch f.pkey.toNat f.addr.toNat f.length.toNat 1) = none → kfree (s.getNi st).wr 256 = some id →
      ∃ t, exec (.messageReceive st f) s = .next t ∧
        t.out = .niWrite st id (niBeats f.addr (f.payload.take f.length.toNat) (frameMarks f)) :: s.out) ∧
    (s.destChecks st f (s.windowOk st f.epoch f.pkey.toNat f.addr.toNat f.length.toNat 1) = none → kfree (s.getNi st).wr 256 = some id →
      ∃ t, exec (.streamDataReceive st f) s = .next t ∧ t.out = .niWrite st id (niBeats f.addr f.payload (frameMarks f)) :: s.out) ∧
    (s.destChecks st f (s.piecesOk st f 0) = none → kfree (s.getNi st).rd 256 = some id →
      ∃ t, exec (.readReqReceive st f) s = .next t ∧ t.out = .niRead st id f.addr f.seq.toNat :: s.out) ∧
    (s.destChecks st f true = none → 0 < rowCount f → s.windowOk st f.epoch f.pkey.toNat (rowAddr f 0).toNat (rowSize f) 3 = true →
      kfree (s.getNi st).rd 256 = some id →
      ∃ t, exec (.idxReadReqReceive st f) s = .next t ∧ t.out = .niRead st id (rowAddr f 0) (rowSize f) :: s.out) ∧
    (s.destChecks st f (s.windowOk st f.epoch f.pkey.toNat f.addr.toNat 8 2) = none →
      (f.journal = false ∨ s.fld (niUnit st) F.NI_JRNL_CTRL_MODE ≠ 2) → (s.getNi st).atomics = [] → kfree (s.getNi st).rd 256 = some id →
      ∃ t, exec (.atomicReceive st f) s = .next t ∧ t.out = .niRead st id f.addr 8 :: s.out)

/-- Parts of R47, R168, R169: a WRITE_RSV that passes the checks of its destination and finds the pool's buffers free is granted: one buffer for each frame of
the transfer is allocated to its key, and a GRANT waits for the issue stage. -/
def Obligations.ReservationsAreGranted : Prop :=
  ∀ (s : State) (st n die : Nat) (f : Frame), niFree s st = true → s.destChecks st f (s.piecesOk st f 1) = none →
    die = poolDie s.pkg st → n = (putPieces f.addr f.seq.toNat).length → s.poolPresent die = true →
    s.bit (poolUnit die) F.POOL_CTRL_EN = true → (s.getPool die).held f.pkey.toNat + n ≤ s.ceiling (poolUnit die) f.pkey.toNat →
    (s.getPool die).queue = [] → n ≤ s.poolFree die →
    ∃ t, exec (.writeRsvReceive st f) s = .next t ∧ t.getPool die = (s.getPool die).take f.pkey.toNat n ∧
      (∃ g, kfind (t.getNi st).grants (s.getNi st).arriveNo = some g ∧ g.f = f ∧ g.granted = true ∧ g.bufs = n ∧ g.left = f.seq.toNat) ∧
      (t.getNi st).outq = pushHead (s.getNi st).outq
        (s.niRouted st { respond f 0x11 (addQ f.qdelay 0) with seq := f.seq, last := true }) (s.stFt st) []

/-- Parts of R47, R48, R52, R114: a response of an outstanding transaction acts: a GRANT reads the source data, and returned data is written into the space that
the transaction reserved. -/
def Obligations.ResponsesReachTheStation : Prop :=
  ∀ (s : State) (st id : Nat) (f : Frame) (x : Txn), niFree s st = true → s.destChecks st f true = none → s.answered st f = some x →
    (dOp x.task.d = 1 → x.phase = .sent → kfree (s.getNi st).rd 256 = some id →
      ∃ t, exec (.grantReceive st f) s = .next t ∧ t.out = .niRead st id (dLocal x.task.d) (dLen x.task.d) :: s.out) ∧
    (dOp x.task.d = 2 → kfree (s.getNi st).wr 256 = some id →
      ∃ t, exec (.readDataReceive st f) s = .next t ∧
        t.out = .niWrite st id (niBeats (dLocal x.task.d + BitVec.ofNat 64 f.seq.toNat) (f.payload.take f.length.toNat) (frameMarks f)) :: s.out) ∧
    (dOp x.task.d = 3 → kfree (s.getNi st).wr 256 = some id →
      ∃ t, exec (.idxReadDataReceive st f) s = .next t ∧
        t.out = .niWrite st id (niBeats (dLocal x.task.d + BitVec.ofNat 64 f.seq.toNat) (f.payload.take f.length.toNat) (frameMarks f)) :: s.out) ∧
    (dOp x.task.d = 5 → kfree (s.getNi st).wr 256 = some id →
      ∃ t, exec (.atomicRespReceive st f) s = .next t ∧
        t.out = .niWrite st id (niBeats (dLocal x.task.d) (f.payload.take 8) (frameMarks f)) :: s.out)

/-- Parts of R114, R120, R310, R311: a response that ends an outstanding transaction completes its descriptor: an ACK with the status and DETAIL that it carries, a
REFUSAL with its reason, a VIGIL_ERR with VIGIL. One whose TXN, incarnation or source is not that of an outstanding transaction is dropped and counted. -/
def Obligations.ResponsesEndTransactions : Prop :=
  ∀ (s u : State) (st : Nat) (f : Frame) (x : Txn), niUp s st = true → s.destChecks st f true = none →
    (s.answered st f = some x → u = s.updNi st (fun n => n.updTxn f.txn.toNat (fun t => { t with vigil := some (s.stFt st), lastQ := f.qdelay })) →
      ((dOp x.task.d = 1 ∨ dOp x.task.d = 4) →
        exec (.ackReceive st f) s =
          .next (niAfter s (u.endTxn st f.txn.toNat (f.opinfo.toNat % 256) f.qdelay f.addr.toNat) st)) ∧
      exec (.refusalReceive st f) s = .next (niAfter s (u.endTxn st f.txn.toNat (f.opinfo.toNat % 256) f.qdelay 0) st) ∧
      exec (.vigilErrReceive st f) s = .next (niAfter s (u.endTxn st f.txn.toNat stVigil f.qdelay 0) st)) ∧
    (niQuiet s st = true → s.answered st f = none →
      ∀ c, c ∈ [Instr.grantReceive st f, Instr.ackReceive st f, Instr.readDataReceive st f, Instr.idxReadDataReceive st f,
        Instr.atomicRespReceive st f, Instr.refusalReceive st f, Instr.vigilErrReceive st f] →
      exec c s = .next (s.count (niUnit st) R.NI_STALE_DROP 1))

/-- Parts of R106, R235, R247, R303, R311: a key is fenced and freed at an NI; the read pointers of the statistics and journal rings move up to their write
pointers; a TXN that has been retired for NI_VIGIL_RETIRE may be used again; and the launch counter of a station's one wave advances once that wave has begun. -/
def Obligations.NiRegistersFollowTheirCommands : Prop :=
  ∀ (s : State) (st key txn w c : Nat) (rd since : FT), niFree s st = true →
    (exec (.niPfenceSet st key) s = .next (s.updNi st (fun n => n.fence key))) ∧
    (exec (.niPfenceClear st key) s = .next (s.updNi st (fun n => { n with fenced := n.fenced.filter (· != key) }))) ∧
    (ftGe (s.pair (niUnit st) R.NI_STATS_WR) rd = true →
      exec (.statsRdAdvance st rd) s = .next (s.setPair (niUnit st) R.NI_STATS_RD rd)) ∧
    (ftGe (s.pair (niUnit st) R.NI_JRNL_WR) rd = true →
      exec (.jrnlRdAdvance st rd) s = .next (s.setPair (niUnit st) R.NI_JRNL_RD rd)) ∧
    (kfind (s.getNi st).retired txn = some since → s.fld (niUnit st) F.NI_VIGIL_RETIRE_MS * 4000000 ≤ ftSince (s.stFt st) since →
      exec (.txnRetireExpiry st txn) s = .next (s.updNi st (fun n => { n with retired := kdel n.retired txn }))) ∧
    (s.hol.suspended = false → s.launches st = [(w, c)] → ftGe (s.stFt st) (s.alm.start + BitVec.ofNat 64 (w * s.alm.spacing)) = true →
      kfind (s.getNi st).launched (w * 4096 + c) ≠ some s.alm.cycles →
      exec (.launchNotice st) s =
        .next (s.updNi st (fun n => { n.bump c 1 with launched := kins n.launched (w * 4096 + c) s.alm.cycles })))

/-- Parts of R201, R309–R311: once its limit has passed, the Vigil of a transaction whose first frame has left completes it VIGIL, retires its TXN and reports it;
that of a collective instance cancels it. A grant whose data has not all come by NI_VIGIL_MACH is freed and counted. -/
def Obligations.VigilsEndWhatTheyWatch : Prop :=
  ∀ (s : State) (st txn src k : Nat) (tag : W16) (x : Txn) (g : Grant) (m : Member) (since : FT), niUp s st = true →
    (kfind (s.getNi st).txn txn = some x → x.vigil = some since → s.vigilLimit st x.task.coord ≤ ftSince (s.stFt st) since →
      exec (.vigilExpiry st (.txn txn)) s =
        .next (niAfter s (((s.endTxn st txn stVigil x.lastQ 0).updNi st (fun n => { n with
          retired := kins n.retired txn ((s.endTxn st txn stVigil x.lastQ 0).stFt st) })).faultEvent (niUnit st) 6
          (vigilDetail (dKey x.task.d) (x.task.coord != s.coord) x.task.dest.toNat)) st)) ∧
    (s.member st tag = some m → m.ending = none → s.collLimit st tag ≤ ftSince (s.stFt st) m.vigil →
      exec (.vigilExpiry st (.coll tag)) s = .next (niAfter s ((s.cancelAt st tag 2 0 stVigil none).collRetry st) st)) ∧
    ((s.getNi st).grants.find? (fun e => e.2.granted && e.2.f.srcStation.toNat == src && e.2.f.txn.toNat == txn && decide (1 ≤ e.2.bufs) &&
        decide (4000 * s.fld (niUnit st) F.NI_VIGIL_MACH_US ≤ ftSince (s.stFt st) e.2.at_)) = some (k, g) →
      exec (.grantExpiry st src txn) s =
        .next (niAfter s ((((s.setNi st { s.getNi st with grants := kdel (s.getNi st).grants k }).count (niUnit st) R.NI_GRANT_EXPIRED 1).freeBufs
          st g.f.pkey.toNat (g.bufs + g.writes)).grantsVisible st) st))

/-- Parts of R167: the head of a partition's yellow list leaves once Tc covers its charge, and those behind it follow; an entry that has stood YELLOW_MAX slots,
those of a Holiday not counted, completes POLICED_RED where it does not leave. -/
def Obligations.YellowListDrains : Prop :=
  ∀ (s : State) (st key : Nat) (y : Yellow) (p : Policer), niUp s st = true →
    ((s.getNi st).yellow.find? (fun z => z.key == key) = some y → s.yellowReady st y = true →
      exec (.yellowRelease st key) s = .next (niAfter s ((s.yellowLeave st y).yellowFollow st key 64) st)) ∧
    ((s.getNi st).yellow.find? (fun z => z.key == key && z.debit) = some y → s.policerOf (niUnit st) key = some p →
      p.yellowMax ≤ slotsBetween y.task.acc (s.stFt st) - y.froze →
      ((s.getNi st).yellow.find? (fun z => z.key == key) ≠ some y ∨ s.yellowReady st y = false) →
      exec (.yellowExpiry st key) s =
        .next (niAfter s (((s.count (niUnit st) R.NI_POLICE_EXPIRED 1).updNi st (fun n =>
          { n with yellow := n.yellow.erase y }.complete y.task.d stRed (satQ (slotsBetween y.task.acc (s.stFt st))) 0 y.task.dest)).yellowFollow
          st key 64) st))

/-- Parts of R249, R251: the journal's MODE takes 0 and 1 at once outside REPLAY, and takes the replay ring with 2 where the head is not at the end; a held
transfer that has waited the limit diverges the replay. -/
def Obligations.JournalModesAndDivergence : Prop :=
  ∀ (s : State) (st : Nat) (ring : List FT) (h : Held) (hs : List Held), niFree s st = true →
    (s.fld (niUnit st) F.NI_JRNL_CTRL_MODE ≠ 2 →
      exec (.jrnlModeWrite st 0 ring) s = .next (s.setFld (niUnit st) F.NI_JRNL_CTRL_MODE 0) ∧
      exec (.jrnlModeWrite st 1 ring) s = .next (s.setFld (niUnit st) F.NI_JRNL_CTRL_MODE 1)) ∧
    (s.fld (niUnit st) F.NI_JRNL_CTRL_MODE ≠ 2 →
      s.fld (niUnit st) F.NI_JRNL_REPLAY_HEAD_INDEX ≠ s.fld (niUnit st) F.NI_JRNL_REPLAY_END_INDEX →
      ∃ t, exec (.jrnlModeWrite st 2 ring) s = .next t ∧ t.fld (niUnit st) F.NI_JRNL_CTRL_MODE = 2 ∧ (t.getNi st).ring = ring ∧
        (t.getNi st).ringBase = s.fld (niUnit st) F.NI_JRNL_REPLAY_HEAD_INDEX) ∧
    ((s.getNi st).hold = h :: hs → s.fld (niUnit st) F.NI_JRNL_DIVERGE_LIMIT_SLOTS ≤ slotsBetween h.since (s.stFt st) →
      exec (.replayDiverge st) s = .next (niAfter s (s.diverge st) st))

/-! ## The receive buffer pool -/

/-- Parts of R169: the oldest waiting request takes its buffers once they are free, and those behind it are served; the head that has waited WAIT_MAX slots
without them is counted and refused POOL_CEILING; POOL_CTRL.EN 0 refuses every waiting request NOT_READY, and none waits any more. -/
def Obligations.PoolServesAndRefuses : Prop :=
  ∀ (s u : State) (die : Nat) (r : PoolReq) (rs : List PoolReq), poolThere s die = true → (s.getPool die).queue = r :: rs →
    (r.n ≤ s.poolFree die →
      exec (.poolAllocate die) s =
        .next (Part.put .pool s (servePool die rs ((s.setPool die ((s.getPool die).take r.key r.n)).poolGranted r)))) ∧
    (s.dieFrozen die = false → s.poolFree die < r.n → s.fld (poolUnit die) F.POOL_CTRL_WAIT_MAX ≤ s.poolWait r - r.froze →
      u = ((s.setPool die { s.getPool die with queue := rs }).count (poolUnit die) R.POOL_REFUSE_WAIT 1).poolRefused r stCeiling →
      exec (.poolWaitExpiry die) s = .next (Part.put .pool s (servePool die rs u)) ∧
      u.ctrAt (poolUnit die) R.POOL_REFUSE_WAIT = satAdd48 (s.ctrAt (poolUnit die) R.POOL_REFUSE_WAIT) 1) ∧
    (∃ t, exec (.poolDisable die) s = .next t ∧ t.bit (poolUnit die) F.POOL_CTRL_EN = false ∧ (t.getPool die).queue = [] ∧
      t.ni = ((r :: rs).foldl (fun s r => s.poolRefused r stNotReady)
        ((s.setFld (poolUnit die) F.POOL_CTRL_EN 0).setPool die { s.getPool die with queue := [] })).ni)

/-! ## Collectives -/

/-- Parts of R174, R177, R182, R192, R199, R203: a collective descriptor that passes its checks, for which the NI has room and whose tag is not recorded as
cancelled, starts an instance: the next generation of its group gives the tag, the member is recorded with the FT of its acceptance, an engine or collective unit
that slept wakes, and the instance's frames begin. -/
def Obligations.CollectivesStartAnInstance : Prop :=
  ∀ (s : State) (st op gen : Nat) (d w : Desc) (c : Instr) (g : Group) (tag : W16) (m : Member),
    (op, c) ∈ [(0x20, Instr.opAllReduce st d), (0x21, Instr.opReduceScatter st d), (0x22, Instr.opAllGather st d), (0x23, Instr.opReduce st d),
      (0x24, Instr.opBroadcast st d), (0x25, Instr.opAllToAll st d), (0x26, Instr.opSparseSum st d), (0x27, Instr.opBarrier st d)] →
    w = withOpcode d op → descTaken s st w → s.collFails st w = none → findGroup s.bankIn (cGroup w) = some g →
    (s.getNi st).collRoom (cGroup w) = true → gen = kget 0 (s.getNi st).genNext (cGroup w) → tag = BitVec.ofNat 16 (gen * 4096 + cGroup w) →
    m = s.memberFor st w g tag (s.stFt st) → ((s.getEng st).forget tag).cancelled.find? (fun c => c.1 == tag) = none →
    ∃ u, niNow s u st { s.getNi st with
        live := (s.getNi st).live + 1, genNext := kput 0 (s.getNi st).genNext (cGroup w) ((gen + 1) % 16),
        members := kins (s.getNi st).members tag.toNat m } ∧
      exec c s = .next (niAfter s (((u.wakeUnit st).updEng st (fun e => e.forget tag)).launch st tag m g) st)

/-- Parts of R190, R193, R198, R202, R208, R283: a collective frame that passes the checks of its destination wakes its unit; one of a tag that is neither
cancelled nor done there acts: a reservation is entered, a contribution, partial or sparse frame goes to the chunk whose staging it addresses, a contribution
header is taken in, and a CANCEL, of any tag, cancels the tag. -/
def Obligations.CollectiveFramesAct : Prop :=
  ∀ (s v : State) (st : Nat) (f : Frame), niUp s st = true → v = s.wakeUnit st → v.destChecks st f true = none →
    exec (.cancelReceive st f) s =
      .next (niAfter s (((v.cancelAt st f.opinfo (f.coll.flags / 2 % 4) f.coll.flags stNotReady
        (some (f.srcCoord, f.srcStation.toNat))).collRetry st).collPump st) st) ∧
    ((v.getEng st).over f.opinfo = false →
      exec (.stageRsvReceive st f) s = .next (niAfter s ((v.enterRsv st f).collPump st) st) ∧
      (f.seq ≠ 0xFFFFFFFF → exec (.chunkReceive st f) s = .next (niAfter s (v.dataIn st f) st)) ∧
      (f.seq = 0xFFFFFFFF → exec (.chunkReceive st f) s = .next (niAfter s (v.headerIn st f f.payload) st)) ∧
      exec (.partialReceive st f) s = .next (niAfter s (v.dataIn st f) st) ∧
      exec (.sparseReceive st f) s = .next (niAfter s (v.dataIn st f) st))

/-- Parts of R187, R190, R193, R194, R199, R283: a grant lets a member read the chunk that it reserved, or a unit send; a unit grants its chunks while it may; a
RESULT frame at a member that has no instance of its own in a unit goes to its output, or is its header; a barrier's header goes up, or its result down. -/
def Obligations.GrantsResultsAndBarriersAct : Prop :=
  ∀ (s u v : State) (st chunk : Nat) (f : Frame) (m : Member) (g : Group) (i : Inst) (n : Node) (tag : W16) (no : W32), niUp s st = true →
    v = s.wakeUnit st →
    (v.destChecks st f true = none → (v.getEng st).over f.opinfo = false →
      (v.member st f.opinfo = some m → v.groupOf f.opinfo = some g → v.grantedInput g m st f = some chunk → (m.inputAt chunk).2 ≠ 0 →
        exec (.stageGrantReceive st f) s =
          .next (niAfter s ((v.updMember st f.opinfo (fun m => { m with opened := kins m.opened chunk (some f.addr) })).niRd st
            (m.inputAt chunk).1 (m.inputAt chunk).2 (.contribution f.opinfo chunk)) st)) ∧
      (v.member st f.opinfo = none → exec (.stageGrantReceive st f) s = .next (niAfter s (v.takeGrant st f) st)) ∧
      (isEngine s.pkg st = false → v.inst st f.opinfo = none →
        exec (.resultReceive st f) s =
          .next (niAfter s (if f.seq = 0xFFFFFFFF then v.takeHeader st f.opinfo f.payload f.coll else v.resultHere st f) st)) ∧
      (v.headerNode st f.opinfo = some n → (v.inEdge n.ins f).isSome = true →
        exec (.barrierReceive st f) s = .next (niAfter s (v.headerIn st f f.coll.hdr) st)) ∧
      (v.headerNode st f.opinfo = some n → v.inEdge n.ins f = none → n.parent.any (fun e => v.fromEdge e f) = true →
        exec (.barrierReceive st f) s = .next (niAfter s ((v.headerDown st f.opinfo f.coll.hdr f.coll.flags).collPump st) st))) ∧
    (s.inst st tag = some i → (kfind i.chunks no.toNat).isSome = true → s.mayGrant st tag i (s.chunkAt st tag no.toNat) no.toNat = true →
      u = (List.range (s.chunkAt st tag no.toNat).ins.length).foldl (fun s j => s.grantEdge st tag no.toNat j) s →
      exec (.stageGrantSend st tag no) s =
        .next (niAfter s (u.grantDown st tag (if niScatter u st i.par then no.toNat + 1 else no.toNat)) st))

/-- Parts of R194, R201: a CANCEL descriptor cancels this NI's unfinished instance of its group and STEP, where it has one, and completes OK. An instance whose
output chunks are all visible is done at its unit and ends: its status block is written with its status. -/
def Obligations.InstancesEnd : Prop :=
  ∀ (s : State) (st : Nat) (d w : Desc) (tag : W16) (m : Member),
    (w = withOpcode d 0x28 → descTaken s st w → s.collFails st w = none →
      ∃ u, liveOne s u st ∧ exec (.opCancel st d) s = .next (niAfter s ((u.wakeUnit st).softCancel st w) st)) ∧
    (niUp s st = true → s.member st tag = some m → m.ready = true → m.ending = none →
      exec (.collectiveComplete st tag) s =
        .next (niAfter s ((s.updEng st (fun e => { e with finished := e.finished ++ [tag] })).endMember st tag m.status) st))

/-! ## The management tree and the registers -/

/-- Parts of R17, R18: what a write leaves in the fields of a register: a read-only field keeps its value, a write-one-to-clear field loses the bits written 1, and a
field that software writes takes its value where the field's outcome is OK and keeps its value where it is not. -/
def Obligations.FieldsTakeOrKeepWrites : Prop :=
  ∀ (s : State) (k : UnitKind) (u i : Nat) (r : RegRow) (f : Fld) (old data : W32), r ∈ rowsOf k → f ∈ r.flds →
    (f.acc = .ro → getBits (s.wordNext k u r i old data) f.hi f.lo = getBits old f.hi f.lo) ∧
    (f.acc = .w1c → getBits (s.wordNext k u r i old data) f.hi f.lo =
      (getBits old f.hi f.lo &&& (2 ^ (f.hi - f.lo + 1) - 1 - getBits data f.hi f.lo))) ∧
    ((f.acc = .rw ∨ f.acc = .rwl) → actsItself k r f = false → s.fieldStatus k u r i f old data = trOk →
      getBits (s.wordNext k u r i old data) f.hi f.lo = getBits data f.hi f.lo) ∧
    ((f.acc = .rw ∨ f.acc = .rwl) → s.fieldStatus k u r i f old data ≠ trOk →
      getBits (s.wordNext k u r i old data) f.hi f.lo = getBits old f.hi f.lo) ∧
    (f.acc = .rwl → s.committed = true → getBits (s.wordNext k u r i old data) f.hi f.lo = getBits old f.hi f.lo ∧
      (getBits data f.hi f.lo ≠ getBits old f.hi f.lo → s.wordStatus k u r i old data ≠ trOk))

/-- Parts of R17, R18, R391, R396: a write over the tree by the lease holder that reaches its unit takes effect there and completes with the status of its
fields; in a unit whose registers do nothing more, the register takes what its fields take, and no other register of the unit changes. -/
def Obligations.RegisterWritesComplete : Prop :=
  ∀ (s : State) (core tag u off : Nat) (addr data : W32) (k : UnitKind) (r : RegRow), core < 2 → s.holder = some core →
    s.outstanding.length < 16 → s.treeWait = [] → s.outstanding.any (fun b => b.tag == tag) = false → s.addrOk addr = true →
    s.unitStopped (unitOf addr) = false → s.startsReset addr data = false → u = unitOf addr → off = offOf addr →
    unitKind s.pkg u = some k → rowAt k off = some r → s.ignoresWrite k u off = false → r.kind = .single →
    exec (.registerWrite core tag s.lease.epoch addr data) s =
      .next (kept s (((s.writeWord k (if k = .power ∧ off = R.POWER_CTRL then powerUnit s.pkg else u) r off data).1.emit (.treeDone core tag
        (s.writeWord k (if k = .power ∧ off = R.POWER_CTRL then powerUnit s.pkg else u) r off data).2 0)).settle)) ∧
    (s.tree = [] → k ∈ [UnitKind.global, .router, .memst, .almRouter] →
      ∃ t, exec (.registerWrite core tag s.lease.epoch addr data) s = .next t ∧
        t.out = .treeDone core tag (s.wordStatus k u r (rowIndex r off) (s.reg u off) data) 0 :: s.out ∧
        t.reg u off = s.wordNext k u r (rowIndex r off) (s.reg u off) data ∧ ∀ off', off' ≠ off → t.reg u off' = s.reg u off')

/-- Parts of R391, R400: a write from a core that does not hold the lease completes LOCKED and does nothing else, and a write of the holder that carries another
epoch is dropped without a completion and sets EPOCH_DROP. -/
def Obligations.OnlyTheHolderWrites : Prop :=
  ∀ (s : State) (core tag epoch : Nat) (addr data : W32), core < 2 →
    (s.holder ≠ some core →
      exec (.registerWrite core tag epoch addr data) s = .next (s.emit (.treeDone core tag trLocked 0))) ∧
    (s.holder = some core → epoch ≠ s.lease.epoch →
      exec (.registerWrite core tag epoch addr data) s =
        .next (s.event (globalUnit (s.answerDie addr)) F.GLOBAL_TREE_EVENT_EPOCH_DROP))

/-- R21, and a part of R82: a read of a counter's low half returns it and captures the upper half; a read of the high half returns an unread capture once, and otherwise
the live upper bits; a read of TIME_NOW_LO also captures the quality. -/
def Obligations.CountersReadConsistently : Prop :=
  ∀ (s : State) (u off side : Nat) (addr : W32) (k : UnitKind) (r : RegRow) (v : W32),
    (s.addrOk addr = true → u = unitOf addr → off = offOf addr → unitKind s.pkg u = some k → rowAt k off = some r → r.kind = .counter →
      (isHi r off = false →
        exec (.counterLoRead addr) s = .next (State.emit { s with
          shadows := kins s.shadows (regAddr u off) (BitVec.ofNat 32 ((s.ctrAt u off).toNat / 2 ^ 32)) }
          (.readData addr trOk ((s.ctrAt u off).extractLsb' 0 32)))) ∧
      (isHi r off = true → kfind s.shadows (regAddr u (off - 4)) = some v →
        exec (.counterHiRead addr) s = .next (State.emit { s with shadows := kdel s.shadows (regAddr u (off - 4)) } (.readData addr trOk v))) ∧
      (isHi r off = true → kfind s.shadows (regAddr u (off - 4)) = none →
        exec (.counterHiRead addr) s =
          .next (s.emit (.readData addr trOk (BitVec.ofNat 32 ((s.ctrAt u (off - 4)).toNat / 2 ^ 32)))))) ∧
    (side < 2 → u = sideUnit s.pkg 7 side → addr = BitVec.ofNat 32 (regAddr u R.TIME_NOW) → s.addrOk addr = true →
      unitKind s.pkg u = some .time →
      ∃ t, exec (.timeNowLoRead side) s = .next t ∧ t.out = .readData addr trOk (s.view u R.TIME_NOW) :: s.out ∧
        kfind t.shadows (regAddr u R.TIME_NOW) = some (s.view u (R.TIME_NOW + 4)) ∧
        kget 0 t.time.nowQual (unitSide s.pkg u) = s.quality)

/-- R20: every counter saturates at 2^48 - 1; a clear leaves the counters that it selects at 0, and at 1 where an event is counted in the same cycle. -/
def Obligations.CountersSaturateAndClear : Prop :=
  (∀ (s : State) (u off n : Nat), ((s.count u off n).ctrAt u off).toNat = min ((s.ctrAt u off).toNat + n) (2 ^ 48 - 1)) ∧
  ∀ (s : State) (u off : Nat) (addr data coincident : W32) (k : UnitKind) (r : RegRow), s.addrOk addr = true → u = unitOf addr →
    off = offOf addr → unitKind s.pkg u = some k → rowAt k off = some r → s.ignoresWrite k u off = false →
    (clearsOf k).any (fun c => c.1 == off) = true →
    ∃ t, exec (.counterClear addr data coincident) s = .next t ∧
      (∀ c, c ∈ clearedBy k off data → c ∉ clearedBy k off (data &&& coincident) → t.ctrAt u c = 0) ∧
      (∀ c, c ∈ clearedBy k off (data &&& coincident) → t.ctrAt u c = 1) ∧
      (∀ c, c ∉ clearedBy k off data → t.ctrAt u c = s.ctrAt u c)

/-- Parts of R164, R318, R394: the registers of a shaper and the injector of a unit take what their fields take, and the write completes; no shaper has taken the
values yet. The low half of a pair that is not locked is staged and does not act; a write of the high half puts both halves into effect, the low
half that was staged or else the one in effect. -/
def Obligations.ShapersInjectorsAndPairsTakeWrites : Prop :=
  ∀ (s : State) (u off : Nat) (addr data : W32) (k : UnitKind) (r : RegRow), s.addrOk addr = true → u = unitOf addr → off = offOf addr →
    unitKind s.pkg u = some k → rowAt k off = some r →
    (shaperRow k r = true →
      ∃ t, exec (.shaperConfigWrite addr data) s = .next t ∧ t.reg u off = s.wordNext k u r (rowIndex r off) (s.held k u off) data ∧
        t.out = .writeDone addr (s.wordStatus k u r (rowIndex r off) (s.held k u off) data) :: s.out ∧ t.ni = s.ni ∧ t.ports = s.ports) ∧
    (injectKind k = true → off = R.NI_INJ → s.wordStatus k u r (rowIndex r off) (s.held k u off) data = trOk →
      ∃ t, exec (.injectArmWrite addr data) s = .next t ∧ t.reg u off = s.wordNext k u r (rowIndex r off) (s.held k u off) data ∧
        t.out = .writeDone addr trOk :: s.out) ∧
    (r.kind = .rwPair → s.ignoresWrite k u off = false → s.pairLocked r = false →
      (isHi r off = false →
        exec (.pairLoWrite addr data) s =
          .next (State.emit { s with staged := kins s.staged (regAddr (homeUnit s.pkg u) off) data } (.writeDone addr trOk))) ∧
      (isHi r off = true →
        exec (.pairHiWrite addr data) s = .next (kept s
          ((State.pairTake { s with staged := kdel s.staged (regAddr (homeUnit s.pkg u) (off - 4)) } k u (off - 4)
            (data ++ pairMask k (off - 4) ((kfind s.staged (regAddr (homeUnit s.pkg u) (off - 4))).getD (s.held k u (off - 4))))).1.emit
          (.writeDone addr (State.pairTake { s with staged := kdel s.staged (regAddr (homeUnit s.pkg u) (off - 4)) } k u (off - 4)
            (data ++ pairMask k (off - 4) ((kfind s.staged (regAddr (homeUnit s.pkg u) (off - 4))).getD (s.held k u (off - 4))))).2)))))

/-- Parts of R393: an access that ends TIMEOUT completes so: the die that timed it counts it, sets its event, captures it where nothing is captured, and reports
it. A write that waits in its crossing goes on waiting there, marked so that its late completion is discarded. -/
def Obligations.TimedOutAccessesEnd : Prop :=
  ∀ (s : State) (tag d : Nat) (addr : W32) (write atRoot : Bool),
    (write = false ∨ s.tree.any (fun a => !a.lost && a.tag == tag && a.addr == addr) = true) →
    d = (if atRoot || !dieExists s.pkg (unitDie (unitOf addr)) then s.rootDie else unitDie (unitOf addr)) →
    exec (.treeTimeout tag addr write atRoot) s = .next (kept s
      (((State.captureTimeout { s with
        tree := s.tree.map (fun a => if write && (!a.lost && a.tag == tag && a.addr == addr) then { a with lost := true } else a) } d addr
        write).emit (.treeDone (s.holder.getD 0) tag trTimeout 0)).settle))

/-! ## Routers, arbiters and slots -/

/-- Parts of R45, R96, R111, R112, R119, R141–R144, R147, R149: a head that passes a router's checks, on an input with space for it, enters its input VC toward
the outputs of its route, its wait is counted from then on, its bad DATA flits are marked, and the sender is told OFF where that is due. A head with an error
is told to the FAULT unit, and a malformed frame, or one of a key that the router does not admit, is counted and reported; none of them enters. -/
def Obligations.RouterFramesEnterOrDrop : Prop :=
  ∀ (s t : State) (isl : Island) (input plane vc key : Nat) (f g g0 : Frame) (bad : List Nat) (b : Bank) (outs : List Nat), islUp s isl = true →
    s.fromPort isl input plane vc f = some (t, g0) → g = poisonFlits plane bad g0 → key = islKey isl.die isl.inst →
    (malformedWhy g plane = none → t.epochBank g.epoch = some b → t.admits (bitNat g.epoch) b (routerUnit isl.die isl.inst) g.pkey.toNat = true →
      (input = 6 ∨ t.vcFlits isl.die isl.inst (inKey input plane vc) < inCap t.pkg isl.die isl.inst input) →
      t.routeOuts isl.die isl.inst input vc g = some outs → outs ≠ [] →
      exec (.routerFrameReceive isl input plane vc f ⟨false, bad⟩) s = .next (onPath s ((t.updRtr key (fun r =>
        { r with inq := kput [] r.inq (inKey input plane vc)
                          (pushHead (kget [] r.inq (inKey input plane vc)) g (t.islFt key) outs) })).inputTell isl.die isl.inst
        (inKey input plane vc)))) ∧
    (exec (.routerFrameReceive isl input plane vc f ⟨true, bad⟩) s = .next (onPath s (t.headError (routerUnit isl.die isl.inst)))) ∧
    (∀ why, malformedWhy g plane = some why →
      exec (.routerFrameReceive isl input plane vc f ⟨false, bad⟩) s = .next (onPath s
        ((t.count (routerUnit isl.die isl.inst) R.ROUTER_MALFORMED 1).faultEvent (routerUnit isl.die isl.inst) 14 (malformedDetail g why)))) ∧
    (malformedWhy g plane = none → t.epochBank g.epoch = some b → t.admits (bitNat g.epoch) b (routerUnit isl.die isl.inst) g.pkey.toNat = false →
      exec (.routerFrameReceive isl input plane vc f ⟨false, bad⟩) s = .next (onPath s
        ((((t.readBad (routerUnit isl.die isl.inst) srAdmit (inBank (bitNat g.epoch) g.pkey.toNat)).count (routerUnit isl.die isl.inst)
          R.ROUTER_PKEY_DROP 1).faultEvent (routerUnit isl.die isl.inst) 7 (partitionDetail g 0)).refuseAt (routerUnit isl.die isl.inst) g
          stPartition 1)))

/-- Parts of R157–R159: an arbiter that is not an SRAM port's, without an emergency requester, grants the one eligible requester that its rule picks, notes the
grant, and lets it start. An emergency requester of the state takes the wire; the scrubber takes an SRAM port once 4,095 cycles have passed since its last
access. -/
def Obligations.ArbitersGrantOneRequester : Prop :=
  ∀ (s t u : State) (arb : Arb) (extra : List Requester) (o : Option Nat) (w : Req), arbHere s arb = true →
    (s.emergency arb = none → extra.any (fun x => x.emergency) = false → sramArb arb = false → s.offerOf arb = (o, u) →
      arbPick (u.arbState arb) (u.reqsOf arb o ++ (extra.filter (fun r => !r.emergency)).map extraReq) = some w →
      t = u.setArb arb (arbNext (u.arbState arb) (u.reqsOf arb o ++ (extra.filter (fun r => !r.emergency)).map extraReq) w) →
      exec (.arbiterGrant arb extra) s = .next (onPath s (if 1000 ≤ w.id then t else t.grantOf arb w))) ∧
    (s.emergency arb = some t → exec (.arbiterGrant arb extra) s = .next (onPath s t)) ∧
    (s.emergency arb = none → extra.any (fun x => x.emergency) = true → sramArb arb = true → 4095 ≤ (s.arbState arb).sinceScrub →
      exec (.arbiterGrant arb extra) s = .next (onPath s (s.setArb arb { s.arbState arb with sinceScrub := 0 })))

/-- Parts of R83, R86, R92, R162, R164: an island's slot boundary is the one that it has reached, or else the one after its last; the refill of an NI at a
boundary gives each shaper its registers' values, and its tokens for the slots that passed, up to its burst. A head at a router's input whose deferral has
lasted a cycle is dropped, counted and refused. -/
def Obligations.SlotBoundariesRefillAndDrop : Prop :=
  ∀ (s : State) (isl : Island) (key n q st : Nat) (b : FT), islUp s isl = true → key = islKey isl.die isl.inst →
    ((kget {} s.isl key).running = true → (kget {} s.isl key).ftValid = true → s.nextBoundary key = (b, n) →
      ∃ t, exec (.slotBoundary isl) s = .next t ∧ (kget {} t.isl key).slot = b) ∧
    (q < 16 → kget {} ((s.refillNi n st).getNi st).shaper q = s.niShaper st q ∧
      kget (65536 * 256) ((s.refillNi n st).getNi st).tokens q =
        refill (kget (65536 * 256) (s.getNi st).tokens q) (s.niShaper st q) s.shapeScale n) ∧
    (∀ (input plane vc : Nat) (h : Head) (hs : List Head), s.dieFrozen isl.die = false → input < 32 →
      kget [] (s.getRtr key).inq (inKey input plane vc) = h :: hs → deferredOut h.defer (s.islFt key) = true →
      exec (.noWindowDrop isl input plane vc) s = .next (onPath s (((s.updRtr key (fun r =>
        { r with inq := kput [] r.inq (inKey input plane vc) (popHead (h :: hs) (s.islFt key)) })).inputFreed isl.die isl.inst
          (inKey input plane vc)).noWindow key plane (h.out.headD 6) h.f 1)))

/-! ## The almanac -/

/-- Parts of R94, R97, R100, R102, Table 04-5: LOAD and COPY begin to fill the FREE other bank, whose load ends READY or FREE again; ARM arms the READY bank for a
legal target, and DISARM takes that back; a pending cool request loads its form; a HELD bank ends FREE and empty. A command in another state sets CMD_REJECT. -/
def Obligations.AlmanacBanksMove : Prop :=
  ∀ (s : State) (v w : W16) (b : Bank) (cool : Bool),
    (s.alm.other = .free → s.loadable v = true →
      exec (.almLoad v) s = .next ((s.setFld (almUnit s.pkg) F.ALM_BANK_CTRL_VARIANT v.toNat).updAlm (fun a =>
        { a with other := .loading, loading := some (bankOf ((s.image.map (fun i => i.recs)).getD []) v) }))) ∧
    (s.alm.other = .free → exec .almCopy s = .next (s.updAlm (fun a => { a with other := .loading, loading := some s.bankIn }))) ∧
    (s.alm.other = .ready → s.targetOk (s.pair (almUnit s.pkg) R.ALM_EQX_AT).toNat = true →
      exec .almArm s = .next (s.updAlm (fun a =>
        { a with other := .armed, target := s.pair (almUnit s.pkg) R.ALM_EQX_AT, byPower := false }))) ∧
    (s.alm.other = .armed → exec .almDisarm s = .next (s.updAlm (fun a => { a with other := .ready, byPower := false }))) ∧
    (s.alm.other = .loading → s.alm.loading = some b → s.alm.byPower = false →
      exec (.almLoadComplete true) s =
        .next (((s.setOther b).updAlm (fun a => { a with other := .ready, loading := none })).almEvent F.ALM_EVENT_LOAD_DONE)) ∧
    (s.alm.other = .loading → s.alm.loading = some b →
      exec (.almLoadComplete false) s =
        .next ((s.updAlm (fun a => { a with other := .free, loading := none, byPower := false })).almEvent F.ALM_EVENT_LOAD_FAIL)) ∧
    (s.alm.cool = some cool → s.alm.other = .free → coolVariant s.bankIn.variant cool = some w → s.loadable w = true →
      exec .coolRequestResume s = .next (s.updAlm (fun a =>
        { a with other := .loading, loading := some (bankOf ((s.image.map (fun i => i.recs)).getD []) w), byPower := true }))) ∧
    (s.alm.other = .held → s.alm.cool = none →
      exec .bankHoldExpiry s = .next ((s.setOther {}).updAlm (fun a => { a with other := .free }))) ∧
    (s.alm.other ≠ .free → exec .almCopy s = .next (s.almEvent F.ALM_EVENT_CMD_REJECT) ∧
      exec (.almLoad v) s = .next ((s.setFld (almUnit s.pkg) F.ALM_BANK_CTRL_VARIANT v.toNat).almEvent F.ALM_EVENT_CMD_REJECT)) ∧
    (s.alm.other ≠ .ready → exec .almArm s = .next (s.almEvent F.ALM_EVENT_CMD_REJECT)) ∧
    (s.alm.other ≠ .armed → exec .almDisarm s = .next (s.almEvent F.ALM_EVENT_CMD_REJECT))

/-- Parts of R84, R97, R103: the next Kalends begins a cycle and is counted; it is the Equinox where the FT of the armed target has come, which brings the other
bank into force and holds the previous one; otherwise the bank in force stays, and takes the leap slots that its limits allow. -/
def Obligations.KalendsBeginsACycle : Prop :=
  ∀ (s : State), s.hol.suspended = false →
    ∃ t, exec .kalends s = .next t ∧ t.alm.start = s.nextKalends ∧ t.alm.cycles = s.alm.cycles + 1 ∧
      (s.alm.other = .armed → s.alm.target.toNat < 2 ^ 57 →
        ftGe s.nextKalends (BitVec.ofInt 64 (s.time.accepted + 128 * s.alm.target.toNat)) = true →
        t.alm.inForce = 1 - s.alm.inForce ∧ t.alm.other = .held) ∧
      ((s.alm.other ≠ .armed ∨ 2 ^ 57 ≤ s.alm.target.toNat ∨
          ftGe s.nextKalends (BitVec.ofInt 64 (s.time.accepted + 128 * s.alm.target.toNat)) = false) →
        t.alm.inForce = s.alm.inForce ∧ t.alm.t = leapTake s.alm.leap (bankLeapInsert s.bankIn) (bankLeapRemove s.bankIn))

/-! ## Fabric time -/

/-- Parts of R70, R127: on a trained port whose island runs the exchange runs: SYNC leaves with t1 kept, and its FOLLOW_UP with that t1; a SYNC is answered by
DELAY_REQ at t3, a DELAY_REQ by DELAY_RESP with t4; a FOLLOW_UP of the pending exchange is kept; and a DELAY_RESP of it gives the delay and the offset. -/
def Obligations.TimeExchangeRuns : Prop :=
  ∀ (s : State) (port xid : Nat) (t2 t3 t4 : FT) (fu : FollowUp), portThere s port = true → s.portTrained port = true → s.portLive port = true →
    (∃ x, x.t1 = s.portFt port ∧ x.xid = (s.exch port).sendXid ∧ x.quality = BitVec.ofNat 2 s.quality ∧ x.errEst = BitVec.ofNat 32 s.errEst ∧
      x.gm = (s.role != 0) ∧
      exec (.syncExchangeStart port) s = .next (kept s
        (((s.setExch port { s.exch port with
            sendXid := ((s.exch port).sendXid + 1) % 256, t1 := some (s.portFt port) }).sendCtl port (.sync (s.exch port).sendXid)).sendCtl port
          (.followUp x)))) ∧
    ((s.role = 0 ∨ ((s.timePort port).heard && (s.timePort port).adv.any (fun a => a.gm)) = false) →
      exec (.syncReceive port xid) s = .next (kept s ((s.setExch port { s.exch port with
        xid := xid, t2 := some (s.portFt port), fu := none, t3 := some (s.portFt port) }).sendCtl port (.delayReq xid)))) ∧
    ((s.role = 0 ∨ fu.gm = false) → (s.exch port).t2.isSome = true → (s.exch port).xid = fu.xid →
      exec (.followUpReceive port fu) s = .next (kept s ((s.setExch port { s.exch port with fu := some fu }).followUp port fu))) ∧
    (exec (.delayReqReceive port xid) s = .next (kept s (s.sendCtl port (.delayResp xid (s.portFt port))))) ∧
    ((s.exch port).t2 = some t2 → (s.exch port).fu = some fu → (s.exch port).t3 = some t3 → (s.exch port).xid = xid → fu.xid = xid →
      exec (.delayRespReceive port xid t4) s = .next (kept s
        ((s.setExch port { s.exch port with t2 := none, fu := none, t3 := none }).exchanged port
          (Int.tdiv (ftDiff t2 fu.t1 + ftDiff t4 t3) 2) (Int.tdiv (ftDiff t2 fu.t1 - ftDiff t4 t3) 2 - s.portAsym port))))

/-- Parts of R69, R74, R80: an upstream that has missed eight Syncs gives way to the next port that qualifies, and a higher one that has qualified for 64 Syncs is
taken back; at the governing side's pins, a lost pps_in takes a locked GM_EXTERNAL package to HOLDOVER, the first edge after TIME_PPS_FT was written loads FT at a
free one, and the 10 MHz reference goes and comes. -/
def Obligations.ReferencesComeAndGo : Prop :=
  ∀ (s : State) (port q r : Nat),
    (s.role = 0 → s.time.upstream = some q → s.syncsMissed q 8 = true →
      ((s.updTimePort q (fun p => { p with good := 0 })).upstreamList.filter (fun x => x != q)).find?
        (s.updTimePort q (fun p => { p with good := 0 })).portQualifies = some r →
      ∃ t, exec .upstreamLoss s = .next t ∧ t.time.upstream = some r ∧ t.time.state = s.time.state) ∧
    (portThere s port = true → s.role = 0 → s.upstreamList.contains port = true → s.portQualifies port = true → s.time.upstream = some q →
      s.upstreamList.idxOf port < s.upstreamList.idxOf q → 64 ≤ (s.timePort port).good →
      ∃ t, exec (.upstreamReturn port) s = .next t ∧ t.time.upstream = some port) ∧
    ((s.role = 2 → s.time.state = 3 → ∃ t, exec .ppsInLoss s = .next t ∧ t.time.state = 2 ∧ t.time.ppsInOk = false) ∧
      (s.role = 2 → s.time.state = 0 → s.time.ppsWritten = true →
        ∃ t, exec .ppsInEdge s = .next t ∧ t.time.ft = s.pair (timeUnit s.pkg) R.TIME_PPS_FT ∧ t.time.state = 3 ∧ t.time.ppsInOk = true) ∧
      (exec .ref10mLoss s = .next (s.updTime (fun t => { t with ref10mOk := false }))) ∧
      (exec .ref10mReturn s = .next (s.updTime (fun t => { t with ref10mOk := true }))))

/-- Parts of R64–R67, R77, R80, R81: an armed realignment records when it was armed and its leap count; pps_out rises in a second it has not risen for, and falls
once its width is over; time_valid takes its level; a lattice pulse sets the trim of its island, within 1,000 ppm, and a second one in a row beyond 2 ns sets
LATTICE_FAULT; a restarted island loads the root's FT. -/
def Obligations.TimePinsAndIslandsFollow : Prop :=
  ∀ (s : State) (side : Nat) (isl : Island) (seen : Int) (i : Isl), side < 2 → i = s.island isl.die isl.inst →
    (s.time.root = side → s.time.state = 1 → (Int.tdiv s.time.d 128 + s.alm.leap).natAbs ≤ leapBound →
      exec (.timeRealignArm side) s = .next (s.updTime (fun t => { t with
        armed := some s.time.ft,
        records := t.records.filter (fun r => !r.own || r.applied) ++
          [{ ft := s.time.ft + BitVec.ofNat 64 (64 * s.exchangeInterval), leap := Int.tdiv t.d 128, own := true }] }))) ∧
    (s.bit (timeUnit s.pkg) F.TIME_CTRL_PPS_OUT_EN = true → s.time.state ≠ 0 → s.time.ppsOut = false → s.time.ppsSec ≠ some s.second →
      s.inSecond < s.ppsWidth →
      exec .ppsOutRise s = .next ((s.updTime (fun t => { t with ppsOut := true, ppsSec := some s.second })).emit (.pin (.ppsOut s.pinSide) true))) ∧
    (s.time.ppsOut = true → (s.time.ppsSec ≠ some s.second ∨ s.ppsWidth ≤ s.inSecond) →
      exec .ppsOutFall s = .next ((s.updTime (fun t => { t with ppsOut := false })).emit (.pin (.ppsOut s.pinSide) false))) ∧
    (s.timeValidNow = true → s.time.valid = false →
      exec .timeValidChange s = .next ((s.updTime (fun t => { t with valid := true })).emit (.pin (.timeValid s.pinSide) true))) ∧
    (s.timeValidNow = false → s.time.valid = true →
      ∃ t, exec .timeValidChange s = .next t ∧ t.time.valid = false ∧ t.bit (timeUnit s.pkg) F.TIME_EVENT_TIME_INVALID = true) ∧
    (islThere s isl = true → i.running = true → i.ftValid = true → i.pulse < s.pulses →
      ∃ t, exec (.latticePulse isl seen) s = .next t ∧ (t.island isl.die isl.inst).pulse = s.pulses ∧
        (t.island isl.die isl.inst).trim = clampTo (tickUnits / 1000) (Int.tdiv ((seen - i.delay) * 2 ^ 32) 100) ∧
        (t.island isl.die isl.inst).trimLeft = 100 ∧
        (8 < (seen - i.delay).natAbs → 1 ≤ i.beyond → t.bit (timeUnit s.pkg) F.TIME_EVENT_LATTICE_FAULT = true)) ∧
    (islThere s isl = true → i.running = true → i.ftValid = false →
      exec (.islandFtLoad isl) s = .next (kept s (s.islandUp isl.die isl.inst)) ∧
      (s.busyStations isl.die = [] → s.islandUp isl.die isl.inst = s.setIsland isl.die isl.inst
        { i with off := 0, beyond := 0, ftValid := true, slot := slotFloor s.time.ft, fresh := true, trim := 0, trimLeft := 0, pulse := s.pulses }))


/-! ## Ports -/

/-- Parts of R122, R124, R126, R128–R131: a port that has found its lanes decodes a codeword, and delivers or counts it; an alignment codeword in step brings its
lane nearer lock, and lock lost in ACTIVE starts a retrain; a port whose receiver takes frames handles a link frame by the first row of Table 05-9 that applies,
frees what an acknowledgement covers, replays what a NAK or its timer asks for, takes the OFF bits of a FLOW, and sends its NAK and its own OFF bits again. -/
def Obligations.LinkLayerActs : Prop :=
  ∀ (s : State) (port i : Nat) (inv : Bool) (cw : Codeword) (acw : Acw) (old : RxLane) (lf : LinkFrame) (a : W12) (off : W14) (h : TxHeld)
    (hs : List TxHeld), portThere s port = true →
    (2 ≤ s.portState port → (s.getPort port).acwLock = true →
      (∀ out, rsDecode (codewordSymbols (s.getPort port).rxLanes cw) = some out →
        exec (.codewordReceive port cw) s = .next (onPath s (s.codewordGood port (codewordSymbols (s.getPort port).rxLanes cw) out))) ∧
      (rsDecode (codewordSymbols (s.getPort port).rxLanes cw) = none →
        exec (.codewordReceive port cw) s = .next (onPath s (s.codewordBad port)))) ∧
    (2 ≤ s.portState port → acwFind acw.levels = some (i, inv) → acw.spacing % 16 = 0 → 0 < acw.spacing → acw.skew ≤ 64 →
      old = kget {} (s.getPort port).rxLanes acw.lane →
      exec (.acwReceive port acw) s = .next (onPath s ((s.updPort port (fun p => { p with
        scram := 0x7FFFFFFF,
        rxLanes := kput {} p.rxLanes acw.lane { number := i, inverted := inv, skew := acw.skew,
                                                seen := if old.number = i ∧ old.inverted = inv then min 3 (old.seen + 1) else 1 } })).alignCheck
        port))) ∧
    (s.portState port = 5 → exec (.acwLockTimeout port) s = .next (onPath s (s.retrain port 2))) ∧
    (s.rxOn port = true →
      exec (.linkFrameReceive port lf) s = .next (onPath s ((s.heard port).linkFrame port lf)) ∧
      exec (.ctrlAckReceive port a) s = .next (onPath s ((s.heard port).updPort port (fun p => p.ackTo a.toNat))) ∧
      exec (.ctrlNakReceive port a) s =
        .next (onPath s ((s.updPort port (fun p => p.ackTo ((a.toNat + 4095) % 4096))).replayFrom port a.toNat)) ∧
      exec (.ctrlFlowReceive port off) s = .next (onPath s ((s.heard port).updPort port (fun p => { p with txOff := off })))) ∧
    (s.portTrained port = true → exec (.flowPeriodic port) s = .next (onPath s (s.sendCtl port (.flow (s.getPort port).off)))) ∧
    (s.rxOn port = true → (s.getPort port).nakFor = some (s.getPort port).e →
      exec (.nakResend port) s = .next (onPath s ((s.ptCount port R.PORT_NAK_TX 1).sendCtl port (.nak (s.getPort port).e)))) ∧
    (s.portTrained port = true → (s.getPort port).held = h :: hs →
      exec (.replayTimeout port) s = .next (onPath s (s.replayFrom port h.lseq))) ∧
    (s.portState port = 5 → lf.ackValid = false → s.arrival port lf = .accepted → lf.frame.cls ≠ 0x3C →
      ∃ t, exec (.linkFrameReceive port lf) s = .next t ∧ (t.getPort port).e = ((s.getPort port).e + 1) % 4096 ∧
        Out.portCtl port (.ack (s.getPort port).e) ∈ t.out) ∧
    (s.portState port = 5 → lf.ackValid = false → s.arrival port lf = .duplicate → exec (.linkFrameReceive port lf) s = .next s)

/-- Parts of R132, R133, R135, R256, R261–R263, Table 05-10: the training of a port moves from state to state with what it hears and with its timeouts, which lead
back to SIGNAL or ALIGN, or DOWN with their cause; CDR lost in ACTIVE starts a retrain in SIGNAL; saved settings that do not lock are discarded; a qualification
window ends in pass, or DOWN where no lane may be cleared; and the third failing monitor window in a row sets BER_HIGH. -/
def Obligations.PortTrainingMoves : Prop :=
  ∀ (s : State) (port : Nat) (tr : Train), portThere s port = true →
    (1 ≤ tr.state → tr.state ≤ 3 → s.portState port = 5 → exec (.trainReceive port tr) s = .next (onPath s (s.retrain port 2))) ∧
    (1 ≤ tr.state → tr.state ≤ 3 → 2 ≤ s.portState port → s.portState port ≤ 4 →
      exec (.trainReceive port tr) s = .next (onPath s (s.trainUnit port tr))) ∧
    (s.portState port = 1 → ∃ t, exec (.signalLock port) s = .next t ∧ t.portState port = 2 ∧ (t.getPort port).savedUse = false) ∧
    (s.portState port = 1 → ∃ t, exec (.signalTimeout port) s = .next t ∧ t.portState port = 0 ∧ t.pt port F.PORT_STATUS_DOWN_CAUSE = 3) ∧
    (s.portState port = 2 → layoutOf ((s.clearDeaf port).ownLanes port) ≠ 0 →
      exec (.alignTimeout port) s = .next (onPath s ((s.clearDeaf port).coldTrain port)) ∧
      ∃ t, exec (.alignTimeout port) s = .next t ∧ t.portState port = 1) ∧
    (s.portState port = 3 → ∃ t, exec (.exchangeTimeout port) s = .next t ∧ t.portState port = 2) ∧
    (s.portState port = 4 → ∃ t, exec (.readyTimeout port) s = .next t ∧ t.portState port = 2) ∧
    (1 ≤ s.portState port → s.portState port ≤ 4 → (s.getPort port).away = true →
      ∃ t, exec (.retrainTimeout port) s = .next t ∧ t.portState port = 0 ∧ t.pt port F.PORT_STATUS_DOWN_CAUSE = 4) ∧
    (s.portState port = 5 → layoutOf (s.ownLanes port) ≠ 0 →
      ∃ t, exec (.cdrLoss port) s = .next t ∧ t.portState port = 1 ∧ (t.getPort port).held = (s.getPort port).held) ∧
    (s.portState port = 4 → (s.getPort port).rxActive = true → ∃ t, exec (.txActiveAtAcw port) s = .next t ∧ t.portState port = 5) ∧
    (s.portState port = 1 → (s.getPort port).savedUse = true →
      ∃ t, exec (.savedSettingsTimeout port) s = .next t ∧ (t.getPort port).savedUse = false ∧ t.pt port F.PORT_EVENT_SAVED_REJECT = 1) ∧
    (s.portState port = 5 → s.pt port F.PORT_STATUS_QUAL = 1 →
      (s.windowPasses port (s.getPort port).win = true →
        ∃ t, exec (.qualWindowEnd port) s = .next t ∧ t.pt port F.PORT_STATUS_QUAL = 2 ∧ t.pt port F.PORT_EVENT_QUAL_DONE = 1) ∧
      (s.windowPasses port (s.getPort port).win = false → s.pt port F.PORT_CTRL_AUTO_DEGRADE = 0 →
        ∃ t, exec (.qualWindowEnd port) s = .next t ∧ t.portState port = 0 ∧ t.pt port F.PORT_STATUS_DOWN_CAUSE = 8 ∧
          t.pt port F.PORT_STATUS_QUAL = 3)) ∧
    (s.portState port = 5 → s.pt port F.PORT_STATUS_QUAL = 2 → s.windowPasses port (s.getPort port).win = false → 2 ≤ (s.getPort port).fails →
      s.pt port F.PORT_CTRL_AUTO_DEGRADE = 0 →
      ∃ t, exec (.monitorWindowEnd port) s = .next t ∧ t.pt port F.PORT_EVENT_BER_HIGH = 1 ∧ (t.getPort port).fails = 0)

/-- Parts of R134, R259, R263, R264, R283, Table 11-7: the commands of a port: EN 1 trains an enabled port cold with the lanes of its fuses, EN 0 takes it DOWN; in
ACTIVE a retrain keeps what is held, and one with the full mask takes it; a cold training of a port that is not DOWN discards what is held; a port that is DOWN by
a timeout or a failed qualification is tried again where AUTO_RETRY is 1; a port whose EN is 0 loses its contents to power gating. -/
def Obligations.PortCommandsAct : Prop :=
  ∀ (s : State) (port : Nat), portThere s port = true →
    (s.pt port F.PORT_CTRL_EN = 0 → s.portEnabled port = true → layoutOf (s.fuseMask port) ≠ 0 →
      ∃ t, exec (.portEnable port) s = .next t ∧ t.pt port F.PORT_CTRL_EN = 1 ∧ t.portState port = 1 ∧ (t.getPort port).ownMask = 0xFFFF) ∧
    (s.pt port F.PORT_CTRL_EN = 1 →
      ∃ t, exec (.portDisable port) s = .next t ∧ t.pt port F.PORT_CTRL_EN = 0 ∧ t.portState port = 0 ∧
        t.pt port F.PORT_STATUS_DOWN_CAUSE = 1 ∧ (t.getPort port).held = [] ∧ (t.getPort port).staged = []) ∧
    (s.portState port = 5 → layoutOf (s.ownLanes port) ≠ 0 →
      ∃ t, exec (.portRetrain port) s = .next t ∧ t.portState port = 2 ∧ t.pt port F.PORT_EVENT_RETRAIN = 1 ∧
        (t.getPort port).held = (s.getPort port).held) ∧
    (s.portState port = 5 → layoutOf (s.fuseMask port) ≠ 0 →
      ∃ t, exec (.portFullRetrain port) s = .next t ∧ t.portState port = 2 ∧ (t.getPort port).ownMask = 0xFFFF) ∧
    (s.portState port ≠ 0 → layoutOf (s.ownLanes port) ≠ 0 →
      ∃ t, exec (.portCold port) s = .next t ∧ t.portState port = 1 ∧ (t.getPort port).held = []) ∧
    (s.portState port = 0 → s.pt port F.PORT_CTRL_AUTO_RETRY = 1 → s.pt port F.PORT_CTRL_EN = 1 →
      (s.pt port F.PORT_STATUS_DOWN_CAUSE = 3 ∨ s.pt port F.PORT_STATUS_DOWN_CAUSE = 4 ∨ s.pt port F.PORT_STATUS_DOWN_CAUSE = 8) →
      layoutOf (s.ownLanes port) ≠ 0 → ∃ t, exec (.portAutoRetry port) s = .next t ∧ t.portState port = 1) ∧
    (s.pt port F.PORT_CTRL_EN = 0 → exec (.portPowerGate port) s = .next { s with ports := kdel s.ports port })

/-! ## Die-to-die crossings -/

/-- Parts of R268: a crossing in service takes a container: its acknowledgement and its slots act; its timer replays the containers that are held, and an
outstanding NAK is sent again. -/
def Obligations.CrossingsCarryContainers : Prop :=
  ∀ (s : State) (die n key : Nat) (c : Container), dlinkUp s die n = true → key = die * 32 + n → 2 ≤ s.dl key F.DLINK_STATUS_STATE →
    exec (.dlinkContainerReceive die n c) s = .next (onPath s (s.containerIn key c)) ∧
    exec (.dlinkReplayTimeout die n) s = .next (onPath s (s.dlReplay key)) ∧
    ((s.getDl key).nak = true → exec (.dlinkNakResend die n) s = .next (s.emit (.container die n (ackOf (s.getDl key).e true))))

/-- Parts of R152, R266, R269, R270: a crossing end that EN 1 enables trains from DOWN, and enters ACTIVE with all its modules; a module that fails in ACTIVE leads to
a retrain where HALF_ALLOW is 1, and DOWN where it is 0; a retrain keeps the end in training until it is done, or times out and is DOWN; a qualification without
repair and with at most 5 CRC errors passes, and another ends DOWN; EN 0 takes it DOWN. -/
def Obligations.CrossingsTrainAndFall : Prop :=
  ∀ (s : State) (die n m key repaired : Nat), dlinkUp s die n = true → n < 32 → key = die * 32 + n →
    (s.dlAllowed key = true → s.dl key F.DLINK_STATUS_STATE = 0 →
      ∃ t, exec (.dlinkEnable die n) s = .next t ∧ t.dl key F.DLINK_CTRL_EN = 1 ∧ t.dl key F.DLINK_STATUS_STATE = 1) ∧
    (s.dl key F.DLINK_STATUS_STATE ≠ 0 →
      ∃ t, exec (.dlinkDisable die n) s = .next t ∧ t.dl key F.DLINK_CTRL_EN = 0 ∧ t.dl key F.DLINK_STATUS_STATE = 0) ∧
    (s.dl key F.DLINK_STATUS_STATE = 1 →
      ∃ t, exec (.dlinkTrainDone die n 0xF repaired) s = .next t ∧ t.dl key F.DLINK_STATUS_STATE = 2 ∧ t.dl key F.DLINK_STATUS_MODULE_OK = 0xF) ∧
    (2 ≤ s.dl key F.DLINK_STATUS_STATE → ∃ t, exec (.dlinkRetrain die n) s = .next t ∧ t.dl key F.DLINK_STATUS_STATE = 1) ∧
    (s.dl key F.DLINK_STATUS_STATE = 2 → s.dl key F.DLINK_STATUS_MODULE_OK = 0xF → (s.getDl key).fresh = false → m < 4 →
      s.dl key F.DLINK_CTRL_HALF_ALLOW = 1 → ∃ t, exec (.dlinkModuleFail die n m) s = .next t ∧ t.dl key F.DLINK_STATUS_STATE = 1) ∧
    (s.dl key F.DLINK_STATUS_STATE = 2 → s.dl key F.DLINK_STATUS_MODULE_OK = 0xF → (s.getDl key).fresh = false → m < 4 →
      s.dl key F.DLINK_CTRL_HALF_ALLOW = 0 → ∃ t, exec (.dlinkModuleFail die n m) s = .next t ∧ t.dl key F.DLINK_STATUS_STATE = 0) ∧
    (s.dl key F.DLINK_STATUS_STATE = 1 → (s.getDl key).fresh = false →
      ∃ t, exec (.dlinkHalfTimeout die n) s = .next t ∧ t.dl key F.DLINK_STATUS_STATE = 0) ∧
    (2 ≤ s.dl key F.DLINK_STATUS_STATE → s.dl key F.DLINK_STATUS_QUAL = 1 →
      ((s.getDl key).qualRepair = false → (s.getDl key).qualErr ≤ 5 →
        ∃ t, exec (.dlinkQualEnd die n) s = .next t ∧ t.dl key F.DLINK_STATUS_QUAL = 2) ∧
      ((s.getDl key).qualRepair = true ∨ 5 < (s.getDl key).qualErr →
        ∃ t, exec (.dlinkQualEnd die n) s = .next t ∧ t.dl key F.DLINK_STATUS_QUAL = 3 ∧ t.dl key F.DLINK_STATUS_STATE = 0))

/-! ## Clock islands and power -/

/-- Parts of R273, R274, R278, R279, R283: a written target within the range is taken and another is not; a gliding island makes one step of 25 MHz toward its goal;
STOP and a lost lock stop the clock, and it restarts without a valid FT and with the island's other state kept, unless STOP is 1; an engine or collective unit with
no instance stops its clock. -/
def Obligations.IslandsGlideAndStop : Prop :=
  ∀ (s : State) (isl : Island) (u freq st : Nat) (i : Isl), islThere s isl = true → u = dieUnit isl.die → i = s.island isl.die isl.inst →
    (48 ≤ freq → freq ≤ 88 → s.islFloor ≤ 25 * freq →
      exec (.islandFreqWrite isl freq) s = .next (s.setFldAt u F.POWER_ISL_CTRL_FREQ isl.inst freq)) ∧
    ((freq < 48 ∨ 88 < freq ∨ 25 * freq < s.islFloor) → exec (.islandFreqWrite isl freq) s = .next s) ∧
    (i.running = true → i.freq < s.islGoal isl.die isl.inst →
      ∃ t, exec (.islandGlideStep isl) s = .next t ∧ t.island isl.die isl.inst = { i with freq := i.freq + 1 }) ∧
    (i.running = true → s.islGoal isl.die isl.inst < i.freq →
      ∃ t, exec (.islandGlideStep isl) s = .next t ∧ t.island isl.die isl.inst = { i with freq := i.freq - 1 }) ∧
    (∃ t, exec (.islandStop isl) s = .next t ∧ t.fldAt u F.POWER_ISL_CTRL_STOP isl.inst = 1 ∧
      t.island isl.die isl.inst = { i with running := false } ∧ t.ni = s.ni ∧ t.rtr = s.rtr ∧ t.ctrs = s.ctrs ∧ t.eng = s.eng) ∧
    (s.tree = [] → s.treeWait = [] → i.locked = true → i.running = false →
      ∃ t, exec (.islandStart isl) s = .next t ∧ t.fldAt u F.POWER_ISL_CTRL_STOP isl.inst = 0 ∧
        t.island isl.die isl.inst = { i with running := true, ftValid := false }) ∧
    (i.locked = true →
      ∃ t, exec (.pllLockLost isl) s = .next t ∧ t.island isl.die isl.inst = { i with running := false, locked := false, ftValid := false } ∧
        t.fldAt u F.POWER_ISL_STATUS_LOCK_LOST isl.inst = 1 ∧ t.bit u F.POWER_EVENT_LOCK_LOST = true ∧
        Out.fault u 11 (BitVec.ofNat 32 i.freq) ∈ t.out) ∧
    (s.tree = [] → s.treeWait = [] → i.locked = false → i.running = false → s.dieState isl.die = 0 → s.fldAt u F.POWER_ISL_CTRL_STOP isl.inst = 0 →
      ∃ t, exec (.pllRelock isl) s = .next t ∧ t.island isl.die isl.inst = { i with locked := true, running := true, ftValid := false }) ∧
    (s.tree = [] → s.treeWait = [] → i.locked = false → s.dieState isl.die = 0 → s.fldAt u F.POWER_ISL_CTRL_STOP isl.inst = 1 →
      ∃ t, exec (.pllRelock isl) s = .next t ∧ t.island isl.die isl.inst = { i with locked := true, freq := 80 }) ∧
    ((stationKind s.pkg st).isSome = true → s.pwr.asleep.contains st = false → (s.getEng st).insts = [] →
      exec (.engineClockStop st) s = .next { s with pwr := { s.pwr with asleep := s.pwr.asleep ++ [st] } })

/-- Parts of R280–R282, R292: outside a Holiday a compute die that is ON and that no die path names goes into GATING with its islands stopped, and a GATE elsewhere is
rejected; a die in GATING goes OFF with GATE_DONE and its NIs' contents lost, and on into UNGATING where an UNGATE waited; UNGATE runs from OFF; a step that times
out leaves the die OFF with GATE_REJECT, and the last step leaves it ON with GATE_DONE. -/
def Obligations.DiesGateAndUngate : Prop :=
  ∀ (s : State) (die u : Nat), dieExists s.pkg die = true → u = dieUnit die →
    (dieCompute s.pkg die = true → s.holds = false → s.dieUsed die = false → s.dieState die = 0 →
      ∃ t, exec (.dieGate die) s = .next t ∧ t.dieState die = 1 ∧ ∀ i, islExists s.pkg die i = true → (t.island die i).running = false) ∧
    ((dieCompute s.pkg die = false ∨ s.dieUsed die = true ∨ s.dieState die ≠ 0) → s.holds = false →
      exec (.dieGate die) s = .next (s.event u F.POWER_EVENT_GATE_REJECT)) ∧
    (s.dieState die = 1 →
      ∃ t, exec (.dieGateDone die) s = .next t ∧ t.bit u F.POWER_EVENT_GATE_DONE = true ∧
        t.dieState die = (if s.pwr.ungateWait.contains die then 3 else 2) ∧ ∀ st, st / 2048 = die → t.getNi st = {}) ∧
    (s.holds = false → s.dieState die = 2 → exec (.dieUngate die) s = .next (s.setDieState die 3)) ∧
    (s.dieState die = 3 →
      ∃ t, exec (.ungateStepTimeout die) s = .next t ∧ t.dieState die = 2 ∧ t.bit u F.POWER_EVENT_GATE_REJECT = true ∧ t.freeCtr = s.freeCtr + 1) ∧
    (s.dieState die = 3 →
      ∃ t, exec (.dieUngateDone die) s = .next t ∧ t.dieState die = 0 ∧ t.bit u F.POWER_EVENT_GATE_DONE = true)

/-- Parts of R285–R289: the ramp limit and the level follow the inputs sampled at the governing side; throttle_n low there, or FORCE_THROTTLE, brings the throttle into
force; the end of the hold time ends one that no cause holds; kalends_warn rises once its time before the next Kalends has come, with KWARN_EN at 1, and falls once
the waves have begun. -/
def Obligations.ThrottleFollowsItsCauses : Prop :=
  ∀ (s : State) (side : Nat) (valid : Bool) (ramp : W12) (budget : W3), side < 2 → side = s.pinSide →
    (∃ t, exec (.pcInputSample ⟨side, valid⟩ ramp budget) s = .next t ∧
      t.ramp = (if valid = true ∧ ramp ≠ 0 then ramp.toNat else s.defaultRamp % 4096) ∧
      t.pw F.POWER_STATUS_LEVEL = (if valid then budget.toNat else s.pw F.POWER_STATUS_LEVEL) ∧
      (valid = false ∨ ramp = 0 → t.bit (dieUnit s.rootDie) F.POWER_EVENT_RAMP_MISSING = true)) ∧
    (∃ t, exec (.throttleNChange ⟨side, false⟩) s = .next t ∧ t.pw F.POWER_STATUS_THROTTLE_N = 0 ∧ t.pw F.POWER_STATUS_THROTTLE = 1 ∧
      t.pw F.POWER_STATUS_HOLDING = 0) ∧
    (∃ t, exec (.forceThrottleWrite true) s = .next t ∧ t.pw F.POWER_CTRL_FORCE_THROTTLE = 1 ∧ t.pw F.POWER_STATUS_THROTTLE = 1 ∧
      t.pw F.POWER_STATUS_HOLDING = 0) ∧
    (s.pw F.POWER_STATUS_THROTTLE = 1 → s.pw F.POWER_STATUS_HOLDING = 1 → 4000 * s.powerParam 8 2 1000 ≤ ftSince s.time.ft s.pwr.holdAt →
      ∃ t, exec .throttleHoldExpiry s = .next t ∧ t.pw F.POWER_STATUS_THROTTLE = 0 ∧ t.pw F.POWER_STATUS_S = 16 ∧
        t.bit (dieUnit s.rootDie) F.POWER_EVENT_THROTTLE_OFF = true) ∧
    (s.pw F.POWER_CTRL_KWARN_EN = 1 → s.pwr.kwarn = false → ftGe (s.time.ft + BitVec.ofNat 64 (4 * s.powerParam 10 2 1000)) s.nextKalends = true →
      exec .kalendsWarnRise s = .next (State.emit { s with pwr := { s.pwr with kwarn := true } } (.pin (.kalendsWarn side) true))) ∧
    (s.pwr.kwarn = true → ftGe s.time.ft (s.alm.start + BitVec.ofNat 64 (bankWaves s.bankIn * s.alm.spacing)) = true →
      ftGe (s.time.ft + BitVec.ofNat 64 (4 * s.powerParam 10 2 1000)) s.nextKalends = false →
      exec .kalendsWarnFall s = .next (State.emit { s with pwr := { s.pwr with kwarn := false } } (.pin (.kalendsWarn side) false)))


/-! ## Faults -/

/-- Parts of R62, R294, R300, R303–R307, R313: a report whose strobe has come and whose severity asks for neither isolation, fence nor Holiday is counted,
classified and captured; the end of its capture, 16 fault cycles after it, fills a free FAULT_FIRST; a fence message fences its key at every NI of the die; a class
at NOTE that has been quiet returns to NONE; FAULT_UNIT_CMD clears the states, the Jubilee count or the isolations and fences of the unit that FAULT_UNIT_SEL names,
and resets it where it is an NI whose control fields are 0, rejecting one that is an NI whose fields are not. -/
def Obligations.FaultUnitsCountCaptureAndRecover : Prop :=
  ∀ (s : State) (die fu u c key st : Nat) (r : FaultReport) (x : FCapture) (y : FClass) (z : FUnit), dieExists s.pkg die = true → fu = faultUnit die →
    (r.cls < 15 → unitDie r.unit = die → r.strobe = true → s.fld fu F.FAULT_CTRL_EN = 1 → (s.fdie die).capture = [] →
      y = (classify (s.policy die r.cls) ((s.funit r.unit).at_ r.cls) (s.faultFt die)).1 → s.reacts die r.cls y.st < 4 →
      ∃ t, exec (.faultReportReceive die [r]) s = .next t ∧
        t.ctrAt fu (R.FAULT_CNT + 8 * r.cls) = satAdd48 (s.ctrAt fu (R.FAULT_CNT + 8 * r.cls)) 1 ∧ (t.funit r.unit).at_ r.cls = y ∧
        ((s.reacts die r.cls y.st).testBit 1 = true → t.bit fu F.FAULT_EVENT_FAULT = true) ∧
        ∃ w, (t.fdie die).capture = [w] ∧ w.unit = r.unit ∧ w.cls = r.cls ∧ w.detail = r.detail ∧ w.sev = y.st ∧ w.cnt = y.cnt ∧ w.ft = s.faultFt die) ∧
    ((s.fdie die).capture = [x] → 128 ≤ ftSince (s.faultFt die) x.ft → x.log = false → x.sev < 4 → x.cls < 16 → s.fld fu F.FAULT_FIRST_INFO_VALID = 0 →
      s.fld fu F.FAULT_CTRL_FIRST_MIN ≤ x.sev →
      ∃ t, exec (.faultCaptureDone die) s = .next t ∧ (t.fdie die).capture = [] ∧ t.fld fu F.FAULT_FIRST_INFO_VALID = 1 ∧
        t.fld fu F.FAULT_FIRST_INFO_SEVERITY = x.sev ∧ t.fld fu F.FAULT_FIRST_INFO_CLASS = x.cls ∧
        t.fld fu F.FAULT_FIRST_DETAIL_DETAIL = x.detail.toNat ∧ t.pair fu R.FAULT_FIRST_FT = x.ft) ∧
    (0 < key → key < 4096 →
      ∃ t, exec (.faultFenceMessage die key) s = .next t ∧ t.bit fu F.FAULT_EVENT_FENCE_APPLIED = true ∧
        ∀ j, j ∈ dieStations s.pkg die → key ∈ (t.getNi j).fenced) ∧
    ((s.fdie die).units = [(u, z)] → z.cls = [(c, y)] → unitDie u = die → y.st = 1 → (s.policy die c).q ≤ ftSince (s.faultFt die) y.last →
      z.jubilee < s.fld fu F.FAULT_CTRL_JUBILEE_MAX → (s.policy die c).auto = false →
      ∃ t, exec (.faultQuietCheck die) s = .next t ∧ (t.funit u).at_ c = { y with st := 0, cnt := 0 } ∧ (t.funit u).jubilee = z.jubilee) ∧
    (∃ t, exec (.faultUnitClear die) s = .next t ∧ ∀ k, ((t.funit (s.selUnit die)).at_ k).st = 0) ∧
    (isoTargets s.pkg (s.selUnit die) = [] →
      ∃ t, exec (.faultUnitRestore die) s = .next t ∧ (∀ k, ((t.funit (s.selUnit die)).at_ k).st = 0) ∧
        ∀ f, f ∈ (t.funit (s.selUnit die)).fences → 15 ≤ f.1) ∧
    (∃ t, exec (.faultClearJubilee die) s = .next t ∧ (t.funit (s.selUnit die)).jubilee = 0) ∧
    (unitKind s.pkg (s.selUnit die) = some .ni → st = niStation (s.selUnit die) → s.control (niUnit st) = 0 → s.recentResets st < 15 →
      ∃ t, exec (.faultUnitReset die) s = .next t ∧ (t.getNi st).queues = [] ∧ (t.getNi st).cmdq = [] ∧ (t.getNi st).grants = [] ∧
        (t.getNi st).ctr = []) ∧
    (unitKind s.pkg (s.selUnit die) = some .ni → st = niStation (s.selUnit die) → s.control (niUnit st) ≠ 0 →
      exec (.faultUnitReset die) s = .next (s.event fu F.FAULT_EVENT_CMD_REJECT))

/-- Parts of R296, R315, R318: where no injector is armed, the scrubber corrects a word with one wrong bit and poisons one with an even number, each counted, and
goes on to the next word; a functional read's corrected word is written back; a beacon shows the control fields as live and as last written, and the third mismatch
in a row outside a transition is a fault. -/
def Obligations.ScrubbersAndBeaconsReport : Prop :=
  ∀ (s : State) (die unit sram word w : Nat) (b : Beacon), (unitKind s.pkg unit).isSome = true → sram < 64 →
    w = kget 0 s.flt.scrub (unit * 64 + sram) → b = kget {} s.flt.beacons unit →
    ((s.eccAt unit sram w = 0 ∨ s.eccAt unit sram w = 3) →
      exec (.scrubAccess unit sram) s =
        .next (s.updFlt (fun t => { t with scrub := kput 0 t.scrub (unit * 64 + sram) ((w + 1) % 2 ^ 24) }))) ∧
    (weight (s.eccAt unit sram w) = 1 → s.fld unit (injFld 31 31) = 0 →
      ∃ t, exec (.scrubAccess unit sram) s = .next t ∧ t.eccAt unit sram w = 0 ∧ t.out = .fault unit 0 (eccDetail sram w false true) :: s.out ∧
        kget 0 t.flt.scrub (unit * 64 + sram) = (w + 1) % 2 ^ 24) ∧
    (s.eccAt unit sram w ≠ 0 → s.eccAt unit sram w ≠ 3 → weight (s.eccAt unit sram w) % 2 = 0 → s.fld unit (injFld 31 31) = 0 →
      ∃ t, exec (.scrubAccess unit sram) s = .next t ∧ t.eccAt unit sram w = 3 ∧ t.out = .fault unit 1 (eccDetail sram w false true) :: s.out) ∧
    (weight (s.eccAt unit sram word) = 1 → s.fld unit (injFld 31 31) = 0 →
      ∃ t, exec (.eccWriteBack unit sram word) s = .next t ∧ t.eccAt unit sram word = 0 ∧
        t.out = .fault unit 0 (eccDetail sram word false false) :: s.out) ∧
    (dieExists s.pkg die = true → unitDie unit = die → s.control unit = b.written →
      ∃ t, exec (.stateBeacon die unit) s = .next t ∧ t.out = .shadow unit b.written b.written (s.beaconState unit) :: s.out ∧
        kget {} t.flt.beacons unit = { b with misses := 0, shadow := some (b.written, b.written) }) ∧
    (dieExists s.pkg die = true → unitDie unit = die → s.control unit ≠ b.written → s.inTransition unit = false → b.misses = 2 →
      ∃ t, exec (.stateBeacon die unit) s = .next t ∧
        t.out = .fault unit 12 (BitVec.ofNat 32 (b.written % 65536 * 65536 + s.control unit % 65536)) ::
          .shadow unit b.written (s.control unit) (s.beaconState unit) :: s.out)

/-! ## The Chronicle -/

/-- Parts of R323, R324, R327–R329, R331–R333: a bucket that has suppressed nothing is refilled; the first held record goes to the deciding device under the next SEQ
where a sector has room; a program that is done takes effect and leaves its device, and a failed one after a failure loses it; a CLOSED sector without a live record
is erased; an erase is verified, tried again, or marks its sector BAD; a device is mounted at the end of its mount; and the standby applies a decision to retire a
record. -/
def Obligations.ChroniclePlacesAndErases : Prop :=
  ∀ (s : State) (ctl m o n key : Nat) (d : ChDev) (r : ChRec) (rs : List ChRec) (pre : List FlashOp) (op : FlashOp) (q : W32) (b : ChBucket)
    (ds : List ChDecision) (es : List Nat) (e : Nat × ChSector),
    ctl < 2 → m = s.chMaster → o = 1 - s.chActive → d = s.chDev ctl →
    (s.chron.buckets = [(key, b)] → b.supp = 0 →
      exec .bucketRefill s = .next (s.updChron (fun c => { c with
        buckets := kput {} c.buckets key { b with spent := b.spent - (s.bucketRate key).1 } }))) ∧
    (s.chron.hold = r :: rs → s.chron.lost = 0 → (s.chDev m).ok = true → (s.chDev m).mounted = true → s.frozen = false → (s.chDev m).ops = [] →
      (s.chDev m).room = some (n, pre) →
      ∃ t, exec .recordPlace s = .next t ∧ t.chron.hold = rs ∧ (t.chDev m).seqNext = (s.chDev m).seqNext + 1 ∧
        (t.chDev m).ops = pre ++ [.body n { r := r, seq := (s.chDev m).seqNext }, .mark n (s.chDev m).seqNext 0x0F]) ∧
    (d.ops = [op] → d.busy = true →
      ∃ t, exec (.chronProgramDone ctl true) s = .next t ∧ t.chDev ctl = { d.program op with ops := [], busy := false, fails := op.failsAfter d.fails }) ∧
    (d.ops = [op] → d.busy = true → 1 ≤ d.fails →
      ∃ t, exec (.chronProgramDone ctl false) s = .next t ∧ (t.chDev ctl).ok = false ∧ (t.chDev ctl).ops = [] ∧
        t.bit (chronUnit s.pkg ctl) F.CHRON_EVENT_DEVICE_LOST = true) ∧
    (d.ok = true → d.mounted = true → s.frozen = false → d.ops = [] →
      (d.sectors.filter (fun e => e.2.st == 0x0F && !e.2.started)).find? (fun e => e.2.live.isEmpty) = some e →
      ∃ t, exec (.chronCompaction ctl) s = .next t ∧ (t.chDev ctl).ops = [.eraseStart e.1]) ∧
    (d.eraseQ = n :: es → s.frozen = false →
      (∃ t, exec (.sectorEraseDone ctl true) s = .next t ∧ (t.chDev ctl).eraseQ = es ∧ (t.chDev ctl).ops = d.ops ++ [.erased n]) ∧
      (d.eraseFailed = false →
        ∃ t, exec (.sectorEraseDone ctl false) s = .next t ∧ (t.chDev ctl).eraseFailed = true ∧ t.out = .flashErase ctl n :: s.out) ∧
      (d.eraseFailed = true →
        ∃ t, exec (.sectorEraseDone ctl false) s = .next t ∧ (t.chDev ctl).eraseQ = es ∧ (t.chDev ctl).ops = d.ops ++ [.bad n])) ∧
    (∀ answers, ∃ t, exec (.chronMountDone ctl answers) s = .next t ∧ (t.chDev ctl).mounted = true) ∧
    ((s.chDev o).decisions = .retire q :: ds → (s.chDev o).ok = true → (s.chDev o).mounted = true → s.frozen = false → (s.chDev o).ops = [] →
      (s.chDev o).sectorOf q = some n →
      ∃ t, exec .standbyDecisionApply s = .next t ∧ (t.chDev o).decisions = ds ∧ (t.chDev o).ops = [.mark n q 0x00])

/-- Parts of R325, R326, R330, R334, R335: a read command to a mounted device shows the live record with the lowest SEQ from the cursor on, or that there is none; at
the active controller RETIRE_TO acts, or waits while FREEZE is 1, a record of the FM's codes with its FT is submitted, and FREEZE begins for both copies, ends, and
expires once CHRON_FREEZE_MAX has passed; SECONDS counts and saturates. -/
def Obligations.ChronicleCommandsAct : Prop :=
  ∀ (s : State) (ctl u : Nat) (x : ChSlot) (c : W32) (bs : List Byte), ctl < 2 → u = chronUnit s.pkg ctl →
    (∀ next : Bool, (s.chDev ctl).mounted = true → c = s.reg u R.CHRON_CURSOR + (if next then 1 else 0) →
      lowestSeq ((s.chDev ctl).live.filter (fun x => !seqLt x.seq c)) = some x →
      ∃ t, exec (if next then .chronNext ctl else .chronLoad ctl) s = .next t ∧ t.fld u F.CHRON_RD_STATUS_READY = 1 ∧
        t.fld u F.CHRON_RD_STATUS_FOUND = 1 ∧ t.reg u R.CHRON_CURSOR = x.seq ∧
        ∀ i, i < 8 → t.fldAt u F.CHRON_WIN_WORD i = leAt x.bytes (4 * i) 4) ∧
    (∀ next : Bool, (s.chDev ctl).mounted = true → c = s.reg u R.CHRON_CURSOR + (if next then 1 else 0) →
      lowestSeq ((s.chDev ctl).live.filter (fun x => !seqLt x.seq c)) = none →
      ∃ t, exec (if next then .chronNext ctl else .chronLoad ctl) s = .next t ∧ t.fld u F.CHRON_RD_STATUS_READY = 1 ∧
        t.fld u F.CHRON_RD_STATUS_FOUND = 0 ∧ t.reg u R.CHRON_CURSOR = s.reg u R.CHRON_CURSOR) ∧
    (s.chGoverns ctl = true → s.frozen = false →
      exec (.chronRetireTo ctl) s = .next (chronParts s (s.retireTo (s.reg u R.CHRON_RETIRE_SEQ)))) ∧
    (s.chGoverns ctl = true → s.frozen = true → s.chron.retire = none →
      exec (.chronRetireTo ctl) s = .next (s.updChron (fun c => { c with retire := some (s.reg u R.CHRON_RETIRE_SEQ) }))) ∧
    (s.chGoverns ctl = true → bs = (List.range 8).flatMap (fun i => leBytes 4 (s.fldAt u F.CHRON_SW_WORD i)) → 0x0300 ≤ leAt bs 0 2 →
      leAt bs 0 2 ≤ 0x03FF → leAt bs 8 8 ≠ 0 →
      exec (.chronSwSubmit ctl) s = .next (chronParts s (s.chSubmit {
        code := leAt bs 0 2, sev := leAt bs 2 1 % 4, quality := leAt bs 2 1 / 4 % 4, source := leAt bs 3 3, cycles := 0,
        ft := BitVec.ofNat 64 (leAt bs 8 8), seconds := 0, payload := (bs.drop 24).take 7 }))) ∧
    (s.chGoverns ctl = true → s.frozen = false →
      exec (.chronFreeze ctl) s = .next ((s.updChron (fun c => { c with frozeAt := s.time.ft })).setFreeze 1)) ∧
    (s.chGoverns ctl = true → s.frozen = true → ∃ t, exec (.chronUnfreeze ctl) s = .next t ∧ t.frozen = false) ∧
    (s.chGoverns ctl = true → s.frozen = true → 4000000 * s.fld u F.CHRON_FREEZE_MAX_MS ≤ ftSince s.time.ft s.chron.frozeAt →
      ∃ t, exec .chronFreezeExpiry s = .next t ∧ t.frozen = false ∧ t.bit u F.CHRON_EVENT_FREEZE_EXPIRED = true) ∧
    exec (.chronSecondsTick ctl) s = .next (s.updDev ctl (fun d => { d with seconds := min (2 ^ 32 - 1) (d.seconds + 1) }))


/-! ## Resets and bring-up -/

/-- Parts of R338, R357, R399: a cold reset leaves no written register, no counter, no record of an NI, router, port, link, time or almanac unit, no lease and no
image, and keeps both sides' flash and Chronicle sectors; outside a Holiday, with the NIs' records listed in order, the reset of the pin empties the pools,
routers, ports and links, drops the lease and the image, keeps FT, the flash and each NI's fences, empties each NI's transactions and shows kind 2; a side's
BOOT_CMD WARM_RESET shows kind 1 where that side is the active core, and does nothing where it is not. -/
def Obligations.ResetsRestartTheBlock : Prop :=
  ∀ (s : State) (side : Nat),
    (∃ t, exec .coldReset s = .next t ∧ t.regs = [] ∧ t.ctrs = [] ∧ t.ni = [] ∧ t.rtr = [] ∧ t.ports = [] ∧ t.dlinks = [] ∧ t.time = {} ∧ t.alm = {} ∧
      t.holder = none ∧ t.image = none ∧ t.committed = false ∧ t.boot = { f0 := s.boot.f0, f1 := s.boot.f1 } ∧
      t.chron.d0.sectors = s.chron.d0.sectors ∧ t.chron.d1.sectors = s.chron.d1.sectors) ∧
    (s.hol.active = false → kwf s.ni = true →
      ∃ t, exec .warmResetPin s = .next t ∧ t.fld (bootUnit s.pkg 0) F.BOOT_STATUS_RESET_KIND = 2 ∧ t.pools = [] ∧ t.rtr = [] ∧ t.ports = [] ∧
        t.dlinks = [] ∧ t.holder = none ∧ t.image = none ∧ t.committed = false ∧ t.time.ft = s.time.ft ∧ t.boot.f0 = s.boot.f0 ∧
        t.boot.f1 = s.boot.f1 ∧ ∀ st, (t.getNi st).fenced = (s.getNi st).fenced ∧ (t.getNi st).txn = []) ∧
    (side < 2 → s.holder = some side → s.hol.active = false →
      ∃ t, exec (.bootWarmReset side) s = .next t ∧ t.fld (bootUnit s.pkg 0) F.BOOT_STATUS_RESET_KIND = 1 ∧ t.rtr = [] ∧ t.holder = none ∧
        t.image = none) ∧
    (side < 2 → s.holder ≠ some side → exec (.bootWarmReset side) s = .next s)

/-- Parts of R339–R342, R347, R349, R350, outside a Holiday: step B7 at level 0 that may start writes STARTED into both journals; a started step whose work
holds, of B2, B3, B5 and B6, is followed by the next one, and B7 by READY; the timeout of a step other than B5 ends FAILED where AUTO_WARM is 0, and in a warm
reset of kind 3 with no lease where it is 1; the deadline of B5 sets LATE; at the active core's side, CONTINUE_NO_IMAGE at WAIT_IMAGE of B1 and PROCEED in B5 go
on, and are rejected where the state is not WAIT_IMAGE and outside B5; CLEAR_LEVELS and CLEAR_DISABLES write blocks that have none. -/
def Obligations.BringUpStepsInOrder : Prop :=
  ∀ (s : State) (side k : Nat), side < 2 → k = s.bootStep → s.hol.active = false →
    (s.mayStart = true → k = 7 → s.stepLevel 7 = 0 →
      ∃ t e, exec .bootStepStart s = .next t ∧ t.boot.started = true ∧ t.boot.f0.journal = pushEntry s.boot.f0.journal e ∧
        t.boot.f1.journal = pushEntry s.boot.f1.journal e ∧ e.step = 7 ∧ e.event = 0) ∧
    (s.mayStart = true → exec .bootStepStart s = .next (kept s (s.stepStart k))) ∧
    (s.boot.started = true → s.bootState = 1 → k ∈ [2, 3, 5, 6] → s.finishHolds k = true →
      ∃ t, exec .bootStepFinish s = .next t ∧ t.bootStep = k + 1 ∧ t.bootState = 1 ∧ t.boot.started = false) ∧
    (s.boot.started = true → s.bootState = 1 → k = 7 → s.finishHolds 7 = true →
      ∃ t, exec .bootStepFinish s = .next t ∧ t.bootState = 3 ∧ t.boot.started = false) ∧
    (s.boot.started = true → s.bootState = 1 → k ≠ 5 → s.bootFld F.BOOT_CTRL_AUTO_WARM = 0 →
      ∃ t, exec .bootStepTimeout s = .next t ∧ t.bootState = 4 ∧ t.boot.started = false) ∧
    (s.boot.started = true → s.bootState = 1 → k ≠ 5 → s.bootFld F.BOOT_CTRL_AUTO_WARM = 1 →
      ∃ t, exec .bootStepTimeout s = .next t ∧ t.fld (bootUnit s.pkg 0) F.BOOT_STATUS_RESET_KIND = 3 ∧ t.holder = none) ∧
    (s.inB5 = true → s.bootFld F.BOOT_DEADLINE_S ≠ 0 →
      ∃ t, exec .bootDeadlineExpiry s = .next t ∧ t.bit (bootUnit s.pkg s.bootSide) F.BOOT_EVENT_LATE = true) ∧
    (s.holder = some side →
      (s.bootState = 2 → k = 1 →
        ∃ t, exec (.bootContinueNoImage side) s = .next t ∧ t.bootState = 1 ∧ t.boot.noImage = true) ∧
      (s.bootState ≠ 2 → exec (.bootContinueNoImage side) s = .next (s.event (bootUnit s.pkg side) F.BOOT_EVENT_CMD_REJECT)) ∧
      (s.inB5 = true →
        ∃ t, exec (.bootProceed side) s = .next t ∧ t.bootStep = 6 ∧ t.bootState = 1 ∧ t.fld (bootUnit s.pkg 0) F.BOOT_STATUS_REDUCED = 1) ∧
      (s.inB5 = false → exec (.bootProceed side) s = .next (s.event (bootUnit s.pkg side) F.BOOT_EVENT_CMD_REJECT)) ∧
      (∃ t b, exec (.bootClearLevels side) s = .next t ∧ t.boot.f0.block = some b ∧ t.boot.f1.block = some b ∧ b.levels = 0 ∧
        b.clearedAt = BitVec.ofNat 32 s.bootNo) ∧
      (∃ t b, exec (.bootClearDisables side) s = .next t ∧ t.boot.f0.block = some b ∧ t.boot.f1.block = some b ∧ b.dis = []))

/-- Parts of R352–R356: a request at a voter that has granted to no core is granted, and one of the core that holds the voter's grant changes nothing; with
FM_ALIVE, the active core's heartbeat is sent and renews every vote it holds; at a side that does not hold the lease a missed heartbeat counts, and at the limit
is reported and the lease requested; a grant that expires and breaks the majority ends the lease; a core with a majority takes a lease that no core holds, the
first with epoch 1, or that of the other core with the next epoch; a kick is noted; a core other than the preferred one that is up requests an unheld lease; the
mirror's fence pends until it is done; and the standby's synchronisation and its loss are shown at the active side. -/
def Obligations.LeaseAndMirrorMove : Prop :=
  ∀ (s u : State) (side voter core n : Nat) (e : FT), side < 2 → core < 2 → voter < voterCount s.pkg →
    n = kget 0 s.lease.misses side + 1 →
    (kfind s.lease.votes voter = none → exec (.leaseRequestReceive voter core) s = .next (s.grantVote voter core)) ∧
    (kfind s.lease.votes voter = some (core, e) → exec (.leaseRequestReceive voter core) s = .next s) ∧
    (s.fmAlive side = true → s.holder = some side → s.lease.lapsed = none →
      ∃ t, exec (.heartbeatTick side) s = .next t ∧ Out.heartbeat side true ∈ t.out ∧
        ∀ v x, kfind s.lease.votes v = some (side, x) → kfind t.lease.votes v = some (side, s.leaseEnd)) ∧
    (s.holder ≠ some side → n ≠ s.hbLimit →
      exec (.heartbeatMiss side) s = .next (s.updLease (fun l => { l with misses := kput 0 l.misses side n }))) ∧
    (s.holder ≠ some side → n = s.hbLimit →
      ∃ t, exec (.heartbeatMiss side) s = .next t ∧ t.out = .leaseRequest side :: .fault (bootUnit s.pkg side) 13 2 :: s.out) ∧
    (s.holder = some core → kfind s.lease.votes voter = some (core, e) →
      u = s.updLease (fun l => { l with votes := kdel l.votes voter, fresh := kdel l.fresh voter }) → u.hasMajority core = false →
      ∃ t, exec (.leaseGrantExpiry voter) s = .next t ∧ t.holder = none ∧ kfind t.lease.votes voter = none) ∧
    (s.hasMajority core = true → s.holder = none → s.lease.epoch = 0 →
      ∃ t, exec (.takeover core) s = .next t ∧ t.holder = some core ∧ t.lease.epoch = 1 ∧ t.fld (bootUnit s.pkg core) F.BOOT_STATUS_ACTIVE = 1 ∧
        t.irqHeld = [] ∧ t.flt.fenceHeld = []) ∧
    (s.hasMajority core = true → s.holder = some (1 - core) → s.lease.epoch ≠ 0 →
      ∃ t, exec (.takeover core) s = .next t ∧ t.holder = some core ∧ t.lease.epoch = (s.lease.epoch + 1) % 65536 ∧ t.tree = [] ∧ t.treeWait = []) ∧
    exec (.bootHbKick side) s = .next (s.updLease (fun l => { l with kick := kins l.kick side s.time.ft })) ∧
    (core ≠ s.prefCore → s.boot.fwUp.contains core = true → s.holder = none →
      exec (.coldStartLeaseRequest core) s = .next (s.emit (.leaseRequest core))) ∧
    (s.holder = some side →
      (∃ t, exec (.bootMirrorFence side) s = .next t ∧ t.fld (bootUnit s.pkg side) F.BOOT_MIRROR_STATUS_FENCE_PENDING = 1) ∧
      (∃ t, exec .mirrorFenceDone s = .next t ∧ t.fld (bootUnit s.pkg side) F.BOOT_MIRROR_STATUS_FENCE_PENDING = 0 ∧
        t.fld (bootUnit s.pkg side) F.BOOT_MIRROR_STATUS_BACKLOG_KIB = 0) ∧
      (s.fld (bootUnit s.pkg side) F.BOOT_STATUS_SYNCED = 0 →
        ∃ t, exec .standbySyncDone s = .next t ∧ t.fld (bootUnit s.pkg side) F.BOOT_STATUS_SYNCED = 1 ∧
          t.bit (bootUnit s.pkg side) F.BOOT_EVENT_STANDBY_SYNCED = true) ∧
      (∃ t, exec .standbyLost s = .next t ∧ t.fld (bootUnit s.pkg side) F.BOOT_STATUS_SYNCED = 0 ∧
        t.bit (bootUnit s.pkg side) F.BOOT_EVENT_STANDBY_LOST = true))

/-! ## The host mailbox -/

/-- Parts of R359–R363: a producer index at most the ring's size ahead of the consumer's moves, with its entry in the ring, and one further ahead sets IDX_ERR and
does not; a response consumer index within what is unread moves, where no answer waits and none is lost, and one beyond sets IDX_ERR and does not; NOP and
EVENT_MASK answer OK; a background command's answer is written at its end; a vector's holdoff that owes nothing ends; and a vector's table entry is written. -/
def Obligations.MailboxRingsMove : Prop :=
  ∀ (s : State) (idx : W16) (e : Desc) (v : Nat) (addr : FT) (data : W32) (masked : Bool) (r : MbxRsp) (h : W32), h = dw s.mbxFront 0 →
    ((idx.toNat + 65536 - s.mb F.MBX_CMD_CONS_INDEX) % 65536 ≤ 256 →
      ∃ t, exec (.mbxCmdProdWrite idx [e]) s = .next t ∧ t.mb F.MBX_CMD_PROD_INDEX = idx.toNat ∧
        kfind t.mbx.cmd (s.mb F.MBX_CMD_PROD_INDEX % 256) = some e) ∧
    (256 < (idx.toNat + 65536 - s.mb F.MBX_CMD_CONS_INDEX) % 65536 →
      ∃ t, exec (.mbxCmdProdWrite idx [e]) s = .next t ∧ t.mb F.MBX_CMD_PROD_INDEX = s.mb F.MBX_CMD_PROD_INDEX ∧
        t.bit (mbxUnit s.pkg) F.MBX_EVENT_IDX_ERR = true) ∧
    ((idx.toNat + 65536 - s.mb F.MBX_RSP_CONS_INDEX) % 65536 ≤ s.rspLevel → s.mbx.waiting = [] → s.mbx.lost = 0 →
      ∃ t, exec (.mbxRspConsWrite idx) s = .next t ∧ t.mb F.MBX_RSP_CONS_INDEX = idx.toNat ∧ t.mbx = s.mbx) ∧
    (s.rspLevel < (idx.toNat + 65536 - s.mb F.MBX_RSP_CONS_INDEX) % 65536 →
      ∃ t, exec (.mbxRspConsWrite idx) s = .next t ∧ t.mb F.MBX_RSP_CONS_INDEX = s.mb F.MBX_RSP_CONS_INDEX ∧
        t.bit (mbxUnit s.pkg) F.MBX_EVENT_IDX_ERR = true) ∧
    (mbxTakes s 0x0001 → exec .mbxNop s = .next (Part.put .mbx s ((mbxTaken s).mbxAnswer h 0x0001 0 0 []))) ∧
    (mbxTakes s 0x0060 →
      exec .mbxEventMask s = .next (Part.put .mbx s (((mbxTaken s).updMbx (fun m =>
        { m with mask := BitVec.ofNat 16 (dBytes s.mbxFront 8 2) })).mbxAnswer h 0x0060 0 0 []))) ∧
    (s.mbxServed = true → s.mbx.jobs.find? (fun r => r.echo == h) = some r →
      exec (.mbxBackgroundDone h) s = .next (Part.put .mbx s ((s.updMbx (fun m => { m with jobs := m.jobs.filter (fun r => r.echo != h) })).respondMbx r))) ∧
    (s.mbx.hold.contains v = true → s.mbx.owed.contains v = false →
      exec (.msixHoldoffExpiry v) s = .next (s.updMbx (fun m => { m with hold := m.hold.filter (· != v), owed := m.owed.filter (· != v) }))) ∧
    (v < 8 →
      ∃ t, exec (.msixTableWrite v addr data masked) s = .next t ∧ kget {} t.mbx.msix v = { addr := addr, data := data, masked := masked })

/-- Parts of R361, R367, R369–R371, of commands that the mailbox takes: GET_INFO answers the information; IMAGE_STAGE, with no live change and its read done,
stages the image that parses, or answers its failure; IMAGE_COMMIT of a staged image that validates, at a target in time, arms the other bank; IMAGE_ABORT drops the staged
image and the armed bank; FW_WRITE of a slot not in use stores the firmware that verifies, and no other; FW_SELECT writes the slot; WARM_RESET answers and resets;
REG_READ and REG_WRITE of an address that may be accessed answer the value, or the write's status; CHRON_READ and DIARY_READ queue an answer that begins with the
length read; and a live change in progress ends with the staged image in service. -/
def Obligations.MailboxCommandsAct : Prop :=
  ∀ (s t w : State) (d : Desc) (h addr : W32) (dma : Dma) (img : Image) (ts : State × Nat) (tv : State × Nat × W32), d = s.mbxFront → h = dw d 0 → t = mbxTaken s →
    (mbxTakes s 0x0002 →
      exec .mbxGetInfo s = .next (kept s (t.takeFree.2.mbxAnswer h 0x0002 0 0 (t.takeFree.2.infoBytes (t.takeFree.1.extractLsb' 0 32))))) ∧
    (mbxTakes s 0x0010 → dByte d 20 < 2 → s.live = 0 → dma.status = 0 →
      exec (.mbxImageStage dma) s = .next (kept s (match t.parseImage (dma.bytes.take (dBytes d 16 4)) (dByte d 20 == 1) with
        | .error f => t.mbxLater h 0x0010 6 f.code f.result
        | .ok i => (if i.store then (State.imageStaged { t with staging := some i } i).storeImage i
            else State.imageStaged { t with staging := some i } i).mbxLater h 0x0010 0 0 (leBytes 8 i.id.toNat)))) ∧
    (mbxTakes s 0x0011 → s.staging = some img → t.validate img true = none → t.alm.other = .free →
      w = (t.writeTables (img.marked s.pkg)).setOther (bankOf (img.marked s.pkg).recs (t.liveVariant (img.marked s.pkg))) →
      w.targetOk (BitVec.ofNat 64 (dBytes d 8 8)).toNat = true →
      ∃ u, exec .mbxImageCommit s = .next u ∧ u.live = 1 ∧ u.staging = some (img.marked s.pkg) ∧ u.alm.other = .armed ∧
        u.alm.target = BitVec.ofNat 64 (dBytes d 8 8)) ∧
    (mbxTakes s 0x0012 → s.live ≠ 2 →
      ∃ u, exec .mbxImageAbort s = .next u ∧ u.staging = none ∧ u.live = 0 ∧ (s.live = 1 → u.alm.other = .free)) ∧
    (mbxTakes s 0x0020 → dBytes d 16 4 ≤ 8 * 2 ^ 20 → dByte d 20 < 2 → dByte d 20 ≠ t.fwSlot → dma.status = 0 →
      ∃ u, exec (.mbxFwWrite dma) s = .next u ∧
        (if dByte d 20 = 0 then u.boot.f0.fw0 else u.boot.f0.fw1) =
          (if Config.firmwareValid s.pkg.keyHash (dma.bytes.take (dBytes d 16 4)) then dma.bytes.take (dBytes d 16 4)
           else if dByte d 20 = 0 then s.boot.f0.fw0 else s.boot.f0.fw1)) ∧
    (mbxTakes s 0x0021 → dByte d 8 < 2 →
      ∃ u b, exec .mbxFwSelect s = .next u ∧ u.boot.f0.block = some b ∧ u.boot.f1.block = some b ∧ b.fwSlot = dByte d 8) ∧
    (mbxTakes s 0x0030 → exec .mbxWarmReset s = .next (kept s ((t.mbxAnswer h 0x0030 0 0 []).warmReset 1))) ∧
    (mbxTakes s 0x0040 → addr = dw d 2 → t.addrOk addr = true → t.unitStopped (unitOf addr) = false → tv = t.readReg addr → tv.2.1 = trOk →
      exec .mbxRegRead s = .next (kept s (tv.1.mbxAnswer h 0x0040 0 0 (leBytes 4 tv.2.2.toNat)))) ∧
    (mbxTakes s 0x0041 → addr = dw d 2 → t.addrOk addr = true → t.unitStopped (unitOf addr) = false → t.startsReset addr (dw d 3) = false →
      ts = t.writeReg addr (dw d 3) →
      exec .mbxRegWrite s = .next (kept s (ts.1.settle.mbxAnswer h 0x0041 (if ts.2 = trOk then 0 else 8) ts.2 []))) ∧
    (mbxTakes s 0x0050 → ∃ u r, exec .mbxChronRead s = .next u ∧ u.mbx.jobs = s.mbx.jobs ++ [r] ∧ r.echo = h ∧ r.status = 0 ∧
      r.result.take 4 = leBytes 4 ((t.liveFrom (dw d 4)).take (dBytes d 20 4)).length) ∧
    (mbxTakes s 0x0051 → dByte d 28 < 2 → ∃ u r, exec .mbxDiaryRead s = .next u ∧ u.mbx.jobs = s.mbx.jobs ++ [r] ∧ r.echo = h ∧ r.status = 0 ∧
      r.result.take 4 = leBytes 4 (t.diaryFrom (dBytes d 16 8) (dBytes d 24 4)).length) ∧
    (s.staging = some img → s.live = 2 →
      ∃ u, exec .liveChangeFinish s = .next u ∧ u.image = some img ∧ u.staging = none ∧ u.live = 0)


/-! ## The Diary, Holiday and trace -/

/-- Parts of R236, R240, R242: at a side's Diary unit a report is held during a Holiday, is counted lost at the active unit while EN is 0, opens its set where more
are due, and where it is the only one due makes an entry, which moves WR by one; software moves RD to a value between RD and WR, and to no other. -/
def Obligations.DiaryTakesReports : Prop :=
  ∀ (s : State) (side u : Nat) (r : DiaryReport) (rd : FT), side < 2 → u = diaryUnit s.pkg →
    (s.holds = true → exec (.diaryReportReceive side r) s = .next (s.updDiary (fun d => { d with held := d.held ++ [(side, r)] }))) ∧
    (s.holds = false → s.bit u F.TRACE_DIARY_CTRL_EN = false → side = s.diaryActive →
      exec (.diaryReportReceive side r) s = .next (s.count u R.TRACE_DIARY_LOST 1)) ∧
    (s.holds = false → s.bit u F.TRACE_DIARY_CTRL_EN = true → kget [] (s.diarySide side).sets (repSet r) = [] → 1 < s.reportsDue r →
      ∃ t, exec (.diaryReportReceive side r) s = .next t ∧ kget [] (t.diarySide side).sets (repSet r) = [r] ∧
        t.pair u R.TRACE_DIARY_WR = s.pair u R.TRACE_DIARY_WR) ∧
    (s.holds = false → s.bit u F.TRACE_DIARY_CTRL_EN = true → kget [] (s.diarySide side).sets (repSet r) = [] → s.reportsDue r ≤ 1 →
      side = s.diaryActive → (s.diarySide side).confirmed.contains (repSet r) = false →
      ∃ t, exec (.diaryReportReceive side r) s = .next t ∧ kget [] (t.diarySide side).sets (repSet r) = [] ∧
        t.pair u R.TRACE_DIARY_WR = s.pair u R.TRACE_DIARY_WR + 1) ∧
    ((s.pair u R.TRACE_DIARY_RD).toNat ≤ rd.toNat → rd.toNat ≤ (s.pair u R.TRACE_DIARY_WR).toNat →
      exec (.diaryRdAdvance rd) s = .next (s.setPair u R.TRACE_DIARY_RD rd)) ∧
    ((rd.toNat < (s.pair u R.TRACE_DIARY_RD).toNat ∨ (s.pair u R.TRACE_DIARY_WR).toNat < rd.toNat) → exec (.diaryRdAdvance rd) s = .next s)

/-- Parts of R376–R381, R290: outside a Holiday the commands of the active side, the pin where PIN_EN is 1 and a STOP frame of another ID where ACCEPT is 1 begin
one with their cause; the last live die's acknowledgement sets STOPPED and an earlier one is noted; the timeout sets STOPPED and reports the dies that have not
acknowledged; a release before STOPPED waits, and one after it sets RESUMING with the resume SS that it computes or that its frame names; once the first die has resumed, a
die without records resumes as the next in number and, when none is left, the Holiday ends; a scan of the active side fills SCAN_DATA with the selected input while
STOPPED, and is rejected with zeros otherwise. -/
def Obligations.HolidaysStopAndResume : Prop :=
  ∀ (s : State) (side port d hu : Nat) (arg : W32), hu = holidayUnit s.pkg →
    (s.sideActs side = true → s.hol.active = false →
      (∃ t, exec (.holidayStopPackage side) s = .next t ∧ t.hol.active = true ∧ t.hol.cause = 0 ∧ t.hol.machine = false ∧ t.hol.resumed = [] ∧
        t.bit hu F.TRACE_HOLIDAY_EVENT_ENTERED = true ∧ Out.pin .holidayOut false ∈ t.out) ∧
      (∃ t, exec (.holidayStopMachine side) s = .next t ∧ t.hol.active = true ∧ t.hol.cause = 1 ∧ t.hol.machine = true ∧ t.hol.own = true ∧
        t.hol.id = (s.hol.lastId + 1) % 65536)) ∧
    (s.bit hu F.TRACE_HOLIDAY_CTRL_PIN_EN = true → s.hol.active = false →
      ∃ t, exec .holidayPin s = .next t ∧ t.hol.active = true ∧ t.hol.cause = 4) ∧
    (port < portCount s.pkg → getBits arg 31 30 = 1 → s.bit hu F.TRACE_HOLIDAY_CTRL_ACCEPT = true → s.hol.lastId ≠ getBits arg 15 0 →
      s.hol.active = false →
      ∃ t, exec (.holidayStopFrame port arg) s = .next t ∧ t.hol.active = true ∧ t.hol.cause = 5 ∧ t.hol.own = false ∧
        t.hol.id = getBits arg 15 0) ∧
    (s.hol.active = true → s.hol.stopped = false → s.hol.release = none → s.dieLive d = true → s.hol.acks.contains d = false →
      (s.liveDies.all (fun x => (s.hol.acks ++ [d]).contains x) = true →
        ∃ t, exec (.dieStopAck d) s = .next t ∧ t.hol.stopped = true ∧ t.bit hu F.TRACE_HOLIDAY_EVENT_STOPPED = true) ∧
      (s.liveDies.all (fun x => (s.hol.acks ++ [d]).contains x) = false →
        exec (.dieStopAck d) s = .next (s.updHol (fun h => { h with acks := h.acks ++ [d] })))) ∧
    (s.hol.active = true → s.hol.stopped = false → s.hol.release = none →
      ∃ t, exec .holidayAckTimeout s = .next t ∧ t.hol.stopped = true ∧
        ∀ x, x ∈ s.liveDies → s.hol.acks.contains x = false → Out.dieLost x ∈ t.out) ∧
    (s.sideActs side = true → s.hol.active = true → s.hol.resuming = false → s.hol.stopped = false →
      exec (.holidayRelease side) s = .next (s.updHol (fun h => { h with release := some (none, none) }))) ∧
    (s.sideActs side = true → s.hol.active = true → s.hol.resuming = false → s.hol.stopped = true →
      ∃ t, exec (.holidayRelease side) s = .next t ∧ t.hol.resuming = true ∧ t.hol.lastId = s.hol.id ∧ t.hol.k = s.resumeSs) ∧
    (port < portCount s.pkg → getBits arg 31 30 = 2 → s.bit hu F.TRACE_HOLIDAY_CTRL_ACCEPT = true → getBits arg 29 22 = s.hol.id % 256 →
      s.hol.active = true → s.hol.resuming = false → s.hol.stopped = true →
      ∃ t, exec (.holidayReleaseFrame port arg) s = .next t ∧ t.hol.resuming = true ∧ t.hol.k = s.rebuildK (getBits arg 21 0)) ∧
    (s.hol.resuming = true → s.hol.resumed ≠ [] → s.nextDie = none →
      ∃ t, exec .dieResume s = .next t ∧ t.hol.active = false ∧ t.hol.resuming = false ∧ Out.pin .holidayOut true ∈ t.out) ∧
    (s.hol.resuming = true → s.hol.resumed ≠ [] → s.nextDie = some d → s.ni = [] → s.eng = [] →
      (s.updHol (fun h => { h with resumed := h.resumed ++ [d] })).nextDie ≠ none →
      exec .dieResume s = .next (s.updHol (fun h => { h with resumed := h.resumed ++ [d] }))) ∧
    (s.sideActs side = true → s.hol.stopped = true →
      ∃ t, exec (.holidayScan side) s = .next t ∧ t.hol.scanReady = true ∧
        ∀ i, i < 8 → t.reg hu (R.TRACE_HOLIDAY_SCAN_DATA + 4 * i) = (scanWords s.scanned.2 s.scanned.1.head?).getD i 0) ∧
    (s.sideActs side = true → s.hol.stopped = false →
      ∃ t, exec (.holidayScan side) s = .next t ∧ t.hol.scanReady = false ∧ t.bit hu F.TRACE_HOLIDAY_EVENT_CMD_REJECT = true ∧
        ∀ i, i < 8 → t.reg hu (R.TRACE_HOLIDAY_SCAN_DATA + 4 * i) = 0)

/-- Parts of R375, R384, R385: a die's collector takes a record from the router whose turn it is; ARM in IDLE or DONE arms the trace unit; a trigger while ARMED, that
starts no Holiday, is taken with the FT; ADVANCE while PORT_EN is 0, within the oldest record, releases 64 bytes; and while PORT_EN is 1 the rest of the oldest record leaves by the
port, which starts with 16 ALIGN sets and fresh generators when PORT_EN rises. -/
def Obligations.TraceUnitActs : Prop :=
  ∀ (s : State) (die k : Nat) (x : Rtr) (p : ProbeRec) (ps : List ProbeRec) (r : List Byte) (rs : List (List Byte)),
    (s.nextFifo die = some (k, x) → x.fifo = p :: ps →
      ∃ t, exec (.traceCollect die) s = .next t ∧ kfind t.rtr k = some { x with fifo := ps } ∧ kfind t.trace.rr die = some k) ∧
    ((s.trace.st = 0 ∨ s.trace.st = 3) →
      exec .traceArm s = .next (s.updTrace (fun t => { t with st := 1, post := 0, drain := none }))) ∧
    (s.trace.st = 1 → s.bit (traceUnit s.pkg) F.TRACE_TRIG_CFG_HOLIDAY = false →
      ∃ t, exec .traceTrigger s = .next t ∧ t.trace.st = 2 ∧ t.trace.trigFt = s.time.ft ∧ t.bit (traceUnit s.pkg) F.TRACE_EVENT_TRIGGERED = true) ∧
    (s.bit (traceUnit s.pkg) F.TRACE_CTRL_PORT_EN = false → s.trace.ring = r :: rs → s.trace.headOff + 64 < r.length → s.trace.drain = none →
      exec .traceAdvance s = .next (s.updTrace (fun t => { t with headOff := t.headOff + 64 }))) ∧
    (s.bit (traceUnit s.pkg) F.TRACE_CTRL_PORT_EN = true → s.trace.ring = r :: rs → s.trace.drain = none →
      exec .traceRecordDrained s = .next (State.traceSend (s.updTrace (fun t => { t with ring := rs, headOff := 0 })) (r.drop s.trace.headOff)) ∧
        ∃ t xs, exec .traceRecordDrained s = .next t ∧ t.trace.ring = rs ∧ t.trace.headOff = 0 ∧
          t.out = .traceOut (r.drop s.trace.headOff) xs :: s.out) ∧
    (s.bit (traceUnit s.pkg) F.TRACE_CTRL_PORT_EN = false →
      exec .tracePortEnable s = .next (((s.setFld (traceUnit s.pkg) F.TRACE_CTRL_PORT_EN 1).updTrace (fun t =>
        { t with blocks := 0, scr := -1 })).emit (.traceOut [] (alignSets 16))))

/-! ## The whole block -/

/-- A step takes the command at the front of the queue and runs it on the state with the rest. On an empty queue one cycle of the reference passes (DESIGN CHOICE,
log 16): TIME and the islands count, ports that have records transmit, and SRAMs that have an error or an armed injector are used; nothing else changes. -/
def Obligations.StepRunsFrontCommand : Prop :=
  (∀ (c : Instr) (s : State), step { s with pending := c :: s.pending } = exec c s) ∧
  (∀ s : State, s.pending = [] → step s = .next (kept s s.cycle.sramCycle) ∧ s.tick = { s with time := s.tick.time, isl := s.tick.isl } ∧
    (s.ports = [] → s.cycle = s.tick) ∧ (s.sramUnits = [] → s.sramCycle = s))

/-- Every command on every state has a next state: none faults and none is refused; and a command that names a unit that is not there has no effect (R3). -/
def Obligations.EveryCommandCompletes : Prop :=
  ∀ (c : Instr) (s : State), (∃ t, exec c s = .next t) ∧ (c.site.there s = false → exec c s = .next s)

/-- The frame of every command: a next state differs from the state before only in the parts that the command's row reaches; none changes the queue or the
package's identity (log 5). -/
def Obligations.CommandsKeepTheOtherParts : Prop :=
  ∀ (c : Instr) (s t : State), exec c s = .next t → t = c.part.put s t

/-- Every step keeps this: the commands that wait are well formed, and the package is the one it was. -/
def Obligations.StepKeepsQueueAndIdentity : Prop :=
  ∀ (p : Package) (s t : State), (s.pkg = p ∧ s.pending.all Instr.wellFormed = true) → step s = .next t →
    t.pkg = p ∧ t.pending.all Instr.wellFormed = true ∧ t.pending = s.pending.drop 1

/-- The state after reset meets what every step keeps, and has what the manual gives for a cold reset: no command waits, no counter counts, no image is
committed (R17), no core holds the lease (R352), FT is FREE (R74), no Holiday is in force, and the trace unit is IDLE. -/
def Obligations.ResetStateIsCold : Prop :=
  State.reset.pending = [] ∧ State.reset.ctrs = [] ∧ State.reset.regs = [] ∧ State.reset.committed = false ∧ State.reset.image = none ∧
  State.reset.holder = none ∧ State.reset.time.state = 0 ∧ State.reset.hol.active = false ∧ State.reset.trace.st = 0 ∧
  (∀ u off, State.reset.reg u off = coldOf State.reset.pkg (homeUnit State.reset.pkg u) off)
end

