-- ==== Sys2Proof/Laws/Map.lean ====
section
/-! SUPPORT. What the finite maps of the state do: a key reads as it was last written, the other keys keep their values, and every
operation keeps the keys strictly rising. -/
namespace Sys2Proof.Machine

variable {α : Type}

@[simp] theorem kfind_nil (k : Nat) : kfind ([] : KMap α) k = none := rfl

theorem kfind_cons (e : Nat × α) (m : KMap α) (k : Nat) : kfind (e :: m) k = if e.1 = k then some e.2 else kfind m k := rfl

@[simp] theorem kfind_kins_self (m : KMap α) (k : Nat) (v : α) : kfind (kins m k v) k = some v := by
  induction m with
  | nil => simp [kins, kfind]
  | cons e m ih =>
    simp only [kins]
    split
    · simp [kfind]
    · split
      · simp [kfind]
      · rename_i h; simp [kfind, h, ih]

theorem kfind_kins_ne (m : KMap α) {k j : Nat} (v : α) (h : j ≠ k) : kfind (kins m k v) j = kfind m j := by
  induction m with
  | nil => simp [kins, kfind, Ne.symm h]
  | cons e m ih =>
    simp only [kins]
    split
    · simp [kfind, Ne.symm h]
    · split
      · rename_i he; subst he; simp [kfind, Ne.symm h]
      · simp [kfind, ih]

@[simp] theorem kfind_kdel_self (m : KMap α) (k : Nat) : kfind (kdel m k) k = none := by
  induction m with
  | nil => rfl
  | cons e m ih =>
    simp only [kdel]
    split
    · exact ih
    · rename_i h; simp [kfind, h, ih]

theorem kfind_kdel_ne (m : KMap α) {k j : Nat} (h : j ≠ k) : kfind (kdel m k) j = kfind m j := by
  induction m with
  | nil => rfl
  | cons e m ih =>
    simp only [kdel]
    split
    · rename_i he; subst he; simp [kfind, Ne.symm h, ih]
    · simp [kfind, ih]

@[simp] theorem kget_kins_self (d : α) (m : KMap α) (k : Nat) (v : α) : kget d (kins m k v) k = v := by simp [kget]

theorem kget_kins_ne (d : α) (m : KMap α) {k j : Nat} (v : α) (h : j ≠ k) : kget d (kins m k v) j = kget d m j := by
  simp [kget, kfind_kins_ne m v h]

@[simp] theorem kget_kdel_self (d : α) (m : KMap α) (k : Nat) : kget d (kdel m k) k = d := by simp [kget]

theorem kget_kdel_ne (d : α) (m : KMap α) {k j : Nat} (h : j ≠ k) : kget d (kdel m k) j = kget d m j := by
  simp [kget, kfind_kdel_ne m h]

variable [DecidableEq α]

@[simp] theorem kget_kput_self (d : α) (m : KMap α) (k : Nat) (v : α) : kget d (kput d m k v) k = v := by
  unfold kput; split <;> simp [*]

theorem kget_kput_ne (d : α) (m : KMap α) {k j : Nat} (v : α) (h : j ≠ k) : kget d (kput d m k v) j = kget d m j := by
  unfold kput; split
  · exact kget_kdel_ne d m h
  · exact kget_kins_ne d m v h

/-- A map at any key after a key was put: the value there, or what it held. -/
theorem kget_kput (d : α) (m : KMap α) (k j : Nat) (v : α) : kget d (kput d m k v) j = if j = k then v else kget d m j := by
  by_cases h : j = k
  · subst h; simp
  · simp [h, kget_kput_ne]

theorem kfind_kput_self (d : α) (m : KMap α) (k : Nat) (v : α) : (kfind (kput d m k v) k).getD d = v := kget_kput_self d m k v

/-! ## The canonical form -/

omit [DecidableEq α]

/-- Every key of a map is above a bound. -/
def keysAbove (b : Nat) (m : KMap α) : Prop := ∀ e ∈ m, b < e.1

theorem kwf_cons (e : Nat × α) (m : KMap α) : kwf (e :: m) = true ↔ keysAbove e.1 m ∧ kwf m = true := by
  induction m generalizing e with
  | nil => simp [kwf, keysAbove]
  | cons f m ih =>
    simp only [kwf, Bool.and_eq_true, decide_eq_true_eq]
    constructor
    · rintro ⟨h, hw⟩
      refine ⟨?_, hw⟩
      intro g hg
      rcases List.mem_cons.mp hg with rfl | hg
      · exact h
      · exact lt_trans h (((ih f).mp hw).1 g hg)
    · rintro ⟨h, hw⟩
      exact ⟨h f (by simp), hw⟩

theorem keysAbove_kins {b k : Nat} {m : KMap α} {v : α} (h : keysAbove b m) (hk : b < k) : keysAbove b (kins m k v) := by
  induction m with
  | nil => intro e he; simp [kins] at he; subst he; exact hk
  | cons f m ih =>
    have hm : keysAbove b m := fun e he => h e (by simp [he])
    simp only [kins]
    split
    · intro e he; rcases List.mem_cons.mp he with rfl | he
      · exact hk
      · exact h e he
    · split
      · intro e he; rcases List.mem_cons.mp he with rfl | he
        · exact hk
        · exact hm e he
      · intro e he; rcases List.mem_cons.mp he with rfl | he
        · exact h e (by simp)
        · exact ih hm e he

theorem keysAbove_kdel {b k : Nat} {m : KMap α} (h : keysAbove b m) : keysAbove b (kdel m k) := by
  induction m with
  | nil => exact h
  | cons f m ih =>
    have hm : keysAbove b m := fun e he => h e (by simp [he])
    simp only [kdel]
    split
    · exact ih hm
    · intro e he; rcases List.mem_cons.mp he with rfl | he
      · exact h e (by simp)
      · exact ih hm e he

/-- Putting a key keeps the keys rising. -/
theorem kwf_kins {m : KMap α} (k : Nat) (v : α) (h : kwf m = true) : kwf (kins m k v) = true := by
  induction m with
  | nil => rfl
  | cons f m ih =>
    have ⟨ha, hm⟩ := (kwf_cons f m).mp h
    simp only [kins]
    split
    · rename_i hk
      refine (kwf_cons _ _).mpr ⟨?_, h⟩
      intro e he; rcases List.mem_cons.mp he with rfl | he
      · exact hk
      · exact lt_trans hk (ha e he)
    · split
      · rename_i hk; subst hk; exact (kwf_cons _ _).mpr ⟨ha, hm⟩
      · rename_i h1 h2
        exact (kwf_cons _ _).mpr ⟨keysAbove_kins ha (by omega), ih hm⟩

/-- Taking a key out keeps the keys rising. -/
theorem kwf_kdel {m : KMap α} (k : Nat) (h : kwf m = true) : kwf (kdel m k) = true := by
  induction m with
  | nil => rfl
  | cons f m ih =>
    have ⟨ha, hm⟩ := (kwf_cons f m).mp h
    simp only [kdel]
    split
    · exact ih hm
    · exact (kwf_cons _ _).mpr ⟨keysAbove_kdel ha, ih hm⟩

/-- Putting a key, where the default is not listed, keeps the keys rising. -/
theorem kwf_kput [DecidableEq α] (d : α) {m : KMap α} (k : Nat) (v : α) (h : kwf m = true) : kwf (kput d m k v) = true := by
  unfold kput; split
  · exact kwf_kdel k h
  · exact kwf_kins k v h

end Sys2Proof.Machine
end

