-- ==== Sys2Proof/Laws/State.lean ====
section
/-! SUPPORT. What each named operation of the state leaves as it was: one lemma for each field that the operation does not touch. -/
namespace Sys2Proof.Machine

variable (s : State)

@[simp] theorem State.emit_pkg (o : Out) : (s.emit o).pkg = s.pkg := rfl
@[simp] theorem State.emit_pending (o : Out) : (s.emit o).pending = s.pending := rfl
@[simp] theorem State.emit_freeCtr (o : Out) : (s.emit o).freeCtr = s.freeCtr := rfl
@[simp] theorem State.emit_regs (o : Out) : (s.emit o).regs = s.regs := rfl
@[simp] theorem State.emit_ctrs (o : Out) : (s.emit o).ctrs = s.ctrs := rfl
@[simp] theorem State.emit_shadows (o : Out) : (s.emit o).shadows = s.shadows := rfl
@[simp] theorem State.emit_staged (o : Out) : (s.emit o).staged = s.staged := rfl
@[simp] theorem State.emit_committed (o : Out) : (s.emit o).committed = s.committed := rfl
@[simp] theorem State.emit_irqHeld (o : Out) : (s.emit o).irqHeld = s.irqHeld := rfl
@[simp] theorem State.emit_tree (o : Out) : (s.emit o).tree = s.tree := rfl
@[simp] theorem State.emit_treeWait (o : Out) : (s.emit o).treeWait = s.treeWait := rfl
@[simp] theorem State.emit_ni (o : Out) : (s.emit o).ni = s.ni := rfl
@[simp] theorem State.emit_pools (o : Out) : (s.emit o).pools = s.pools := rfl
@[simp] theorem State.emit_time (o : Out) : (s.emit o).time = s.time := rfl
@[simp] theorem State.emit_alm (o : Out) : (s.emit o).alm = s.alm := rfl
@[simp] theorem State.emit_isl (o : Out) : (s.emit o).isl = s.isl := rfl
@[simp] theorem State.emit_holder (o : Out) : (s.emit o).holder = s.holder := rfl
@[simp] theorem State.emit_staging (o : Out) : (s.emit o).staging = s.staging := rfl
@[simp] theorem State.emit_image (o : Out) : (s.emit o).image = s.image := rfl
@[simp] theorem State.emit_bootDis (o : Out) : (s.emit o).bootDis = s.bootDis := rfl
@[simp] theorem State.emit_hol (o : Out) : (s.emit o).hol = s.hol := rfl
@[simp] theorem State.emit_trace (o : Out) : (s.emit o).trace = s.trace := rfl
@[simp] theorem State.emit_rtr (o : Out) : (s.emit o).rtr = s.rtr := rfl
@[simp] theorem State.emit_ports (o : Out) : (s.emit o).ports = s.ports := rfl
@[simp] theorem State.emit_dlinks (o : Out) : (s.emit o).dlinks = s.dlinks := rfl
@[simp] theorem State.emit_arbs (o : Out) : (s.emit o).arbs = s.arbs := rfl
@[simp] theorem State.emit_pwr (o : Out) : (s.emit o).pwr = s.pwr := rfl
@[simp] theorem State.emit_chron (o : Out) : (s.emit o).chron = s.chron := rfl
@[simp] theorem State.emit_mbx (o : Out) : (s.emit o).mbx = s.mbx := rfl
@[simp] theorem State.emit_flt (o : Out) : (s.emit o).flt = s.flt := rfl
@[simp] theorem State.emit_boot (o : Out) : (s.emit o).boot = s.boot := rfl
@[simp] theorem State.emit_lease (o : Out) : (s.emit o).lease = s.lease := rfl
@[simp] theorem State.emit_live (o : Out) : (s.emit o).live = s.live := rfl
@[simp] theorem State.emit_eng (o : Out) : (s.emit o).eng = s.eng := rfl
@[simp] theorem State.emit_diary (o : Out) : (s.emit o).diary = s.diary := rfl

@[simp] theorem State.takeFree_pkg : (s.takeFree.2).pkg = s.pkg := rfl
@[simp] theorem State.takeFree_pending : (s.takeFree.2).pending = s.pending := rfl
@[simp] theorem State.takeFree_out : (s.takeFree.2).out = s.out := rfl
@[simp] theorem State.takeFree_regs : (s.takeFree.2).regs = s.regs := rfl
@[simp] theorem State.takeFree_ctrs : (s.takeFree.2).ctrs = s.ctrs := rfl
@[simp] theorem State.takeFree_shadows : (s.takeFree.2).shadows = s.shadows := rfl
@[simp] theorem State.takeFree_staged : (s.takeFree.2).staged = s.staged := rfl
@[simp] theorem State.takeFree_committed : (s.takeFree.2).committed = s.committed := rfl
@[simp] theorem State.takeFree_irqHeld : (s.takeFree.2).irqHeld = s.irqHeld := rfl
@[simp] theorem State.takeFree_tree : (s.takeFree.2).tree = s.tree := rfl
@[simp] theorem State.takeFree_treeWait : (s.takeFree.2).treeWait = s.treeWait := rfl
@[simp] theorem State.takeFree_ni : (s.takeFree.2).ni = s.ni := rfl
@[simp] theorem State.takeFree_pools : (s.takeFree.2).pools = s.pools := rfl
@[simp] theorem State.takeFree_time : (s.takeFree.2).time = s.time := rfl
@[simp] theorem State.takeFree_alm : (s.takeFree.2).alm = s.alm := rfl
@[simp] theorem State.takeFree_isl : (s.takeFree.2).isl = s.isl := rfl
@[simp] theorem State.takeFree_holder : (s.takeFree.2).holder = s.holder := rfl
@[simp] theorem State.takeFree_staging : (s.takeFree.2).staging = s.staging := rfl
@[simp] theorem State.takeFree_image : (s.takeFree.2).image = s.image := rfl
@[simp] theorem State.takeFree_bootDis : (s.takeFree.2).bootDis = s.bootDis := rfl
@[simp] theorem State.takeFree_hol : (s.takeFree.2).hol = s.hol := rfl
@[simp] theorem State.takeFree_trace : (s.takeFree.2).trace = s.trace := rfl
@[simp] theorem State.takeFree_rtr : (s.takeFree.2).rtr = s.rtr := rfl
@[simp] theorem State.takeFree_ports : (s.takeFree.2).ports = s.ports := rfl
@[simp] theorem State.takeFree_dlinks : (s.takeFree.2).dlinks = s.dlinks := rfl
@[simp] theorem State.takeFree_arbs : (s.takeFree.2).arbs = s.arbs := rfl
@[simp] theorem State.takeFree_pwr : (s.takeFree.2).pwr = s.pwr := rfl
@[simp] theorem State.takeFree_chron : (s.takeFree.2).chron = s.chron := rfl
@[simp] theorem State.takeFree_mbx : (s.takeFree.2).mbx = s.mbx := rfl
@[simp] theorem State.takeFree_flt : (s.takeFree.2).flt = s.flt := rfl
@[simp] theorem State.takeFree_boot : (s.takeFree.2).boot = s.boot := rfl
@[simp] theorem State.takeFree_lease : (s.takeFree.2).lease = s.lease := rfl
@[simp] theorem State.takeFree_live : (s.takeFree.2).live = s.live := rfl
@[simp] theorem State.takeFree_eng : (s.takeFree.2).eng = s.eng := rfl
@[simp] theorem State.takeFree_diary : (s.takeFree.2).diary = s.diary := rfl

@[simp] theorem State.setReg_pkg (u off : Nat) (v : W32) : (s.setReg u off v).pkg = s.pkg := rfl
@[simp] theorem State.setReg_pending (u off : Nat) (v : W32) : (s.setReg u off v).pending = s.pending := rfl
@[simp] theorem State.setReg_out (u off : Nat) (v : W32) : (s.setReg u off v).out = s.out := rfl
@[simp] theorem State.setReg_freeCtr (u off : Nat) (v : W32) : (s.setReg u off v).freeCtr = s.freeCtr := rfl
@[simp] theorem State.setReg_ctrs (u off : Nat) (v : W32) : (s.setReg u off v).ctrs = s.ctrs := rfl
@[simp] theorem State.setReg_shadows (u off : Nat) (v : W32) : (s.setReg u off v).shadows = s.shadows := rfl
@[simp] theorem State.setReg_staged (u off : Nat) (v : W32) : (s.setReg u off v).staged = s.staged := rfl
@[simp] theorem State.setReg_committed (u off : Nat) (v : W32) : (s.setReg u off v).committed = s.committed := rfl
@[simp] theorem State.setReg_irqHeld (u off : Nat) (v : W32) : (s.setReg u off v).irqHeld = s.irqHeld := rfl
@[simp] theorem State.setReg_tree (u off : Nat) (v : W32) : (s.setReg u off v).tree = s.tree := rfl
@[simp] theorem State.setReg_treeWait (u off : Nat) (v : W32) : (s.setReg u off v).treeWait = s.treeWait := rfl
@[simp] theorem State.setReg_ni (u off : Nat) (v : W32) : (s.setReg u off v).ni = s.ni := rfl
@[simp] theorem State.setReg_pools (u off : Nat) (v : W32) : (s.setReg u off v).pools = s.pools := rfl
@[simp] theorem State.setReg_time (u off : Nat) (v : W32) : (s.setReg u off v).time = s.time := rfl
@[simp] theorem State.setReg_alm (u off : Nat) (v : W32) : (s.setReg u off v).alm = s.alm := rfl
@[simp] theorem State.setReg_isl (u off : Nat) (v : W32) : (s.setReg u off v).isl = s.isl := rfl
@[simp] theorem State.setReg_holder (u off : Nat) (v : W32) : (s.setReg u off v).holder = s.holder := rfl
@[simp] theorem State.setReg_staging (u off : Nat) (v : W32) : (s.setReg u off v).staging = s.staging := rfl
@[simp] theorem State.setReg_image (u off : Nat) (v : W32) : (s.setReg u off v).image = s.image := rfl
@[simp] theorem State.setReg_bootDis (u off : Nat) (v : W32) : (s.setReg u off v).bootDis = s.bootDis := rfl
@[simp] theorem State.setReg_hol (u off : Nat) (v : W32) : (s.setReg u off v).hol = s.hol := rfl
@[simp] theorem State.setReg_trace (u off : Nat) (v : W32) : (s.setReg u off v).trace = s.trace := rfl
@[simp] theorem State.setReg_rtr (u off : Nat) (v : W32) : (s.setReg u off v).rtr = s.rtr := rfl
@[simp] theorem State.setReg_ports (u off : Nat) (v : W32) : (s.setReg u off v).ports = s.ports := rfl
@[simp] theorem State.setReg_dlinks (u off : Nat) (v : W32) : (s.setReg u off v).dlinks = s.dlinks := rfl
@[simp] theorem State.setReg_arbs (u off : Nat) (v : W32) : (s.setReg u off v).arbs = s.arbs := rfl
@[simp] theorem State.setReg_pwr (u off : Nat) (v : W32) : (s.setReg u off v).pwr = s.pwr := rfl
@[simp] theorem State.setReg_chron (u off : Nat) (v : W32) : (s.setReg u off v).chron = s.chron := rfl
@[simp] theorem State.setReg_mbx (u off : Nat) (v : W32) : (s.setReg u off v).mbx = s.mbx := rfl
@[simp] theorem State.setReg_flt (u off : Nat) (v : W32) : (s.setReg u off v).flt = s.flt := rfl
@[simp] theorem State.setReg_boot (u off : Nat) (v : W32) : (s.setReg u off v).boot = s.boot := rfl
@[simp] theorem State.setReg_lease (u off : Nat) (v : W32) : (s.setReg u off v).lease = s.lease := rfl
@[simp] theorem State.setReg_live (u off : Nat) (v : W32) : (s.setReg u off v).live = s.live := rfl
@[simp] theorem State.setReg_eng (u off : Nat) (v : W32) : (s.setReg u off v).eng = s.eng := rfl
@[simp] theorem State.setReg_diary (u off : Nat) (v : W32) : (s.setReg u off v).diary = s.diary := rfl

@[simp] theorem State.setFld_pkg (u : Nat) (f : Fld) (v : Nat) : (s.setFld u f v).pkg = s.pkg := rfl
@[simp] theorem State.setFld_pending (u : Nat) (f : Fld) (v : Nat) : (s.setFld u f v).pending = s.pending := rfl
@[simp] theorem State.setFld_out (u : Nat) (f : Fld) (v : Nat) : (s.setFld u f v).out = s.out := rfl
@[simp] theorem State.setFld_freeCtr (u : Nat) (f : Fld) (v : Nat) : (s.setFld u f v).freeCtr = s.freeCtr := rfl
@[simp] theorem State.setFld_ctrs (u : Nat) (f : Fld) (v : Nat) : (s.setFld u f v).ctrs = s.ctrs := rfl
@[simp] theorem State.setFld_shadows (u : Nat) (f : Fld) (v : Nat) : (s.setFld u f v).shadows = s.shadows := rfl
@[simp] theorem State.setFld_staged (u : Nat) (f : Fld) (v : Nat) : (s.setFld u f v).staged = s.staged := rfl
@[simp] theorem State.setFld_committed (u : Nat) (f : Fld) (v : Nat) : (s.setFld u f v).committed = s.committed := rfl
@[simp] theorem State.setFld_irqHeld (u : Nat) (f : Fld) (v : Nat) : (s.setFld u f v).irqHeld = s.irqHeld := rfl
@[simp] theorem State.setFld_tree (u : Nat) (f : Fld) (v : Nat) : (s.setFld u f v).tree = s.tree := rfl
@[simp] theorem State.setFld_treeWait (u : Nat) (f : Fld) (v : Nat) : (s.setFld u f v).treeWait = s.treeWait := rfl
@[simp] theorem State.setFld_ni (u : Nat) (f : Fld) (v : Nat) : (s.setFld u f v).ni = s.ni := rfl
@[simp] theorem State.setFld_pools (u : Nat) (f : Fld) (v : Nat) : (s.setFld u f v).pools = s.pools := rfl
@[simp] theorem State.setFld_time (u : Nat) (f : Fld) (v : Nat) : (s.setFld u f v).time = s.time := rfl
@[simp] theorem State.setFld_alm (u : Nat) (f : Fld) (v : Nat) : (s.setFld u f v).alm = s.alm := rfl
@[simp] theorem State.setFld_isl (u : Nat) (f : Fld) (v : Nat) : (s.setFld u f v).isl = s.isl := rfl
@[simp] theorem State.setFld_holder (u : Nat) (f : Fld) (v : Nat) : (s.setFld u f v).holder = s.holder := rfl
@[simp] theorem State.setFld_staging (u : Nat) (f : Fld) (v : Nat) : (s.setFld u f v).staging = s.staging := rfl
@[simp] theorem State.setFld_image (u : Nat) (f : Fld) (v : Nat) : (s.setFld u f v).image = s.image := rfl
@[simp] theorem State.setFld_bootDis (u : Nat) (f : Fld) (v : Nat) : (s.setFld u f v).bootDis = s.bootDis := rfl
@[simp] theorem State.setFld_hol (u : Nat) (f : Fld) (v : Nat) : (s.setFld u f v).hol = s.hol := rfl
@[simp] theorem State.setFld_trace (u : Nat) (f : Fld) (v : Nat) : (s.setFld u f v).trace = s.trace := rfl
@[simp] theorem State.setFld_rtr (u : Nat) (f : Fld) (v : Nat) : (s.setFld u f v).rtr = s.rtr := rfl
@[simp] theorem State.setFld_ports (u : Nat) (f : Fld) (v : Nat) : (s.setFld u f v).ports = s.ports := rfl
@[simp] theorem State.setFld_dlinks (u : Nat) (f : Fld) (v : Nat) : (s.setFld u f v).dlinks = s.dlinks := rfl
@[simp] theorem State.setFld_arbs (u : Nat) (f : Fld) (v : Nat) : (s.setFld u f v).arbs = s.arbs := rfl
@[simp] theorem State.setFld_pwr (u : Nat) (f : Fld) (v : Nat) : (s.setFld u f v).pwr = s.pwr := rfl
@[simp] theorem State.setFld_chron (u : Nat) (f : Fld) (v : Nat) : (s.setFld u f v).chron = s.chron := rfl
@[simp] theorem State.setFld_mbx (u : Nat) (f : Fld) (v : Nat) : (s.setFld u f v).mbx = s.mbx := rfl
@[simp] theorem State.setFld_flt (u : Nat) (f : Fld) (v : Nat) : (s.setFld u f v).flt = s.flt := rfl
@[simp] theorem State.setFld_boot (u : Nat) (f : Fld) (v : Nat) : (s.setFld u f v).boot = s.boot := rfl
@[simp] theorem State.setFld_lease (u : Nat) (f : Fld) (v : Nat) : (s.setFld u f v).lease = s.lease := rfl
@[simp] theorem State.setFld_live (u : Nat) (f : Fld) (v : Nat) : (s.setFld u f v).live = s.live := rfl
@[simp] theorem State.setFld_eng (u : Nat) (f : Fld) (v : Nat) : (s.setFld u f v).eng = s.eng := rfl
@[simp] theorem State.setFld_diary (u : Nat) (f : Fld) (v : Nat) : (s.setFld u f v).diary = s.diary := rfl

@[simp] theorem State.setFldAt_pkg (u : Nat) (f : Fld) (i v : Nat) : (s.setFldAt u f i v).pkg = s.pkg := rfl
@[simp] theorem State.setFldAt_pending (u : Nat) (f : Fld) (i v : Nat) : (s.setFldAt u f i v).pending = s.pending := rfl
@[simp] theorem State.setFldAt_out (u : Nat) (f : Fld) (i v : Nat) : (s.setFldAt u f i v).out = s.out := rfl
@[simp] theorem State.setFldAt_freeCtr (u : Nat) (f : Fld) (i v : Nat) : (s.setFldAt u f i v).freeCtr = s.freeCtr := rfl
@[simp] theorem State.setFldAt_ctrs (u : Nat) (f : Fld) (i v : Nat) : (s.setFldAt u f i v).ctrs = s.ctrs := rfl
@[simp] theorem State.setFldAt_shadows (u : Nat) (f : Fld) (i v : Nat) : (s.setFldAt u f i v).shadows = s.shadows := rfl
@[simp] theorem State.setFldAt_staged (u : Nat) (f : Fld) (i v : Nat) : (s.setFldAt u f i v).staged = s.staged := rfl
@[simp] theorem State.setFldAt_committed (u : Nat) (f : Fld) (i v : Nat) : (s.setFldAt u f i v).committed = s.committed := rfl
@[simp] theorem State.setFldAt_irqHeld (u : Nat) (f : Fld) (i v : Nat) : (s.setFldAt u f i v).irqHeld = s.irqHeld := rfl
@[simp] theorem State.setFldAt_tree (u : Nat) (f : Fld) (i v : Nat) : (s.setFldAt u f i v).tree = s.tree := rfl
@[simp] theorem State.setFldAt_treeWait (u : Nat) (f : Fld) (i v : Nat) : (s.setFldAt u f i v).treeWait = s.treeWait := rfl
@[simp] theorem State.setFldAt_ni (u : Nat) (f : Fld) (i v : Nat) : (s.setFldAt u f i v).ni = s.ni := rfl
@[simp] theorem State.setFldAt_pools (u : Nat) (f : Fld) (i v : Nat) : (s.setFldAt u f i v).pools = s.pools := rfl
@[simp] theorem State.setFldAt_time (u : Nat) (f : Fld) (i v : Nat) : (s.setFldAt u f i v).time = s.time := rfl
@[simp] theorem State.setFldAt_alm (u : Nat) (f : Fld) (i v : Nat) : (s.setFldAt u f i v).alm = s.alm := rfl
@[simp] theorem State.setFldAt_isl (u : Nat) (f : Fld) (i v : Nat) : (s.setFldAt u f i v).isl = s.isl := rfl
@[simp] theorem State.setFldAt_holder (u : Nat) (f : Fld) (i v : Nat) : (s.setFldAt u f i v).holder = s.holder := rfl
@[simp] theorem State.setFldAt_staging (u : Nat) (f : Fld) (i v : Nat) : (s.setFldAt u f i v).staging = s.staging := rfl
@[simp] theorem State.setFldAt_image (u : Nat) (f : Fld) (i v : Nat) : (s.setFldAt u f i v).image = s.image := rfl
@[simp] theorem State.setFldAt_bootDis (u : Nat) (f : Fld) (i v : Nat) : (s.setFldAt u f i v).bootDis = s.bootDis := rfl
@[simp] theorem State.setFldAt_hol (u : Nat) (f : Fld) (i v : Nat) : (s.setFldAt u f i v).hol = s.hol := rfl
@[simp] theorem State.setFldAt_trace (u : Nat) (f : Fld) (i v : Nat) : (s.setFldAt u f i v).trace = s.trace := rfl
@[simp] theorem State.setFldAt_rtr (u : Nat) (f : Fld) (i v : Nat) : (s.setFldAt u f i v).rtr = s.rtr := rfl
@[simp] theorem State.setFldAt_ports (u : Nat) (f : Fld) (i v : Nat) : (s.setFldAt u f i v).ports = s.ports := rfl
@[simp] theorem State.setFldAt_dlinks (u : Nat) (f : Fld) (i v : Nat) : (s.setFldAt u f i v).dlinks = s.dlinks := rfl
@[simp] theorem State.setFldAt_arbs (u : Nat) (f : Fld) (i v : Nat) : (s.setFldAt u f i v).arbs = s.arbs := rfl
@[simp] theorem State.setFldAt_pwr (u : Nat) (f : Fld) (i v : Nat) : (s.setFldAt u f i v).pwr = s.pwr := rfl
@[simp] theorem State.setFldAt_chron (u : Nat) (f : Fld) (i v : Nat) : (s.setFldAt u f i v).chron = s.chron := rfl
@[simp] theorem State.setFldAt_mbx (u : Nat) (f : Fld) (i v : Nat) : (s.setFldAt u f i v).mbx = s.mbx := rfl
@[simp] theorem State.setFldAt_flt (u : Nat) (f : Fld) (i v : Nat) : (s.setFldAt u f i v).flt = s.flt := rfl
@[simp] theorem State.setFldAt_boot (u : Nat) (f : Fld) (i v : Nat) : (s.setFldAt u f i v).boot = s.boot := rfl
@[simp] theorem State.setFldAt_lease (u : Nat) (f : Fld) (i v : Nat) : (s.setFldAt u f i v).lease = s.lease := rfl
@[simp] theorem State.setFldAt_live (u : Nat) (f : Fld) (i v : Nat) : (s.setFldAt u f i v).live = s.live := rfl
@[simp] theorem State.setFldAt_eng (u : Nat) (f : Fld) (i v : Nat) : (s.setFldAt u f i v).eng = s.eng := rfl
@[simp] theorem State.setFldAt_diary (u : Nat) (f : Fld) (i v : Nat) : (s.setFldAt u f i v).diary = s.diary := rfl

@[simp] theorem State.setPair_pkg (u off : Nat) (v : FT) : (s.setPair u off v).pkg = s.pkg := rfl
@[simp] theorem State.setPair_pending (u off : Nat) (v : FT) : (s.setPair u off v).pending = s.pending := rfl
@[simp] theorem State.setPair_out (u off : Nat) (v : FT) : (s.setPair u off v).out = s.out := rfl
@[simp] theorem State.setPair_freeCtr (u off : Nat) (v : FT) : (s.setPair u off v).freeCtr = s.freeCtr := rfl
@[simp] theorem State.setPair_ctrs (u off : Nat) (v : FT) : (s.setPair u off v).ctrs = s.ctrs := rfl
@[simp] theorem State.setPair_shadows (u off : Nat) (v : FT) : (s.setPair u off v).shadows = s.shadows := rfl
@[simp] theorem State.setPair_staged (u off : Nat) (v : FT) : (s.setPair u off v).staged = s.staged := rfl
@[simp] theorem State.setPair_committed (u off : Nat) (v : FT) : (s.setPair u off v).committed = s.committed := rfl
@[simp] theorem State.setPair_irqHeld (u off : Nat) (v : FT) : (s.setPair u off v).irqHeld = s.irqHeld := rfl
@[simp] theorem State.setPair_tree (u off : Nat) (v : FT) : (s.setPair u off v).tree = s.tree := rfl
@[simp] theorem State.setPair_treeWait (u off : Nat) (v : FT) : (s.setPair u off v).treeWait = s.treeWait := rfl
@[simp] theorem State.setPair_ni (u off : Nat) (v : FT) : (s.setPair u off v).ni = s.ni := rfl
@[simp] theorem State.setPair_pools (u off : Nat) (v : FT) : (s.setPair u off v).pools = s.pools := rfl
@[simp] theorem State.setPair_time (u off : Nat) (v : FT) : (s.setPair u off v).time = s.time := rfl
@[simp] theorem State.setPair_alm (u off : Nat) (v : FT) : (s.setPair u off v).alm = s.alm := rfl
@[simp] theorem State.setPair_isl (u off : Nat) (v : FT) : (s.setPair u off v).isl = s.isl := rfl
@[simp] theorem State.setPair_holder (u off : Nat) (v : FT) : (s.setPair u off v).holder = s.holder := rfl
@[simp] theorem State.setPair_staging (u off : Nat) (v : FT) : (s.setPair u off v).staging = s.staging := rfl
@[simp] theorem State.setPair_image (u off : Nat) (v : FT) : (s.setPair u off v).image = s.image := rfl
@[simp] theorem State.setPair_bootDis (u off : Nat) (v : FT) : (s.setPair u off v).bootDis = s.bootDis := rfl
@[simp] theorem State.setPair_hol (u off : Nat) (v : FT) : (s.setPair u off v).hol = s.hol := rfl
@[simp] theorem State.setPair_trace (u off : Nat) (v : FT) : (s.setPair u off v).trace = s.trace := rfl
@[simp] theorem State.setPair_rtr (u off : Nat) (v : FT) : (s.setPair u off v).rtr = s.rtr := rfl
@[simp] theorem State.setPair_ports (u off : Nat) (v : FT) : (s.setPair u off v).ports = s.ports := rfl
@[simp] theorem State.setPair_dlinks (u off : Nat) (v : FT) : (s.setPair u off v).dlinks = s.dlinks := rfl
@[simp] theorem State.setPair_arbs (u off : Nat) (v : FT) : (s.setPair u off v).arbs = s.arbs := rfl
@[simp] theorem State.setPair_pwr (u off : Nat) (v : FT) : (s.setPair u off v).pwr = s.pwr := rfl
@[simp] theorem State.setPair_chron (u off : Nat) (v : FT) : (s.setPair u off v).chron = s.chron := rfl
@[simp] theorem State.setPair_mbx (u off : Nat) (v : FT) : (s.setPair u off v).mbx = s.mbx := rfl
@[simp] theorem State.setPair_flt (u off : Nat) (v : FT) : (s.setPair u off v).flt = s.flt := rfl
@[simp] theorem State.setPair_boot (u off : Nat) (v : FT) : (s.setPair u off v).boot = s.boot := rfl
@[simp] theorem State.setPair_lease (u off : Nat) (v : FT) : (s.setPair u off v).lease = s.lease := rfl
@[simp] theorem State.setPair_live (u off : Nat) (v : FT) : (s.setPair u off v).live = s.live := rfl
@[simp] theorem State.setPair_eng (u off : Nat) (v : FT) : (s.setPair u off v).eng = s.eng := rfl
@[simp] theorem State.setPair_diary (u off : Nat) (v : FT) : (s.setPair u off v).diary = s.diary := rfl

@[simp] theorem State.setCtr_pkg (u off : Nat) (v : W48) : (s.setCtr u off v).pkg = s.pkg := rfl
@[simp] theorem State.setCtr_pending (u off : Nat) (v : W48) : (s.setCtr u off v).pending = s.pending := rfl
@[simp] theorem State.setCtr_out (u off : Nat) (v : W48) : (s.setCtr u off v).out = s.out := rfl
@[simp] theorem State.setCtr_freeCtr (u off : Nat) (v : W48) : (s.setCtr u off v).freeCtr = s.freeCtr := rfl
@[simp] theorem State.setCtr_regs (u off : Nat) (v : W48) : (s.setCtr u off v).regs = s.regs := rfl
@[simp] theorem State.setCtr_shadows (u off : Nat) (v : W48) : (s.setCtr u off v).shadows = s.shadows := rfl
@[simp] theorem State.setCtr_staged (u off : Nat) (v : W48) : (s.setCtr u off v).staged = s.staged := rfl
@[simp] theorem State.setCtr_committed (u off : Nat) (v : W48) : (s.setCtr u off v).committed = s.committed := rfl
@[simp] theorem State.setCtr_irqHeld (u off : Nat) (v : W48) : (s.setCtr u off v).irqHeld = s.irqHeld := rfl
@[simp] theorem State.setCtr_tree (u off : Nat) (v : W48) : (s.setCtr u off v).tree = s.tree := rfl
@[simp] theorem State.setCtr_treeWait (u off : Nat) (v : W48) : (s.setCtr u off v).treeWait = s.treeWait := rfl
@[simp] theorem State.setCtr_ni (u off : Nat) (v : W48) : (s.setCtr u off v).ni = s.ni := rfl
@[simp] theorem State.setCtr_pools (u off : Nat) (v : W48) : (s.setCtr u off v).pools = s.pools := rfl
@[simp] theorem State.setCtr_time (u off : Nat) (v : W48) : (s.setCtr u off v).time = s.time := rfl
@[simp] theorem State.setCtr_alm (u off : Nat) (v : W48) : (s.setCtr u off v).alm = s.alm := rfl
@[simp] theorem State.setCtr_isl (u off : Nat) (v : W48) : (s.setCtr u off v).isl = s.isl := rfl
@[simp] theorem State.setCtr_holder (u off : Nat) (v : W48) : (s.setCtr u off v).holder = s.holder := rfl
@[simp] theorem State.setCtr_staging (u off : Nat) (v : W48) : (s.setCtr u off v).staging = s.staging := rfl
@[simp] theorem State.setCtr_image (u off : Nat) (v : W48) : (s.setCtr u off v).image = s.image := rfl
@[simp] theorem State.setCtr_bootDis (u off : Nat) (v : W48) : (s.setCtr u off v).bootDis = s.bootDis := rfl
@[simp] theorem State.setCtr_hol (u off : Nat) (v : W48) : (s.setCtr u off v).hol = s.hol := rfl
@[simp] theorem State.setCtr_trace (u off : Nat) (v : W48) : (s.setCtr u off v).trace = s.trace := rfl
@[simp] theorem State.setCtr_rtr (u off : Nat) (v : W48) : (s.setCtr u off v).rtr = s.rtr := rfl
@[simp] theorem State.setCtr_ports (u off : Nat) (v : W48) : (s.setCtr u off v).ports = s.ports := rfl
@[simp] theorem State.setCtr_dlinks (u off : Nat) (v : W48) : (s.setCtr u off v).dlinks = s.dlinks := rfl
@[simp] theorem State.setCtr_arbs (u off : Nat) (v : W48) : (s.setCtr u off v).arbs = s.arbs := rfl
@[simp] theorem State.setCtr_pwr (u off : Nat) (v : W48) : (s.setCtr u off v).pwr = s.pwr := rfl
@[simp] theorem State.setCtr_chron (u off : Nat) (v : W48) : (s.setCtr u off v).chron = s.chron := rfl
@[simp] theorem State.setCtr_mbx (u off : Nat) (v : W48) : (s.setCtr u off v).mbx = s.mbx := rfl
@[simp] theorem State.setCtr_flt (u off : Nat) (v : W48) : (s.setCtr u off v).flt = s.flt := rfl
@[simp] theorem State.setCtr_boot (u off : Nat) (v : W48) : (s.setCtr u off v).boot = s.boot := rfl
@[simp] theorem State.setCtr_lease (u off : Nat) (v : W48) : (s.setCtr u off v).lease = s.lease := rfl
@[simp] theorem State.setCtr_live (u off : Nat) (v : W48) : (s.setCtr u off v).live = s.live := rfl
@[simp] theorem State.setCtr_eng (u off : Nat) (v : W48) : (s.setCtr u off v).eng = s.eng := rfl
@[simp] theorem State.setCtr_diary (u off : Nat) (v : W48) : (s.setCtr u off v).diary = s.diary := rfl

@[simp] theorem State.count_pkg (u off n : Nat) : (s.count u off n).pkg = s.pkg := rfl
@[simp] theorem State.count_pending (u off n : Nat) : (s.count u off n).pending = s.pending := rfl
@[simp] theorem State.count_out (u off n : Nat) : (s.count u off n).out = s.out := rfl
@[simp] theorem State.count_freeCtr (u off n : Nat) : (s.count u off n).freeCtr = s.freeCtr := rfl
@[simp] theorem State.count_regs (u off n : Nat) : (s.count u off n).regs = s.regs := rfl
@[simp] theorem State.count_shadows (u off n : Nat) : (s.count u off n).shadows = s.shadows := rfl
@[simp] theorem State.count_staged (u off n : Nat) : (s.count u off n).staged = s.staged := rfl
@[simp] theorem State.count_committed (u off n : Nat) : (s.count u off n).committed = s.committed := rfl
@[simp] theorem State.count_irqHeld (u off n : Nat) : (s.count u off n).irqHeld = s.irqHeld := rfl
@[simp] theorem State.count_tree (u off n : Nat) : (s.count u off n).tree = s.tree := rfl
@[simp] theorem State.count_treeWait (u off n : Nat) : (s.count u off n).treeWait = s.treeWait := rfl
@[simp] theorem State.count_ni (u off n : Nat) : (s.count u off n).ni = s.ni := rfl
@[simp] theorem State.count_pools (u off n : Nat) : (s.count u off n).pools = s.pools := rfl
@[simp] theorem State.count_time (u off n : Nat) : (s.count u off n).time = s.time := rfl
@[simp] theorem State.count_alm (u off n : Nat) : (s.count u off n).alm = s.alm := rfl
@[simp] theorem State.count_isl (u off n : Nat) : (s.count u off n).isl = s.isl := rfl
@[simp] theorem State.count_holder (u off n : Nat) : (s.count u off n).holder = s.holder := rfl
@[simp] theorem State.count_staging (u off n : Nat) : (s.count u off n).staging = s.staging := rfl
@[simp] theorem State.count_image (u off n : Nat) : (s.count u off n).image = s.image := rfl
@[simp] theorem State.count_bootDis (u off n : Nat) : (s.count u off n).bootDis = s.bootDis := rfl
@[simp] theorem State.count_hol (u off n : Nat) : (s.count u off n).hol = s.hol := rfl
@[simp] theorem State.count_trace (u off n : Nat) : (s.count u off n).trace = s.trace := rfl
@[simp] theorem State.count_rtr (u off n : Nat) : (s.count u off n).rtr = s.rtr := rfl
@[simp] theorem State.count_ports (u off n : Nat) : (s.count u off n).ports = s.ports := rfl
@[simp] theorem State.count_dlinks (u off n : Nat) : (s.count u off n).dlinks = s.dlinks := rfl
@[simp] theorem State.count_arbs (u off n : Nat) : (s.count u off n).arbs = s.arbs := rfl
@[simp] theorem State.count_pwr (u off n : Nat) : (s.count u off n).pwr = s.pwr := rfl
@[simp] theorem State.count_chron (u off n : Nat) : (s.count u off n).chron = s.chron := rfl
@[simp] theorem State.count_mbx (u off n : Nat) : (s.count u off n).mbx = s.mbx := rfl
@[simp] theorem State.count_flt (u off n : Nat) : (s.count u off n).flt = s.flt := rfl
@[simp] theorem State.count_boot (u off n : Nat) : (s.count u off n).boot = s.boot := rfl
@[simp] theorem State.count_lease (u off n : Nat) : (s.count u off n).lease = s.lease := rfl
@[simp] theorem State.count_live (u off n : Nat) : (s.count u off n).live = s.live := rfl
@[simp] theorem State.count_eng (u off n : Nat) : (s.count u off n).eng = s.eng := rfl
@[simp] theorem State.count_diary (u off n : Nat) : (s.count u off n).diary = s.diary := rfl

@[simp] theorem State.mark_pkg (u : Nat) (f : Fld) : (s.mark u f).pkg = s.pkg := rfl
@[simp] theorem State.mark_pending (u : Nat) (f : Fld) : (s.mark u f).pending = s.pending := rfl
@[simp] theorem State.mark_out (u : Nat) (f : Fld) : (s.mark u f).out = s.out := rfl
@[simp] theorem State.mark_freeCtr (u : Nat) (f : Fld) : (s.mark u f).freeCtr = s.freeCtr := rfl
@[simp] theorem State.mark_ctrs (u : Nat) (f : Fld) : (s.mark u f).ctrs = s.ctrs := rfl
@[simp] theorem State.mark_shadows (u : Nat) (f : Fld) : (s.mark u f).shadows = s.shadows := rfl
@[simp] theorem State.mark_staged (u : Nat) (f : Fld) : (s.mark u f).staged = s.staged := rfl
@[simp] theorem State.mark_committed (u : Nat) (f : Fld) : (s.mark u f).committed = s.committed := rfl
@[simp] theorem State.mark_irqHeld (u : Nat) (f : Fld) : (s.mark u f).irqHeld = s.irqHeld := rfl
@[simp] theorem State.mark_tree (u : Nat) (f : Fld) : (s.mark u f).tree = s.tree := rfl
@[simp] theorem State.mark_treeWait (u : Nat) (f : Fld) : (s.mark u f).treeWait = s.treeWait := rfl
@[simp] theorem State.mark_ni (u : Nat) (f : Fld) : (s.mark u f).ni = s.ni := rfl
@[simp] theorem State.mark_pools (u : Nat) (f : Fld) : (s.mark u f).pools = s.pools := rfl
@[simp] theorem State.mark_time (u : Nat) (f : Fld) : (s.mark u f).time = s.time := rfl
@[simp] theorem State.mark_alm (u : Nat) (f : Fld) : (s.mark u f).alm = s.alm := rfl
@[simp] theorem State.mark_isl (u : Nat) (f : Fld) : (s.mark u f).isl = s.isl := rfl
@[simp] theorem State.mark_holder (u : Nat) (f : Fld) : (s.mark u f).holder = s.holder := rfl
@[simp] theorem State.mark_staging (u : Nat) (f : Fld) : (s.mark u f).staging = s.staging := rfl
@[simp] theorem State.mark_image (u : Nat) (f : Fld) : (s.mark u f).image = s.image := rfl
@[simp] theorem State.mark_bootDis (u : Nat) (f : Fld) : (s.mark u f).bootDis = s.bootDis := rfl
@[simp] theorem State.mark_hol (u : Nat) (f : Fld) : (s.mark u f).hol = s.hol := rfl
@[simp] theorem State.mark_trace (u : Nat) (f : Fld) : (s.mark u f).trace = s.trace := rfl
@[simp] theorem State.mark_rtr (u : Nat) (f : Fld) : (s.mark u f).rtr = s.rtr := rfl
@[simp] theorem State.mark_ports (u : Nat) (f : Fld) : (s.mark u f).ports = s.ports := rfl
@[simp] theorem State.mark_dlinks (u : Nat) (f : Fld) : (s.mark u f).dlinks = s.dlinks := rfl
@[simp] theorem State.mark_arbs (u : Nat) (f : Fld) : (s.mark u f).arbs = s.arbs := rfl
@[simp] theorem State.mark_pwr (u : Nat) (f : Fld) : (s.mark u f).pwr = s.pwr := rfl
@[simp] theorem State.mark_chron (u : Nat) (f : Fld) : (s.mark u f).chron = s.chron := rfl
@[simp] theorem State.mark_mbx (u : Nat) (f : Fld) : (s.mark u f).mbx = s.mbx := rfl
@[simp] theorem State.mark_flt (u : Nat) (f : Fld) : (s.mark u f).flt = s.flt := rfl
@[simp] theorem State.mark_boot (u : Nat) (f : Fld) : (s.mark u f).boot = s.boot := rfl
@[simp] theorem State.mark_lease (u : Nat) (f : Fld) : (s.mark u f).lease = s.lease := rfl
@[simp] theorem State.mark_live (u : Nat) (f : Fld) : (s.mark u f).live = s.live := rfl
@[simp] theorem State.mark_eng (u : Nat) (f : Fld) : (s.mark u f).eng = s.eng := rfl
@[simp] theorem State.mark_diary (u : Nat) (f : Fld) : (s.mark u f).diary = s.diary := rfl

@[simp] theorem State.faultEvent_pkg (u c : Nat) (d : W32) : (s.faultEvent u c d).pkg = s.pkg := rfl
@[simp] theorem State.faultEvent_pending (u c : Nat) (d : W32) : (s.faultEvent u c d).pending = s.pending := rfl
@[simp] theorem State.faultEvent_freeCtr (u c : Nat) (d : W32) : (s.faultEvent u c d).freeCtr = s.freeCtr := rfl
@[simp] theorem State.faultEvent_regs (u c : Nat) (d : W32) : (s.faultEvent u c d).regs = s.regs := rfl
@[simp] theorem State.faultEvent_ctrs (u c : Nat) (d : W32) : (s.faultEvent u c d).ctrs = s.ctrs := rfl
@[simp] theorem State.faultEvent_shadows (u c : Nat) (d : W32) : (s.faultEvent u c d).shadows = s.shadows := rfl
@[simp] theorem State.faultEvent_staged (u c : Nat) (d : W32) : (s.faultEvent u c d).staged = s.staged := rfl
@[simp] theorem State.faultEvent_committed (u c : Nat) (d : W32) : (s.faultEvent u c d).committed = s.committed := rfl
@[simp] theorem State.faultEvent_irqHeld (u c : Nat) (d : W32) : (s.faultEvent u c d).irqHeld = s.irqHeld := rfl
@[simp] theorem State.faultEvent_tree (u c : Nat) (d : W32) : (s.faultEvent u c d).tree = s.tree := rfl
@[simp] theorem State.faultEvent_treeWait (u c : Nat) (d : W32) : (s.faultEvent u c d).treeWait = s.treeWait := rfl
@[simp] theorem State.faultEvent_ni (u c : Nat) (d : W32) : (s.faultEvent u c d).ni = s.ni := rfl
@[simp] theorem State.faultEvent_pools (u c : Nat) (d : W32) : (s.faultEvent u c d).pools = s.pools := rfl
@[simp] theorem State.faultEvent_time (u c : Nat) (d : W32) : (s.faultEvent u c d).time = s.time := rfl
@[simp] theorem State.faultEvent_alm (u c : Nat) (d : W32) : (s.faultEvent u c d).alm = s.alm := rfl
@[simp] theorem State.faultEvent_isl (u c : Nat) (d : W32) : (s.faultEvent u c d).isl = s.isl := rfl
@[simp] theorem State.faultEvent_holder (u c : Nat) (d : W32) : (s.faultEvent u c d).holder = s.holder := rfl
@[simp] theorem State.faultEvent_staging (u c : Nat) (d : W32) : (s.faultEvent u c d).staging = s.staging := rfl
@[simp] theorem State.faultEvent_image (u c : Nat) (d : W32) : (s.faultEvent u c d).image = s.image := rfl
@[simp] theorem State.faultEvent_bootDis (u c : Nat) (d : W32) : (s.faultEvent u c d).bootDis = s.bootDis := rfl
@[simp] theorem State.faultEvent_hol (u c : Nat) (d : W32) : (s.faultEvent u c d).hol = s.hol := rfl
@[simp] theorem State.faultEvent_trace (u c : Nat) (d : W32) : (s.faultEvent u c d).trace = s.trace := rfl
@[simp] theorem State.faultEvent_rtr (u c : Nat) (d : W32) : (s.faultEvent u c d).rtr = s.rtr := rfl
@[simp] theorem State.faultEvent_ports (u c : Nat) (d : W32) : (s.faultEvent u c d).ports = s.ports := rfl
@[simp] theorem State.faultEvent_dlinks (u c : Nat) (d : W32) : (s.faultEvent u c d).dlinks = s.dlinks := rfl
@[simp] theorem State.faultEvent_arbs (u c : Nat) (d : W32) : (s.faultEvent u c d).arbs = s.arbs := rfl
@[simp] theorem State.faultEvent_pwr (u c : Nat) (d : W32) : (s.faultEvent u c d).pwr = s.pwr := rfl
@[simp] theorem State.faultEvent_chron (u c : Nat) (d : W32) : (s.faultEvent u c d).chron = s.chron := rfl
@[simp] theorem State.faultEvent_mbx (u c : Nat) (d : W32) : (s.faultEvent u c d).mbx = s.mbx := rfl
@[simp] theorem State.faultEvent_flt (u c : Nat) (d : W32) : (s.faultEvent u c d).flt = s.flt := rfl
@[simp] theorem State.faultEvent_boot (u c : Nat) (d : W32) : (s.faultEvent u c d).boot = s.boot := rfl
@[simp] theorem State.faultEvent_lease (u c : Nat) (d : W32) : (s.faultEvent u c d).lease = s.lease := rfl
@[simp] theorem State.faultEvent_live (u c : Nat) (d : W32) : (s.faultEvent u c d).live = s.live := rfl
@[simp] theorem State.faultEvent_eng (u c : Nat) (d : W32) : (s.faultEvent u c d).eng = s.eng := rfl
@[simp] theorem State.faultEvent_diary (u c : Nat) (d : W32) : (s.faultEvent u c d).diary = s.diary := rfl

@[simp] theorem State.setIsland_pkg (die inst : Nat) (i : Isl) : (s.setIsland die inst i).pkg = s.pkg := rfl
@[simp] theorem State.setIsland_pending (die inst : Nat) (i : Isl) : (s.setIsland die inst i).pending = s.pending := rfl
@[simp] theorem State.setIsland_out (die inst : Nat) (i : Isl) : (s.setIsland die inst i).out = s.out := rfl
@[simp] theorem State.setIsland_freeCtr (die inst : Nat) (i : Isl) : (s.setIsland die inst i).freeCtr = s.freeCtr := rfl
@[simp] theorem State.setIsland_regs (die inst : Nat) (i : Isl) : (s.setIsland die inst i).regs = s.regs := rfl
@[simp] theorem State.setIsland_ctrs (die inst : Nat) (i : Isl) : (s.setIsland die inst i).ctrs = s.ctrs := rfl
@[simp] theorem State.setIsland_shadows (die inst : Nat) (i : Isl) : (s.setIsland die inst i).shadows = s.shadows := rfl
@[simp] theorem State.setIsland_staged (die inst : Nat) (i : Isl) : (s.setIsland die inst i).staged = s.staged := rfl
@[simp] theorem State.setIsland_committed (die inst : Nat) (i : Isl) : (s.setIsland die inst i).committed = s.committed := rfl
@[simp] theorem State.setIsland_irqHeld (die inst : Nat) (i : Isl) : (s.setIsland die inst i).irqHeld = s.irqHeld := rfl
@[simp] theorem State.setIsland_tree (die inst : Nat) (i : Isl) : (s.setIsland die inst i).tree = s.tree := rfl
@[simp] theorem State.setIsland_treeWait (die inst : Nat) (i : Isl) : (s.setIsland die inst i).treeWait = s.treeWait := rfl
@[simp] theorem State.setIsland_ni (die inst : Nat) (i : Isl) : (s.setIsland die inst i).ni = s.ni := rfl
@[simp] theorem State.setIsland_pools (die inst : Nat) (i : Isl) : (s.setIsland die inst i).pools = s.pools := rfl
@[simp] theorem State.setIsland_time (die inst : Nat) (i : Isl) : (s.setIsland die inst i).time = s.time := rfl
@[simp] theorem State.setIsland_alm (die inst : Nat) (i : Isl) : (s.setIsland die inst i).alm = s.alm := rfl
@[simp] theorem State.setIsland_holder (die inst : Nat) (i : Isl) : (s.setIsland die inst i).holder = s.holder := rfl
@[simp] theorem State.setIsland_staging (die inst : Nat) (i : Isl) : (s.setIsland die inst i).staging = s.staging := rfl
@[simp] theorem State.setIsland_image (die inst : Nat) (i : Isl) : (s.setIsland die inst i).image = s.image := rfl
@[simp] theorem State.setIsland_bootDis (die inst : Nat) (i : Isl) : (s.setIsland die inst i).bootDis = s.bootDis := rfl
@[simp] theorem State.setIsland_hol (die inst : Nat) (i : Isl) : (s.setIsland die inst i).hol = s.hol := rfl
@[simp] theorem State.setIsland_trace (die inst : Nat) (i : Isl) : (s.setIsland die inst i).trace = s.trace := rfl
@[simp] theorem State.setIsland_rtr (die inst : Nat) (i : Isl) : (s.setIsland die inst i).rtr = s.rtr := rfl
@[simp] theorem State.setIsland_ports (die inst : Nat) (i : Isl) : (s.setIsland die inst i).ports = s.ports := rfl
@[simp] theorem State.setIsland_dlinks (die inst : Nat) (i : Isl) : (s.setIsland die inst i).dlinks = s.dlinks := rfl
@[simp] theorem State.setIsland_arbs (die inst : Nat) (i : Isl) : (s.setIsland die inst i).arbs = s.arbs := rfl
@[simp] theorem State.setIsland_pwr (die inst : Nat) (i : Isl) : (s.setIsland die inst i).pwr = s.pwr := rfl
@[simp] theorem State.setIsland_chron (die inst : Nat) (i : Isl) : (s.setIsland die inst i).chron = s.chron := rfl
@[simp] theorem State.setIsland_mbx (die inst : Nat) (i : Isl) : (s.setIsland die inst i).mbx = s.mbx := rfl
@[simp] theorem State.setIsland_flt (die inst : Nat) (i : Isl) : (s.setIsland die inst i).flt = s.flt := rfl
@[simp] theorem State.setIsland_boot (die inst : Nat) (i : Isl) : (s.setIsland die inst i).boot = s.boot := rfl
@[simp] theorem State.setIsland_lease (die inst : Nat) (i : Isl) : (s.setIsland die inst i).lease = s.lease := rfl
@[simp] theorem State.setIsland_live (die inst : Nat) (i : Isl) : (s.setIsland die inst i).live = s.live := rfl
@[simp] theorem State.setIsland_eng (die inst : Nat) (i : Isl) : (s.setIsland die inst i).eng = s.eng := rfl
@[simp] theorem State.setIsland_diary (die inst : Nat) (i : Isl) : (s.setIsland die inst i).diary = s.diary := rfl

@[simp] theorem State.setNi_pkg (st : Nat) (n : Ni) : (s.setNi st n).pkg = s.pkg := rfl
@[simp] theorem State.setNi_pending (st : Nat) (n : Ni) : (s.setNi st n).pending = s.pending := rfl
@[simp] theorem State.setNi_out (st : Nat) (n : Ni) : (s.setNi st n).out = s.out := rfl
@[simp] theorem State.setNi_freeCtr (st : Nat) (n : Ni) : (s.setNi st n).freeCtr = s.freeCtr := rfl
@[simp] theorem State.setNi_regs (st : Nat) (n : Ni) : (s.setNi st n).regs = s.regs := rfl
@[simp] theorem State.setNi_ctrs (st : Nat) (n : Ni) : (s.setNi st n).ctrs = s.ctrs := rfl
@[simp] theorem State.setNi_shadows (st : Nat) (n : Ni) : (s.setNi st n).shadows = s.shadows := rfl
@[simp] theorem State.setNi_staged (st : Nat) (n : Ni) : (s.setNi st n).staged = s.staged := rfl
@[simp] theorem State.setNi_committed (st : Nat) (n : Ni) : (s.setNi st n).committed = s.committed := rfl
@[simp] theorem State.setNi_irqHeld (st : Nat) (n : Ni) : (s.setNi st n).irqHeld = s.irqHeld := rfl
@[simp] theorem State.setNi_tree (st : Nat) (n : Ni) : (s.setNi st n).tree = s.tree := rfl
@[simp] theorem State.setNi_treeWait (st : Nat) (n : Ni) : (s.setNi st n).treeWait = s.treeWait := rfl
@[simp] theorem State.setNi_pools (st : Nat) (n : Ni) : (s.setNi st n).pools = s.pools := rfl
@[simp] theorem State.setNi_time (st : Nat) (n : Ni) : (s.setNi st n).time = s.time := rfl
@[simp] theorem State.setNi_alm (st : Nat) (n : Ni) : (s.setNi st n).alm = s.alm := rfl
@[simp] theorem State.setNi_isl (st : Nat) (n : Ni) : (s.setNi st n).isl = s.isl := rfl
@[simp] theorem State.setNi_holder (st : Nat) (n : Ni) : (s.setNi st n).holder = s.holder := rfl
@[simp] theorem State.setNi_staging (st : Nat) (n : Ni) : (s.setNi st n).staging = s.staging := rfl
@[simp] theorem State.setNi_image (st : Nat) (n : Ni) : (s.setNi st n).image = s.image := rfl
@[simp] theorem State.setNi_bootDis (st : Nat) (n : Ni) : (s.setNi st n).bootDis = s.bootDis := rfl
@[simp] theorem State.setNi_hol (st : Nat) (n : Ni) : (s.setNi st n).hol = s.hol := rfl
@[simp] theorem State.setNi_trace (st : Nat) (n : Ni) : (s.setNi st n).trace = s.trace := rfl
@[simp] theorem State.setNi_rtr (st : Nat) (n : Ni) : (s.setNi st n).rtr = s.rtr := rfl
@[simp] theorem State.setNi_ports (st : Nat) (n : Ni) : (s.setNi st n).ports = s.ports := rfl
@[simp] theorem State.setNi_dlinks (st : Nat) (n : Ni) : (s.setNi st n).dlinks = s.dlinks := rfl
@[simp] theorem State.setNi_arbs (st : Nat) (n : Ni) : (s.setNi st n).arbs = s.arbs := rfl
@[simp] theorem State.setNi_pwr (st : Nat) (n : Ni) : (s.setNi st n).pwr = s.pwr := rfl
@[simp] theorem State.setNi_chron (st : Nat) (n : Ni) : (s.setNi st n).chron = s.chron := rfl
@[simp] theorem State.setNi_mbx (st : Nat) (n : Ni) : (s.setNi st n).mbx = s.mbx := rfl
@[simp] theorem State.setNi_flt (st : Nat) (n : Ni) : (s.setNi st n).flt = s.flt := rfl
@[simp] theorem State.setNi_boot (st : Nat) (n : Ni) : (s.setNi st n).boot = s.boot := rfl
@[simp] theorem State.setNi_lease (st : Nat) (n : Ni) : (s.setNi st n).lease = s.lease := rfl
@[simp] theorem State.setNi_live (st : Nat) (n : Ni) : (s.setNi st n).live = s.live := rfl
@[simp] theorem State.setNi_eng (st : Nat) (n : Ni) : (s.setNi st n).eng = s.eng := rfl
@[simp] theorem State.setNi_diary (st : Nat) (n : Ni) : (s.setNi st n).diary = s.diary := rfl

@[simp] theorem State.updNi_pkg (st : Nat) (f : Ni → Ni) : (s.updNi st f).pkg = s.pkg := rfl
@[simp] theorem State.updNi_pending (st : Nat) (f : Ni → Ni) : (s.updNi st f).pending = s.pending := rfl
@[simp] theorem State.updNi_out (st : Nat) (f : Ni → Ni) : (s.updNi st f).out = s.out := rfl
@[simp] theorem State.updNi_freeCtr (st : Nat) (f : Ni → Ni) : (s.updNi st f).freeCtr = s.freeCtr := rfl
@[simp] theorem State.updNi_regs (st : Nat) (f : Ni → Ni) : (s.updNi st f).regs = s.regs := rfl
@[simp] theorem State.updNi_ctrs (st : Nat) (f : Ni → Ni) : (s.updNi st f).ctrs = s.ctrs := rfl
@[simp] theorem State.updNi_shadows (st : Nat) (f : Ni → Ni) : (s.updNi st f).shadows = s.shadows := rfl
@[simp] theorem State.updNi_staged (st : Nat) (f : Ni → Ni) : (s.updNi st f).staged = s.staged := rfl
@[simp] theorem State.updNi_committed (st : Nat) (f : Ni → Ni) : (s.updNi st f).committed = s.committed := rfl
@[simp] theorem State.updNi_irqHeld (st : Nat) (f : Ni → Ni) : (s.updNi st f).irqHeld = s.irqHeld := rfl
@[simp] theorem State.updNi_tree (st : Nat) (f : Ni → Ni) : (s.updNi st f).tree = s.tree := rfl
@[simp] theorem State.updNi_treeWait (st : Nat) (f : Ni → Ni) : (s.updNi st f).treeWait = s.treeWait := rfl
@[simp] theorem State.updNi_pools (st : Nat) (f : Ni → Ni) : (s.updNi st f).pools = s.pools := rfl
@[simp] theorem State.updNi_time (st : Nat) (f : Ni → Ni) : (s.updNi st f).time = s.time := rfl
@[simp] theorem State.updNi_alm (st : Nat) (f : Ni → Ni) : (s.updNi st f).alm = s.alm := rfl
@[simp] theorem State.updNi_isl (st : Nat) (f : Ni → Ni) : (s.updNi st f).isl = s.isl := rfl
@[simp] theorem State.updNi_holder (st : Nat) (f : Ni → Ni) : (s.updNi st f).holder = s.holder := rfl
@[simp] theorem State.updNi_staging (st : Nat) (f : Ni → Ni) : (s.updNi st f).staging = s.staging := rfl
@[simp] theorem State.updNi_image (st : Nat) (f : Ni → Ni) : (s.updNi st f).image = s.image := rfl
@[simp] theorem State.updNi_bootDis (st : Nat) (f : Ni → Ni) : (s.updNi st f).bootDis = s.bootDis := rfl
@[simp] theorem State.updNi_hol (st : Nat) (f : Ni → Ni) : (s.updNi st f).hol = s.hol := rfl
@[simp] theorem State.updNi_trace (st : Nat) (f : Ni → Ni) : (s.updNi st f).trace = s.trace := rfl
@[simp] theorem State.updNi_rtr (st : Nat) (f : Ni → Ni) : (s.updNi st f).rtr = s.rtr := rfl
@[simp] theorem State.updNi_ports (st : Nat) (f : Ni → Ni) : (s.updNi st f).ports = s.ports := rfl
@[simp] theorem State.updNi_dlinks (st : Nat) (f : Ni → Ni) : (s.updNi st f).dlinks = s.dlinks := rfl
@[simp] theorem State.updNi_arbs (st : Nat) (f : Ni → Ni) : (s.updNi st f).arbs = s.arbs := rfl
@[simp] theorem State.updNi_pwr (st : Nat) (f : Ni → Ni) : (s.updNi st f).pwr = s.pwr := rfl
@[simp] theorem State.updNi_chron (st : Nat) (f : Ni → Ni) : (s.updNi st f).chron = s.chron := rfl
@[simp] theorem State.updNi_mbx (st : Nat) (f : Ni → Ni) : (s.updNi st f).mbx = s.mbx := rfl
@[simp] theorem State.updNi_flt (st : Nat) (f : Ni → Ni) : (s.updNi st f).flt = s.flt := rfl
@[simp] theorem State.updNi_boot (st : Nat) (f : Ni → Ni) : (s.updNi st f).boot = s.boot := rfl
@[simp] theorem State.updNi_lease (st : Nat) (f : Ni → Ni) : (s.updNi st f).lease = s.lease := rfl
@[simp] theorem State.updNi_live (st : Nat) (f : Ni → Ni) : (s.updNi st f).live = s.live := rfl
@[simp] theorem State.updNi_eng (st : Nat) (f : Ni → Ni) : (s.updNi st f).eng = s.eng := rfl
@[simp] theorem State.updNi_diary (st : Nat) (f : Ni → Ni) : (s.updNi st f).diary = s.diary := rfl

@[simp] theorem State.setPool_pkg (die : Nat) (p : Pool) : (s.setPool die p).pkg = s.pkg := rfl
@[simp] theorem State.setPool_pending (die : Nat) (p : Pool) : (s.setPool die p).pending = s.pending := rfl
@[simp] theorem State.setPool_out (die : Nat) (p : Pool) : (s.setPool die p).out = s.out := rfl
@[simp] theorem State.setPool_freeCtr (die : Nat) (p : Pool) : (s.setPool die p).freeCtr = s.freeCtr := rfl
@[simp] theorem State.setPool_regs (die : Nat) (p : Pool) : (s.setPool die p).regs = s.regs := rfl
@[simp] theorem State.setPool_ctrs (die : Nat) (p : Pool) : (s.setPool die p).ctrs = s.ctrs := rfl
@[simp] theorem State.setPool_shadows (die : Nat) (p : Pool) : (s.setPool die p).shadows = s.shadows := rfl
@[simp] theorem State.setPool_staged (die : Nat) (p : Pool) : (s.setPool die p).staged = s.staged := rfl
@[simp] theorem State.setPool_committed (die : Nat) (p : Pool) : (s.setPool die p).committed = s.committed := rfl
@[simp] theorem State.setPool_irqHeld (die : Nat) (p : Pool) : (s.setPool die p).irqHeld = s.irqHeld := rfl
@[simp] theorem State.setPool_tree (die : Nat) (p : Pool) : (s.setPool die p).tree = s.tree := rfl
@[simp] theorem State.setPool_treeWait (die : Nat) (p : Pool) : (s.setPool die p).treeWait = s.treeWait := rfl
@[simp] theorem State.setPool_ni (die : Nat) (p : Pool) : (s.setPool die p).ni = s.ni := rfl
@[simp] theorem State.setPool_time (die : Nat) (p : Pool) : (s.setPool die p).time = s.time := rfl
@[simp] theorem State.setPool_alm (die : Nat) (p : Pool) : (s.setPool die p).alm = s.alm := rfl
@[simp] theorem State.setPool_isl (die : Nat) (p : Pool) : (s.setPool die p).isl = s.isl := rfl
@[simp] theorem State.setPool_holder (die : Nat) (p : Pool) : (s.setPool die p).holder = s.holder := rfl
@[simp] theorem State.setPool_staging (die : Nat) (p : Pool) : (s.setPool die p).staging = s.staging := rfl
@[simp] theorem State.setPool_image (die : Nat) (p : Pool) : (s.setPool die p).image = s.image := rfl
@[simp] theorem State.setPool_bootDis (die : Nat) (p : Pool) : (s.setPool die p).bootDis = s.bootDis := rfl
@[simp] theorem State.setPool_hol (die : Nat) (p : Pool) : (s.setPool die p).hol = s.hol := rfl
@[simp] theorem State.setPool_trace (die : Nat) (p : Pool) : (s.setPool die p).trace = s.trace := rfl
@[simp] theorem State.setPool_rtr (die : Nat) (p : Pool) : (s.setPool die p).rtr = s.rtr := rfl
@[simp] theorem State.setPool_ports (die : Nat) (p : Pool) : (s.setPool die p).ports = s.ports := rfl
@[simp] theorem State.setPool_dlinks (die : Nat) (p : Pool) : (s.setPool die p).dlinks = s.dlinks := rfl
@[simp] theorem State.setPool_arbs (die : Nat) (p : Pool) : (s.setPool die p).arbs = s.arbs := rfl
@[simp] theorem State.setPool_pwr (die : Nat) (p : Pool) : (s.setPool die p).pwr = s.pwr := rfl
@[simp] theorem State.setPool_chron (die : Nat) (p : Pool) : (s.setPool die p).chron = s.chron := rfl
@[simp] theorem State.setPool_mbx (die : Nat) (p : Pool) : (s.setPool die p).mbx = s.mbx := rfl
@[simp] theorem State.setPool_flt (die : Nat) (p : Pool) : (s.setPool die p).flt = s.flt := rfl
@[simp] theorem State.setPool_boot (die : Nat) (p : Pool) : (s.setPool die p).boot = s.boot := rfl
@[simp] theorem State.setPool_lease (die : Nat) (p : Pool) : (s.setPool die p).lease = s.lease := rfl
@[simp] theorem State.setPool_live (die : Nat) (p : Pool) : (s.setPool die p).live = s.live := rfl
@[simp] theorem State.setPool_eng (die : Nat) (p : Pool) : (s.setPool die p).eng = s.eng := rfl
@[simp] theorem State.setPool_diary (die : Nat) (p : Pool) : (s.setPool die p).diary = s.diary := rfl

@[simp] theorem State.interrupt_pkg (a b : Nat) : (s.interrupt a b).pkg = s.pkg := by unfold State.interrupt; split <;> (try split) <;> rfl
@[simp] theorem State.interrupt_pending (a b : Nat) : (s.interrupt a b).pending = s.pending := by unfold State.interrupt; split <;> (try split) <;> rfl
@[simp] theorem State.interrupt_freeCtr (a b : Nat) : (s.interrupt a b).freeCtr = s.freeCtr := by unfold State.interrupt; split <;> (try split) <;> rfl
@[simp] theorem State.interrupt_regs (a b : Nat) : (s.interrupt a b).regs = s.regs := by unfold State.interrupt; split <;> (try split) <;> rfl
@[simp] theorem State.interrupt_ctrs (a b : Nat) : (s.interrupt a b).ctrs = s.ctrs := by unfold State.interrupt; split <;> (try split) <;> rfl
@[simp] theorem State.interrupt_shadows (a b : Nat) : (s.interrupt a b).shadows = s.shadows := by unfold State.interrupt; split <;> (try split) <;> rfl
@[simp] theorem State.interrupt_staged (a b : Nat) : (s.interrupt a b).staged = s.staged := by unfold State.interrupt; split <;> (try split) <;> rfl
@[simp] theorem State.interrupt_committed (a b : Nat) : (s.interrupt a b).committed = s.committed := by unfold State.interrupt; split <;> (try split) <;> rfl
@[simp] theorem State.interrupt_tree (a b : Nat) : (s.interrupt a b).tree = s.tree := by unfold State.interrupt; split <;> (try split) <;> rfl
@[simp] theorem State.interrupt_treeWait (a b : Nat) : (s.interrupt a b).treeWait = s.treeWait := by unfold State.interrupt; split <;> (try split) <;> rfl
@[simp] theorem State.interrupt_ni (a b : Nat) : (s.interrupt a b).ni = s.ni := by unfold State.interrupt; split <;> (try split) <;> rfl
@[simp] theorem State.interrupt_pools (a b : Nat) : (s.interrupt a b).pools = s.pools := by unfold State.interrupt; split <;> (try split) <;> rfl
@[simp] theorem State.interrupt_time (a b : Nat) : (s.interrupt a b).time = s.time := by unfold State.interrupt; split <;> (try split) <;> rfl
@[simp] theorem State.interrupt_alm (a b : Nat) : (s.interrupt a b).alm = s.alm := by unfold State.interrupt; split <;> (try split) <;> rfl
@[simp] theorem State.interrupt_isl (a b : Nat) : (s.interrupt a b).isl = s.isl := by unfold State.interrupt; split <;> (try split) <;> rfl
@[simp] theorem State.interrupt_holder (a b : Nat) : (s.interrupt a b).holder = s.holder := by unfold State.interrupt; split <;> (try split) <;> rfl
@[simp] theorem State.interrupt_staging (a b : Nat) : (s.interrupt a b).staging = s.staging := by unfold State.interrupt; split <;> (try split) <;> rfl
@[simp] theorem State.interrupt_image (a b : Nat) : (s.interrupt a b).image = s.image := by unfold State.interrupt; split <;> (try split) <;> rfl
@[simp] theorem State.interrupt_bootDis (a b : Nat) : (s.interrupt a b).bootDis = s.bootDis := by unfold State.interrupt; split <;> (try split) <;> rfl
@[simp] theorem State.interrupt_hol (a b : Nat) : (s.interrupt a b).hol = s.hol := by unfold State.interrupt; split <;> (try split) <;> rfl
@[simp] theorem State.interrupt_trace (a b : Nat) : (s.interrupt a b).trace = s.trace := by unfold State.interrupt; split <;> (try split) <;> rfl
@[simp] theorem State.interrupt_rtr (a b : Nat) : (s.interrupt a b).rtr = s.rtr := by unfold State.interrupt; split <;> (try split) <;> rfl
@[simp] theorem State.interrupt_ports (a b : Nat) : (s.interrupt a b).ports = s.ports := by unfold State.interrupt; split <;> (try split) <;> rfl
@[simp] theorem State.interrupt_dlinks (a b : Nat) : (s.interrupt a b).dlinks = s.dlinks := by unfold State.interrupt; split <;> (try split) <;> rfl
@[simp] theorem State.interrupt_arbs (a b : Nat) : (s.interrupt a b).arbs = s.arbs := by unfold State.interrupt; split <;> (try split) <;> rfl
@[simp] theorem State.interrupt_pwr (a b : Nat) : (s.interrupt a b).pwr = s.pwr := by unfold State.interrupt; split <;> (try split) <;> rfl
@[simp] theorem State.interrupt_chron (a b : Nat) : (s.interrupt a b).chron = s.chron := by unfold State.interrupt; split <;> (try split) <;> rfl
@[simp] theorem State.interrupt_mbx (a b : Nat) : (s.interrupt a b).mbx = s.mbx := by unfold State.interrupt; split <;> (try split) <;> rfl
@[simp] theorem State.interrupt_flt (a b : Nat) : (s.interrupt a b).flt = s.flt := by unfold State.interrupt; split <;> (try split) <;> rfl
@[simp] theorem State.interrupt_boot (a b : Nat) : (s.interrupt a b).boot = s.boot := by unfold State.interrupt; split <;> (try split) <;> rfl
@[simp] theorem State.interrupt_lease (a b : Nat) : (s.interrupt a b).lease = s.lease := by unfold State.interrupt; split <;> (try split) <;> rfl
@[simp] theorem State.interrupt_live (a b : Nat) : (s.interrupt a b).live = s.live := by unfold State.interrupt; split <;> (try split) <;> rfl
@[simp] theorem State.interrupt_eng (a b : Nat) : (s.interrupt a b).eng = s.eng := by unfold State.interrupt; split <;> (try split) <;> rfl
@[simp] theorem State.interrupt_diary (a b : Nat) : (s.interrupt a b).diary = s.diary := by unfold State.interrupt; split <;> (try split) <;> rfl

@[simp] theorem State.eventBit_pkg (u off b : Nat) : (s.eventBit u off b).pkg = s.pkg := by unfold State.eventBit; dsimp only; split <;> simp
@[simp] theorem State.eventBit_pending (u off b : Nat) : (s.eventBit u off b).pending = s.pending := by unfold State.eventBit; dsimp only; split <;> simp
@[simp] theorem State.eventBit_freeCtr (u off b : Nat) : (s.eventBit u off b).freeCtr = s.freeCtr := by unfold State.eventBit; dsimp only; split <;> simp
@[simp] theorem State.eventBit_ctrs (u off b : Nat) : (s.eventBit u off b).ctrs = s.ctrs := by unfold State.eventBit; dsimp only; split <;> simp
@[simp] theorem State.eventBit_shadows (u off b : Nat) : (s.eventBit u off b).shadows = s.shadows := by unfold State.eventBit; dsimp only; split <;> simp
@[simp] theorem State.eventBit_staged (u off b : Nat) : (s.eventBit u off b).staged = s.staged := by unfold State.eventBit; dsimp only; split <;> simp
@[simp] theorem State.eventBit_committed (u off b : Nat) : (s.eventBit u off b).committed = s.committed := by unfold State.eventBit; dsimp only; split <;> simp
@[simp] theorem State.eventBit_tree (u off b : Nat) : (s.eventBit u off b).tree = s.tree := by unfold State.eventBit; dsimp only; split <;> simp
@[simp] theorem State.eventBit_treeWait (u off b : Nat) : (s.eventBit u off b).treeWait = s.treeWait := by unfold State.eventBit; dsimp only; split <;> simp
@[simp] theorem State.eventBit_ni (u off b : Nat) : (s.eventBit u off b).ni = s.ni := by unfold State.eventBit; dsimp only; split <;> simp
@[simp] theorem State.eventBit_pools (u off b : Nat) : (s.eventBit u off b).pools = s.pools := by unfold State.eventBit; dsimp only; split <;> simp
@[simp] theorem State.eventBit_time (u off b : Nat) : (s.eventBit u off b).time = s.time := by unfold State.eventBit; dsimp only; split <;> simp
@[simp] theorem State.eventBit_alm (u off b : Nat) : (s.eventBit u off b).alm = s.alm := by unfold State.eventBit; dsimp only; split <;> simp
@[simp] theorem State.eventBit_isl (u off b : Nat) : (s.eventBit u off b).isl = s.isl := by unfold State.eventBit; dsimp only; split <;> simp
@[simp] theorem State.eventBit_holder (u off b : Nat) : (s.eventBit u off b).holder = s.holder := by unfold State.eventBit; dsimp only; split <;> simp
@[simp] theorem State.eventBit_staging (u off b : Nat) : (s.eventBit u off b).staging = s.staging := by unfold State.eventBit; dsimp only; split <;> simp
@[simp] theorem State.eventBit_image (u off b : Nat) : (s.eventBit u off b).image = s.image := by unfold State.eventBit; dsimp only; split <;> simp
@[simp] theorem State.eventBit_bootDis (u off b : Nat) : (s.eventBit u off b).bootDis = s.bootDis := by unfold State.eventBit; dsimp only; split <;> simp
@[simp] theorem State.eventBit_hol (u off b : Nat) : (s.eventBit u off b).hol = s.hol := by unfold State.eventBit; dsimp only; split <;> simp
@[simp] theorem State.eventBit_trace (u off b : Nat) : (s.eventBit u off b).trace = s.trace := by unfold State.eventBit; dsimp only; split <;> simp
@[simp] theorem State.eventBit_rtr (u off b : Nat) : (s.eventBit u off b).rtr = s.rtr := by unfold State.eventBit; dsimp only; split <;> simp
@[simp] theorem State.eventBit_ports (u off b : Nat) : (s.eventBit u off b).ports = s.ports := by unfold State.eventBit; dsimp only; split <;> simp
@[simp] theorem State.eventBit_dlinks (u off b : Nat) : (s.eventBit u off b).dlinks = s.dlinks := by unfold State.eventBit; dsimp only; split <;> simp
@[simp] theorem State.eventBit_arbs (u off b : Nat) : (s.eventBit u off b).arbs = s.arbs := by unfold State.eventBit; dsimp only; split <;> simp
@[simp] theorem State.eventBit_pwr (u off b : Nat) : (s.eventBit u off b).pwr = s.pwr := by unfold State.eventBit; dsimp only; split <;> simp
@[simp] theorem State.eventBit_chron (u off b : Nat) : (s.eventBit u off b).chron = s.chron := by unfold State.eventBit; dsimp only; split <;> simp
@[simp] theorem State.eventBit_mbx (u off b : Nat) : (s.eventBit u off b).mbx = s.mbx := by unfold State.eventBit; dsimp only; split <;> simp
@[simp] theorem State.eventBit_flt (u off b : Nat) : (s.eventBit u off b).flt = s.flt := by unfold State.eventBit; dsimp only; split <;> simp
@[simp] theorem State.eventBit_boot (u off b : Nat) : (s.eventBit u off b).boot = s.boot := by unfold State.eventBit; dsimp only; split <;> simp
@[simp] theorem State.eventBit_lease (u off b : Nat) : (s.eventBit u off b).lease = s.lease := by unfold State.eventBit; dsimp only; split <;> simp
@[simp] theorem State.eventBit_live (u off b : Nat) : (s.eventBit u off b).live = s.live := by unfold State.eventBit; dsimp only; split <;> simp
@[simp] theorem State.eventBit_eng (u off b : Nat) : (s.eventBit u off b).eng = s.eng := by unfold State.eventBit; dsimp only; split <;> simp
@[simp] theorem State.eventBit_diary (u off b : Nat) : (s.eventBit u off b).diary = s.diary := by unfold State.eventBit; dsimp only; split <;> simp

@[simp] theorem State.event_pkg (u : Nat) (f : Fld) : (s.event u f).pkg = s.pkg := by unfold State.event; simp
@[simp] theorem State.event_pending (u : Nat) (f : Fld) : (s.event u f).pending = s.pending := by unfold State.event; simp
@[simp] theorem State.event_freeCtr (u : Nat) (f : Fld) : (s.event u f).freeCtr = s.freeCtr := by unfold State.event; simp
@[simp] theorem State.event_ctrs (u : Nat) (f : Fld) : (s.event u f).ctrs = s.ctrs := by unfold State.event; simp
@[simp] theorem State.event_shadows (u : Nat) (f : Fld) : (s.event u f).shadows = s.shadows := by unfold State.event; simp
@[simp] theorem State.event_staged (u : Nat) (f : Fld) : (s.event u f).staged = s.staged := by unfold State.event; simp
@[simp] theorem State.event_committed (u : Nat) (f : Fld) : (s.event u f).committed = s.committed := by unfold State.event; simp
@[simp] theorem State.event_tree (u : Nat) (f : Fld) : (s.event u f).tree = s.tree := by unfold State.event; simp
@[simp] theorem State.event_treeWait (u : Nat) (f : Fld) : (s.event u f).treeWait = s.treeWait := by unfold State.event; simp
@[simp] theorem State.event_ni (u : Nat) (f : Fld) : (s.event u f).ni = s.ni := by unfold State.event; simp
@[simp] theorem State.event_pools (u : Nat) (f : Fld) : (s.event u f).pools = s.pools := by unfold State.event; simp
@[simp] theorem State.event_time (u : Nat) (f : Fld) : (s.event u f).time = s.time := by unfold State.event; simp
@[simp] theorem State.event_alm (u : Nat) (f : Fld) : (s.event u f).alm = s.alm := by unfold State.event; simp
@[simp] theorem State.event_isl (u : Nat) (f : Fld) : (s.event u f).isl = s.isl := by unfold State.event; simp
@[simp] theorem State.event_holder (u : Nat) (f : Fld) : (s.event u f).holder = s.holder := by unfold State.event; simp
@[simp] theorem State.event_staging (u : Nat) (f : Fld) : (s.event u f).staging = s.staging := by unfold State.event; simp
@[simp] theorem State.event_image (u : Nat) (f : Fld) : (s.event u f).image = s.image := by unfold State.event; simp
@[simp] theorem State.event_bootDis (u : Nat) (f : Fld) : (s.event u f).bootDis = s.bootDis := by unfold State.event; simp
@[simp] theorem State.event_hol (u : Nat) (f : Fld) : (s.event u f).hol = s.hol := by unfold State.event; simp
@[simp] theorem State.event_trace (u : Nat) (f : Fld) : (s.event u f).trace = s.trace := by unfold State.event; simp
@[simp] theorem State.event_rtr (u : Nat) (f : Fld) : (s.event u f).rtr = s.rtr := by unfold State.event; simp
@[simp] theorem State.event_ports (u : Nat) (f : Fld) : (s.event u f).ports = s.ports := by unfold State.event; simp
@[simp] theorem State.event_dlinks (u : Nat) (f : Fld) : (s.event u f).dlinks = s.dlinks := by unfold State.event; simp
@[simp] theorem State.event_arbs (u : Nat) (f : Fld) : (s.event u f).arbs = s.arbs := by unfold State.event; simp
@[simp] theorem State.event_pwr (u : Nat) (f : Fld) : (s.event u f).pwr = s.pwr := by unfold State.event; simp
@[simp] theorem State.event_chron (u : Nat) (f : Fld) : (s.event u f).chron = s.chron := by unfold State.event; simp
@[simp] theorem State.event_mbx (u : Nat) (f : Fld) : (s.event u f).mbx = s.mbx := by unfold State.event; simp
@[simp] theorem State.event_flt (u : Nat) (f : Fld) : (s.event u f).flt = s.flt := by unfold State.event; simp
@[simp] theorem State.event_boot (u : Nat) (f : Fld) : (s.event u f).boot = s.boot := by unfold State.event; simp
@[simp] theorem State.event_lease (u : Nat) (f : Fld) : (s.event u f).lease = s.lease := by unfold State.event; simp
@[simp] theorem State.event_live (u : Nat) (f : Fld) : (s.event u f).live = s.live := by unfold State.event; simp
@[simp] theorem State.event_eng (u : Nat) (f : Fld) : (s.event u f).eng = s.eng := by unfold State.event; simp
@[simp] theorem State.event_diary (u : Nat) (f : Fld) : (s.event u f).diary = s.diary := by unfold State.event; simp

end Sys2Proof.Machine
end

