-- ==== Sys2Proof/Laws/Ops.lean ====
section
/-! SUPPORT. What the named operations do: outcomes, register words and their fields, counters, units by number, outputs. -/
namespace Sys2Proof.Machine

/-! ## Outcomes -/

/-- A command's outcome is always a next state with the queue and the identity of the state it began in. -/
theorem done_eq (s t : State) : done s t = .next { t with pending := s.pending, pkg := s.pkg } := rfl

/-- A command of a unit that is there answers a next state. -/
theorem onUnit_true {ok : Bool} (s t : State) (h : ok = true) : onUnit ok s t = done s t := by simp [onUnit, h]

/-- A command of a unit either is done, or leaves the state as it was because the unit is not there. -/
theorem onUnit_cases (ok : Bool) (s t : State) : onUnit ok s t = done s t ∨ onUnit ok s t = done s s := by
  cases ok <;> simp [onUnit]

/-- A command of a unit that is not there has no effect (R3). -/
theorem onUnit_false {ok : Bool} (s t : State) (h : ok = false) : onUnit ok s t = .next s := by simp [onUnit, h, done]

/-! ## Register words -/

theorem getBits_lt (w : W32) (hi lo : Nat) : getBits w hi lo < 2 ^ (hi - lo + 1) := Nat.mod_lt _ (by positivity)

theorem bitMask_getLsbD (hi lo i : Nat) (hi32 : hi < 32) (hl : lo ≤ hi) :
    (bitMask hi lo).getLsbD i = (decide (lo ≤ i) && decide (i ≤ hi)) := by
  unfold bitMask
  rw [BitVec.getLsbD_ofNat, Nat.testBit_shiftLeft, Nat.testBit_two_pow_sub_one]
  by_cases h1 : lo ≤ i <;> by_cases h2 : i ≤ hi <;> simp [h1, h2] <;> omega

theorem setBits_getLsbD (w : W32) (hi lo v i : Nat) (hi32 : hi < 32) (hl : lo ≤ hi) :
    (setBits w hi lo v).getLsbD i = if lo ≤ i ∧ i ≤ hi then v.testBit (i - lo) else w.getLsbD i := by
  unfold setBits
  rw [BitVec.getLsbD_or, BitVec.getLsbD_and, BitVec.getLsbD_and, BitVec.getLsbD_not, bitMask_getLsbD hi lo i hi32 hl,
    BitVec.getLsbD_ofNat, Nat.testBit_shiftLeft]
  by_cases h32 : i < 32
  · by_cases h1 : lo ≤ i <;> by_cases h2 : i ≤ hi <;> simp [h1, h2, h32]
  · have : ¬ (lo ≤ i ∧ i ≤ hi) := by omega
    simp [h32, this, BitVec.getLsbD_of_ge w i (by omega)]

/-- A field reads as what was written to it, cut to its width. -/
theorem getBits_setBits (w : W32) (hi lo v : Nat) (hi32 : hi < 32) (hl : lo ≤ hi) :
    getBits (setBits w hi lo v) hi lo = v % 2 ^ (hi - lo + 1) := by
  apply Nat.eq_of_testBit_eq
  intro i
  unfold getBits
  rw [Nat.testBit_mod_two_pow, Nat.testBit_mod_two_pow, Nat.testBit_shiftRight]
  by_cases h : i < hi - lo + 1
  · have := setBits_getLsbD w hi lo v (lo + i) hi32 hl
    have h' : lo ≤ lo + i ∧ lo + i ≤ hi := by omega
    rw [if_pos h'] at this
    simp only [h, decide_true, Bool.true_and]
    rw [← BitVec.getLsbD, this]; congr 1; omega
  · simp [h]

/-- Writing a field leaves the fields beside it. -/
theorem getBits_setBits_ne (w : W32) (hi lo v hi' lo' : Nat) (hi32 : hi < 32) (hl : lo ≤ hi) (hd : hi' < lo ∨ hi < lo') (hl' : lo' ≤ hi') :
    getBits (setBits w hi lo v) hi' lo' = getBits w hi' lo' := by
  apply Nat.eq_of_testBit_eq
  intro i
  unfold getBits
  rw [Nat.testBit_mod_two_pow, Nat.testBit_mod_two_pow, Nat.testBit_shiftRight, Nat.testBit_shiftRight]
  by_cases h : i < hi' - lo' + 1
  · have := setBits_getLsbD w hi lo v (lo' + i) hi32 hl
    have h' : ¬ (lo ≤ lo' + i ∧ lo' + i ≤ hi) := by omega
    rw [if_neg h'] at this
    simp only [h, decide_true, Bool.true_and]
    exact this
  · simp [h]

/-! ## Registers -/

@[simp] theorem reg_setReg_self (s : State) (u off : Nat) (v : W32) : (s.setReg u off v).reg u off = v := by
  simp [State.reg, State.setReg, kfind_kput_self]

theorem reg_setReg_ne (s : State) {u off u' off' : Nat} (v : W32)
    (h : regAddr (homeUnit s.pkg u') off' ≠ regAddr (homeUnit s.pkg u) off) : (s.setReg u off v).reg u' off' = s.reg u' off' := by
  have := kget_kput_ne (coldOf s.pkg (homeUnit s.pkg u) off) s.regs v h
  unfold State.reg State.setReg
  simp only [kput]
  split
  · rw [kfind_kdel_ne _ h]
  · rw [kfind_kins_ne _ _ h]

/-- Another register of the same unit keeps its word. -/
theorem reg_setReg_off (s : State) {u off off' : Nat} (v : W32) (h : off' ≠ off) : (s.setReg u off v).reg u off' = s.reg u off' :=
  reg_setReg_ne s v (by unfold regAddr; omega)

@[simp] theorem reg_setFld_self (s : State) (u : Nat) (f : Fld) (v : Nat) :
    (s.setFld u f v).reg u f.off = setBits (s.reg u f.off) f.hi f.lo v := by simp [State.setFld]

/-- A field reads as what was written to it. -/
theorem fld_setFld_self (s : State) (u : Nat) (f : Fld) (v : Nat) (h : f.hi < 32) (hl : f.lo ≤ f.hi) :
    (s.setFld u f v).fld u f = v % 2 ^ (f.hi - f.lo + 1) := by
  simp [State.fld, getBits_setBits _ _ _ _ h hl]

theorem fld_setFld_off (s : State) (u : Nat) (f g : Fld) (v : Nat) (h : g.off ≠ f.off) : (s.setFld u f v).fld u g = s.fld u g := by
  simp [State.fld, State.setFld, reg_setReg_off _ _ h]

/-- A field of the same register beside the one written keeps its value. -/
theorem fld_setFld_beside (s : State) (u : Nat) (f g : Fld) (v : Nat) (ho : g.off = f.off) (h : f.hi < 32) (hl : f.lo ≤ f.hi)
    (hd : g.hi < f.lo ∨ f.hi < g.lo) (hg : g.lo ≤ g.hi) : (s.setFld u f v).fld u g = s.fld u g := by
  simp [State.fld, ho, getBits_setBits_ne _ _ _ _ _ _ h hl hd hg]

theorem fldAt_setFldAt_self (s : State) (u : Nat) (f : Fld) (i v : Nat) (h : f.hi < 32) (hl : f.lo ≤ f.hi) :
    (s.setFldAt u f i v).fldAt u f i = v % 2 ^ (f.hi - f.lo + 1) := by
  simp [State.fldAt, State.setFldAt, getBits_setBits _ _ _ _ h hl]

/-! ## What does not touch the registers -/

@[simp] theorem reg_emit (s : State) (o : Out) (u off : Nat) : (s.emit o).reg u off = s.reg u off := rfl
@[simp] theorem fld_emit (s : State) (o : Out) (u : Nat) (f : Fld) : (s.emit o).fld u f = s.fld u f := rfl
@[simp] theorem reg_setNi (s : State) (st : Nat) (n : Ni) (u off : Nat) : (s.setNi st n).reg u off = s.reg u off := rfl
@[simp] theorem reg_updNi (s : State) (st : Nat) (f : Ni → Ni) (u off : Nat) : (s.updNi st f).reg u off = s.reg u off := rfl
@[simp] theorem reg_setCtr (s : State) (u off : Nat) (v : W48) (u' off' : Nat) : (s.setCtr u off v).reg u' off' = s.reg u' off' := rfl
@[simp] theorem reg_count (s : State) (u off n : Nat) (u' off' : Nat) : (s.count u off n).reg u' off' = s.reg u' off' := rfl
@[simp] theorem reg_interrupt (s : State) (a b u off : Nat) : (s.interrupt a b).reg u off = s.reg u off := by
  unfold State.reg; simp

/-- An event bit is set in its register. -/
@[simp] theorem reg_eventBit_self (s : State) (u off b : Nat) : (s.eventBit u off b).reg u off = setBits (s.reg u off) b b 1 := by
  unfold State.eventBit; dsimp only; split <;> simp

theorem reg_eventBit_off (s : State) {u off off' : Nat} (b : Nat) (h : off' ≠ off) : (s.eventBit u off b).reg u off' = s.reg u off' := by
  unfold State.eventBit; dsimp only; split <;> simp [reg_setReg_off _ _ h]

/-- An event field reads 1 once its event is set. -/
theorem fld_event_self (s : State) (u : Nat) (f : Fld) (h : f.hi = f.lo) (h32 : f.lo < 32) : (s.event u f).fld u f = 1 := by
  simp [State.event, State.fld, h, getBits_setBits _ _ _ _ h32 (Nat.le_refl _)]

/-! ## Counters -/

@[simp] theorem ctrAt_setCtr_self (s : State) (u off : Nat) (v : W48) : (s.setCtr u off v).ctrAt u off = v := by
  simp [State.ctrAt, State.setCtr]

theorem ctrAt_setCtr_ne (s : State) {u off u' off' : Nat} (v : W48)
    (h : regAddr (homeUnit s.pkg u') off' ≠ regAddr (homeUnit s.pkg u) off) : (s.setCtr u off v).ctrAt u' off' = s.ctrAt u' off' := by
  simp [State.ctrAt, State.setCtr, kget_kput_ne _ _ _ h]

/-- Counting adds, and saturates at 2^48 - 1. -/
@[simp] theorem ctrAt_count_self (s : State) (u off n : Nat) : (s.count u off n).ctrAt u off = satAdd48 (s.ctrAt u off) n := by
  simp [State.count]

theorem satAdd48_toNat (v : W48) (n : Nat) : (satAdd48 v n).toNat = min (v.toNat + n) (2 ^ 48 - 1) := by
  unfold satAdd48
  rw [BitVec.toNat_ofNat, Nat.mod_eq_of_lt]
  have : min (v.toNat + n) (2 ^ 48 - 1) ≤ 2 ^ 48 - 1 := Nat.min_le_right _ _
  omega

/-! ## Units by number -/

@[simp] theorem getNi_setNi_self (s : State) (st : Nat) (n : Ni) : (s.setNi st n).getNi st = n := by
  simp [State.getNi, State.setNi]

theorem getNi_setNi_ne (s : State) {st j : Nat} (n : Ni) (h : j ≠ st) : (s.setNi st n).getNi j = s.getNi j := by
  simp [State.getNi, State.setNi, kget_kput_ne _ _ _ h]

@[simp] theorem getNi_updNi_self (s : State) (st : Nat) (f : Ni → Ni) : (s.updNi st f).getNi st = f (s.getNi st) := by
  simp [State.updNi]

theorem getNi_updNi_ne (s : State) {st j : Nat} (f : Ni → Ni) (h : j ≠ st) : (s.updNi st f).getNi j = s.getNi j := by
  simp [State.updNi, getNi_setNi_ne _ _ h]

@[simp] theorem getPool_setPool_self (s : State) (die : Nat) (p : Pool) : (s.setPool die p).getPool die = p := by
  simp [State.getPool, State.setPool]

@[simp] theorem island_setIsland_self (s : State) (die inst : Nat) (i : Isl) : (s.setIsland die inst i).island die inst = i := by
  simp [State.island, State.setIsland]

theorem island_setIsland_ne (s : State) {die inst d k : Nat} (i : Isl) (h : islKey d k ≠ islKey die inst) :
    (s.setIsland die inst i).island d k = s.island d k := by
  simp [State.island, State.setIsland, kget_kput_ne _ _ _ h]

@[simp] theorem getNi_emit (s : State) (o : Out) (st : Nat) : (s.emit o).getNi st = s.getNi st := rfl
@[simp] theorem getNi_setReg (s : State) (u off : Nat) (v : W32) (st : Nat) : (s.setReg u off v).getNi st = s.getNi st := rfl
@[simp] theorem getNi_setFld (s : State) (u : Nat) (f : Fld) (v : Nat) (st : Nat) : (s.setFld u f v).getNi st = s.getNi st := rfl
@[simp] theorem getNi_setFldAt (s : State) (u : Nat) (f : Fld) (i v : Nat) (st : Nat) : (s.setFldAt u f i v).getNi st = s.getNi st := rfl
@[simp] theorem getNi_count (s : State) (u off n st : Nat) : (s.count u off n).getNi st = s.getNi st := rfl
@[simp] theorem getNi_takeFree (s : State) (st : Nat) : s.takeFree.2.getNi st = s.getNi st := rfl

/-! ## Outputs -/

@[simp] theorem out_emit (s : State) (o : Out) : (s.emit o).out = o :: s.out := rfl

end Sys2Proof.Machine
end

