-- ==== Sys2Proof/Laws/Ni.lean ====
section
/-! SUPPORT. What a network interface does: going on with its descriptors, completions, reads and writes toward the station, and the
shape of its commands. -/
namespace Sys2Proof.Machine

/-- No descriptor waits at an NI. -/
def Ni.quiet (n : Ni) : Prop := n.cmdq = [] ∧ n.cmdWait = [] ∧ n.collWait = [] ∧ n.yellowWait = []

theorem niQuiet_iff (s : State) (st : Nat) : niQuiet s st = true ↔ (s.getNi st).quiet := by
  simp [niQuiet, Ni.quiet, and_assoc]

/-- An NI at which no descriptor waits goes on with nothing. -/
theorem service_quiet (t : State) (st : Nat) (h : (t.getNi st).quiet) : t.service st = t := by
  obtain ⟨h1, h2, h3, h4⟩ := h
  unfold State.service
  split
  · rfl
  · have hr : t.collRetry st = t := by unfold State.collRetry; simp [h3]
    simp only [h4, yellowServe, hr, h1, serviceQ, h2, serviceCmd]

/-- The parts that an NI command reaches. -/
def niParts (s t : State) : State :=
  { s with ni := t.ni, pools := t.pools, regs := t.regs, ctrs := t.ctrs, out := t.out, irqHeld := t.irqHeld, freeCtr := t.freeCtr, eng := t.eng,
           pwr := t.pwr }

@[simp] theorem niParts_getNi (s t : State) (j : Nat) : (niParts s t).getNi j = t.getNi j := rfl
@[simp] theorem niParts_getPool (s t : State) (j : Nat) : (niParts s t).getPool j = t.getPool j := rfl
@[simp] theorem niParts_out (s t : State) : (niParts s t).out = t.out := rfl

/-- An NI command is done where no descriptor waits after it. -/
theorem onNi_quiet (s t : State) (st : Nat) (hs : niThere s st = true) (h : (t.getNi st).quiet) :
    onNi s st t = .next (niParts s t) := by
  have hs' : s.stationOn st = true := hs
  simp only [onNi, service_quiet t st h, onUnit, hs', if_true, done, niParts]

theorem niFree_iff (s : State) (st : Nat) : niFree s st = true ↔ niThere s st = true ∧ s.niStopped st = false ∧ (s.getNi st).quiet := by
  simp [niFree, niQuiet_iff, and_assoc]

theorem onNiRun_quiet (s t : State) (st : Nat) (hs : niFree s st = true) (h : (t.getNi st).quiet) :
    onNiRun s st t = .next (niParts s t) := by
  obtain ⟨h1, h2, -⟩ := (niFree_iff s st).mp hs
  simpa [onNiRun, h2] using onNi_quiet s t st h1 h

theorem onNiHold_quiet (s t : State) (st : Nat) (c : Instr) (hs : niFree s st = true) (h : (t.getNi st).quiet) :
    onNiHold s st c t = .next (niParts s t) := by
  obtain ⟨h1, h2, -⟩ := (niFree_iff s st).mp hs
  simpa [onNiHold, h2] using onNi_quiet s t st h1 h

/-- Taking nothing off an empty port. -/
theorem Ni.no_cmdWait (n : Ni) (h : n.cmdWait = []) : { n with cmdWait := [] } = n := by
  cases n; cases h; rfl

/-- An NI goes on with one descriptor that it may take and start. -/
theorem service_one (a : State) (st : Nat) (d : Desc) (hfz : a.niStopped st = false) (hy : (a.getNi st).yellowWait = []) (hw : (a.getNi st).collWait = [])
    (hq : (a.getNi st).cmdq = []) (hc : (a.getNi st).cmdWait = [d]) (hcm : a.cmdReady st d = true) :
    a.service st = (a.updNi st (fun n => { n with cmdWait := [] })).takeDesc st d := by
  have hcr : a.collRetry st = a := by simp [State.collRetry, hw]
  unfold State.service
  simp only [hfz, hy, yellowServe, Bool.false_eq_true, if_false]
  rw [hcr, hq]
  simp only [serviceQ]
  rw [hc]
  simp only [serviceCmd, hcm, if_true]

/-- A descriptor that a free NI takes at once starts on the state as it was. -/
theorem submit_taken (s : State) (st : Nat) (d : Desc) (h : descTaken s st d) :
    ∃ b : State, (b = { s with ni := b.ni }) ∧ (∀ j, b.getNi j = s.getNi j) ∧ s.submit st d = b.startDesc st d (b.stFt st) := by
  obtain ⟨hf, hr, ht, hl⟩ := h
  obtain ⟨h1, h2, hq1, hq2, hq3, hq4⟩ := (niFree_iff s st).mp hf
  generalize ha : s.updNi st (fun n => { n with cmdWait := n.cmdWait ++ [d] }) = a
  have hg : a.getNi st = { s.getNi st with cmdWait := [d] } := by rw [← ha, getNi_updNi_self, hq2]; rfl
  have hsa : a = { s with ni := a.ni } := by rw [← ha]; rfl
  have hne : ∀ j, j ≠ st → a.getNi j = s.getNi j := fun j hj => by rw [← ha, getNi_updNi_ne _ _ hj]
  have hs : s.submit st d = a.service st := by rw [← ha]; rfl
  clear ha
  have hcm : a.cmdReady st d = true := by
    rw [← hr]; unfold State.cmdReady
    rw [hg, hsa]; rfl
  rw [hs, service_one a st d (by rw [hsa]; exact h2) (by rw [hg]; exact hq4) (by rw [hg]; exact hq3) (by rw [hg]; exact hq1) (by rw [hg]) hcm]
  generalize hb : a.updNi st (fun n => { n with cmdWait := [] }) = b
  have hgb : b.getNi st = s.getNi st := by
    rw [← hb, getNi_updNi_self, hg]
    exact Ni.no_cmdWait (s.getNi st) hq2
  refine ⟨b, by rw [← hb, hsa]; rfl, fun j => ?_, ?_⟩
  · by_cases hj : j = st
    · rw [hj, hgb]
    · rw [← hb, getNi_updNi_ne _ _ hj, hne j hj]
  · unfold State.takeDesc
    have hms : (b.getNi st).mayStart d = true := by
      rw [hgb]; unfold Ni.mayStart
      cases hd : dFence d
      · rfl
      · simp [hl hd]
    have hbq : (b.getNi st).cmdq = [] := by rw [hgb]; exact hq1
    simp only [ht, Bool.false_eq_true, if_false, hms, hbq, List.isEmpty_nil, Bool.true_and, if_true]

/-- A descriptor that a free NI takes at once starts with one more descriptor live at it. -/
theorem submit_live (s : State) (st : Nat) (d : Desc) (h : descTaken s st d) :
    ∃ u, liveOne s u st ∧ s.submit st d = (if opCollective (dOp d) then u.startCollective st d (u.stFt st) else match u.descFails st d with
      | some c => u.completeNoPeer st d c 0
      | none =>
        let op := dOp d
        if op == 0 then (u.updNi st (fun n => n.localCtr d)).completeNoPeer st d stOk 0
        else if op == 6 then (u.completeNoPeer st d stOk 0).updNi st (fun n => n.bump (dLocalCtr d) (dw d 10).toNat)
        else if op == 7 then (u.completeNoPeer st d stOk 0).updNi st (fun n => n.setTo (dLocalCtr d) (d.extractLsb' 320 48))
        else if op == 8 then u.streamPut st d
        else u.translate st d) := by
  obtain ⟨b, hb, hg, hs⟩ := submit_taken s st d h
  refine ⟨b.updNi st (fun n => { n with live := n.live + 1 }), ⟨?_, ?_, ?_⟩, ?_⟩
  · rw [hb]; rfl
  · rw [getNi_updNi_self, hg]
  · intro j hj; rw [getNi_updNi_ne _ _ hj, hg]
  · rw [hs]; rfl

/-- The checks of a descriptor read no count of live descriptors. -/
theorem live_descFails (s u : State) (st : Nat) (d : Desc) (h : liveOne s u st) : u.descFails st d = s.descFails st d := by
  obtain ⟨h1, h2, -⟩ := h
  unfold State.descFails State.keyBad State.fencedAt
  rw [h2, h1]; rfl

/-! ## Completions keep what waits -/

@[simp] theorem Ni.setCounter_wait (n : Ni) (c : Nat) (v : W48) : (n.setCounter c v).cmdq = n.cmdq ∧ (n.setCounter c v).cmdWait = n.cmdWait ∧
    (n.setCounter c v).collWait = n.collWait ∧ (n.setCounter c v).yellowWait = n.yellowWait := by
  unfold Ni.setCounter; split <;> exact ⟨rfl, rfl, rfl, rfl⟩

@[simp] theorem Ni.bump_wait (n : Ni) (c k : Nat) : (n.bump c k).cmdq = n.cmdq ∧ (n.bump c k).cmdWait = n.cmdWait ∧
    (n.bump c k).collWait = n.collWait ∧ (n.bump c k).yellowWait = n.yellowWait := by
  unfold Ni.bump; split
  · exact ⟨rfl, rfl, rfl, rfl⟩
  · exact Ni.setCounter_wait n c _

theorem Ni.arrive_wait (n : Ni) (d : Due) : (n.arrive d).cmdq = n.cmdq ∧ (n.arrive d).cmdWait = n.cmdWait ∧
    (n.arrive d).collWait = n.collWait ∧ (n.arrive d).yellowWait = n.yellowWait := by
  unfold Ni.arrive
  cases d.record <;> cases d.ends <;> cases d.ctr <;> simp

theorem drainDue_wait (ds : List Due) (n : Ni) : (drainDue ds n).cmdq = n.cmdq ∧ (drainDue ds n).cmdWait = n.cmdWait ∧
    (drainDue ds n).collWait = n.collWait ∧ (drainDue ds n).yellowWait = n.yellowWait := by
  induction ds generalizing n with
  | nil => exact ⟨rfl, rfl, rfl, rfl⟩
  | cons d ds ih =>
    unfold drainDue; split
    · exact ⟨rfl, rfl, rfl, rfl⟩
    · have h := ih (n.arrive d)
      have h' := Ni.arrive_wait n d
      exact ⟨h.1.trans h'.1, h.2.1.trans h'.2.1, h.2.2.1.trans h'.2.2.1, h.2.2.2.trans h'.2.2.2⟩

/-- A completion leaves what waits at the NI. -/
theorem Ni.complete_quiet (n : Ni) (d : Desc) (c : Nat) (q : BitVec 24) (x : Nat) (p : W16) : (n.complete d c q x p).quiet ↔ n.quiet := by
  unfold Ni.complete Ni.addDue Ni.quiet
  obtain ⟨h1, h2, h3, h4⟩ := drainDue_wait (n.due ++ [dueOf d c q x p]) n
  rw [h1, h2, h3, h4]

theorem Ni.bump_quiet (n : Ni) (c k : Nat) : (n.bump c k).quiet ↔ n.quiet := by
  unfold Ni.quiet; obtain ⟨h1, h2, h3, h4⟩ := Ni.bump_wait n c k; rw [h1, h2, h3, h4]

theorem Ni.setCounter_quiet (n : Ni) (c : Nat) (v : W48) : (n.setCounter c v).quiet ↔ n.quiet := by
  unfold Ni.quiet; obtain ⟨h1, h2, h3, h4⟩ := Ni.setCounter_wait n c v; rw [h1, h2, h3, h4]

/-! ## Reads and writes toward the station, arriving frames -/

/-- A read takes the lowest free read id. -/
theorem niRd_some (s : State) (st id : Nat) (a : FT) (l : Nat) (w : RdFor) (h : kfree (s.getNi st).rd 256 = some id) :
    s.niRd st a l w = (s.setNi st { s.getNi st with rd := kins (s.getNi st).rd id w }).emit (.niRead st id a l) := by
  unfold State.niRd; simp only [h]

/-- A write takes the lowest free write id. -/
theorem niWr_some (s : State) (st id : Nat) (a : FT) (l : List Byte) (p : Marks) (w : WrFor) (h : kfree (s.getNi st).wr 256 = some id) :
    s.niWr st a l p w = (s.setNi st { s.getNi st with wr := kins (s.getNi st).wr id w }).emit (.niWrite st id (niBeats a l p)) := by
  unfold State.niWr; simp only [h]

/-- A frame that passes the checks of R408 acts. -/
theorem checked_none (s : State) (st : Nat) (f : Frame) (w : Bool) (act : State → State) (h : s.destChecks st f w = none) :
    s.checked st f w act = act s := by
  unfold State.checked; rw [h]

/-- The transaction that a response answers is outstanding. -/
theorem answered_txn (s : State) (st : Nat) (f : Frame) (x : Txn) (h : s.answered st f = some x) :
    kfind (s.getNi st).txn f.txn.toNat = some x := by
  unfold State.answered at h
  split at h
  · exact absurd h (by simp)
  · split at h
    · simp_all
    · exact absurd h (by simp)

/-- A response that answers a transaction restarts its Vigil and acts. -/
theorem response_some (s : State) (st : Nat) (f : Frame) (x : Txn) (act : Txn → State → State) (h : s.destChecks st f true = none)
    (ha : s.answered st f = some x) : s.response st f act =
      act x (s.updNi st (fun n => n.updTxn f.txn.toNat (fun t => { t with vigil := some (s.stFt st), lastQ := f.qdelay }))) := by
  unfold State.response; rw [checked_none _ _ _ _ _ h, ha]

@[simp] theorem updTxn_parts (n : Ni) (t : Nat) (f : Txn → Txn) : (n.updTxn t f).cmdq = n.cmdq ∧ (n.updTxn t f).cmdWait = n.cmdWait ∧
    (n.updTxn t f).collWait = n.collWait ∧ (n.updTxn t f).yellowWait = n.yellowWait ∧ (n.updTxn t f).rd = n.rd ∧ (n.updTxn t f).wr = n.wr := by
  unfold Ni.updTxn; split <;> simp

/-- A sequence gap changes no NI and puts nothing on the boundary. -/
theorem streamGap_parts (s : State) (st : Nat) (b : Bool) : (s.streamGap st b).getNi st = s.getNi st ∧ (s.streamGap st b).out = s.out := by
  unfold State.streamGap; split <;> simp [State.mark]

/-- A command of an NI that is up. -/
theorem onNi_up (s t : State) (st : Nat) (h : niThere s st = true) : onNi s st t = .next (niAfter s t st) := by
  have h' : s.stationOn st = true := h
  unfold onNi onUnit; dsimp only; rw [h']; rfl

theorem onNiHold_up (s t : State) (st : Nat) (c : Instr) (h : niUp s st = true) : onNiHold s st c t = .next (niAfter s t st) := by
  have h1 : niThere s st = true ∧ s.niStopped st = false := by simpa [niUp] using h
  simp only [onNiHold, h1.2, Bool.false_eq_true, if_false, onNi_up s t st h1.1]

theorem onNiRun_up (s t : State) (st : Nat) (h : niUp s st = true) : onNiRun s st t = .next (niAfter s t st) := by
  have h1 : niThere s st = true ∧ s.niStopped st = false := by simpa [niUp] using h
  simp only [onNiRun, h1.2, Bool.false_eq_true, if_false, onNi_up s t st h1.1]

/-! ## The words of a descriptor -/

/-- The opcode mask. -/
theorem mask255 (i : Nat) : (0xFF#512 : Desc).getLsbD i = decide (i < 8) := by
  rw [BitVec.getLsbD_ofNat]
  have : (255 : Nat) = 2 ^ 8 - 1 := rfl
  rw [this, Nat.testBit_two_pow_sub_one]
  by_cases h : i < 8
  · simp [h]; omega
  · simp [h]

/-- The opcode of a row is the opcode of its descriptor. -/
theorem dOp_withOpcode (d : Desc) (op : Nat) (h : op < 256) : dOp (withOpcode d op) = op := by
  apply Nat.eq_of_testBit_eq
  intro i
  unfold dOp getBits dw withOpcode
  rw [Nat.testBit_mod_two_pow, Nat.testBit_shiftRight, ← BitVec.getLsbD, BitVec.getLsbD_extractLsb', BitVec.getLsbD_or, BitVec.getLsbD_and,
    BitVec.getLsbD_not, mask255, BitVec.getLsbD_ofNat]
  by_cases hi : i < 8
  · have h1 : i < 512 := by omega
    have h2 : i < 32 := by omega
    simp [hi, h1, h2, Nat.mod_eq_of_lt h]
  · have : op.testBit i = false := Nat.testBit_lt_two_pow (lt_of_lt_of_le h (by
      have : (256 : Nat) = 2 ^ 8 := rfl
      rw [this]; exact Nat.pow_le_pow_right (by omega) (by omega)))
    simp [this]; omega

end Sys2Proof.Machine
end

