-- ==== Sys2Proof/Laws/Pcs.lean ====
section
/-! SUPPORT. Laws of the coding of the Ewelyn link: leading zeros of a received word do not count, a word of zeros decodes to itself, a locator longer than 15
fails the word, and a signed frame's CRC is correct. -/
namespace Sys2Proof.Machine

@[simp] theorem gfMul_zero (b : Nat) : gfMul 0 b = 0 := by
  simp [gfMul, List.range, List.range.loop]

theorem gfEval_zeros (n x : Nat) (l : List Nat) : gfEval (List.replicate n 0 ++ l) x = gfEval l x := by
  induction n with
  | zero => rfl
  | succ n ih => simpa [gfEval, List.replicate_succ] using ih

theorem rsSyndromes_zeros (n : Nat) (l : List Nat) : rsSyndromes (List.replicate n 0 ++ l) = rsSyndromes l := by
  simp only [rsSyndromes, gfEval_zeros]

theorem rsDecode_zeros (n : Nat) : rsDecode (List.replicate n 0) = some (List.replicate n 0) := by
  have h : rsSyndromes (List.replicate n 0) = List.replicate 30 0 := by
    rw [← List.append_nil (List.replicate n 0), rsSyndromes_zeros]; decide
  unfold rsDecode
  rw [h]; rfl

/-- A word whose error locator has length 16 is beyond the 15 symbols that the code corrects. -/
theorem rsDecode_beyond (r : List Nat) (h : ((List.range 30).foldl (Locator.next (rsSyndromes r)) {}).len = 16)
    (hs : (rsSyndromes r).all (· == 0) = false) : rsDecode r = none := by
  unfold rsDecode
  simp only [hs, h]
  rfl

@[simp] theorem frameCrcOk_signFrame (lf : LinkFrame) : frameCrcOk (signFrame lf) = true :=
  beq_self_eq_true (frameCrc lf)

end Sys2Proof.Machine
end

