-- ==== Sys2Proof/Laws/PerInstr.lean ====
section
/-! SUPPORT. The family OperandUnits: a well-formed command names a unit whose numbers lie within those that the manual gives. -/
namespace Sys2Proof.Laws.OperandUnits
open Sys2Proof

/-- Whether the numbers of what a command names lie within the ones that the manual gives (R13, R25, R26, R32, R35, R352, R388). -/
def inRange : Site → Bool
  | .package => true
  | .ni st => okSt st
  | .station st => okSt st
  | .pool d => okDie d
  | .port q => okPort q
  | .crossing d n => okDie d && decide (n < 32)
  | .crossingEnd d n => okDie d && decide (n < 32)
  | .router i => okIsl i
  | .island i => okIsl i
  | .arbiter a => okArb a
  | .die d => okDie d
  | .beacon d u => okDie d && okUnit u
  | .sram u k => okUnit u && decide (k < 64)
  | .side k => okSide k
  | .voter v => decide (v < 4)
  | .vote v k => decide (v < 4) && okSide k

/-- What the family states of a command. -/
def Statement (i : Instr) : Prop := i.wellFormed = true → inRange i.site = true

theorem left_of {a b : Bool} (h : (a && b) = true) : a = true := by cases a <;> simp_all

theorem registerWrite (core : Nat) (tag : Nat) (epoch : Nat) (addr : W32) (data : W32) : Statement (.registerWrite core tag epoch addr data) := fun h => left_of h
theorem treeTimeout (tag : Nat) (addr : W32) (write : Bool) (atRoot : Bool) : Statement (.treeTimeout tag addr write atRoot) := fun _ => rfl
theorem counterLoRead (addr : W32) : Statement (.counterLoRead addr) := fun _ => rfl
theorem counterHiRead (addr : W32) : Statement (.counterHiRead addr) := fun _ => rfl
theorem timeNowLoRead (side : Nat) : Statement (.timeNowLoRead side) := fun h => h
theorem pairLoWrite (addr : W32) (data : W32) : Statement (.pairLoWrite addr data) := fun _ => rfl
theorem pairHiWrite (addr : W32) (data : W32) : Statement (.pairHiWrite addr data) := fun _ => rfl
theorem counterClear (addr : W32) (data : W32) (coincident : W32) : Statement (.counterClear addr data coincident) := fun _ => rfl
theorem opNop (st : Nat) (d : Desc) : Statement (.opNop st d) := fun h => h
theorem opPut (st : Nat) (d : Desc) : Statement (.opPut st d) := fun h => h
theorem opGet (st : Nat) (d : Desc) : Statement (.opGet st d) := fun h => h
theorem opIndexedRead (st : Nat) (d : Desc) : Statement (.opIndexedRead st d) := fun h => h
theorem opMessage (st : Nat) (d : Desc) : Statement (.opMessage st d) := fun h => h
theorem opAtomic (st : Nat) (d : Desc) : Statement (.opAtomic st d) := fun h => h
theorem opCounterAdd (st : Nat) (d : Desc) : Statement (.opCounterAdd st d) := fun h => h
theorem opCounterSet (st : Nat) (d : Desc) : Statement (.opCounterSet st d) := fun h => h
theorem opStreamPut (st : Nat) (d : Desc) : Statement (.opStreamPut st d) := fun h => h
theorem descriptorTriggerStore (st : Nat) (d : Desc) : Statement (.descriptorTriggerStore st d) := fun h => h
theorem triggerFire (st : Nat) (slot : Nat) : Statement (.triggerFire st slot) := fun h => left_of h
theorem xlatMissFetchDone (st : Nat) (pkgEntry : W32) (stnEntry : W16) : Statement (.xlatMissFetchDone st pkgEntry stnEntry) := fun h => h
theorem niXlatFlush (st : Nat) : Statement (.niXlatFlush st) := fun h => h
theorem niTrigClearAll (st : Nat) : Statement (.niTrigClearAll st) := fun h => h
theorem writeDone (st : Nat) (id : Nat) : Statement (.writeDone st id) := fun h => left_of h
theorem completionRecordTaken (st : Nat) : Statement (.completionRecordTaken st) := fun h => h
theorem eventNoticeTaken (st : Nat) (ctr : Nat) : Statement (.eventNoticeTaken st ctr) := fun h => left_of h
theorem readDataReturn (st : Nat) (id : Nat) (data : List Byte) (bad : List Nat) : Statement (.readDataReturn st id data bad) := fun h => left_of h
theorem writeRsvReceive (st : Nat) (f : Frame) : Statement (.writeRsvReceive st f) := fun h => h
theorem writeDataReceive (st : Nat) (f : Frame) : Statement (.writeDataReceive st f) := fun h => h
theorem readReqReceive (st : Nat) (f : Frame) : Statement (.readReqReceive st f) := fun h => h
theorem idxReadReqReceive (st : Nat) (f : Frame) : Statement (.idxReadReqReceive st f) := fun h => h
theorem messageReceive (st : Nat) (f : Frame) : Statement (.messageReceive st f) := fun h => h
theorem atomicReceive (st : Nat) (f : Frame) : Statement (.atomicReceive st f) := fun h => h
theorem streamDataReceive (st : Nat) (f : Frame) : Statement (.streamDataReceive st f) := fun h => h
theorem grantReceive (st : Nat) (f : Frame) : Statement (.grantReceive st f) := fun h => h
theorem ackReceive (st : Nat) (f : Frame) : Statement (.ackReceive st f) := fun h => h
theorem readDataReceive (st : Nat) (f : Frame) : Statement (.readDataReceive st f) := fun h => h
theorem idxReadDataReceive (st : Nat) (f : Frame) : Statement (.idxReadDataReceive st f) := fun h => h
theorem atomicRespReceive (st : Nat) (f : Frame) : Statement (.atomicRespReceive st f) := fun h => h
theorem refusalReceive (st : Nat) (f : Frame) : Statement (.refusalReceive st f) := fun h => h
theorem vigilErrReceive (st : Nat) (f : Frame) : Statement (.vigilErrReceive st f) := fun h => h
theorem routerFrameReceive (isl : Island) (input : Nat) (plane : Nat) (vc : Nat) (f : Frame) (errs : FlitErrs) : Statement (.routerFrameReceive isl input plane vc f errs) := fun h => left_of (left_of (left_of h))
theorem arbiterGrant (arb : Arb) (extra : List Requester) : Statement (.arbiterGrant arb extra) := fun h => h
theorem shaperConfigWrite (addr : W32) (data : W32) : Statement (.shaperConfigWrite addr data) := fun _ => rfl
theorem yellowRelease (st : Nat) (key : Nat) : Statement (.yellowRelease st key) := fun h => left_of h
theorem yellowExpiry (st : Nat) (key : Nat) : Statement (.yellowExpiry st key) := fun h => left_of h
theorem poolAllocate (die : Nat) : Statement (.poolAllocate die) := fun h => h
theorem poolWaitExpiry (die : Nat) : Statement (.poolWaitExpiry die) := fun h => h
theorem poolDisable (die : Nat) : Statement (.poolDisable die) := fun h => h
theorem slotBoundary (isl : Island) : Statement (.slotBoundary isl) := fun h => h
theorem noWindowDrop (isl : Island) (input : Nat) (plane : Nat) (vc : Nat) : Statement (.noWindowDrop isl input plane vc) := fun h => left_of (left_of (left_of h))
theorem kalends : Statement (.kalends) := fun _ => rfl
theorem launchNotice (st : Nat) : Statement (.launchNotice st) := fun h => h
theorem almLoad (variant : W16) : Statement (.almLoad variant) := fun _ => rfl
theorem almCopy : Statement (.almCopy) := fun _ => rfl
theorem almArm : Statement (.almArm) := fun _ => rfl
theorem almDisarm : Statement (.almDisarm) := fun _ => rfl
theorem almLoadComplete (ok : Bool) : Statement (.almLoadComplete ok) := fun _ => rfl
theorem coolRequestResume : Statement (.coolRequestResume) := fun _ => rfl
theorem bankHoldExpiry : Statement (.bankHoldExpiry) := fun _ => rfl
theorem latticePulse (isl : Island) (seen : Int) : Statement (.latticePulse isl seen) := fun h => h
theorem islandFtLoad (isl : Island) : Statement (.islandFtLoad isl) := fun h => h
theorem syncExchangeStart (port : Nat) : Statement (.syncExchangeStart port) := fun h => h
theorem syncReceive (port : Nat) (xid : Nat) : Statement (.syncReceive port xid) := fun h => left_of h
theorem followUpReceive (port : Nat) (fu : FollowUp) : Statement (.followUpReceive port fu) := fun h => h
theorem delayReqReceive (port : Nat) (xid : Nat) : Statement (.delayReqReceive port xid) := fun h => left_of h
theorem delayRespReceive (port : Nat) (xid : Nat) (t4 : FT) : Statement (.delayRespReceive port xid t4) := fun h => left_of h
theorem upstreamLoss : Statement (.upstreamLoss) := fun _ => rfl
theorem upstreamReturn (port : Nat) : Statement (.upstreamReturn port) := fun h => h
theorem ppsInEdge : Statement .ppsInEdge := fun h => h
theorem ppsInLoss : Statement .ppsInLoss := fun h => h
theorem ref10mLoss : Statement .ref10mLoss := fun h => h
theorem timeRealignArm (side : Nat) : Statement (.timeRealignArm side) := fun h => h
theorem ppsOutRise : Statement (.ppsOutRise) := fun _ => rfl
theorem ppsOutFall : Statement (.ppsOutFall) := fun _ => rfl
theorem timeValidChange : Statement (.timeValidChange) := fun _ => rfl
theorem codewordReceive (port : Nat) (cw : Codeword) : Statement (.codewordReceive port cw) := fun h => h
theorem acwReceive (port : Nat) (acw : Acw) : Statement (.acwReceive port acw) := fun h => h
theorem acwLockTimeout (port : Nat) : Statement (.acwLockTimeout port) := fun h => h
theorem linkFrameReceive (port : Nat) (lf : LinkFrame) : Statement (.linkFrameReceive port lf) := fun h => h
theorem nakResend (port : Nat) : Statement (.nakResend port) := fun h => h
theorem ctrlAckReceive (port : Nat) (ackSeq : W12) : Statement (.ctrlAckReceive port ackSeq) := fun h => h
theorem ctrlNakReceive (port : Nat) (expected : W12) : Statement (.ctrlNakReceive port expected) := fun h => h
theorem ctrlFlowReceive (port : Nat) (off : W14) : Statement (.ctrlFlowReceive port off) := fun h => h
theorem flowPeriodic (port : Nat) : Statement (.flowPeriodic port) := fun h => h
theorem replayTimeout (port : Nat) : Statement (.replayTimeout port) := fun h => h
theorem trainReceive (port : Nat) (t : Train) : Statement (.trainReceive port t) := fun h => h
theorem signalLock (port : Nat) : Statement (.signalLock port) := fun h => h
theorem signalTimeout (port : Nat) : Statement (.signalTimeout port) := fun h => h
theorem alignTimeout (port : Nat) : Statement (.alignTimeout port) := fun h => h
theorem exchangeTimeout (port : Nat) : Statement (.exchangeTimeout port) := fun h => h
theorem readyTimeout (port : Nat) : Statement (.readyTimeout port) := fun h => h
theorem retrainTimeout (port : Nat) : Statement (.retrainTimeout port) := fun h => h
theorem cdrLoss (port : Nat) : Statement (.cdrLoss port) := fun h => h
theorem txActiveAtAcw (port : Nat) : Statement (.txActiveAtAcw port) := fun h => h
theorem savedSettingsTimeout (port : Nat) : Statement (.savedSettingsTimeout port) := fun h => h
theorem qualWindowEnd (port : Nat) : Statement (.qualWindowEnd port) := fun h => h
theorem monitorWindowEnd (port : Nat) : Statement (.monitorWindowEnd port) := fun h => h
theorem portAutoRetry (port : Nat) : Statement (.portAutoRetry port) := fun h => h
theorem portFullRetrain (port : Nat) : Statement (.portFullRetrain port) := fun h => h
theorem portRetrain (port : Nat) : Statement (.portRetrain port) := fun h => h
theorem portCold (port : Nat) : Statement (.portCold port) := fun h => h
theorem portEnable (port : Nat) : Statement (.portEnable port) := fun h => h
theorem portDisable (port : Nat) : Statement (.portDisable port) := fun h => h
theorem portPowerGate (port : Nat) : Statement (.portPowerGate port) := fun h => h
theorem dlinkContainerReceive (die : Nat) (n : Nat) (c : Container) : Statement (.dlinkContainerReceive die n c) := fun h => h
theorem dlinkReplayTimeout (die : Nat) (n : Nat) : Statement (.dlinkReplayTimeout die n) := fun h => h
theorem dlinkModuleFail (die : Nat) (n : Nat) (m : Nat) : Statement (.dlinkModuleFail die n m) := fun h => left_of h
theorem dlinkHalfTimeout (die : Nat) (n : Nat) : Statement (.dlinkHalfTimeout die n) := fun h => h
theorem dlinkTrainDone (die : Nat) (n : Nat) (modules : W4) (repaired : Nat) : Statement (.dlinkTrainDone die n modules repaired) := fun h => h
theorem dlinkQualEnd (die : Nat) (n : Nat) : Statement (.dlinkQualEnd die n) := fun h => h
theorem dlinkRetrain (die : Nat) (n : Nat) : Statement (.dlinkRetrain die n) := fun h => h
theorem dlinkEnable (die : Nat) (n : Nat) : Statement (.dlinkEnable die n) := fun h => h
theorem dlinkDisable (die : Nat) (n : Nat) : Statement (.dlinkDisable die n) := fun h => h
theorem islandFreqWrite (isl : Island) (freq : Nat) : Statement (.islandFreqWrite isl freq) := fun h => h
theorem islandGlideStep (isl : Island) : Statement (.islandGlideStep isl) := fun h => h
theorem islandStop (isl : Island) : Statement (.islandStop isl) := fun h => h
theorem islandStart (isl : Island) : Statement (.islandStart isl) := fun h => h
theorem pllLockLost (isl : Island) : Statement (.pllLockLost isl) := fun h => h
theorem pllRelock (isl : Island) : Statement (.pllRelock isl) := fun h => h
theorem dieGate (die : Nat) : Statement (.dieGate die) := fun h => h
theorem dieGateDone (die : Nat) : Statement (.dieGateDone die) := fun h => h
theorem dieUngate (die : Nat) : Statement (.dieUngate die) := fun h => h
theorem ungateStepTimeout (die : Nat) : Statement (.ungateStepTimeout die) := fun h => h
theorem dieUngateDone (die : Nat) : Statement (.dieUngateDone die) := fun h => h
theorem engineClockStop (st : Nat) : Statement (.engineClockStop st) := fun h => h
theorem pcInputSample (valid : PinLevel) (ramp : W12) (budget : W3) : Statement (.pcInputSample valid ramp budget) := fun h => h
theorem throttleNChange (level : PinLevel) : Statement (.throttleNChange level) := fun h => h
theorem throttleHoldExpiry : Statement (.throttleHoldExpiry) := fun _ => rfl
theorem forceThrottleWrite (value : Bool) : Statement (.forceThrottleWrite value) := fun _ => rfl
theorem kalendsWarnRise : Statement (.kalendsWarnRise) := fun _ => rfl
theorem kalendsWarnFall : Statement (.kalendsWarnFall) := fun _ => rfl
theorem dieResume : Statement (.dieResume) := fun _ => rfl
theorem faultReportReceive (die : Nat) (reports : List FaultReport) : Statement (.faultReportReceive die reports) := fun h => h
theorem faultCaptureDone (die : Nat) : Statement (.faultCaptureDone die) := fun h => h
theorem faultFenceMessage (die : Nat) (key : Nat) : Statement (.faultFenceMessage die key) := fun h => left_of h
theorem faultQuietCheck (die : Nat) : Statement (.faultQuietCheck die) := fun h => h
theorem faultUnitReset (die : Nat) : Statement (.faultUnitReset die) := fun h => h
theorem faultUnitClear (die : Nat) : Statement (.faultUnitClear die) := fun h => h
theorem faultUnitRestore (die : Nat) : Statement (.faultUnitRestore die) := fun h => h
theorem faultClearJubilee (die : Nat) : Statement (.faultClearJubilee die) := fun h => h
theorem niPfenceSet (st : Nat) (key : Nat) : Statement (.niPfenceSet st key) := fun h => left_of h
theorem niPfenceClear (st : Nat) (key : Nat) : Statement (.niPfenceClear st key) := fun h => left_of h
theorem scrubAccess (unit : Nat) (sram : Nat) : Statement (.scrubAccess unit sram) := fun h => h
theorem eccWriteBack (unit : Nat) (sram : Nat) (word : Nat) : Statement (.eccWriteBack unit sram word) := fun h => h
theorem vigilExpiry (st : Nat) (who : VigilWho) : Statement (.vigilExpiry st who) := fun h => h
theorem grantExpiry (st : Nat) (src : Nat) (txn : Nat) : Statement (.grantExpiry st src txn) := fun h => left_of (left_of h)
theorem txnRetireExpiry (st : Nat) (txn : Nat) : Statement (.txnRetireExpiry st txn) := fun h => left_of h
theorem stateBeacon (die : Nat) (unit : Nat) : Statement (.stateBeacon die unit) := fun h => h
theorem injectArmWrite (addr : W32) (data : W32) : Statement (.injectArmWrite addr data) := fun _ => rfl
theorem bucketRefill : Statement (.bucketRefill) := fun _ => rfl
theorem recordPlace : Statement (.recordPlace) := fun _ => rfl
theorem chronProgramDone (ctl : Nat) (ok : Bool) : Statement (.chronProgramDone ctl ok) := fun h => h
theorem chronCompaction (ctl : Nat) : Statement (.chronCompaction ctl) := fun h => h
theorem sectorEraseDone (ctl : Nat) (verified : Bool) : Statement (.sectorEraseDone ctl verified) := fun h => h
theorem chronMountDone (ctl : Nat) (answers : Bool) : Statement (.chronMountDone ctl answers) := fun h => h
theorem standbyDecisionApply : Statement (.standbyDecisionApply) := fun _ => rfl
theorem chronLoad (ctl : Nat) : Statement (.chronLoad ctl) := fun h => h
theorem chronNext (ctl : Nat) : Statement (.chronNext ctl) := fun h => h
theorem chronRetireTo (ctl : Nat) : Statement (.chronRetireTo ctl) := fun h => h
theorem chronSwSubmit (ctl : Nat) : Statement (.chronSwSubmit ctl) := fun h => h
theorem chronFreeze (ctl : Nat) : Statement (.chronFreeze ctl) := fun h => h
theorem chronUnfreeze (ctl : Nat) : Statement (.chronUnfreeze ctl) := fun h => h
theorem chronFreezeExpiry : Statement (.chronFreezeExpiry) := fun _ => rfl
theorem chronSecondsTick (ctl : Nat) : Statement (.chronSecondsTick ctl) := fun h => h
theorem coldReset : Statement (.coldReset) := fun _ => rfl
theorem warmResetPin : Statement (.warmResetPin) := fun _ => rfl
theorem bootWarmReset (side : Nat) : Statement (.bootWarmReset side) := fun h => h
theorem bootContinueNoImage (side : Nat) : Statement (.bootContinueNoImage side) := fun h => h
theorem bootProceed (side : Nat) : Statement (.bootProceed side) := fun h => h
theorem bootClearLevels (side : Nat) : Statement (.bootClearLevels side) := fun h => h
theorem bootClearDisables (side : Nat) : Statement (.bootClearDisables side) := fun h => h
theorem bootStepStart : Statement (.bootStepStart) := fun _ => rfl
theorem bootStepFinish : Statement (.bootStepFinish) := fun _ => rfl
theorem bootStepTimeout : Statement (.bootStepTimeout) := fun _ => rfl
theorem bootDeadlineExpiry : Statement (.bootDeadlineExpiry) := fun _ => rfl
theorem heartbeatTick (side : Nat) : Statement (.heartbeatTick side) := fun h => h
theorem heartbeatMiss (side : Nat) : Statement (.heartbeatMiss side) := fun h => h
theorem leaseRequestReceive (voter : Nat) (core : Nat) : Statement (.leaseRequestReceive voter core) := fun h => h
theorem leaseGrantExpiry (voter : Nat) : Statement (.leaseGrantExpiry voter) := fun h => h
theorem takeover (core : Nat) : Statement (.takeover core) := fun h => h
theorem bootHbKick (side : Nat) : Statement (.bootHbKick side) := fun h => h
theorem bootMirrorFence (side : Nat) : Statement (.bootMirrorFence side) := fun h => h
theorem mirrorFenceDone : Statement (.mirrorFenceDone) := fun _ => rfl
theorem standbySyncDone : Statement (.standbySyncDone) := fun _ => rfl
theorem mbxCmdProdWrite (idx : W16) (entries : List Desc) : Statement (.mbxCmdProdWrite idx entries) := fun _ => rfl
theorem mbxRspConsWrite (idx : W16) : Statement (.mbxRspConsWrite idx) := fun _ => rfl
theorem mbxNop : Statement (.mbxNop) := fun _ => rfl
theorem mbxGetInfo : Statement (.mbxGetInfo) := fun _ => rfl
theorem mbxImageStage (dma : Dma) : Statement (.mbxImageStage dma) := fun _ => rfl
theorem mbxImageCommit : Statement (.mbxImageCommit) := fun _ => rfl
theorem mbxImageAbort : Statement (.mbxImageAbort) := fun _ => rfl
theorem mbxFwWrite (dma : Dma) : Statement (.mbxFwWrite dma) := fun _ => rfl
theorem mbxFwSelect : Statement (.mbxFwSelect) := fun _ => rfl
theorem mbxWarmReset : Statement (.mbxWarmReset) := fun _ => rfl
theorem mbxRegRead : Statement (.mbxRegRead) := fun _ => rfl
theorem mbxRegWrite : Statement (.mbxRegWrite) := fun _ => rfl
theorem mbxChronRead : Statement (.mbxChronRead) := fun _ => rfl
theorem mbxDiaryRead : Statement (.mbxDiaryRead) := fun _ => rfl
theorem mbxEventMask : Statement (.mbxEventMask) := fun _ => rfl
theorem mbxBackgroundDone (hseq : W32) : Statement (.mbxBackgroundDone hseq) := fun _ => rfl
theorem msixHoldoffExpiry (vector : Nat) : Statement (.msixHoldoffExpiry vector) := fun _ => rfl
theorem liveChangeFinish : Statement (.liveChangeFinish) := fun _ => rfl
theorem opAllReduce (st : Nat) (d : Desc) : Statement (.opAllReduce st d) := fun h => h
theorem opReduceScatter (st : Nat) (d : Desc) : Statement (.opReduceScatter st d) := fun h => h
theorem opAllGather (st : Nat) (d : Desc) : Statement (.opAllGather st d) := fun h => h
theorem opReduce (st : Nat) (d : Desc) : Statement (.opReduce st d) := fun h => h
theorem opBroadcast (st : Nat) (d : Desc) : Statement (.opBroadcast st d) := fun h => h
theorem opAllToAll (st : Nat) (d : Desc) : Statement (.opAllToAll st d) := fun h => h
theorem opSparseSum (st : Nat) (d : Desc) : Statement (.opSparseSum st d) := fun h => h
theorem opBarrier (st : Nat) (d : Desc) : Statement (.opBarrier st d) := fun h => h
theorem opCancel (st : Nat) (d : Desc) : Statement (.opCancel st d) := fun h => h
theorem stageRsvReceive (st : Nat) (f : Frame) : Statement (.stageRsvReceive st f) := fun h => h
theorem stageGrantSend (st : Nat) (tag : W16) (chunk : W32) : Statement (.stageGrantSend st tag chunk) := fun h => h
theorem stageGrantReceive (st : Nat) (f : Frame) : Statement (.stageGrantReceive st f) := fun h => h
theorem chunkReceive (st : Nat) (f : Frame) : Statement (.chunkReceive st f) := fun h => h
theorem partialReceive (st : Nat) (f : Frame) : Statement (.partialReceive st f) := fun h => h
theorem sparseReceive (st : Nat) (f : Frame) : Statement (.sparseReceive st f) := fun h => h
theorem resultReceive (st : Nat) (f : Frame) : Statement (.resultReceive st f) := fun h => h
theorem barrierReceive (st : Nat) (f : Frame) : Statement (.barrierReceive st f) := fun h => h
theorem cancelReceive (st : Nat) (f : Frame) : Statement (.cancelReceive st f) := fun h => h
theorem collectiveComplete (st : Nat) (tag : W16) : Statement (.collectiveComplete st tag) := fun h => h
theorem diaryReportReceive (side : Nat) (r : DiaryReport) : Statement (.diaryReportReceive side r) := fun h => h
theorem diaryRdAdvance (rd : FT) : Statement (.diaryRdAdvance rd) := fun _ => rfl
theorem statsRdAdvance (st : Nat) (rd : FT) : Statement (.statsRdAdvance st rd) := fun h => h
theorem jrnlRdAdvance (st : Nat) (rd : FT) : Statement (.jrnlRdAdvance st rd) := fun h => h
theorem replayDiverge (st : Nat) : Statement (.replayDiverge st) := fun h => h
theorem jrnlModeWrite (st : Nat) (mode : W2) (ring : List FT) : Statement (.jrnlModeWrite st mode ring) := fun h => h
theorem holidayStopPackage (side : Nat) : Statement (.holidayStopPackage side) := fun _ => rfl
theorem holidayStopMachine (side : Nat) : Statement (.holidayStopMachine side) := fun _ => rfl
theorem holidayPin : Statement (.holidayPin) := fun _ => rfl
theorem holidayStopFrame (port : Nat) (arg : W32) : Statement (.holidayStopFrame port arg) := fun _ => rfl
theorem dieStopAck (die : Nat) : Statement (.dieStopAck die) := fun _ => rfl
theorem holidayAckTimeout : Statement (.holidayAckTimeout) := fun _ => rfl
theorem holidayRelease (side : Nat) : Statement (.holidayRelease side) := fun _ => rfl
theorem holidayReleaseFrame (port : Nat) (arg : W32) : Statement (.holidayReleaseFrame port arg) := fun _ => rfl
theorem holidayScan (side : Nat) : Statement (.holidayScan side) := fun _ => rfl
theorem traceCollect (die : Nat) : Statement (.traceCollect die) := fun _ => rfl
theorem traceArm : Statement (.traceArm) := fun _ => rfl
theorem traceTrigger : Statement (.traceTrigger) := fun _ => rfl
theorem traceAdvance : Statement (.traceAdvance) := fun _ => rfl
theorem traceRecordDrained : Statement (.traceRecordDrained) := fun _ => rfl
theorem tracePortEnable : Statement (.tracePortEnable) := fun _ => rfl
theorem ref10mReturn : Statement .ref10mReturn := fun h => h
theorem dlinkNakResend (die : Nat) (n : Nat) : Statement (.dlinkNakResend die n) := fun h => h
theorem coldStartLeaseRequest (core : Nat) : Statement (.coldStartLeaseRequest core) := fun h => h
theorem standbyLost : Statement (.standbyLost) := fun _ => rfl
theorem msixTableWrite (vector : Nat) (addr : FT) (data : W32) (masked : Bool) : Statement (.msixTableWrite vector addr data masked) := fun _ => rfl

end Sys2Proof.Laws.OperandUnits
end

