-- ==== Sys2Proof/Tests/Slice0.lean ====
section
/-! SUPPORT. Tests of the model: what is ill formed is refused, single commands on small states against the spec's own words, and for each
statement with hypotheses states and operands that meet them, clause by clause. -/
namespace Sys2Proof.Tests
open Sys2Proof Sys2Proof.Machine

set_option Elab.async false

/-! ## Small states -/

/-- A descriptor from its words. -/
def tDesc (ws : List Nat) : Desc := BitVec.ofNat 512 (ws.foldr (fun w a => w + 2 ^ 32 * a) 0)

/-- A Priberun-A whose NI 0 takes descriptors and frames, with key 0 allowed and direct stations enabled; the islands of routers 0, 1 and 9 run. -/
def tNi : State :=
  { (((State.reset.setFld (niUnit 0) F.NI_CTRL_CMD_EN 1).setFld (niUnit 0) F.NI_CTRL_RX_EN 1).setFld (niUnit 0) F.NI_CTRL_KEY0_EN 1).setFld
    (niUnit 0) F.NI_CTRL_DIRECT_EN 1 with
    isl := [(0, { running := true, ftValid := true }), (1, { running := true, ftValid := true }), (9, { running := true, ftValid := true })] }

/-- A record of the package's scope. -/
def tRec (kind : Nat) (payload : List Nat) : Rec :=
  { sec := kind / 256, kind := kind, variant := 0xFFFF, scope := 0x400000, payload := payload.map (BitVec.ofNat 8) }

/-- An image of some records. -/
def tImage (rs : List Rec) : Image := { id := 1, target := 0, serial := 0, coord := 0, recs := rs, bytes := [], store := false }

/-- A state with records in the bank in force. -/
def withRecs (s : State) (rs : List Rec) : State := { s with alm := { s.alm with b0 := { recs := rs } } }

/-- Partition 5: eight ranks, every key admitted; stream 7 of station 0 with a tile of 256 B; group 9 of stations 0 and 1. -/
def tBank : List Rec := [tRec 0x0201 [5, 0, 0, 3, 8, 0, 0, 0], tRec 0x0202 (List.replicate 512 255),
  tRec 0x0403 ([7, 0, 5, 0, 0, 0, 1, 0, 0, 0, 0, 0, 0, 1, 0, 0, 0, 0, 0, 0, 0, 0, 0, 0]),
  tRec 0x0601 [9, 0, 5, 0, 0, 1, 2, 1, 0, 0, 0, 1, 1, 1, 1, 1, 1, 0, 0, 0, 1, 0, 2, 0, 0, 16, 0, 0, 0, 0, 0, 0, 0, 0, 1, 0]]

/-- The NI with the bank of partition 5. -/
def tBanked : State := withRecs tNi tBank

/-- A PUT, GET, INDEXED_READ, MESSAGE and ATOMIC of key 0 to station 1, by name. -/
def tPut : Desc := tDesc [0x8000, 1, 0, 64, 0x1000, 0, 0x2000]
def tMsg : Desc := tDesc [0x8000, 1, 0, 32, 0x1000, 0, 0x2000]
def tIdx : Desc := tDesc [0x8000, 1, 0, 16, 0x1000, 0, 0x2000, 0, 0, 0, 16, 1]
def tAtm : Desc := tDesc [0x8000, 1, 0, 8, 0x1000, 0, 0x2000]
/-- A PUT of key 5 to rank 7, the last one. -/
def tRank (op : Nat) : Desc := tDesc [0x500000, 7, 0, if op = 3 then 16 else if op = 5 then 8 else 32, 0x1000, 0, 0x2000, 0, 0, 0, if op = 3 then 16 else 0,
  if op = 3 then 1 else 0]

/-- A frame of key 0 from station 1 to station 0. -/
def tFr : Frame := { destStation := 0, srcStation := 1, addr := 0x2000, length := 4, seq := 64, payload := [1, 2, 3, 4] }
/-- A task toward station 1. -/
def tTask (d : Desc) : Task := { d := d, coord := 0, dest := 1, acc := 0 }
/-- The NI with one transaction of an opcode outstanding, its first frame sent. -/
def tTx (op : Nat) (d : Desc) : State :=
  tNi.updNi 0 (fun n => { n with live := 1, txn := [(0, { task := tTask (withOpcode d op), phase := .sent, vigil := some 0 })] })
/-- NI 0 with an injection map of plane RQ that launches counter 4095. -/
def tLaunch : State := withRecs tNi [tRec 0x0402 [1, 0, 0, 0, 0, 0, 0, 0, 0, 8, 0, 0, 2, 0, 0, 0, 0, 0xE0, 0xFF, 3, 0xFF, 3, 0, 0]]

/-- A collective descriptor of group 9 with 64 elements, by path: 1 the NI tree, 2 the engines. -/
def tCol (path : Nat) : Desc := tDesc [0x500000, 0, 0, 64, 0x1000, 0x90000, 0x4000, 0, 0, 0, path * 2 ^ 22]

/-- The NI after it has started an ALL_REDUCE of group 9 over the NI tree. -/
def tColl : State := match exec (.opAllReduce 0 (tCol 1)) tBanked with
  | .next t => t
  | _ => tBanked

/-- A policer set of key 5 with YELLOW_MAX 0. -/
def tPoliced : State := { tBanked with image := some (tImage [tRec 0x0502
  [5, 0, 1, 0, 1, 0, 0, 0, 1, 0, 0, 0, 0xA0, 0x0F, 0, 0, 0xA0, 0x0F, 0, 0, 0, 0, 0, 0]]) }
/-- Partition 5 with a ceiling of one buffer everywhere, and a window over addresses below 2^16 with every right. -/
def tRsv : State := withRecs { tBanked with image := some (tImage [tRec 0x0503 [0, 0, 0, 0, 0, 0, 0, 0, 0, 0, 1]]) }
  (tBank ++ [tRec 0x0102 [0, 0, 0, 0, 0, 0, 0, 0, 0, 0, 1, 0, 0, 0, 0, 0, 15, 0, 5, 128]])
/-- The NI after it has started an ALL_REDUCE of group 9 over the engines. -/
def tColE : State := match exec (.opAllReduce 0 (tCol 2)) tBanked with
  | .next t => t
  | _ => tBanked

/-- A frame of the first instance of group 9, from station 1. -/
def tCf : Frame := { tFr with pkey := 5, opinfo := 9, seq := 0, coll := { op := 0x20, cap := 64 }, addr := cWord (tCol 1) }

/-- The NI tree's root once station 1 has reserved chunk 0. -/
def tColR : State := match exec (.stageRsvReceive 0 tCf) tColl with
  | .next t => t
  | _ => tColl

/-- The member of group 9's instance at station 0 with all that it waits for. -/
def tReady : State := tColl.updMember 0 9 (fun m => { m with hdr := true, sentIn := 1, outs := [(0, { raised := true })] })
/-- The management address of a register. -/
def tA (u off : Nat) : W32 := BitVec.ofNat 32 (regAddr u off)

/-- Side 0 holds the lease, and island 0 of die 0 and island 14 of die 16 run. -/
def tHeld : State := { tNi with holder := some 0, isl := [(0, { running := true }), (islKey 16 14, { running := true })] }
/-- Port 0 in a training state. -/
def tPort (st : Nat) : State :=
  { State.reset.setFld (portUnit State.reset.pkg 0) F.PORT_STATUS_STATE st with isl := [(islKey 16 1, { running := true, ftValid := true })] }

/-- A head of a frame. -/
def tHead (f : Frame) : Head := { f := f, since := 0, headAt := 0, out := [0] }

/-- An image with BASE and its cool form. -/
def tImaged : State := { State.reset with image := some (tImage [tRec 0x0401 [10, 0, 0, 1], { tRec 0x0401 [10, 0, 0, 1] with variant := 0x4000 }]) }

/-- The almanac controller with its other bank in a state. -/
def tAlm (o : OtherState) : State := { tImaged with alm := { other := o } }

/-- A FOLLOW_UP. -/
def tFu : FollowUp := { xid := 7, t1 := 100, quality := 3, steps := 0, gm := false, realignValid := false, errEst := 0, realignFt := 0, leap := 0 }
/-- Ports 0 and 1 trained, upstreams in that order, both advertising LOCKED. -/
def tUp : State :=
  let s := ((State.reset.setFld (portUnit State.reset.pkg 0) F.PORT_STATUS_STATE 5).setFld (portUnit State.reset.pkg 1) F.PORT_STATUS_STATE 5)
  let s := (s.setFld (timeUnit s.pkg) F.TIME_UPSTREAM_COUNT 2).setFld (timeUnit s.pkg) F.TIME_UPSTREAM_PORTS 64
  { s with time := { state := 3, ports := [(0, { good := 64, heard := true, adv := some tFu }), (1, { good := 64, heard := true, adv := some tFu })] } }
/-- Router 0 of die 0 with its island running, and queue 15 of NI 0 shaped. -/
def tSlot : State := { (tNi.setFldAt (niUnit 0) F.NI_Q_RATE_RATE 15 16).setFldAt (niUnit 0) F.NI_Q_BURST_BURST 15 1 with
  isl := [(0, { running := true, ftValid := true, slot := 0 })] }

/-- A frame for the port station of port 0, in that port's receive buffer. -/
def tIn : Frame := { tFr with cls := 4, destStation := 16 * 2048 + 96, route := routeOf [31] }
def tRx : State := (tPort 5).updPort 0 (fun p => { p with rxq := [(0, [tHead tIn])] })

/-- A port with a Holiday frame to send, and an NI with a frame to issue. -/
def tHq : State := (tPort 5).updPort 0 (fun p => { p with hq := [tFr] })
def tIssue : State := tSlot.updNi 0 (fun n => { n with outq := [{ f := { tFr with cls := 0x10 }, since := 0, headAt := 0, out := [] }] })
/-- A link frame of sequence 0, a TRAIN unit, and port 0 with one frame held. -/
def tLf : LinkFrame :=
  { frame := { tFr with cls := 4 }, plane := 0, vc := 0, lseq := 0, ackValid := false, ackSeq := 0, crc := 0, uncorr := false, complete := true }
def tTrain (st : Nat) : Train := { port := 1, ackSeq := 0, laneMask := 0xFFFF, switch := false, retrain := false, state := st, version := 1, coord := 0, serial := 0 }
def tHeldPort : State := (tPort 5).updPort 0 (fun p => { p with held := [{ lseq := 0, units := 2, lf := tLf }] })
/-- Sixteen lanes found, each with its own number; a codeword of zeros on them; and one whose last 16 symbols are the generator of the code's first 15 roots. -/
def tLanes : KMap RxLane := (List.range 16).map (fun i => (i, { number := i, seen := 3 }))
def tZeroCw : Codeword := { levels := List.replicate 16 (List.replicate 170 0) }
def tTail : List Nat := [1, 792, 769, 477, 965, 180, 5, 833, 936, 650, 38, 594, 684, 266, 944, 688]
def tBadCw : Codeword := { levels := tTail.map (fun v => List.replicate 165 0 ++ symbolLevels v) }
def tLocked : State := (tPort 2).updPort 0 (fun p => { p with rxLanes := tLanes })
/-- An alignment codeword of lane 15, inverted, on lane 0. -/
def tAcw : Acw := { lane := 0, levels := (List.replicate 34 (acwSymbol 15)).flatMap (fun v => (symbolLevels v).map (flipLevel true)), skew := 64, spacing := 16 }
/-- Port 0 in ACTIVE with room in the input VC of plane RQ. -/
def tRoom : State := (tPort 5).setReg (portUnit State.reset.pkg 0) R.PORT_VC_CFG 0x00400010

/-- Crossing 0 of die 0 in a state, with all its modules. -/
def tDl (st : Nat) : State := (State.reset.setFld (dlinkUnit 0 8) F.DLINK_STATUS_STATE st).setFld (dlinkUnit 0 8) F.DLINK_STATUS_MODULE_OK 15

/-- Island 0 of die 0. -/
def tIsl (i : Isl) : State := { State.reset with isl := [(0, i)] }

/-- Compute die 3 in a power state. -/
def tDie (st : Nat) : State := State.reset.setDieState 3 st
/-- Die 0 whose FAULT unit is on, with the unit selected. -/
def tFault (sel : Nat) : State := (State.reset.setFld (faultUnit 0) F.FAULT_CTRL_EN 1).setFld (faultUnit 0) F.FAULT_UNIT_SEL_UNIT sel
/-- A report of router 0 of die 0. -/
def tReport : FaultReport := { cls := 14, unit := routerUnit 0 0, detail := 5, strobe := true, input := 0 }
def tCapture : FCapture := { unit := routerUnit 0 0, cls := 14, detail := 5, sev := 3, cnt := 1, jub := 0, ft := 9, qual := 3, log := false }
/-- An error pattern in word 0 of SRAM 63 of router 0. -/
def tEcc (e : Byte) : State := State.reset.setEcc (routerUnit 0 0) 63 0 e

/-- The Chronicle with both devices in use and sector 1 open. -/
def tDev : ChDev := { mounted := true, ok := true, sectors := [(1, { erased := false, st := 0x1F, seq := 1 })] }
def tRecd : ChRec := { code := 0x300, sev := 1, quality := 0, source := 0, cycles := 0, ft := 0, seconds := 0, payload := [] }
def tCh (c : Chron) : State := { State.reset with holder := some 0, chron := c }
/-- A device with one live record of SEQ 4. -/
def tLive : ChDev := { tDev with sectors := [(1, { erased := false, st := 0x1F, seq := 1, slots := [{ r := tRecd, seq := 4, mark := 0x0F }] })] }
/-- Late enough for every limit that counts from FT 0. -/
def tLate (s : State) : State := { s with time := { s.time with ft := 800000000 } }
/-- The registers of a record of the FM's codes at side 0. -/
def tSw : State := ((tCh { d0 := tDev }).setReg (chronUnit State.reset.pkg 0) R.CHRON_SW 0x300).setReg (chronUnit State.reset.pkg 0) (R.CHRON_SW + 8) 1

/-- The sequencer in a state and step, side 0 active, its step started or not. -/
def tBoot (st k : Nat) (b : Bool) : State :=
  { (State.reset.setBoot F.BOOT_STATUS_STATE st).setBoot F.BOOT_STATUS_STEP k with holder := some 0, boot := { started := b } }

/-- The lease with all four votes at a core, granted at FT 0. -/
def tLease (core : Nat) (h : Option Nat) : State :=
  { State.reset with holder := h, lease := { votes := [(0, (core, 9)), (1, (core, 9)), (2, (core, 9))], epoch := bitNat h.isSome } }

/-- The mailbox in READY with one command in its ring. -/
def tMbx (op : Nat) (ws : List Nat) : State :=
  let s := ((State.reset.setBoot F.BOOT_STATUS_STATE 3).setMb F.MBX_CTRL_EN 1).setMb F.MBX_CMD_PROD_INDEX 1
  { s with holder := some 0, mbx := { cmd := [(0, tDesc (1 :: op :: ws))] } }

/-- A report of a collective's member, and the Diary with its units on. -/
def tRep : DiaryReport := .mk 0 0 9 0x20 0 0 0 {} 0 {} false 0 3 3
def tDiary : State := withRecs (State.reset.setFld (diaryUnit State.reset.pkg) F.TRACE_DIARY_CTRL_EN 1) tBank

/-- A package in Holiday. -/
def tHol (h : Hol) : State := { State.reset with hol := h }
def tPin : State := (State.reset.setFld (holidayUnit State.reset.pkg) F.TRACE_HOLIDAY_CTRL_PIN_EN 1).setFld
  (holidayUnit State.reset.pkg) F.TRACE_HOLIDAY_CTRL_ACCEPT 1
/-- The arguments of a stop and of a release frame. -/
def tStop : W32 := 0x40000003
def tRelease : W32 := 0x80C00000
/-- A trace ring of two records, the port on. -/
def tTrace : State := { State.reset with trace := { ring := [List.replicate 128 1, [2]] } }
/-- mbxTakes, computed. -/
def tTakes (s : State) (op : Nat) : Bool := match mbxCmd op with
  | some (n, a) => s.mbxReady && getBits (dw s.mbxFront 1) 15 0 == op && (dw s.mbxFront 0).toNat == (s.mb F.MBX_HOST_SEQ_SEEN_HSEQ + 1) % 2 ^ 32 &&
      badArg s.mbxFront n == none && mbxStateOk a ((mbxTaken s).fld (bootUnit s.pkg (s.holder.getD 0)) F.BOOT_STATUS_STATE)
  | none => false

/-- descTaken, computed. -/
def tTaken (s : State) (st : Nat) (d : Desc) : Bool :=
  niFree s st && s.cmdReady st d && !dTrigEn d && (!dFence d || (s.getNi st).live == 0)

theorem tTaken_iff (s : State) (st : Nat) (d : Desc) : tTaken s st d = true ↔ descTaken s st d := by
  unfold tTaken descTaken
  cases dFence d <;> simp [and_assoc]

theorem tTakes_iff (s : State) (op : Nat) : tTakes s op = true ↔ mbxTakes s op := by
  unfold tTakes mbxTakes
  cases h : mbxCmd op with
  | none => simp
  | some x => obtain ⟨n, a⟩ := x; simp [and_assoc]

/-! ## Well-formedness -/

/-- One command for each check of well-formedness, with an operand that does not pass it. -/
def tIll : List Instr :=
  [.poolAllocate 20, .opNop 40960 0, .upstreamReturn 64, .takeover 2, .slotBoundary { die := 20, inst := 0 }, .slotBoundary { die := 0, inst := 64 },
   .scrubAccess 1048576 0, .scrubAccess 0 64, .routerFrameReceive { die := 0, inst := 0 } 64 0 0 tFr ⟨false, []⟩,
   .routerFrameReceive { die := 0, inst := 0 } 0 4 0 tFr ⟨false, []⟩, .routerFrameReceive { die := 0, inst := 0 } 0 0 4 tFr ⟨false, []⟩,
   .registerWrite 2 0 0 0 0, .registerWrite 0 256 0 0 0, .treeTimeout 256 0 false false, .triggerFire 0 4096, .writeDone 0 256,
   .eventNoticeTaken 0 4096, .niPfenceSet 0 4096, .syncReceive 0 256, .dlinkQualEnd 0 32, .dlinkModuleFail 0 0 4, .leaseGrantExpiry 4,
   .grantExpiry 0 40960 0, .grantExpiry 0 0 256, .stateBeacon 0 1048576, .msixHoldoffExpiry 8, .pcInputSample ⟨2, true⟩ 0 0,
   .throttleNChange ⟨2, false⟩]

/-- The same for what an arbiter names. -/
def tIllArb : List Arb :=
  [.routerOut { die := 20, inst := 0 } 0 0, .routerOut { die := 0, inst := 0 } 4 0, .routerOut { die := 0, inst := 0 } 0 64, .staging 64 0, .staging 0 4, .portMux 64,
   .niIssue 40960, .engineIn 40960, .sram 1048576 0, .sram 0 64]

theorem test_ill_formed_commands : tIll.all (fun c => !c.wellFormed) = true := by decide +kernel
theorem test_ill_formed_arbiters : tIllArb.all (fun a => !Instr.wellFormed (.arbiterGrant a [])) = true := by decide +kernel

/-! ## The spec's worked examples -/

-- Source: 00_scope.md, "Worked example — naming, addressing and time".
theorem test_register_address : regAddr (unitAddr 6 1 29) 0x040 = 0x3041D040 := by decide +kernel
-- Source: 18_register_map.md, "Worked example — three addresses and one timeout".
theorem test_port_register_address : regAddr (portUnit State.reset.pkg 9) 0x218 = 0x89002218 := by decide +kernel
-- Source: 06_routing_and_flow.md, "Worked example — a two-wrap destination and its reply" (x 1, y 2, z 0 to x 6, y 0, z 5 of pod 3, d = 1).
theorem test_torus_route :
    torusRoute (BitVec.ofNat 17 (3 * 512 + 0 * 64 + 2 * 8 + 1)) (BitVec.ofNat 17 (3 * 512 + 5 * 64 + 0 * 8 + 6)) 1 = [11, 11, 11, 11, 11, 8, 8, 8, 10, 10, 31] := by
  decide +kernel
-- Source: 09_reduction_arithmetic.md, Table 09-6: ORDERED as numbered, ORDERED with 1.0 and 1.0 first, ARRIVAL 0, 1, 3, 2.
theorem test_ordered_sum : [0x3F800000, 0x3F800000, 0xCB800000].foldl f32Add 0x4B800000 = 0 := by decide +kernel
theorem test_ordered_sum_renumbered : [0x3F800000, 0x4B800000, 0xCB800000].foldl f32Add 0x3F800000 = 0x40000000 := by decide +kernel
theorem test_arrival_sum : [0x3F800000, 0xCB800000, 0x3F800000].foldl f32Add 0x4B800000 = 0x3F800000 := by decide +kernel

/-- A block of binary32 elements that begins with these and goes on with others. -/
def tBlock (xs : List W32) (rest : W32) : List Byte := (xs ++ List.replicate (64 - xs.length) rest).flatMap (fun x => leBytes 4 x.toNat)

-- Source: 09_reduction_arithmetic.md, Table 09-6, EXACT.
theorem test_exact_sum :
    (finish 0 1 0 0 1 ([0x3F800000, 0x3F800000, 0xCB800000].foldl (fun b x => foldContribution .exact 0 (some b) (tBlock [x] 0))
      (foldContribution .exact 0 none (tBlock [0x4B800000] 0)))).1 = leBytes 4 0x40000000 := by decide +kernel

/-- P and Q of "Worked example — two promotions in one block": P's elements lie in [0.5, 2), the largest 1.75, one with an odd significand. -/
def tPromoted : Blk := foldContribution .exact 0
  (some (foldContribution .exact 0 none (tBlock [0x3FE00000, 0x3F000001, 0x3F800000, 0x3F800000, 0x3F800000, 0x3F800000, 0x3F800000, 0x3F800000, 0x3F800000, 0x3F000000] 0x3F800000)))
  (tBlock [0x3F800000, 0x3F800000, 0x3F800000, 0x3F800000, 0x3F800000, 0x0D800000, 0x3F800000, 0x3F800000, 0x3F800000, 0xF1800000] 0x3F800000)

-- Source: 09_reduction_arithmetic.md, Table 09-5: NF 0, PC 2, WB 4, SHIFT 70, EMPTY 0, ANCHOR 1; 376 bytes; the slot of lane 5.
theorem test_emitted_block : (blkBytes 0 tPromoted).length = 376 ∧ ofLe ((blkBytes 0 tPromoted).take 8) = 2 * 2 ^ 24 + 4 * 2 ^ 19 + 70 * 2 ^ 12 + 1 := by
  decide +kernel
theorem test_promoted_record : ((blkBytes 0 tPromoted).drop (8 + 256)).take 56 = leBytes 8 5 ++ leBytes 48 (2 ^ 160 + 2 ^ 60) := by decide +kernel

/-- 460, 300, 0.3, −0.001 and 28 zeros. -/
def tMx : List Val := [.fin (460 * 2 ^ 160) 1 false, .fin (300 * 2 ^ 160) 1 false, .fin (3 * 2 ^ 160) 10 false, .fin (-(2 ^ 160)) 1000 false] ++
  List.replicate 28 (.fin 0 1 false)

-- Source: 09_reduction_arithmetic.md, "Worked example — one MXFP8-E4M3 output block".
theorem test_mx_block : convMx 5 0 0 (fun _ => 0) tMx = ([0x7F, 0x7E, 0x79, 0x2A, 0x81] ++ List.replicate 28 0, 0) := by decide +kernel
theorem test_mx_block_stochastic : (convMx 5 0 2 (fun _ => 0xA3C1) tMx).1.take 3 = [0x7F, 0x7E, 0x7A] ∧ (convMx 5 0 2 (fun _ => 0xA3C1) tMx).2 = 1 := by
  decide +kernel
-- Source: 00_scope.md, R20.
theorem test_counter_stays_at_its_end : ((State.reset.count 1 0 (2 ^ 48 - 1)).count 1 0 1).ctrAt 1 0 = 0xFFFFFFFFFFFF := by decide +kernel

/-! ## The whole block -/

-- Of StepRunsFrontCommand, EveryCommandCompletes, CommandsKeepTheOtherParts and StepKeepsQueueAndIdentity.
theorem wit_StepRunsFrontCommand_2 : State.reset.pending = [] := rfl
theorem wit_EveryCommandCompletes_1 : (Instr.site (.opNop 0 0)).there State.reset = true := by decide +kernel
theorem wit_EveryCommandCompletes_2 : (Instr.site (.opNop 63 0)).there State.reset = true ∧
    (Instr.site (.opNop 2047 0)).there State.reset = false := by decide +kernel
theorem wit_CommandsKeepTheOtherParts_1 : ∃ t, exec .holidayPin State.reset = .next t := ⟨_, rfl⟩
theorem wit_StepKeepsQueueAndIdentity_1 :
    let s := { State.reset with pending := [Instr.kalends, Instr.holidayPin] }
    (s.pkg = {} ∧ s.pending.all Instr.wellFormed = true) ∧ ∃ t, step s = .next t := ⟨by decide +kernel, _, rfl⟩

/-! ## Witnesses -/

theorem wit_LocalDescriptorsComplete_1 :
    let s := tNi
    let st := 0
    let d := tDesc []
    let w := withOpcode d 0
    descTaken s st w ∧ s.descFails st w = none := by
  simp only [← tTaken_iff]; decide +kernel

theorem wit_LocalDescriptorsComplete_2 :
    let s := tNi
    let st := 0
    let d := tDesc [0, 0, 0, 0, 0, 0, 0, 0, 3, 0, 5]
    let w := withOpcode d 6
    descTaken s st w ∧ s.descFails st w = none := by
  simp only [← tTaken_iff]; decide +kernel

theorem wit_LocalDescriptorsComplete_3 :
    let s := tNi
    let st := 0
    let d := tDesc [0, 0, 0, 0, 0, 0, 0, 0, 3, 0, 5]
    let w := withOpcode d 7
    descTaken s st w ∧ s.descFails st w = none := by
  simp only [← tTaken_iff]; decide +kernel

theorem wit_DirectTransfersQueue_1 :
    ∀ p ∈ [(1, tPut), (2, tPut), (3, tIdx), (4, tMsg), (5, tAtm)],
      let s := tNi
      let st := 0
      let w := withOpcode p.2 p.1
      let x := ({ d := w, coord := s.coord, dest := BitVec.ofNat 16 (dDest w), acc := s.stFt st } : Task)
      descTaken s st w ∧ s.descFails st w = none ∧ dDirect w = true ∧ s.tableBad (niUnit st) srPath (s.taskPath st x) = false ∧
        s.stationAbsent x.dest.toNat = false ∧ s.dieOff (x.dest.toNat / 2048) = false ∧ dKey w = 0 ∧
        (s.getNi st).yellow.any (fun y => y.key == dKey w) = false := by
  simp only [← tTaken_iff]; decide +kernel

theorem wit_RankMissFetches_1 :
    ∀ p ∈ [(1, tRank 1), (2, tRank 1), (3, tRank 3), (4, tRank 1), (5, tRank 5)],
      let s := tBanked
      let st := 0
      let w := withOpcode p.2 p.1
      let r := ({ count := 8, log2rpp := 3, pkgTable := 0, stnMap := 0 } : RankDesc)
      descTaken s st w ∧ s.descFails st w = none ∧ dDirect w = false ∧ rankDesc s.bankIn (dKey w) = some r ∧
        s.tableBad (niUnit st) srRank (inBank s.alm.inForce (dKey w)) = false ∧ dDest w = 7 ∧ s.xlatHit st (dKey w) (dDest w) = none := by
  simp only [← tTaken_iff]; decide +kernel

theorem wit_StreamPutReadsTile_1 :
    let s := tBanked
    let st := 0
    let d := tDesc [0x500000, 0, 7, 256, 0x1000]
    let w := withOpcode d 8
    descTaken s st w ∧ s.descFails st w = none ∧ kfree (s.getNi st).rd 256 = some 0 := by
  simp only [← tTaken_iff]; decide +kernel

theorem wit_TriggersStoreFireClear_1 :
    ∀ p ∈ [(0, tPut), (0x20, tCol 1)],
      let s := tNi
      let st := 0
      let w := withOpcode p.2 p.1 ||| ((1#512) <<< 472)
      niFree s st = true ∧ s.cmdReady st w = true ∧ descMalformed w = false ∧ (opCollective (dOp w) = true → collMalformed w = false) := by decide +kernel

theorem wit_TriggersStoreFireClear_2 :
    let d := tPut
    let s := tNi.updNi 0 (fun n => { n with fireq := [4095], trig := [(4095, d)] })
    let st := 0
    niUp s st = true ∧ (s.getNi st).fireq = [4095] ∧ kfind (s.getNi st).trig 4095 = some d := by decide +kernel

theorem wit_TriggersStoreFireClear_3 :
    let s := tNi.updNi 0 (fun n => { n with fireq := [4095], trig := [(4095, tPut)] })
    let st := 0
    niFree s st = true := by decide +kernel

theorem wit_TriggersStoreFireClear_4 :
    let s := tNi
    let st := 0
    let w := tDesc [0x800F] ||| ((1#512) <<< 472)
    niFree s st = true ∧ s.cmdReady st w = true ∧ descMalformed w = true := by decide +kernel

theorem wit_TranslationsAnswerAndFlush_1 :
    let s := tBanked.updNi 0 (fun n => { n with live := 1, xlatWait := [tTask (tRank 1)] })
    let st := 0
    let pkgEntry := (0x80000000 : W32)
    let stnEntry := (3 : W16)
    let x := tTask (tRank 1)
    let y := ({ key := 5, rank := 7, coord := 0, station := 3 } : Xlat)
    niUp s st = true ∧ (s.getNi st).xlatWait = [x] ∧ pkgEntry.getLsbD 31 = true ∧ stnEntry ≠ 0xFFFF ∧ y = { key := dKey x.d, rank := dDest x.d, coord := pkgEntry.extractLsb' 0 17, station := stnEntry } := by decide +kernel

theorem wit_TranslationsAnswerAndFlush_2 :
    let s := tBanked.updNi 0 (fun n => { n with live := 1, xlatWait := [tTask (tRank 1)] })
    let st := 0
    let x := tTask (tRank 1)
    niUp s st = true ∧ (s.getNi st).xlatWait = [x] ∧
      ((0 : W32).getLsbD 31 = false ∨ (3 : W16) = 0xFFFF) ∧ ((0x80000000 : W32).getLsbD 31 = false ∨ (0xFFFF : W16) = 0xFFFF) := by decide +kernel

theorem wit_TranslationsAnswerAndFlush_3 :
    let s := tBanked
    let st := 0
    niFree s st = true := by decide +kernel

theorem wit_StationSignalsAct_1 :
    let s := tNi.updNi 0 (fun n => { n with wr := [(255, .nothing)] })
    let st := 0
    let id := 255
    niUp s st = true ∧ kfind (s.getNi st).wr id = some .nothing := by decide +kernel

theorem wit_StationSignalsAct_2 :
    let s := tNi.updNi 0 (fun n => { n with rd := [(255, .serve tFr 0)] })
    let st := 0
    let id := 255
    niUp s st = true ∧ kfind (s.getNi st).rd id = some (.serve tFr 0) := by decide +kernel

theorem wit_StationSignalsAct_3 :
    let c := (dueOf tPut 0 0 0 1).cpl
    let s := tNi.updNi 0 (fun n => { n with cpl := [c], due := [dueOf tPut 0 0 0 1] })
    let st := 0
    niFree s st = true ∧ (s.getNi st).cpl = [c] := by decide +kernel

theorem wit_StationSignalsAct_4 :
    let s := tNi.updNi 0 (fun n => { n with evt := [(4095, 1)] })
    let st := 0
    niFree s st = true ∧ kfind (s.getNi st).evt 4095 = some 1 := by decide +kernel

theorem wit_RequestsReachTheStation_1 :
    let f := tFr
    let g := ({ f := f, granted := true, left := 4, bufs := 1, writes := 0, q := 0, poison := none, since := 0 } : Grant)
    let s := tNi.updNi 0 (fun n => { n with grants := [(7, g)] })
    let st := 0
    niFree s st = true ∧ (s.destChecks st f (s.windowOk st f.epoch f.pkey.toNat f.addr.toNat f.length.toNat 1)).isNone = true ∧
      (s.getNi st).grantOf f = some (7, g) ∧ g.granted = true ∧ g.bufs ≠ 0 ∧ kfree (s.getNi st).wr 256 = some 0 := by decide +kernel

theorem wit_RequestsReachTheStation_2 :
    let f := tFr
    let s := tNi
    let st := 0
    let id := 0
    niFree s st = true ∧ (s.destChecks st f (s.windowOk st f.epoch f.pkey.toNat f.addr.toNat f.length.toNat 1)).isNone = true ∧ kfree (s.getNi st).wr 256 = some id := by decide +kernel

theorem wit_RequestsReachTheStation_3 :
    let f := tFr
    let s := tNi
    let st := 0
    let id := 0
    (s.destChecks st f (s.piecesOk st f 0)).isNone = true ∧ kfree (s.getNi st).rd 256 = some id := by decide +kernel

theorem wit_RequestsReachTheStation_4 :
    let f := { tFr with seq := 8192 + 4 }
    let s := tNi
    let st := 0
    let id := 0
    (s.destChecks st f true).isNone = true ∧ 0 < rowCount f ∧ s.windowOk st f.epoch f.pkey.toNat (rowAddr f 0).toNat (rowSize f) 3 = true ∧ kfree (s.getNi st).rd 256 = some id := by decide +kernel

theorem wit_RequestsReachTheStation_5 :
    let f := tFr
    let s := tNi
    let st := 0
    let id := 0
    (s.destChecks st f (s.windowOk st f.epoch f.pkey.toNat f.addr.toNat 8 2)).isNone = true ∧ f.journal = false ∧ (s.getNi st).atomics = [] ∧ kfree (s.getNi st).rd 256 = some id := by decide +kernel

theorem wit_RequestsReachTheStation_6 :
    let f := { tFr with journal := true }
    let s := tNi
    let st := 0
    let id := 0
    (s.destChecks st f (s.windowOk st f.epoch f.pkey.toNat f.addr.toNat 8 2)).isNone = true ∧ s.fld (niUnit st) F.NI_JRNL_CTRL_MODE ≠ 2 ∧ (s.getNi st).atomics = [] ∧ kfree (s.getNi st).rd 256 = some id := by decide +kernel

theorem wit_ReservationsAreGranted_1 :
    let s := tRsv.setFld (poolUnit 0) F.POOL_CTRL_EN 1
    let st := 0
    let die := 0
    let n := 1
    let f := { tFr with pkey := 5 }
    niFree s st = true ∧ (s.destChecks st f (s.piecesOk st f 1)).isNone = true ∧ die = poolDie s.pkg st ∧ n = (putPieces f.addr f.seq.toNat).length ∧ s.poolPresent die = true ∧ s.bit (poolUnit die) F.POOL_CTRL_EN = true ∧ (s.getPool die).held f.pkey.toNat + n ≤ s.ceiling (poolUnit die) f.pkey.toNat ∧ (s.getPool die).queue = [] ∧ n ≤ s.poolFree die := by decide +kernel

theorem wit_ResponsesReachTheStation_1 :
    let s := tTx 1 tPut
    let st := 0
    let f := tFr
    let id := 0
    niFree s st = true ∧ (s.destChecks st f true).isNone = true ∧ (s.answered st f).any (fun x => dOp x.task.d = 1 && x.phase = .sent) = true ∧ kfree (s.getNi st).rd 256 = some id := by decide +kernel

theorem wit_ResponsesReachTheStation_2 :
    let s := tTx 2 tPut
    let st := 0
    let f := tFr
    let id := 0
    niFree s st = true ∧ (s.destChecks st f true).isNone = true ∧ (s.answered st f).any (fun x => dOp x.task.d = 2) = true ∧ kfree (s.getNi st).wr 256 = some id := by decide +kernel

theorem wit_ResponsesReachTheStation_3 :
    let s := tTx 3 tIdx
    let st := 0
    let f := tFr
    let id := 0
    niFree s st = true ∧ (s.destChecks st f true).isNone = true ∧ (s.answered st f).any (fun x => dOp x.task.d = 3) = true ∧ kfree (s.getNi st).wr 256 = some id := by decide +kernel

theorem wit_ResponsesReachTheStation_4 :
    let s := tTx 5 tAtm
    let st := 0
    let f := tFr
    let id := 0
    niFree s st = true ∧ (s.destChecks st f true).isNone = true ∧ (s.answered st f).any (fun x => dOp x.task.d = 5) = true ∧ kfree (s.getNi st).wr 256 = some id := by decide +kernel

theorem wit_ResponsesEndTransactions_1 :
    let s := tTx 1 tPut
    let st := 0
    let f := tFr
    niUp s st = true ∧ (s.destChecks st f true).isNone = true ∧ (s.answered st f).any (fun x => dOp x.task.d = 1) = true := by decide +kernel

theorem wit_ResponsesEndTransactions_2 :
    let s := tTx 4 tMsg
    let st := 0
    let f := tFr
    niUp s st = true ∧ (s.destChecks st f true).isNone = true ∧ (s.answered st f).any (fun x => dOp x.task.d = 4) = true := by decide +kernel

theorem wit_ResponsesEndTransactions_3 :
    let s := tTx 1 tPut
    let st := 0
    let f := { tFr with txn := 255 }
    niQuiet s st = true ∧ (s.destChecks st f true).isNone = true ∧ (s.answered st f).isNone = true := by decide +kernel

theorem wit_NiRegistersFollowTheirCommands_1 :
    let s := tNi
    let st := 0
    niFree s st = true := by decide +kernel

theorem wit_NiRegistersFollowTheirCommands_2 :
    let s := tNi.setPair (niUnit 0) R.NI_STATS_WR 3
    let st := 0
    let rd := (3 : FT)
    niFree s st = true ∧ ftGe (s.pair (niUnit st) R.NI_STATS_WR) rd = true := by decide +kernel

theorem wit_NiRegistersFollowTheirCommands_3 :
    let s := tNi.setPair (niUnit 0) R.NI_JRNL_WR 3
    let st := 0
    let rd := (3 : FT)
    niFree s st = true ∧ ftGe (s.pair (niUnit st) R.NI_JRNL_WR) rd = true := by decide +kernel

theorem wit_NiRegistersFollowTheirCommands_4 :
    let s := tLaunch
    let st := 0
    niFree s st = true ∧ s.hol.suspended = false ∧ s.launches st = [(0, 4095)] ∧ ftGe (s.stFt st) (s.alm.start + BitVec.ofNat 64 (0 * s.alm.spacing)) = true ∧
      kfind (s.getNi st).launched (0 * 4096 + 4095) ≠ some s.alm.cycles := by decide +kernel

theorem wit_NiRegistersFollowTheirCommands_5 :
    let s := (tNi.setFld (niUnit 0) F.NI_VIGIL_RETIRE_MS 0).updNi 0 (fun n => { n with retired := [(255, 0)] })
    let st := 0
    niFree s st = true ∧ kfind (s.getNi st).retired 255 = some 0 ∧ s.fld (niUnit st) F.NI_VIGIL_RETIRE_MS * 4000000 ≤ ftSince (s.stFt st) 0 := by
  decide +kernel

theorem wit_VigilsEndWhatTheyWatch_1 :
    let s := tLate (tTx 1 tPut)
    let st := 0
    let x := ({ task := tTask (withOpcode tPut 1), phase := .sent, vigil := some 0 } : Txn)
    niUp s st = true ∧ kfind (s.getNi st).txn 0 = some x ∧ x.vigil = some 0 ∧ s.vigilLimit st x.task.coord = 8000000 ∧ ftSince (s.stFt st) 0 = 800000000 := by
  decide +kernel

theorem wit_VigilsEndWhatTheyWatch_2 :
    let s := tLate tColl
    let st := 0
    let tag := (9 : W16)
    niUp s st = true ∧ (s.member st tag).any (fun m => m.ending.isNone && decide (s.collLimit st tag ≤ ftSince (s.stFt st) m.vigil)) = true := by decide +kernel

theorem wit_VigilsEndWhatTheyWatch_3 :
    let g := ({ f := tFr, granted := true, left := 4, bufs := 1, writes := 0, q := 0, poison := none, since := 0 } : Grant)
    let s := tLate (tNi.updNi 0 (fun n => { n with grants := [(3, g)] }))
    let st := 0
    let src := 1
    let txn := 0
    niUp s st = true ∧ (s.getNi st).grants.find? (fun e => e.2.granted && e.2.f.srcStation.toNat == src && e.2.f.txn.toNat == txn && decide (1 ≤ e.2.bufs) &&
      decide (4000 * s.fld (niUnit st) F.NI_VIGIL_MACH_US ≤ ftSince (s.stFt st) e.2.at_)) = some (3, g) := by decide +kernel

theorem wit_YellowListDrains_1 :
    let y := ({ task := tTask (withOpcode (tRank 1) 1), key := 5, debit := true } : Yellow)
    let s := tPoliced.updNi 0 (fun n => { n with live := 1, yellow := [y] })
    let st := 0
    let key := 5
    niUp s st = true ∧ (s.getNi st).yellow.find? (fun z => z.key == key) = some y ∧ s.yellowReady st y = true := by decide +kernel

theorem wit_YellowListDrains_2 :
    let y := ({ task := tTask (withOpcode (tRank 1) 1), key := 5, debit := true } : Yellow)
    let s := tPoliced.updNi 0 (fun n => { n with live := 1, yellow := [y], spent := [(5, { tc := 256 * 4000 })] })
    let st := 0
    let key := 5
    let p := ({ mode := 1, cir := 1, pir := 1, cbs := 4000, pbs := 4000, yellowMax := 0 } : Policer)
    niUp s st = true ∧ (s.getNi st).yellow.find? (fun z => z.key == key && z.debit) = some y ∧ s.policerOf (niUnit st) key = some p ∧
      p.yellowMax ≤ slotsBetween y.task.acc (s.stFt st) - y.froze ∧ s.yellowReady st y = false := by decide +kernel

theorem wit_JournalModesAndDivergence_1 :
    let s := tNi
    let st := 0
    niFree s st = true ∧ s.fld (niUnit st) F.NI_JRNL_CTRL_MODE ≠ 2 := by decide +kernel

theorem wit_JournalModesAndDivergence_2 :
    let s := tNi.setFld (niUnit 0) F.NI_JRNL_REPLAY_END_INDEX 1
    let st := 0
    niFree s st = true ∧ s.fld (niUnit st) F.NI_JRNL_CTRL_MODE ≠ 2 ∧ s.fld (niUnit st) F.NI_JRNL_REPLAY_HEAD_INDEX ≠ s.fld (niUnit st) F.NI_JRNL_REPLAY_END_INDEX := by decide +kernel

theorem wit_JournalModesAndDivergence_3 :
    let h := ({ d := { f := tFr, kind := 0, bytes := 4, q := 0, poison := none, since := 0 }, since := 0 } : Held)
    let s := (tNi.setFld (niUnit 0) F.NI_JRNL_DIVERGE_LIMIT_SLOTS 0).updNi 0 (fun n => { n with hold := [h] })
    let st := 0
    niFree s st = true ∧ (s.getNi st).hold = [h] ∧ s.fld (niUnit st) F.NI_JRNL_DIVERGE_LIMIT_SLOTS ≤ slotsBetween h.since (s.stFt st) := by decide +kernel

theorem wit_PoolServesAndRefuses_1 :
    let r := ({ st := 0, key := 5, n := 4096, rsv := false, ref := 0, since := 0 } : PoolReq)
    let s := tNi.setPool 0 { queue := [r] }
    let die := 0
    poolThere s die = true ∧ (s.getPool die).queue = [r] ∧ r.n ≤ s.poolFree die := by decide +kernel

theorem wit_PoolServesAndRefuses_2 :
    let r := ({ st := 0, key := 5, n := 4097, rsv := false, ref := 0, since := 0 } : PoolReq)
    let s := (tNi.setPool 0 { queue := [r] }).setFld (poolUnit 0) F.POOL_CTRL_WAIT_MAX 0
    let die := 0
    poolThere s die = true ∧ (s.getPool die).queue = [r] ∧ s.dieFrozen die = false ∧ s.poolFree die < r.n ∧
      s.fld (poolUnit die) F.POOL_CTRL_WAIT_MAX ≤ s.poolWait r - r.froze := by decide +kernel

theorem wit_CollectivesStartAnInstance_1 :
    ∀ p ∈ [(0x20, tCol 1), (0x21, tDesc [0x500000, 0, 0, 128, 0x1000, 0x90000, 0x4000, 0, 0, 0, 2 ^ 22]), (0x22, tCol 1), (0x23, tCol 1), (0x24, tCol 1),
        (0x25, tCol 1), (0x26, tDesc [0x500000, 64, 0, 64, 0x1000, 0x90000, 0x4000]), (0x27, tCol 1)],
      let s := tBanked
      let st := 0
      let w := withOpcode p.2 p.1
      let tag := (9 : W16)
      descTaken s st w ∧ s.collFails st w = none ∧ cGroup w = 9 ∧ (findGroup s.bankIn 9).isSome = true ∧ (s.getNi st).collRoom 9 = true ∧
        kget 0 (s.getNi st).genNext 9 = 0 ∧ ((s.getEng st).forget tag).cancelled.find? (fun c => c.1 == tag) = none := by
  simp only [← tTaken_iff]; decide +kernel

theorem wit_CollectiveFramesAct_1 :
    let s := tColl
    let st := 0
    let v := s.wakeUnit st
    let f := tCf
    niUp s st = true ∧ (v.destChecks st f true).isNone = true ∧ (v.getEng st).over f.opinfo = false ∧ f.seq ≠ 0xFFFFFFFF := by decide +kernel

theorem wit_CollectiveFramesAct_2 :
    let s := tColl
    let st := 0
    let v := s.wakeUnit st
    let f := { tCf with seq := 0xFFFFFFFF }
    (v.destChecks st f true).isNone = true ∧ (v.getEng st).over f.opinfo = false := by decide +kernel

theorem wit_GrantsResultsAndBarriersAct_1 :
    let s := tColE
    let st := 0
    let v := s.wakeUnit st
    let f := { tCf with srcStation := 80 }
    let chunk := 0
    let mm := (tColE.member 0 9).getD { d := 0, member := 0, size := 0, acc := 0, tag := 0, engine := false, vigil := 0 }
    let g := (findGroup tBanked.bankIn 9).getD (groupOf [])
    niUp s st = true ∧ (v.destChecks st f true).isNone = true ∧ (v.getEng st).over f.opinfo = false ∧ v.member st f.opinfo = some mm ∧ v.groupOf f.opinfo = some g ∧ v.grantedInput g mm st f = some chunk ∧ (mm.inputAt chunk).2 ≠ 0 := by decide +kernel

theorem wit_GrantsResultsAndBarriersAct_2 :
    let s := tBanked
    let st := 0
    let v := s.wakeUnit st
    let f := tCf
    niUp s st = true ∧ (v.destChecks st f true).isNone = true ∧ (v.getEng st).over f.opinfo = false ∧ (v.member st f.opinfo).isNone = true := by decide +kernel

theorem wit_GrantsResultsAndBarriersAct_3 :
    let s := tColR
    let st := 0
    let tag := (9 : W16)
    let no := (0 : W32)
    let i := (tColR.inst 0 9).getD { tag := 0, par := {} }
    niUp s st = true ∧ s.inst st tag = some i ∧ (kfind i.chunks no.toNat).isSome = true ∧ s.mayGrant st tag i (s.chunkAt st tag no.toNat) no.toNat = true := by decide +kernel

theorem wit_GrantsResultsAndBarriersAct_4 :
    let s := tBanked
    let st := 0
    let v := s.wakeUnit st
    let f := tCf
    (v.destChecks st f true).isNone = true ∧ (v.getEng st).over f.opinfo = false ∧ isEngine s.pkg st = false ∧ (v.inst st f.opinfo).isNone = true := by decide +kernel

theorem wit_GrantsResultsAndBarriersAct_5 :
    let s := tBanked
    let st := 0
    let v := s.wakeUnit st
    let f := tCf
    niUp s st = true ∧ (v.destChecks st f true).isNone = true ∧ (v.getEng st).over f.opinfo = false ∧ (v.headerNode st f.opinfo).any (fun n => (v.inEdge n.ins f).isSome) = true := by decide +kernel

theorem wit_GrantsResultsAndBarriersAct_6 :
    let s := tBanked.setFld (niUnit 1) F.NI_CTRL_RX_EN 1
    let st := 1
    let v := s.wakeUnit st
    let f := { tCf with srcStation := 0 }
    niUp s st = true ∧ (v.destChecks st f true).isNone = true ∧ (v.getEng st).over f.opinfo = false ∧ (v.headerNode st f.opinfo).any (fun n => (v.inEdge n.ins f).isNone && n.parent.any (fun e => v.fromEdge e f)) = true := by decide +kernel

theorem wit_InstancesEnd_1 :
    let s := tColl
    let st := 0
    let d := tDesc [0x500000, 0, 0, 0, 0, 0x90000]
    let w := withOpcode d 0x28
    descTaken s st w ∧ s.collFails st w = none := by
  simp only [← tTaken_iff]; decide +kernel

theorem wit_InstancesEnd_2 :
    let s := tReady
    let st := 0
    let tag := (9 : W16)
    niUp s st = true ∧ (s.member st tag).any (fun m => m.ready && m.ending.isNone) = true := by decide +kernel

theorem wit_FieldsTakeOrKeepWrites_1 :
    let k := UnitKind.global
    let r := (rowAt .global R.GLOBAL_DIE).getD ⟨0, 0, 0, .single, []⟩
    let f := F.GLOBAL_DIE_DIE
    r ∈ rowsOf k ∧ f ∈ r.flds ∧ f.acc = .ro := by decide +kernel

theorem wit_FieldsTakeOrKeepWrites_2 :
    let k := UnitKind.global
    let r := (rowAt .global R.GLOBAL_TREE_EVENT).getD ⟨0, 0, 0, .single, []⟩
    let f := F.GLOBAL_TREE_EVENT_TIMEOUT
    r ∈ rowsOf k ∧ f ∈ r.flds ∧ f.acc = .w1c := by decide +kernel

theorem wit_FieldsTakeOrKeepWrites_3 :
    let s := State.reset
    let k := UnitKind.ni
    let u := niUnit 0
    let i := 0
    let r := (rowAt .ni R.NI_VIGIL_PKG).getD ⟨0, 0, 0, .single, []⟩
    let f := F.NI_VIGIL_PKG_US
    let old := (2000 : W32)
    let data := (4000000 : W32)
    r ∈ rowsOf k ∧ f ∈ r.flds ∧ f.acc = .rw ∧ actsItself k r f = false ∧ s.fieldStatus k u r i f old data = trOk := by decide +kernel

theorem wit_FieldsTakeOrKeepWrites_4 :
    let s := State.reset
    let k := UnitKind.ni
    let u := niUnit 0
    let i := 0
    let r := (rowAt .ni R.NI_VIGIL_PKG).getD ⟨0, 0, 0, .single, []⟩
    let f := F.NI_VIGIL_PKG_US
    let old := (2000 : W32)
    let data := (4000001 : W32)
    r ∈ rowsOf k ∧ f ∈ r.flds ∧ f.acc = .rw ∧ s.fieldStatus k u r i f old data ≠ trOk := by decide +kernel

theorem wit_FieldsTakeOrKeepWrites_5 :
    let s := { State.reset with committed := true }
    let k := UnitKind.ni
    let r := (rowAt .ni R.NI_CTRL).getD ⟨0, 0, 0, .single, []⟩
    let f := F.NI_CTRL_KEY0_EN
    let old := (0 : W32)
    let data := (4 : W32)
    r ∈ rowsOf k ∧ f ∈ r.flds ∧ f.acc = .rwl ∧ s.committed = true ∧ getBits data f.hi f.lo ≠ getBits old f.hi f.lo := by decide +kernel

theorem wit_RegisterWritesComplete_1 :
    let s := tHeld
    let core := 0
    let tag := 0
    let u := niUnit 0
    let off := R.NI_VIGIL_PKG
    let addr := tA (niUnit 0) R.NI_VIGIL_PKG
    let data := (5 : W32)
    let k := UnitKind.ni
    let r := (rowAt .ni R.NI_VIGIL_PKG).getD ⟨0, 0, 0, .single, []⟩
    s.holder = some core ∧ s.outstanding.length < 16 ∧ s.treeWait = [] ∧ s.outstanding.any (fun b => b.tag == tag) = false ∧ s.addrOk addr = true ∧ s.unitStopped (unitOf addr) = false ∧ s.startsReset addr data = false ∧ u = unitOf addr ∧ off = offOf addr ∧ unitKind s.pkg u = some k ∧ rowAt k off = some r ∧ s.ignoresWrite k u off = false ∧ r.kind = .single := by decide +kernel

theorem wit_RegisterWritesComplete_2 :
    let s := tHeld
    let u := powerUnit tHeld.pkg
    let off := R.POWER_CTRL
    let addr := tA (dieUnit 16) R.POWER_CTRL
    let data := (1 : W32)
    let k := UnitKind.power
    let r := (rowAt .power R.POWER_CTRL).getD ⟨0, 0, 0, .single, []⟩
    s.addrOk addr = true ∧ s.unitStopped (unitOf addr) = false ∧ s.startsReset addr data = false ∧ unitKind s.pkg (unitOf addr) = some k ∧ rowAt k off = some r ∧ s.ignoresWrite k u off = false ∧ r.kind = .single := by decide +kernel

theorem wit_RegisterWritesComplete_3 :
    let s := tHeld
    let u := globalUnit 16
    let off := R.GLOBAL_TREE_CTRL
    let addr := tA (globalUnit 16) R.GLOBAL_TREE_CTRL
    let k := UnitKind.global
    let r := (rowAt .global R.GLOBAL_TREE_CTRL).getD ⟨0, 0, 0, .single, []⟩
    s.addrOk addr = true ∧ s.unitStopped (unitOf addr) = false ∧ unitKind s.pkg u = some k ∧ rowAt k off = some r ∧ s.ignoresWrite k u off = false ∧ r.kind = .single ∧ s.tree = [] ∧ k ∈ [UnitKind.global, .router, .memst, .almRouter] := by decide +kernel

theorem wit_OnlyTheHolderWrites_1 :
    let s := tHeld
    let core := 1
    core < 2 ∧ s.holder ≠ some core := by decide +kernel

theorem wit_OnlyTheHolderWrites_2 :
    let s := { tHeld with lease := { epoch := 1 } }
    let core := 0
    let epoch := 0
    s.holder = some core ∧ epoch ≠ s.lease.epoch := by decide +kernel

theorem wit_CountersReadConsistently_1 :
    let s := tNi.setCtr (routerUnit 0 0) R.ROUTER_MALFORMED 0xFFFFFFFFFFFF
    let u := routerUnit 0 0
    let off := R.ROUTER_MALFORMED
    let addr := tA (routerUnit 0 0) R.ROUTER_MALFORMED
    let k := UnitKind.router
    let r := (rowAt .router R.ROUTER_MALFORMED).getD ⟨0, 0, 0, .single, []⟩
    s.addrOk addr = true ∧ u = unitOf addr ∧ off = offOf addr ∧ unitKind s.pkg u = some k ∧ rowAt k off = some r ∧ r.kind = .counter ∧ isHi r off = false := by decide +kernel

theorem wit_CountersReadConsistently_2 :
    let s := { (tNi.setCtr (routerUnit 0 0) R.ROUTER_MALFORMED 0xFFFFFFFFFFFF) with shadows := [(regAddr (routerUnit 0 0) R.ROUTER_MALFORMED, 5)] }
    let u := routerUnit 0 0
    let off := R.ROUTER_MALFORMED + 4
    let addr := tA (routerUnit 0 0) (R.ROUTER_MALFORMED + 4)
    let k := UnitKind.router
    let r := (rowAt .router R.ROUTER_MALFORMED).getD ⟨0, 0, 0, .single, []⟩
    let v := (5 : W32)
    s.addrOk addr = true ∧ u = unitOf addr ∧ off = offOf addr ∧ rowAt k off = some r ∧ r.kind = .counter ∧ isHi r off = true ∧ kfind s.shadows (regAddr u (off - 4)) = some v := by decide +kernel

theorem wit_CountersReadConsistently_3 :
    let s := tNi.setCtr (routerUnit 0 0) R.ROUTER_MALFORMED 0xFFFFFFFFFFFF
    let u := routerUnit 0 0
    let off := R.ROUTER_MALFORMED + 4
    let addr := tA (routerUnit 0 0) (R.ROUTER_MALFORMED + 4)
    let r := (rowAt .router R.ROUTER_MALFORMED).getD ⟨0, 0, 0, .single, []⟩
    s.addrOk addr = true ∧ isHi r off = true ∧ (kfind s.shadows (regAddr u (off - 4))).isNone = true := by decide +kernel

theorem wit_CountersReadConsistently_4 :
    let s := tNi
    let side := 1
    let u := sideUnit tNi.pkg 7 1
    let addr := BitVec.ofNat 32 (regAddr u R.TIME_NOW)
    side < 2 ∧ s.addrOk addr = true ∧ unitKind s.pkg u = some .time := by decide +kernel

theorem wit_CountersSaturateAndClear_1 :
    let s := tNi.setCtr (routerUnit 0 0) R.ROUTER_MALFORMED 0xFFFFFFFFFFFF
    let u := routerUnit 0 0
    let off := R.ROUTER_CNT_CLR
    let addr := tA (routerUnit 0 0) R.ROUTER_CNT_CLR
    let k := UnitKind.router
    s.addrOk addr = true ∧ u = unitOf addr ∧ off = offOf addr ∧ unitKind s.pkg u = some k ∧ (rowAt k off).isSome = true ∧ s.ignoresWrite k u off = false ∧ (clearsOf k).any (fun c => c.1 == off) = true := by decide +kernel

theorem wit_ShapersInjectorsAndPairsTakeWrites_1 :
    let s := tNi
    let u := niUnit 0
    let off := R.NI_Q_RATE + 480
    let addr := tA (niUnit 0) (R.NI_Q_RATE + 480)
    let k := UnitKind.ni
    let r := (rowAt .ni R.NI_Q_RATE).getD ⟨0, 0, 0, .single, []⟩
    s.addrOk addr = true ∧ u = unitOf addr ∧ off = offOf addr ∧ unitKind s.pkg u = some k ∧ rowAt k off = some r ∧ shaperRow k r = true := by decide +kernel

theorem wit_ShapersInjectorsAndPairsTakeWrites_2 :
    let s := tNi.setFld (faultUnit 0) F.FAULT_CTRL_INJ_EN 1
    let u := niUnit 0
    let off := R.NI_INJ
    let addr := tA (niUnit 0) R.NI_INJ
    let data := (0x80000001 : W32)
    let k := UnitKind.ni
    let r := (rowAt .ni R.NI_INJ).getD ⟨0, 0, 0, .single, []⟩
    s.addrOk addr = true ∧ u = unitOf addr ∧ off = offOf addr ∧ unitKind s.pkg u = some k ∧ rowAt k off = some r ∧ injectKind k = true ∧ s.wordStatus k u r (rowIndex r off) (s.reg u off) data = trOk := by decide +kernel

theorem wit_ShapersInjectorsAndPairsTakeWrites_3 :
    let s := tNi
    let u := niUnit 0
    let off := R.NI_JRNL_RD
    let addr := tA (niUnit 0) R.NI_JRNL_RD
    let k := UnitKind.ni
    let r := (rowAt .ni R.NI_JRNL_RD).getD ⟨0, 0, 0, .single, []⟩
    s.addrOk addr = true ∧ u = unitOf addr ∧ off = offOf addr ∧ unitKind s.pkg u = some k ∧ rowAt k off = some r ∧ r.kind = .rwPair ∧ s.ignoresWrite k u off = false ∧ s.pairLocked r = false ∧ isHi r off = false := by decide +kernel

theorem wit_ShapersInjectorsAndPairsTakeWrites_4 :
    let s := { tNi with staged := [(regAddr (niUnit 0) R.NI_STATS_BASE, 0x1040)] }
    let u := niUnit 0
    let off := R.NI_STATS_BASE + 4
    let addr := tA (niUnit 0) (R.NI_STATS_BASE + 4)
    let k := UnitKind.ni
    let r := (rowAt .ni R.NI_STATS_BASE).getD ⟨0, 0, 0, .single, []⟩
    s.addrOk addr = true ∧ u = unitOf addr ∧ off = offOf addr ∧ rowAt k off = some r ∧ r.kind = .rwPair ∧ s.ignoresWrite k u off = false ∧ s.pairLocked r = false ∧ isHi r off = true := by decide +kernel

theorem wit_TimedOutAccessesEnd_1 :
    let s := tHeld
    let addr := tA (niUnit 0) 0
    let write := false
    let atRoot := false
    let d := 0
    write = false ∧ d = (if atRoot || !dieExists s.pkg (unitDie (unitOf addr)) then s.rootDie else unitDie (unitOf addr)) := by decide +kernel

theorem wit_TimedOutAccessesEnd_2 :
    let addr := tA (niUnit 0) 0
    let s := { tHeld with tree := [{ core := 0, tag := 3, addr := addr, write := true, data := 0 }] }
    let tag := 3
    s.tree.any (fun a => !a.lost && a.tag == tag && a.addr == addr) = true := by decide +kernel

theorem wit_RouterFramesEnterOrDrop_1 :
    let s := tBanked
    let isl := (⟨0, 0⟩ : Island)
    let input := 63
    let plane := 0
    let vc := 0
    let f := { tFr with cls := 4 }
    let g := poisonFlits plane [] f
    let key := islKey 0 0
    islUp s isl = true ∧ s.fromPort isl input plane vc f = some (s, f) ∧ key = islKey isl.die isl.inst ∧ malformedWhy g plane = none ∧
      s.epochBank g.epoch = some s.bankIn ∧ s.admits (bitNat g.epoch) s.bankIn (routerUnit isl.die isl.inst) g.pkey.toNat = true ∧
      s.vcFlits isl.die isl.inst (inKey input plane vc) < inCap s.pkg isl.die isl.inst input ∧
      (s.routeOuts isl.die isl.inst input vc g).any (fun o => o ≠ []) = true := by decide +kernel

theorem wit_RouterFramesEnterOrDrop_2 :
    let s := tRx
    let isl := (⟨16, 1⟩ : Island)
    let f := tIn
    let t := (tRx.fromPort ⟨16, 1⟩ 6 0 0 tIn).getD (State.reset, tFr)
    let g := poisonFlits 0 [0] t.2
    islUp s isl = true ∧ (s.fromPort isl 6 0 0 f).isSome = true ∧ malformedWhy g 0 = none ∧
      (t.1.epochBank g.epoch).any (fun b => t.1.admits (bitNat g.epoch) b (routerUnit 16 1) g.pkey.toNat) = true ∧
      (t.1.routeOuts 16 1 6 0 g).any (fun o => o ≠ []) = true := by decide +kernel

theorem wit_RouterFramesEnterOrDrop_3 :
    let s := tBanked
    let isl := (⟨0, 0⟩ : Island)
    let f := { tFr with cls := 0x3F }
    islUp s isl = true ∧ s.fromPort isl 63 0 0 f = some (s, f) ∧ malformedWhy (poisonFlits 0 [] f) 0 = some 1 := by decide +kernel

theorem wit_RouterFramesEnterOrDrop_4 :
    let s := tNi
    let isl := (⟨0, 0⟩ : Island)
    let f := { tFr with cls := 4, pkey := 5 }
    let g := poisonFlits 0 [] f
    islUp s isl = true ∧ s.fromPort isl 63 0 0 f = some (s, f) ∧ malformedWhy g 0 = none ∧ s.epochBank g.epoch = some s.bankIn ∧
      s.admits (bitNat g.epoch) s.bankIn (routerUnit isl.die isl.inst) g.pkey.toNat = false := by decide +kernel

theorem wit_ArbitersGrantOneRequester_1 :
    let s := tIssue
    let arb := Arb.niIssue 0
    let u := (s.offerOf arb).2
    arbHere s arb = true ∧ (s.emergency arb).isNone = true ∧ sramArb arb = false ∧ s.offerOf arb = (none, u) ∧
      (arbPick (u.arbState arb) (u.reqsOf arb none)).any (fun w => decide (w.id < 1000)) = true := by decide +kernel

theorem wit_ArbitersGrantOneRequester_2 :
    let s := tNi
    let arb := Arb.engineIn 80
    let extra := [(⟨3, 2, 0, false⟩ : Requester)]
    arbHere s arb = true ∧ (s.emergency arb).isNone = true ∧ extra.any (fun x => x.emergency) = false ∧ sramArb arb = false ∧ s.offerOf arb = (none, s) ∧
      arbPick (s.arbState arb) (s.reqsOf arb none ++ (extra.filter (fun r => !r.emergency)).map extraReq) = some ⟨1003, 2, 0⟩ := by decide +kernel

theorem wit_ArbitersGrantOneRequester_3 :
    let s := tHq
    let arb := Arb.portMux 0
    arbHere s arb = true ∧ (s.emergency arb).isSome = true := by decide +kernel

theorem wit_ArbitersGrantOneRequester_4 :
    let arb := Arb.sram (niUnit 0) 0
    let s := tNi.setArb arb { sinceScrub := 4095 }
    let extra := [(⟨0, 0, 0, true⟩ : Requester)]
    arbHere s arb = true ∧ (s.emergency arb).isNone = true ∧ extra.any (fun x => x.emergency) = true ∧ sramArb arb = true ∧
      4095 ≤ (s.arbState arb).sinceScrub := by decide +kernel

theorem wit_SlotBoundariesRefillAndDrop_1 :
    let s := tSlot
    let isl := (⟨0, 0⟩ : Island)
    let key := 0
    islUp s isl = true ∧ key = islKey isl.die isl.inst ∧ s.dieFrozen isl.die = false ∧ (kget {} s.isl key).running = true ∧ (kget {} s.isl key).ftValid = true ∧ s.nextBoundary key = ((128 : FT), 1) := by decide +kernel

theorem wit_SlotBoundariesRefillAndDrop_2 :
    let q := 15
    q < 16 := by decide +kernel

theorem wit_SlotBoundariesRefillAndDrop_3 :
    let s := tNi.updRtr 0 (fun r => { r with inq := [(inKey 31 0 0, [{ tHead tFr with defer := some (0, 0) }])] })
    let isl := (⟨0, 0⟩ : Island)
    let key := 0
    let input := 31
    let plane := 0
    let vc := 0
    let h := { tHead tFr with defer := some (0, 0) }
    islUp s isl = true ∧ s.dieFrozen isl.die = false ∧ input < 32 ∧ kget [] (s.getRtr key).inq (inKey input plane vc) = [h] ∧ deferredOut h.defer (s.islFt key) = true := by decide +kernel

theorem wit_AlmanacBanksMove_1 :
    let s := tAlm .free
    let v := (0x4000 : W16)
    s.alm.other = .free ∧ s.loadable v = true := by decide +kernel

theorem wit_AlmanacBanksMove_2 :
    let s := (tAlm .ready).setPair (almUnit State.reset.pkg) R.ALM_EQX_AT 32768
    s.alm.other = .ready ∧ s.targetOk (s.pair (almUnit s.pkg) R.ALM_EQX_AT).toNat = true := by decide +kernel

theorem wit_AlmanacBanksMove_3 :
    let s := tAlm .armed
    s.alm.other = .armed := by decide +kernel

theorem wit_AlmanacBanksMove_4 :
    let s := { tAlm .loading with alm := { other := .loading, loading := some {} } }
    s.alm.other = .loading ∧ s.alm.loading = some {} ∧ s.alm.byPower = false := by decide +kernel

theorem wit_AlmanacBanksMove_5 :
    let s := { tAlm .free with alm := { cool := some true } }
    let w := (0x4000 : W16)
    s.alm.cool = some true ∧ s.alm.other = .free ∧ coolVariant s.bankIn.variant true = some w ∧ s.loadable w = true := by decide +kernel

theorem wit_AlmanacBanksMove_6 :
    let s := tAlm .held
    s.alm.other = .held ∧ s.alm.cool = none := by decide +kernel

theorem wit_KalendsBeginsACycle_1 :
    let s := { tAlm .armed with alm := { other := .armed, target := 1024 } }
    s.hol.suspended = false ∧ s.alm.other = .armed ∧ s.alm.target.toNat < 2 ^ 57 ∧
      ftGe s.nextKalends (BitVec.ofInt 64 (s.time.accepted + 128 * s.alm.target.toNat)) = true := by decide +kernel

theorem wit_KalendsBeginsACycle_2 :
    let s := { tAlm .armed with alm := { other := .armed, target := 1025, leap := 200 } }
    s.hol.suspended = false ∧ ftGe s.nextKalends (BitVec.ofInt 64 (s.time.accepted + 128 * s.alm.target.toNat)) = false := by decide +kernel

theorem wit_KalendsBeginsACycle_3 :
    let s := tAlm .free
    s.hol.suspended = false ∧ s.alm.other ≠ .armed := by decide +kernel

theorem wit_TimeExchangeRuns_1 :
    let s := tPort 5
    let port := 0
    portThere s port = true ∧ s.portTrained port = true ∧ s.portLive port = true ∧ s.role = 0 := by decide +kernel

theorem wit_TimeExchangeRuns_2 :
    let s := (tPort 5).setExch 0 { xid := 7, t2 := some 200, t3 := some 200 }
    let port := 0
    let fu := tFu
    portThere s port = true ∧ s.portTrained port = true ∧ s.portLive port = true ∧ s.role = 0 ∧ (s.exch port).t2.isSome = true ∧ (s.exch port).xid = fu.xid := by decide +kernel

theorem wit_TimeExchangeRuns_3 :
    let s := (tPort 5).setExch 0 { xid := 7, t2 := some 200, t3 := some 200, fu := some tFu }
    let port := 0
    portThere s port = true ∧ s.portTrained port = true ∧ s.portLive port = true ∧ (s.exch port).t2 = some 200 ∧ (s.exch port).fu = some tFu ∧ (s.exch port).t3 = some 200 ∧ (s.exch port).xid = 7 ∧ tFu.xid = 7 := by decide +kernel

theorem wit_ReferencesComeAndGo_1 :
    let s := { tUp with time := { tUp.time with upstream := some 1 } }
    s.role = 0 ∧ s.time.upstream = some 1 ∧ s.syncsMissed 1 8 = true ∧
      ((s.updTimePort 1 (fun p => { p with good := 0 })).upstreamList.filter (fun x => x != 1)).find?
        (s.updTimePort 1 (fun p => { p with good := 0 })).portQualifies = some 0 := by decide +kernel

theorem wit_ReferencesComeAndGo_2 :
    let s := { tUp with time := { tUp.time with upstream := some 1 } }
    let port := 0
    portThere s port = true ∧ s.role = 0 ∧ s.upstreamList.contains port = true ∧ s.portQualifies port = true ∧ s.time.upstream = some 1 ∧ s.upstreamList.idxOf port < s.upstreamList.idxOf 1 ∧ 64 ≤ (s.timePort port).good := by decide +kernel

theorem wit_ReferencesComeAndGo_3 :
    let s := { (State.reset.setFld (timeUnit State.reset.pkg) F.TIME_CTRL_ROLE 2) with time := { state := 3 } }
    s.role = 2 ∧ s.time.state = 3 := by decide +kernel

theorem wit_ReferencesComeAndGo_4 :
    let s := { (State.reset.setFld (timeUnit State.reset.pkg) F.TIME_CTRL_ROLE 2) with time := { ppsWritten := true } }
    s.role = 2 ∧ s.time.state = 0 ∧ s.time.ppsWritten = true := by decide +kernel

theorem wit_TimePinsAndIslandsFollow_1 :
    let s := { State.reset with time := { state := 1, d := 128 * (2 ^ 31 - 1) } }
    let side := 0
    s.time.root = side ∧ s.time.state = 1 ∧ (Int.tdiv s.time.d 128 + s.alm.leap).natAbs ≤ leapBound := by decide +kernel

theorem wit_TimePinsAndIslandsFollow_2 :
    let s := { (State.reset.setFld (timeUnit State.reset.pkg) F.TIME_CTRL_PPS_OUT_EN 1) with time := { state := 3, ft := 4000000001 } }
    s.bit (timeUnit s.pkg) F.TIME_CTRL_PPS_OUT_EN = true ∧ s.time.state ≠ 0 ∧ s.time.ppsOut = false ∧ s.time.ppsSec ≠ some s.second ∧
      s.inSecond < s.ppsWidth := by decide +kernel

theorem wit_TimePinsAndIslandsFollow_3 :
    let s := { State.reset with time := { ppsOut := true } }
    let t := { State.reset with time := { ppsOut := true, ppsSec := some 0, ft := 3999999999 } }
    (s.time.ppsOut = true ∧ s.time.ppsSec ≠ some s.second) ∧ t.time.ppsOut = true ∧ t.ppsWidth ≤ t.inSecond := by decide +kernel

theorem wit_TimePinsAndIslandsFollow_4 :
    let s := { (State.reset.setFld (timeUnit State.reset.pkg) F.TIME_CTRL_ROLE 1) with time := { state := 3 } }
    s.timeValidNow = true ∧ s.time.valid = false := by decide +kernel

theorem wit_TimePinsAndIslandsFollow_5 :
    let s := { State.reset with time := { valid := true } }
    s.timeValidNow = false ∧ s.time.valid = true := by decide +kernel

theorem wit_TimePinsAndIslandsFollow_6 :
    let s := { State.reset with time := { ft := 4000 }, isl := [(0, { running := true, ftValid := true, beyond := 1 })] }
    let isl := (⟨0, 0⟩ : Island)
    let seen := (9 : Int)
    let i := s.island isl.die isl.inst
    islThere s isl = true ∧ i.running = true ∧ i.ftValid = true ∧ i.pulse < s.pulses ∧ 8 < (seen - i.delay).natAbs ∧ 1 ≤ i.beyond := by decide +kernel

theorem wit_TimePinsAndIslandsFollow_7 :
    let s := { State.reset with isl := [(0, { running := true })] }
    let isl := (⟨0, 0⟩ : Island)
    islThere s isl = true ∧ (s.island isl.die isl.inst).running = true ∧ (s.island isl.die isl.inst).ftValid = false ∧ s.busyStations isl.die = [] := by
  decide +kernel

theorem wit_LinkLayerActs_1 :
    let s := tLocked
    let port := 0
    portThere s port = true ∧ 2 ≤ s.portState port ∧ (s.getPort port).acwLock = true ∧ (s.getPort port).rxLanes = tLanes := by decide +kernel

theorem test_zero_symbols : codewordSymbols tLanes tZeroCw = List.replicate 544 0 := by decide +kernel
theorem test_bad_symbols : codewordSymbols tLanes tBadCw = List.replicate 528 0 ++ tTail := by decide +kernel
theorem test_tail_syndromes : rsSyndromes tTail =
    List.replicate 15 0 ++ [542, 841, 916, 500, 659, 568, 671, 796, 243, 338, 157, 449, 516, 46, 889] := by decide +kernel

theorem wit_LinkLayerActs_7 : rsDecode (codewordSymbols tLanes tZeroCw) = some (List.replicate 544 0) := by
  rw [test_zero_symbols, rsDecode_zeros]

theorem wit_LinkLayerActs_8 : rsDecode (codewordSymbols tLanes tBadCw) = none := by
  rw [test_bad_symbols]
  refine rsDecode_beyond _ ?_ ?_ <;> rw [rsSyndromes_zeros, test_tail_syndromes] <;> decide +kernel

theorem wit_LinkLayerActs_2 :
    let s := tPort 2
    let port := 0
    let acw := tAcw
    portThere s port = true ∧ 2 ≤ s.portState port ∧ acwFind acw.levels = some (15, true) ∧ acw.spacing % 16 = 0 ∧ 0 < acw.spacing ∧ acw.skew ≤ 64 := by
  decide +kernel

theorem wit_LinkLayerActs_3 :
    let s := tHeldPort
    let port := 0
    portThere s port = true ∧ s.portState port = 5 ∧ s.rxOn port = true ∧ s.portTrained port = true ∧ (s.getPort port).held = [{ lseq := 0, units := 2, lf := tLf }] := by decide +kernel

theorem wit_LinkLayerActs_4 :
    let s := (tPort 5).updPort 0 (fun p => { p with nakFor := some 0 })
    let port := 0
    portThere s port = true ∧ s.rxOn port = true ∧ (s.getPort port).nakFor = some (s.getPort port).e := by decide +kernel

theorem wit_LinkLayerActs_5 :
    let s := tRoom
    let port := 0
    let lf := signFrame tLf
    portThere s port = true ∧ s.portState port = 5 ∧ lf.ackValid = false ∧ s.arrival port lf = .accepted ∧ lf.frame.cls ≠ 0x3C := by
  refine ⟨by decide +kernel, by decide +kernel, by decide +kernel, ?_, by decide +kernel⟩
  simp only [State.arrival, frameCrcOk_signFrame]; decide +kernel

theorem wit_LinkLayerActs_6 :
    let s := tRoom.updPort 0 (fun p => { p with e := 2048 })
    let port := 0
    let lf := signFrame tLf
    portThere s port = true ∧ s.portState port = 5 ∧ lf.ackValid = false ∧ s.arrival port lf = .duplicate := by
  refine ⟨by decide +kernel, by decide +kernel, by decide +kernel, ?_⟩
  simp only [State.arrival, frameCrcOk_signFrame]; decide +kernel

theorem wit_PortTrainingMoves_1 :
    let s := tPort 5
    let port := 0
    let tr := tTrain 3
    portThere s port = true ∧ 1 ≤ tr.state ∧ tr.state ≤ 3 ∧ s.portState port = 5 := by decide +kernel

theorem wit_PortTrainingMoves_2 :
    let s := tPort 4
    let port := 0
    let tr := tTrain 1
    portThere s port = true ∧ 1 ≤ tr.state ∧ tr.state ≤ 3 ∧ 2 ≤ s.portState port ∧ s.portState port ≤ 4 := by decide +kernel

theorem wit_PortTrainingMoves_3 :
    let s := tPort 1
    let port := 0
    portThere s port = true ∧ s.portState port = 1 := by decide +kernel

theorem wit_PortTrainingMoves_4 :
    let s := tPort 2
    let port := 0
    portThere s port = true ∧ s.portState port = 2 ∧ layoutOf ((s.clearDeaf port).ownLanes port) ≠ 0 := by decide +kernel

theorem wit_PortTrainingMoves_5 :
    let s := tPort 3
    let port := 0
    portThere s port = true ∧ s.portState port = 3 := by decide +kernel

theorem wit_PortTrainingMoves_6 :
    let s := tPort 4
    let port := 0
    portThere s port = true ∧ s.portState port = 4 := by decide +kernel

theorem wit_PortTrainingMoves_7 :
    let s := (tPort 4).updPort 0 (fun p => { p with away := true, rxActive := true })
    let port := 0
    portThere s port = true ∧ s.portState port = 4 ∧ 1 ≤ s.portState port ∧ (s.getPort port).away = true ∧ (s.getPort port).rxActive = true := by decide +kernel

theorem wit_PortTrainingMoves_8 :
    let s := tPort 5
    let port := 0
    portThere s port = true ∧ s.portState port = 5 ∧ layoutOf (s.ownLanes port) ≠ 0 := by decide +kernel

theorem wit_PortTrainingMoves_9 :
    let s := (tPort 1).updPort 0 (fun p => { p with savedUse := true })
    let port := 0
    portThere s port = true ∧ s.portState port = 1 ∧ (s.getPort port).savedUse = true := by decide +kernel

theorem wit_PortTrainingMoves_10 :
    let s := (tPort 5).setPt 0 F.PORT_STATUS_QUAL 1
    let port := 0
    portThere s port = true ∧ s.portState port = 5 ∧ s.pt port F.PORT_STATUS_QUAL = 1 ∧ s.windowPasses port (s.getPort port).win = true := by decide +kernel

theorem wit_PortTrainingMoves_11 :
    let s := (((tPort 5).setPt 0 F.PORT_STATUS_QUAL 2).setPt 0 F.PORT_CTRL_AUTO_DEGRADE 0).updPort 0 (fun p => { p with fails := 2, win := { u := 1 } })
    let port := 0
    portThere s port = true ∧ s.portState port = 5 ∧ s.pt port F.PORT_STATUS_QUAL = 2 ∧ s.windowPasses port (s.getPort port).win = false ∧ 2 ≤ (s.getPort port).fails ∧ s.pt port F.PORT_CTRL_AUTO_DEGRADE = 0 := by decide +kernel

theorem wit_PortTrainingMoves_12 :
    let s := (((tPort 5).setPt 0 F.PORT_STATUS_QUAL 1).setPt 0 F.PORT_CTRL_AUTO_DEGRADE 0).updPort 0 (fun p => { p with win := { u := 1 } })
    let port := 0
    portThere s port = true ∧ s.portState port = 5 ∧ s.pt port F.PORT_STATUS_QUAL = 1 ∧ s.windowPasses port (s.getPort port).win = false ∧
      s.pt port F.PORT_CTRL_AUTO_DEGRADE = 0 := by decide +kernel

theorem wit_PortCommandsAct_1 :
    let s := State.reset
    let port := 27
    portThere s port = true ∧ s.pt port F.PORT_CTRL_EN = 0 ∧ s.portEnabled port = true ∧ layoutOf (s.fuseMask port) ≠ 0 := by decide +kernel

theorem wit_PortCommandsAct_2 :
    let s := (tPort 5).setPt 0 F.PORT_CTRL_EN 1
    let port := 0
    portThere s port = true ∧ s.pt port F.PORT_CTRL_EN = 1 ∧ s.portState port = 5 ∧ layoutOf (s.ownLanes port) ≠ 0 ∧ layoutOf (s.fuseMask port) ≠ 0 := by decide +kernel

theorem wit_PortCommandsAct_3 :
    let s := (((tPort 0).setPt 0 F.PORT_CTRL_EN 1).setPt 0 F.PORT_CTRL_AUTO_RETRY 1).setPt 0 F.PORT_STATUS_DOWN_CAUSE 8
    let port := 0
    portThere s port = true ∧ s.portState port = 0 ∧ s.pt port F.PORT_CTRL_AUTO_RETRY = 1 ∧ s.pt port F.PORT_CTRL_EN = 1 ∧ s.pt port F.PORT_STATUS_DOWN_CAUSE = 8 ∧ layoutOf (s.ownLanes port) ≠ 0 := by decide +kernel

theorem wit_PortCommandsAct_4 :
    let s := tPort 1
    let port := 0
    portThere s port = true ∧ s.portState port ≠ 0 ∧ layoutOf (s.ownLanes port) ≠ 0 := by decide +kernel

theorem wit_CrossingsCarryContainers_1 :
    let s := (tDl 2).updDl 8 (fun d => { d with nak := true })
    let die := 0
    let n := 8
    let key := 8
    dlinkUp s die n = true ∧ key = die * 32 + n ∧ 2 ≤ s.dl key F.DLINK_STATUS_STATE ∧ (s.getDl key).nak = true := by decide +kernel

theorem wit_CrossingsTrainAndFall_1 :
    let s := tDl 0
    let die := 0
    let n := 8
    let key := 8
    dlinkUp s die n = true ∧ n < 32 ∧ s.dlAllowed key = true ∧ s.dl key F.DLINK_STATUS_STATE = 0 := by decide +kernel

theorem wit_CrossingsTrainAndFall_2 :
    let s := tDl 1
    let die := 0
    let n := 8
    let key := 8
    dlinkUp s die n = true ∧ s.dl key F.DLINK_STATUS_STATE = 1 ∧ s.dl key F.DLINK_STATUS_STATE ≠ 0 ∧ (s.getDl key).fresh = false := by decide +kernel

theorem wit_CrossingsTrainAndFall_3 :
    let s := (tDl 2).setDl 8 F.DLINK_CTRL_HALF_ALLOW 1
    let die := 0
    let n := 8
    let key := 8
    let m := 3
    dlinkUp s die n = true ∧ 2 ≤ s.dl key F.DLINK_STATUS_STATE ∧ s.dl key F.DLINK_STATUS_STATE = 2 ∧ s.dl key F.DLINK_STATUS_MODULE_OK = 0xF ∧ (s.getDl key).fresh = false ∧ m < 4 ∧ s.dl key F.DLINK_CTRL_HALF_ALLOW = 1 := by decide +kernel

theorem wit_CrossingsTrainAndFall_4 :
    let s := (tDl 2).setDl 8 F.DLINK_CTRL_HALF_ALLOW 0
    let die := 0
    let n := 8
    let key := 8
    let m := 0
    dlinkUp s die n = true ∧ s.dl key F.DLINK_STATUS_STATE = 2 ∧ s.dl key F.DLINK_STATUS_MODULE_OK = 0xF ∧ (s.getDl key).fresh = false ∧ m < 4 ∧ s.dl key F.DLINK_CTRL_HALF_ALLOW = 0 := by decide +kernel

theorem wit_CrossingsTrainAndFall_5 :
    let s := ((tDl 2).setDl 8 F.DLINK_STATUS_QUAL 1).updDl 8 (fun d => { d with qualErr := 5 })
    let die := 0
    let n := 8
    let key := 8
    dlinkUp s die n = true ∧ 2 ≤ s.dl key F.DLINK_STATUS_STATE ∧ s.dl key F.DLINK_STATUS_QUAL = 1 ∧ (s.getDl key).qualRepair = false ∧ (s.getDl key).qualErr ≤ 5 := by decide +kernel

theorem wit_CrossingsTrainAndFall_6 :
    let s := ((tDl 3).setDl 8 F.DLINK_STATUS_QUAL 1).updDl 8 (fun d => { d with qualErr := 6 })
    let die := 0
    let n := 8
    let key := 8
    dlinkUp s die n = true ∧ 2 ≤ s.dl key F.DLINK_STATUS_STATE ∧ s.dl key F.DLINK_STATUS_QUAL = 1 ∧ 5 < (s.getDl key).qualErr := by decide +kernel

theorem wit_IslandsGlideAndStop_1 :
    let s := State.reset
    let isl := (⟨0, 63⟩ : Island)
    let freq := 88
    islThere s isl = true ∧ 48 ≤ freq ∧ freq ≤ 88 ∧ s.islFloor ≤ 25 * freq := by decide +kernel

theorem wit_IslandsGlideAndStop_2 :
    let s := State.reset
    let isl := (⟨0, 63⟩ : Island)
    let freq := 48
    islThere s isl = true ∧ 48 ≤ freq ∧ s.islFloor ≤ 25 * freq := by decide +kernel

theorem wit_IslandsGlideAndStop_3 :
    let s := tIsl { running := true, locked := true, freq := 48 }
    let isl := (⟨0, 0⟩ : Island)
    let i := s.island 0 0
    islThere s isl = true ∧ i.running = true ∧ i.freq < s.islGoal isl.die isl.inst := by decide +kernel

theorem wit_IslandsGlideAndStop_4 :
    let s := tIsl { running := true, locked := true, freq := 200 }
    let isl := (⟨0, 0⟩ : Island)
    let i := s.island 0 0
    islThere s isl = true ∧ i.running = true ∧ s.islGoal isl.die isl.inst < i.freq := by decide +kernel

theorem wit_IslandsGlideAndStop_5 :
    let s := tIsl { running := false, locked := true, freq := 48 }
    let isl := (⟨0, 0⟩ : Island)
    let i := s.island 0 0
    islThere s isl = true ∧ s.tree = [] ∧ s.treeWait = [] ∧ i.locked = true ∧ i.running = false := by decide +kernel

theorem wit_IslandsGlideAndStop_6 :
    let s := tIsl { running := false, locked := false, freq := 48 }
    let isl := (⟨0, 0⟩ : Island)
    let i := s.island 0 0
    let u := dieUnit 0
    islThere s isl = true ∧ s.tree = [] ∧ s.treeWait = [] ∧ i.locked = false ∧ i.running = false ∧ s.dieState isl.die = 0 ∧ s.fldAt u F.POWER_ISL_CTRL_STOP isl.inst = 0 := by decide +kernel

theorem wit_IslandsGlideAndStop_7 :
    let s := (tIsl { running := false, locked := false, freq := 48 }).setFldAt (dieUnit 0) F.POWER_ISL_CTRL_STOP 0 1
    let isl := (⟨0, 0⟩ : Island)
    let i := s.island 0 0
    let u := dieUnit 0
    islThere s isl = true ∧ s.tree = [] ∧ s.treeWait = [] ∧ i.locked = false ∧ s.dieState isl.die = 0 ∧ s.fldAt u F.POWER_ISL_CTRL_STOP isl.inst = 1 := by decide +kernel

theorem wit_IslandsGlideAndStop_8 :
    let s := State.reset
    let st := 80
    (stationKind s.pkg st).isSome = true ∧ s.pwr.asleep.contains st = false ∧ (s.getEng st).insts = [] := by decide +kernel

theorem wit_IslandsGlideAndStop_9 :
    let s := State.reset
    let isl := (⟨0, 63⟩ : Island)
    islThere s isl = true ∧ ∀ freq ∈ [47, 89], freq < 48 ∨ 88 < freq ∨ 25 * freq < s.islFloor := by decide +kernel

theorem wit_DiesGateAndUngate_1 :
    let s := tDie 0
    let die := 3
    dieExists s.pkg die = true ∧ dieCompute s.pkg die = true ∧ s.holds = false ∧ s.dieUsed die = false ∧ s.dieState die = 0 := by decide +kernel

theorem wit_DiesGateAndUngate_2 :
    let s := State.reset
    let die := 19
    dieExists s.pkg die = true ∧ dieCompute s.pkg die = false ∧ s.holds = false := by decide +kernel

theorem wit_DiesGateAndUngate_3 :
    let s := tDie 1
    let die := 3
    s.dieState die = 1 := by decide +kernel

theorem wit_DiesGateAndUngate_4 :
    let s := tDie 2
    let die := 3
    s.holds = false ∧ s.dieState die = 2 := by decide +kernel

theorem wit_DiesGateAndUngate_5 :
    let s := tDie 3
    let die := 3
    s.dieState die = 3 := by decide +kernel

theorem wit_ThrottleFollowsItsCauses_1 :
    let s := { (State.reset.setFld (powerUnit State.reset.pkg) F.POWER_STATUS_THROTTLE 1).setFld (powerUnit State.reset.pkg) F.POWER_STATUS_HOLDING 1 with
      time := { ft := 4000000, root := 1 } }
    let side := 1
    side < 2 ∧ side = s.pinSide ∧ s.pw F.POWER_STATUS_THROTTLE = 1 ∧ s.pw F.POWER_STATUS_HOLDING = 1 ∧
      4000 * s.powerParam 8 2 1000 ≤ ftSince s.time.ft s.pwr.holdAt := by decide +kernel

theorem wit_ThrottleFollowsItsCauses_2 :
    let s := { State.reset.setFld (powerUnit State.reset.pkg) F.POWER_CTRL_KWARN_EN 1 with time := { ft := 130000 } }
    s.pw F.POWER_CTRL_KWARN_EN = 1 ∧ s.pwr.kwarn = false ∧ ftGe (s.time.ft + BitVec.ofNat 64 (4 * s.powerParam 10 2 1000)) s.nextKalends = true := by
  decide +kernel

theorem wit_ThrottleFollowsItsCauses_3 :
    let s := { State.reset with pwr := { kwarn := true } }
    s.pwr.kwarn = true ∧ ftGe s.time.ft (s.alm.start + BitVec.ofNat 64 (bankWaves s.bankIn * s.alm.spacing)) = true ∧
      ftGe (s.time.ft + BitVec.ofNat 64 (4 * s.powerParam 10 2 1000)) s.nextKalends = false := by decide +kernel

theorem wit_FaultUnitsCountCaptureAndRecover_1 :
    let s := tFault 0
    let die := 0
    let fu := faultUnit 0
    let r := tReport
    let y := (classify (s.policy 0 14) ((s.funit (routerUnit 0 0)).at_ 14) (s.faultFt die)).1
    dieExists s.pkg die = true ∧ r.cls < 15 ∧ unitDie r.unit = die ∧ r.strobe = true ∧ s.fld fu F.FAULT_CTRL_EN = 1 ∧ (s.fdie die).capture = [] ∧ s.reacts die r.cls y.st < 4 := by decide +kernel

theorem wit_FaultUnitsCountCaptureAndRecover_2 :
    let x := tCapture
    let s := { (tFault 0).updFlt (fun t => { t with dies := [(0, { capture := [x] })] }) with time := { ft := 137 } }
    let die := 0
    let fu := faultUnit 0
    dieExists s.pkg die = true ∧ (s.fdie die).capture = [x] ∧ 128 ≤ ftSince (s.faultFt die) x.ft ∧ x.log = false ∧ x.sev < 4 ∧ x.cls < 16 ∧ s.fld fu F.FAULT_FIRST_INFO_VALID = 0 ∧ s.fld fu F.FAULT_CTRL_FIRST_MIN ≤ x.sev := by decide +kernel

theorem wit_FaultUnitsCountCaptureAndRecover_3 :
    let s := tFault 0
    let die := 16
    let key := 4095
    dieExists s.pkg die = true ∧ 0 < key ∧ key < 4096 := by decide +kernel

theorem wit_FaultUnitsCountCaptureAndRecover_4 :
    let y := ({ st := 1, cnt := 1, wstart := 0, last := 0 } : FClass)
    let z := ({ cls := [(8, y)], jubilee := 0 } : FUnit)
    let u := routerUnit 0 0
    let s := { ((tFault 0).setFldAt (faultUnit 0) F.FAULT_CLASS_CFG_AUTO_RESTORE 8 0).updFlt (fun t => { t with dies := [(0, { units := [(u, z)] })] }) with time := { ft := 4000000000000 } }
    let die := 0
    let c := 8
    let fu := faultUnit 0
    (s.fdie die).units = [(u, z)] ∧ z.cls = [(c, y)] ∧ unitDie u = die ∧ y.st = 1 ∧ (s.policy die c).q ≤ ftSince (s.faultFt die) y.last ∧ z.jubilee < s.fld fu F.FAULT_CTRL_JUBILEE_MAX ∧ (s.policy die c).auto = false := by decide +kernel

theorem wit_FaultUnitsCountCaptureAndRecover_6 :
    let s := (tFault (dieUnit 0)).updFlt (fun t => { t with dies := [(0, { units := [(dieUnit 0, { cls := [(8, { st := 3, cnt := 1 })], jubilee := 2, fences := [(8, 5)] })] })] })
    let die := 0
    dieExists s.pkg die = true ∧ isoTargets s.pkg (s.selUnit die) = [] := by decide +kernel

theorem wit_FaultUnitsCountCaptureAndRecover_7 :
    let s := (tFault (niUnit 3)).updNi 3 (fun n => { n with cmdq := [(tPut, 0)], ctr := [(5, 6)] })
    let die := 0
    let st := 3
    unitKind s.pkg (s.selUnit die) = some .ni ∧ st = niStation (s.selUnit die) ∧ s.control (niUnit st) = 0 ∧ s.recentResets st < 15 := by decide +kernel

theorem wit_FaultUnitsCountCaptureAndRecover_8 :
    let s := (tFault (niUnit 3)).setFld (niUnit 3) F.NI_CTRL_RX_EN 1
    let die := 0
    let st := 3
    unitKind s.pkg (s.selUnit die) = some .ni ∧ st = niStation (s.selUnit die) ∧ s.control (niUnit st) ≠ 0 := by decide +kernel

theorem wit_ScrubbersAndBeaconsReport_1 :
    let s := tEcc 3
    let unit := routerUnit 0 0
    let sram := 63
    let w := 0
    (unitKind s.pkg unit).isSome = true ∧ sram < 64 ∧ w = kget 0 s.flt.scrub (unit * 64 + sram) ∧ s.eccAt unit sram w = 3 := by decide +kernel

theorem wit_ScrubbersAndBeaconsReport_2 :
    let s := tEcc 128
    let unit := routerUnit 0 0
    let sram := 63
    let w := 0
    (unitKind s.pkg unit).isSome = true ∧ weight (s.eccAt unit sram w) = 1 ∧ s.fld unit (injFld 31 31) = 0 := by decide +kernel

theorem wit_ScrubbersAndBeaconsReport_3 :
    let s := tEcc 0xC0
    let unit := routerUnit 0 0
    let sram := 63
    let w := 0
    s.eccAt unit sram w ≠ 0 ∧ s.eccAt unit sram w ≠ 3 ∧ weight (s.eccAt unit sram w) % 2 = 0 ∧ s.fld unit (injFld 31 31) = 0 := by decide +kernel

theorem wit_ScrubbersAndBeaconsReport_4 :
    let s := tNi.noteCtl (niUnit 0)
    let die := 0
    let unit := niUnit 0
    let b := kget {} s.flt.beacons unit
    dieExists s.pkg die = true ∧ unitDie unit = die ∧ s.control unit = b.written ∧ b.written = 3 := by decide +kernel

theorem wit_ScrubbersAndBeaconsReport_5 :
    let s := tNi.updFlt (fun t => { t with beacons := [(niUnit 0, { misses := 2 })] })
    let die := 0
    let unit := niUnit 0
    let b := ({ misses := 2 } : Beacon)
    b = kget {} s.flt.beacons unit ∧ dieExists s.pkg die = true ∧ unitDie unit = die ∧ s.control unit ≠ b.written ∧ s.inTransition unit = false ∧ b.misses = 2 := by decide +kernel

theorem wit_ScrubbersAndBeaconsReport_6 :
    let s := tEcc 1
    let unit := routerUnit 0 0
    let sram := 63
    let word := 0
    (unitKind s.pkg unit).isSome = true ∧ sram < 64 ∧ weight (s.eccAt unit sram word) = 1 ∧ s.fld unit (injFld 31 31) = 0 := by decide +kernel

theorem wit_ChroniclePlacesAndErases_1 :
    let s := tCh { buckets := [(0xFFF1, { spent := 40 })] }
    let key := 0xFFF1
    let b := ({ spent := 40 } : ChBucket)
    s.chron.buckets = [(key, b)] ∧ b.supp = 0 := by decide +kernel

theorem wit_ChroniclePlacesAndErases_2 :
    let s := tCh { d0 := tDev, hold := [tRecd] }
    let m := 0
    m = s.chMaster ∧ s.chron.hold = [tRecd] ∧ s.chron.lost = 0 ∧ (s.chDev m).ok = true ∧ (s.chDev m).mounted = true ∧ s.frozen = false ∧ (s.chDev m).ops = [] ∧ (s.chDev m).room = some (1, []) := by decide +kernel

theorem wit_ChroniclePlacesAndErases_3 :
    let d := { tDev with ops := [.close 1], busy := true, fails := 1 }
    let s := tCh { d0 := d }
    let ctl := 0
    d = s.chDev ctl ∧ d.ops = [.close 1] ∧ d.busy = true ∧ 1 ≤ d.fails := by decide +kernel

theorem wit_ChroniclePlacesAndErases_4 :
    let d := { tDev with sectors := [(7, { erased := false, st := 0x0F, seq := 1 })] }
    let s := tCh { d0 := d }
    let ctl := 0
    d = s.chDev ctl ∧ d.ok = true ∧ d.mounted = true ∧ s.frozen = false ∧ d.ops = [] ∧ (d.sectors.filter (fun (e : Nat × ChSector) => e.2.st == 0x0F && !e.2.started)).find? (fun (e : Nat × ChSector) => e.2.live.isEmpty) = some (7, { erased := false, st := 0x0F, seq := 1 }) := by decide +kernel

theorem wit_ChroniclePlacesAndErases_5 :
    let d := { tDev with eraseQ := [7], eraseFailed := false }
    let s := tCh { d0 := d }
    let ctl := 0
    d = s.chDev ctl ∧ d.eraseQ = [7] ∧ s.frozen = false ∧ d.eraseFailed = false := by decide +kernel

theorem wit_ChroniclePlacesAndErases_6 :
    let d := { tDev with eraseQ := [7], eraseFailed := true }
    let s := tCh { d0 := d }
    let ctl := 0
    d = s.chDev ctl ∧ d.eraseQ = [7] ∧ s.frozen = false ∧ d.eraseFailed = true := by decide +kernel

theorem wit_ChroniclePlacesAndErases_7 :
    let s := tCh { d1 := { tLive with decisions := [.retire 4] } }
    let o := 1
    o = 1 - s.chActive ∧ (s.chDev o).decisions = [.retire 4] ∧ (s.chDev o).ok = true ∧ (s.chDev o).mounted = true ∧ s.frozen = false ∧ (s.chDev o).ops = [] ∧ (s.chDev o).sectorOf 4 = some 1 := by decide +kernel

theorem wit_ChronicleCommandsAct_1 :
    let s := (tCh { d0 := tLive }).setReg (chronUnit State.reset.pkg 0) R.CHRON_CURSOR 4
    let ctl := 0
    let u := chronUnit State.reset.pkg 0
    let x := ({ r := tRecd, seq := 4, mark := 0x0F } : ChSlot)
    (s.chDev ctl).mounted = true ∧ s.reg u R.CHRON_CURSOR = 4 ∧ lowestSeq ((s.chDev ctl).live.filter (fun (w : ChSlot) => !seqLt w.seq 4)) = some x ∧ (lowestSeq ((s.chDev ctl).live.filter (fun (w : ChSlot) => !seqLt w.seq 5))).isNone = true := by decide +kernel

theorem wit_ChronicleCommandsAct_2 :
    let s := (tCh { d0 := tLive }).setReg (chronUnit State.reset.pkg 0) R.CHRON_CURSOR 3
    let ctl := 0
    let u := chronUnit State.reset.pkg 0
    let x := ({ r := tRecd, seq := 4, mark := 0x0F } : ChSlot)
    lowestSeq ((s.chDev ctl).live.filter (fun (w : ChSlot) => !seqLt w.seq (s.reg u R.CHRON_CURSOR + 1))) = some x := by decide +kernel

theorem wit_ChronicleCommandsAct_3 :
    let s := tCh { d0 := tLive }
    let ctl := 0
    s.chGoverns ctl = true ∧ s.frozen = false := by decide +kernel

theorem wit_ChronicleCommandsAct_4 :
    let s := (tCh { d0 := tLive }).setFld (chronUnit State.reset.pkg 0) F.CHRON_CTRL_FREEZE 1
    let ctl := 0
    s.chGoverns ctl = true ∧ s.frozen = true ∧ s.chron.retire = none := by decide +kernel

theorem wit_ChronicleCommandsAct_5 :
    let s := tSw
    let ctl := 0
    let u := chronUnit State.reset.pkg 0
    let bs := (List.range 8).flatMap (fun i => leBytes 4 (s.fldAt u F.CHRON_SW_WORD i))
    s.chGoverns ctl = true ∧ 0x0300 ≤ leAt bs 0 2 ∧ leAt bs 0 2 ≤ 0x03FF ∧ leAt bs 8 8 ≠ 0 := by decide +kernel

theorem wit_ChronicleCommandsAct_6 :
    let s := { (tCh { d0 := tLive }).setFld (chronUnit State.reset.pkg 0) F.CHRON_CTRL_FREEZE 1 with time := { ft := 4000000 * 4294967295 } }
    let ctl := 0
    let u := chronUnit State.reset.pkg 0
    s.chGoverns ctl = true ∧ s.frozen = true ∧ 4000000 * s.fld u F.CHRON_FREEZE_MAX_MS ≤ ftSince s.time.ft s.chron.frozeAt := by decide +kernel

theorem wit_ResetsRestartTheBlock_1 :
    let s := tFault 0
    s.hol.active = false ∧ kwf s.ni = true := by decide +kernel

theorem wit_ResetsRestartTheBlock_2 :
    let s := tHeld
    let side := 0
    side < 2 ∧ s.holder = some side ∧ s.hol.active = false := by decide +kernel

theorem wit_ResetsRestartTheBlock_3 :
    let s := tHeld
    let side := 1
    side < 2 ∧ s.holder ≠ some side := by decide +kernel

theorem wit_BringUpStepsInOrder_1 :
    let s := tBoot 1 7 false
    let k := 7
    let side := 0
    side < 2 ∧ k = s.bootStep ∧ s.hol.active = false ∧ s.mayStart = true ∧ s.stepLevel 7 = 0 := by decide +kernel

theorem wit_BringUpStepsInOrder_2 :
    let s := { tBoot 1 6 true with image := some (tImage []), committed := true }
    let k := 6
    let side := 1
    side < 2 ∧ k = s.bootStep ∧ s.hol.active = false ∧ s.boot.started = true ∧ s.bootState = 1 ∧ k ∈ [2, 3, 5, 6] ∧ s.finishHolds k = true := by decide +kernel

theorem wit_BringUpStepsInOrder_3 :
    let s := { tBoot 1 7 true with image := some (tImage []), committed := true }
    let k := 7
    k = s.bootStep ∧ s.hol.active = false ∧ s.boot.started = true ∧ s.bootState = 1 ∧ k = 7 ∧ s.finishHolds 7 = true := by decide +kernel

theorem wit_BringUpStepsInOrder_4 :
    let s := (tBoot 1 4 true).setFld (bootUnit State.reset.pkg 0) F.BOOT_CTRL_AUTO_WARM 0
    let k := 4
    k = s.bootStep ∧ s.hol.active = false ∧ s.boot.started = true ∧ s.bootState = 1 ∧ k ≠ 5 ∧ s.bootFld F.BOOT_CTRL_AUTO_WARM = 0 := by decide +kernel

theorem wit_BringUpStepsInOrder_5 :
    let s := (tBoot 1 4 true).setFld (bootUnit State.reset.pkg 0) F.BOOT_CTRL_AUTO_WARM 1
    let k := 4
    k = s.bootStep ∧ s.hol.active = false ∧ s.boot.started = true ∧ s.bootState = 1 ∧ k ≠ 5 ∧ s.bootFld F.BOOT_CTRL_AUTO_WARM = 1 := by decide +kernel

theorem wit_BringUpStepsInOrder_6 :
    let s := (tBoot 1 5 true).setFld (bootUnit State.reset.pkg 0) F.BOOT_DEADLINE_S 1
    let side := 0
    s.inB5 = true ∧ s.bootFld F.BOOT_DEADLINE_S ≠ 0 ∧ s.holder = some side ∧ s.hol.active = false := by decide +kernel

theorem wit_BringUpStepsInOrder_7 :
    let s := tBoot 2 1 true
    let k := 1
    let side := 0
    s.holder = some side ∧ s.bootState = 2 ∧ k = s.bootStep ∧ s.hol.active = false ∧ s.inB5 = false := by decide +kernel

theorem wit_BringUpStepsInOrder_8 :
    let s := tBoot 3 7 false
    let side := 0
    s.holder = some side ∧ s.bootState ≠ 2 ∧ s.hol.active = false := by decide +kernel

theorem wit_LeaseAndMirrorMove_1 :
    let s := State.reset
    let voter := 3
    let core := 1
    let side := 0
    side < 2 ∧ core < 2 ∧ voter < voterCount s.pkg ∧ kfind s.lease.votes voter = none := by decide +kernel

theorem wit_LeaseAndMirrorMove_2 :
    let s := tLease 1 (some 1)
    let voter := 2
    let core := 1
    let e := (9 : FT)
    core < 2 ∧ voter < voterCount s.pkg ∧ kfind s.lease.votes voter = some (core, e) ∧ s.holder = some core ∧ State.hasMajority (s.updLease (fun l => { l with votes := kdel l.votes voter, fresh := kdel l.fresh voter })) core = false := by decide +kernel

theorem wit_LeaseAndMirrorMove_3 :
    let s := (tLease 1 (some 1)).updLease (fun l => { l with kick := [(1, 0)] })
    let side := 1
    side < 2 ∧ s.fmAlive side = true ∧ s.holder = some side ∧ s.lease.lapsed = none := by decide +kernel

theorem wit_LeaseAndMirrorMove_4 :
    let s := tLease 1 (some 1)
    let side := 0
    let n := 1
    side < 2 ∧ n = kget 0 s.lease.misses side + 1 ∧ s.holder ≠ some side ∧ n ≠ s.hbLimit := by decide +kernel

theorem wit_LeaseAndMirrorMove_5 :
    let s := (tLease 1 (some 1)).updLease (fun l => { l with misses := [(0, (tLease 1 (some 1)).hbLimit - 1)] })
    let side := 0
    let n := (tLease 1 (some 1)).hbLimit
    n = kget 0 s.lease.misses side + 1 ∧ s.holder ≠ some side ∧ n = s.hbLimit := by decide +kernel

theorem wit_LeaseAndMirrorMove_6 :
    let s := (tLease 1 none)
    let core := 1
    core < 2 ∧ s.hasMajority core = true ∧ s.holder = none ∧ s.lease.epoch = 0 := by decide +kernel

theorem wit_LeaseAndMirrorMove_7 :
    let s := { tLease 1 (some 0) with tree := [{ core := 0, tag := 0, addr := 0, write := false, data := 0 }] }
    let core := 1
    core < 2 ∧ s.hasMajority core = true ∧ s.holder = some (1 - core) ∧ s.lease.epoch ≠ 0 := by decide +kernel

theorem wit_LeaseAndMirrorMove_8 :
    let s := { State.reset with boot := { fwUp := [1] } }
    let core := 1
    core < 2 ∧ core ≠ s.prefCore ∧ s.boot.fwUp.contains core = true ∧ s.holder = none := by decide +kernel

theorem wit_LeaseAndMirrorMove_9 :
    let s := tHeld
    let side := 0
    side < 2 ∧ s.holder = some side ∧ s.fld (bootUnit s.pkg side) F.BOOT_STATUS_SYNCED = 0 := by decide +kernel

theorem wit_MailboxRingsMove_1 :
    let s := tMbx 1 []
    let idx := (256 : W16)
    (idx.toNat + 65536 - s.mb F.MBX_CMD_CONS_INDEX) % 65536 ≤ 256 := by decide +kernel

theorem wit_MailboxRingsMove_2 :
    let s := tMbx 1 []
    let idx := (257 : W16)
    256 < (idx.toNat + 65536 - s.mb F.MBX_CMD_CONS_INDEX) % 65536 ∧ s.rspLevel < (idx.toNat + 65536 - s.mb F.MBX_RSP_CONS_INDEX) % 65536 := by decide +kernel

theorem wit_MailboxRingsMove_3 :
    let s := (tMbx 1 []).setMb F.MBX_RSP_PROD_INDEX 1
    let idx := (1 : W16)
    (idx.toNat + 65536 - s.mb F.MBX_RSP_CONS_INDEX) % 65536 ≤ s.rspLevel ∧ s.mbx.waiting = [] ∧ s.mbx.lost = 0 := by decide +kernel

theorem wit_MailboxRingsMove_4 :
    let s := tMbx 1 []
    mbxTakes s 0x0001 := by
  simp only [← tTakes_iff]; decide +kernel

theorem wit_MailboxRingsMove_5 :
    let s := tMbx 0x60 [511]
    mbxTakes s 0x0060 := by
  simp only [← tTakes_iff]; decide +kernel

theorem wit_MailboxRingsMove_6 :
    let r := ({ echo := 1, code := 0x10 } : MbxRsp)
    let s := { tMbx 1 [] with mbx := { cmd := [(0, tDesc [1, 1])], jobs := [r] } }
    let h := dw s.mbxFront 0
    s.mbxServed = true ∧ s.mbx.jobs.find? (fun x => x.echo == h) = some r := by decide +kernel

theorem wit_MailboxRingsMove_7 :
    let s := { State.reset with mbx := { hold := [3] } }
    let v := 3
    let w := 7
    s.mbx.hold.contains v = true ∧ s.mbx.owed.contains v = false ∧ w < 8 := by decide +kernel

theorem wit_MailboxCommandsAct_1 :
    let s := tMbx 2 []
    mbxTakes s 0x0002 := by
  simp only [← tTakes_iff]; decide +kernel

theorem wit_MailboxCommandsAct_2 :
    let s := tMbx 0x10 [0, 0, 128, 1]
    let d := s.mbxFront
    let dma := ({ status := 0, bytes := [] } : Dma)
    mbxTakes s 0x0010 ∧ dByte d 20 < 2 ∧ s.live = 0 ∧ dma.status = 0 := by
  simp only [← tTakes_iff]; decide +kernel

theorem wit_MailboxCommandsAct_3 :
    let img := tImage []
    let s := { tMbx 0x11 [4194304] with staging := some img }
    let d := s.mbxFront
    let t := mbxTaken s
    let w := (t.writeTables (img.marked s.pkg)).setOther (bankOf (img.marked s.pkg).recs (t.liveVariant (img.marked s.pkg)))
    mbxTakes s 0x0011 ∧ s.staging = some img ∧ t.validate img true = none ∧ t.alm.other = .free ∧ w.targetOk (BitVec.ofNat 64 (dBytes d 8 8)).toNat = true := by
  simp only [← tTakes_iff]; decide +kernel

theorem wit_MailboxCommandsAct_4 :
    let s := { tMbx 0x12 [] with live := 1, staging := some (tImage []) }
    mbxTakes s 0x0012 ∧ s.live ≠ 2 := by
  simp only [← tTakes_iff]; decide +kernel

theorem wit_MailboxCommandsAct_5 :
    let s := tMbx 0x20 [0, 0, 8388608, 1]
    let d := s.mbxFront
    let t := mbxTaken s
    let dma := ({ status := 0, bytes := [] } : Dma)
    mbxTakes s 0x0020 ∧ dBytes d 16 4 ≤ 8 * 2 ^ 20 ∧ dByte d 20 < 2 ∧ dByte d 20 ≠ t.fwSlot ∧ dma.status = 0 := by
  simp only [← tTakes_iff]; decide +kernel

theorem wit_MailboxCommandsAct_6 :
    let s := tMbx 0x21 [1]
    let d := s.mbxFront
    mbxTakes s 0x0021 ∧ dByte d 8 < 2 := by
  simp only [← tTakes_iff]; decide +kernel

theorem wit_MailboxCommandsAct_7 :
    let s := tMbx 0x30 []
    mbxTakes s 0x0030 := by
  simp only [← tTakes_iff]; decide +kernel

theorem wit_MailboxCommandsAct_8 :
    let s := tMbx 0x40 [(tA (bootUnit State.reset.pkg 0) R.BOOT_STATUS).toNat]
    let d := s.mbxFront
    let addr := dw d 2
    let t := mbxTaken s
    let tv := t.readReg addr
    mbxTakes s 0x0040 ∧ t.addrOk addr = true ∧ t.unitStopped (unitOf addr) = false ∧ tv.2.1 = trOk := by
  simp only [← tTakes_iff]; decide +kernel

theorem wit_MailboxCommandsAct_9 :
    let s := tMbx 0x41 [(tA (bootUnit State.reset.pkg 0) R.BOOT_CTRL).toNat, 1]
    let d := s.mbxFront
    let addr := dw d 2
    let t := mbxTaken s
    mbxTakes s 0x0041 ∧ t.addrOk addr = true ∧ t.unitStopped (unitOf addr) = false ∧ t.startsReset addr (dw d 3) = false := by
  simp only [← tTakes_iff]; decide +kernel

theorem wit_MailboxCommandsAct_10 :
    let s := tMbx 0x50 []
    mbxTakes s 0x0050 := by
  simp only [← tTakes_iff]; decide +kernel

theorem wit_MailboxCommandsAct_11 :
    let s := tMbx 0x51 [0, 0, 0, 0, 0, 1]
    let d := s.mbxFront
    mbxTakes s 0x0051 ∧ dByte d 28 < 2 := by
  simp only [← tTakes_iff]; decide +kernel

theorem wit_MailboxCommandsAct_12 :
    let img := tImage []
    let s := { State.reset with staging := some img, live := 2 }
    s.staging = some img ∧ s.live = 2 := by decide +kernel

theorem wit_DiaryTakesReports_1 :
    let s := { tDiary with hol := { active := true } }
    let side := 0
    side < 2 ∧ s.holds = true := by decide +kernel

theorem wit_DiaryTakesReports_2 :
    let s := State.reset
    let side := 0
    let u := diaryUnit State.reset.pkg
    side < 2 ∧ s.holds = false ∧ s.bit u F.TRACE_DIARY_CTRL_EN = false ∧ side = s.diaryActive := by decide +kernel

theorem wit_DiaryTakesReports_3 :
    let s := tDiary
    let side := 1
    let r := tRep
    let u := diaryUnit State.reset.pkg
    side < 2 ∧ s.holds = false ∧ s.bit u F.TRACE_DIARY_CTRL_EN = true ∧ kget [] (s.diarySide side).sets (repSet r) = [] ∧ 1 < s.reportsDue r := by decide +kernel

theorem wit_DiaryTakesReports_4 :
    let s := tDiary
    let side := 0
    let r := { tRep with kind := 1 }
    let u := diaryUnit State.reset.pkg
    side < 2 ∧ s.holds = false ∧ s.bit u F.TRACE_DIARY_CTRL_EN = true ∧ kget [] (s.diarySide side).sets (repSet r) = [] ∧ s.reportsDue r ≤ 1 ∧ side = s.diaryActive ∧ (s.diarySide side).confirmed.contains (repSet r) = false := by decide +kernel

theorem wit_DiaryTakesReports_5 :
    let u := diaryUnit State.reset.pkg
    let s := tDiary.setPair u R.TRACE_DIARY_WR 4
    let rd := (4 : FT)
    (s.pair u R.TRACE_DIARY_RD).toNat ≤ rd.toNat ∧ rd.toNat ≤ (s.pair u R.TRACE_DIARY_WR).toNat := by decide +kernel

theorem wit_DiaryTakesReports_6 :
    let u := diaryUnit State.reset.pkg
    let s := tDiary.setPair u R.TRACE_DIARY_WR 4
    let rd := (5 : FT)
    rd.toNat < (s.pair u R.TRACE_DIARY_RD).toNat ∨ (s.pair u R.TRACE_DIARY_WR).toNat < rd.toNat := by decide +kernel

theorem wit_HolidaysStopAndResume_1 :
    let s := tPin
    let side := 0
    let port := 27
    let arg := tStop
    let hu := holidayUnit State.reset.pkg
    s.sideActs side = true ∧ s.hol.active = false ∧ s.bit hu F.TRACE_HOLIDAY_CTRL_PIN_EN = true ∧ port < portCount s.pkg ∧ getBits arg 31 30 = 1 ∧ s.bit hu F.TRACE_HOLIDAY_CTRL_ACCEPT = true ∧ s.hol.lastId ≠ getBits arg 15 0 := by decide +kernel

theorem wit_HolidaysStopAndResume_2 :
    let s := tHol { active := true, acks := List.range 19 }
    let d := 19
    s.hol.active = true ∧ s.hol.stopped = false ∧ s.hol.release = none ∧ s.dieLive d = true ∧ s.hol.acks.contains d = false ∧ s.liveDies.all (fun x => (s.hol.acks ++ [d]).contains x) = true := by decide +kernel

theorem wit_HolidaysStopAndResume_3 :
    let s := tHol { active := true }
    let d := 0
    let side := 0
    s.hol.active = true ∧ s.hol.stopped = false ∧ s.hol.release = none ∧ s.dieLive d = true ∧ s.hol.acks.contains d = false ∧ s.liveDies.all (fun x => (s.hol.acks ++ [d]).contains x) = false ∧ s.sideActs side = true ∧ s.hol.resuming = false := by decide +kernel

theorem wit_HolidaysStopAndResume_4 :
    let s := { tPin with hol := { active := true, stopped := true, id := 3 } }
    let side := 0
    let port := 0
    let arg := tRelease
    let hu := holidayUnit State.reset.pkg
    s.sideActs side = true ∧ s.hol.active = true ∧ s.hol.resuming = false ∧ s.hol.stopped = true ∧ port < portCount s.pkg ∧ getBits arg 31 30 = 2 ∧ s.bit hu F.TRACE_HOLIDAY_CTRL_ACCEPT = true ∧ getBits arg 29 22 = s.hol.id % 256 := by decide +kernel

theorem wit_HolidaysStopAndResume_5 :
    let s := tHol { active := true, stopped := true, resuming := true, resumed := List.range 20 }
    s.hol.resuming = true ∧ s.hol.resumed ≠ [] ∧ s.nextDie = none := by decide +kernel

theorem wit_HolidaysStopAndResume_6 :
    let s := tHol { active := true, stopped := true, resuming := true, resumed := List.range 18 }
    let d := 18
    s.hol.resuming = true ∧ s.hol.resumed ≠ [] ∧ s.nextDie = some d ∧ s.ni = [] ∧ s.eng = [] ∧ State.nextDie (s.updHol (fun h => { h with resumed := h.resumed ++ [d] })) ≠ none := by decide +kernel

theorem wit_TraceUnitActs_1 :
    let p := ({ plane := 0, probe := 0, vc := 0, ft := 0, qual := 0, f := tFr } : ProbeRec)
    let x := ({ fifo := [p] } : Rtr)
    let s := { State.reset with rtr := [(1025, x)] }
    let die := 1
    let k := 1025
    s.nextFifo die = some (k, x) ∧ x.fifo = [p] := by decide +kernel

theorem wit_TraceUnitActs_2 :
    let s := { State.reset with trace := { st := 3 } }
    s.trace.st = 0 ∨ s.trace.st = 3 := by decide +kernel

theorem wit_TraceUnitActs_3 :
    let s := { State.reset with trace := { st := 1 } }
    s.trace.st = 1 ∧ s.bit (traceUnit s.pkg) F.TRACE_TRIG_CFG_HOLIDAY = false := by decide +kernel

theorem wit_TraceUnitActs_4 :
    let s := tTrace
    s.bit (traceUnit s.pkg) F.TRACE_CTRL_PORT_EN = false ∧ s.trace.ring = [List.replicate 128 1, [2]] ∧ s.trace.headOff + 64 < 128 ∧ s.trace.drain = none := by decide +kernel

theorem wit_TraceUnitActs_5 :
    let s := tTrace.setFld (traceUnit State.reset.pkg) F.TRACE_CTRL_PORT_EN 1
    s.bit (traceUnit s.pkg) F.TRACE_CTRL_PORT_EN = true ∧ s.trace.ring = [List.replicate 128 1, [2]] ∧ s.trace.drain = none := by decide +kernel

end Sys2Proof.Tests
end

section
/-! Every command is a command of the unit that it names: its effect where the unit is there, and none where it is not (R3, log 65). -/
namespace Sys2Proof.Machine

/-- A command that takes effect whatever is there is one of a unit that is there. -/
theorem done_eq_onUnit (s t : State) : done s t = onUnit true s t := rfl

/-- A command of a unit answers a next state, whether the unit is there or not. -/
theorem onUnit_next (ok : Bool) (s t : State) : ∃ u, onUnit ok s t = .next u := by
  rcases onUnit_cases ok s t with h | h
  · exact ⟨_, h.trans (done_eq s t)⟩
  · exact ⟨_, h.trans (done_eq s s)⟩

/-- A frame or an answer that reaches an NI is a command of that NI, held (R377) or acting. -/
theorem onNiHold_eq_onUnit (s : State) (st : Nat) (c : Instr) (t : State) :
    ∃ u, onNiHold s st c t = onUnit (niThere s st) s u := by
  unfold onNiHold
  split
  · exact ⟨_, rfl⟩
  · exact ⟨_, rfl⟩

/-- The one shape of all commands: an effect t on the unit that the command names. -/
theorem exec_eq_onUnit (c : Instr) (s : State) : ∃ t, exec c s = onUnit (c.site.there s) s t := by
  cases c with
  -- commands of the package, which is always there
  | treeTimeout | counterLoRead | counterHiRead | pairLoWrite | pairHiWrite | counterClear | shaperConfigWrite | kalends | almLoad
    | almCopy | almArm | almDisarm | almLoadComplete | coolRequestResume | bankHoldExpiry | upstreamLoss | ppsInEdge | ppsInLoss
    | ref10mLoss | ppsOutRise | ppsOutFall | timeValidChange | throttleHoldExpiry | forceThrottleWrite | kalendsWarnRise
    | kalendsWarnFall | dieResume | injectArmWrite | bucketRefill | recordPlace | standbyDecisionApply | chronFreezeExpiry | coldReset
    | warmResetPin | bootStepStart | bootStepFinish | bootStepTimeout | bootDeadlineExpiry | mirrorFenceDone | standbySyncDone
    | mbxCmdProdWrite | mbxRspConsWrite | mbxNop | mbxGetInfo | mbxImageStage | mbxImageCommit | mbxImageAbort | mbxFwWrite | mbxFwSelect
    | mbxWarmReset | mbxRegRead | mbxRegWrite | mbxChronRead | mbxDiaryRead | mbxEventMask | mbxBackgroundDone | msixHoldoffExpiry
    | liveChangeFinish | diaryRdAdvance | holidayStopPackage | holidayStopMachine | holidayPin | holidayStopFrame | dieStopAck
    | holidayAckTimeout | holidayRelease | holidayReleaseFrame | holidayScan | traceCollect | traceArm | traceTrigger | traceAdvance
    | traceRecordDrained | tracePortEnable | ref10mReturn | standbyLost | msixTableWrite =>
    exact ⟨_, done_eq_onUnit s _⟩
  -- what reaches an NI while it may be stopped
  | xlatMissFetchDone | writeDone | readDataReturn | writeRsvReceive | writeDataReceive | readReqReceive | idxReadReqReceive
    | messageReceive | atomicReceive | streamDataReceive | grantReceive | ackReceive | readDataReceive | idxReadDataReceive
    | atomicRespReceive | refusalReceive | vigilErrReceive | stageRsvReceive | stageGrantReceive | chunkReceive | partialReceive
    | sparseReceive | resultReceive | barrierReceive | cancelReceive =>
    exact onNiHold_eq_onUnit _ _ _ _
  -- commands of a unit, each under the test that its site names
  | registerWrite | timeNowLoRead | opNop | opPut | opGet | opIndexedRead | opMessage | opAtomic | opCounterAdd | opCounterSet
    | opStreamPut | descriptorTriggerStore | triggerFire | niXlatFlush | niTrigClearAll | completionRecordTaken | eventNoticeTaken
    | routerFrameReceive | arbiterGrant | yellowRelease | yellowExpiry | poolAllocate | poolWaitExpiry | poolDisable | slotBoundary
    | noWindowDrop | launchNotice | latticePulse | islandFtLoad | syncExchangeStart | syncReceive | followUpReceive | delayReqReceive
    | delayRespReceive | upstreamReturn | timeRealignArm | codewordReceive | acwReceive | acwLockTimeout | linkFrameReceive | nakResend
    | ctrlAckReceive | ctrlNakReceive | ctrlFlowReceive | flowPeriodic | replayTimeout | trainReceive | signalLock | signalTimeout
    | alignTimeout | exchangeTimeout | readyTimeout | retrainTimeout | cdrLoss | txActiveAtAcw | savedSettingsTimeout | qualWindowEnd
    | monitorWindowEnd | portAutoRetry | portFullRetrain | portRetrain | portCold | portEnable | portDisable | portPowerGate
    | dlinkContainerReceive | dlinkReplayTimeout | dlinkModuleFail | dlinkHalfTimeout | dlinkTrainDone | dlinkQualEnd | dlinkRetrain
    | dlinkEnable | dlinkDisable | islandFreqWrite | islandGlideStep | islandStop | islandStart | pllLockLost | pllRelock | dieGate
    | dieGateDone | dieUngate | ungateStepTimeout | dieUngateDone | engineClockStop | pcInputSample | throttleNChange
    | faultReportReceive | faultCaptureDone | faultFenceMessage | faultQuietCheck | faultUnitReset | faultUnitClear | faultUnitRestore
    | faultClearJubilee | niPfenceSet | niPfenceClear | scrubAccess | eccWriteBack | vigilExpiry | grantExpiry | txnRetireExpiry
    | stateBeacon | chronProgramDone | chronCompaction | sectorEraseDone | chronMountDone | chronLoad | chronNext | chronRetireTo
    | chronSwSubmit | chronFreeze | chronUnfreeze | chronSecondsTick | bootWarmReset | bootContinueNoImage | bootProceed
    | bootClearLevels | bootClearDisables | heartbeatTick | heartbeatMiss | leaseRequestReceive | leaseGrantExpiry | takeover
    | bootHbKick | bootMirrorFence | opAllReduce | opReduceScatter | opAllGather | opReduce | opBroadcast | opAllToAll | opSparseSum
    | opBarrier | opCancel | stageGrantSend | collectiveComplete | diaryReportReceive | statsRdAdvance | jrnlRdAdvance | replayDiverge
    | jrnlModeWrite | dlinkNakResend | coldStartLeaseRequest =>
    exact ⟨_, rfl⟩

/-- Settles O57: every command has the shape of a command of a unit, and that shape neither faults nor is refused. -/
theorem everyCommandCompletes : Obligations.EveryCommandCompletes := by
  intro c s
  obtain ⟨t, ht⟩ := exec_eq_onUnit c s
  rw [ht]
  exact ⟨onUnit_next _ s t, onUnit_false s t⟩

end Sys2Proof.Machine
end

section
/-! What a read of a counter and of TIME_NOW answers and captures (R21, R82). -/
namespace Sys2Proof.Machine

/-! ## Which units have counters -/

/-- A row that an offset names is a row of the kind. -/
theorem mem_rowsOf_of_rowAt {k : UnitKind} {off : Nat} {r : RegRow} (h : rowAt k off = some r) : r ∈ rowsOf k :=
  List.mem_of_find?_eq_some h

/-- The units of class 7 are TIME units (Table 18-2). -/
theorem unitKind_of_class_time {p : Package} {u : Nat} {k : UnitKind} (hc : unitClass u = 7) (h : unitKind p u = some k) : k = .time := by
  have htime : unitKind p u = if !dieExists p (unitDie u) then none
      else if (p.isS && decide (unitInst u < 2)) || (!p.isS && (unitDie u == 16 || unitDie u == 18) && unitInst u == 0) then some .time
      else none := by
    unfold unitKind; rw [hc]; rfl
  rw [htime] at h
  split at h
  · cases h
  · split at h
    · exact (Option.some.inj h).symm
    · cases h

/-- A TIME unit has no counter. -/
theorem rowsTime_no_counter : ∀ r ∈ rowsTime, r.kind ≠ .counter := by decide

/-- A unit that has a counter is no TIME unit. -/
theorem unitClass_ne_time_of_counter {p : Package} {u off : Nat} {k : UnitKind} {r : RegRow} (hk : unitKind p u = some k)
    (hr : rowAt k off = some r) (hc : r.kind = .counter) : unitClass u ≠ 7 := by
  intro h7
  obtain rfl := unitKind_of_class_time h7 hk
  exact rowsTime_no_counter r (mem_rowsOf_of_rowAt hr) hc

/-! ## The two halves of a counter -/

/-- A read of an address that has a register answers OK with what the register gives. -/
theorem readOut_of_row (s : State) (addr : W32) {k : UnitKind} {r : RegRow} (ha : s.addrOk addr = true)
    (hk : unitKind s.pkg (unitOf addr) = some k) (hr : rowAt k (offOf addr) = some r) :
    s.readOut addr = (s.readAt (unitOf addr) (offOf addr) r.kind (isHi r (offOf addr))).1.emit
      (.readData addr trOk (s.readAt (unitOf addr) (offOf addr) r.kind (isHi r (offOf addr))).2) := by
  simp [State.readOut, State.readReg, ha, hk, hr]

/-- The low half of a counter: its upper bits are captured, unread (R21). -/
theorem readAt_counter_lo (s : State) (u off : Nat) (h : unitClass u ≠ 7) :
    s.readAt u off .counter false =
      ({ s with shadows := kins s.shadows (regAddr u off) (BitVec.ofNat 32 ((s.ctrAt u off).toNat / 2 ^ 32)) },
        (s.ctrAt u off).extractLsb' 0 32) := by
  simp [State.readAt, State.pairWord, h]

/-- The high half of a counter whose capture is unread (R21). -/
theorem readAt_counter_hi_unread (s : State) (u off : Nat) {v : W32} (h : kfind s.shadows (regAddr u (off - 4)) = some v) :
    s.readAt u off .counter true = ({ s with shadows := kdel s.shadows (regAddr u (off - 4)) }, v) := by
  simp [State.readAt, h]

/-- The high half of a counter whose capture was read (R21). -/
theorem readAt_counter_hi_read (s : State) (u off : Nat) (h : kfind s.shadows (regAddr u (off - 4)) = none) :
    s.readAt u off .counter true = (s, BitVec.ofNat 32 ((s.ctrAt u (off - 4)).toNat / 2 ^ 32)) := by
  simp [State.readAt, State.pairWord, h]

/-- A read changes neither the queue nor the package, so its outcome is the read itself. -/
theorem done_shadows_emit (s : State) (m : KMap W32) (o : Out) :
    done s (State.emit { s with shadows := m } o) = .next (State.emit { s with shadows := m } o) := rfl

theorem done_emit (s : State) (o : Out) : done s (s.emit o) = .next (s.emit o) := rfl

/-! ## TIME_NOW -/

theorem sideUnit_lt (p : Package) {side : Nat} (h : side < 2) : sideUnit p 7 side < 2 ^ 20 := by
  simp only [sideUnit, unitAddr]
  split
  · omega
  · split <;> omega

theorem unitClass_sideUnit (p : Package) {side : Nat} (h : side < 2) : unitClass (sideUnit p 7 side) = 7 := by
  simp only [sideUnit, unitAddr, unitClass]
  split
  · omega
  · split <;> omega

/-- The address of a register names its unit. -/
theorem unitOf_regAddr {u off : Nat} (hu : u < 2 ^ 20) (ho : off < 4096) : unitOf (BitVec.ofNat 32 (regAddr u off)) = u := by
  unfold unitOf regAddr
  rw [BitVec.toNat_ofNat]
  omega

/-- The address of a register names its offset. -/
theorem offOf_regAddr {u off : Nat} (ho : off < 4096) : offOf (BitVec.ofNat 32 (regAddr u off)) = off := by
  unfold offOf regAddr
  rw [BitVec.toNat_ofNat]
  omega

/-- TIME_NOW is a pair that the block writes (R21). -/
theorem rowAt_TIME_NOW : rowAt .time R.TIME_NOW = some ⟨R.TIME_NOW, 1, 8, .roPair, [F.TIME_NOW_FT]⟩ := by decide

/-- A read of TIME_NOW_LO captures the upper half of FT, unread, and the quality (R21, R82). -/
theorem readAt_TIME_NOW (s : State) (u : Nat) (h : unitClass u = 7) :
    s.readAt u R.TIME_NOW .roPair false =
      (State.updTime { s with shadows := kins s.shadows (regAddr u R.TIME_NOW) (s.view u (R.TIME_NOW + 4)) }
        (fun x => { x with nowQual := kput 0 x.nowQual (unitSide s.pkg u) s.quality }), s.view u R.TIME_NOW) := by
  simp [State.readAt, State.pairWord, h]

/-- A read of a side's TIME_NOW_LO answers the lower half of FT, with both captures made. -/
theorem readOut_TIME_NOW (s : State) {side u : Nat} (hs : side < 2) (hu : u = sideUnit s.pkg 7 side)
    (ha : s.addrOk (BitVec.ofNat 32 (regAddr u R.TIME_NOW)) = true) (hk : unitKind s.pkg u = some .time) :
    s.readOut (BitVec.ofNat 32 (regAddr u R.TIME_NOW)) =
      (State.updTime { s with shadows := kins s.shadows (regAddr u R.TIME_NOW) (s.view u (R.TIME_NOW + 4)) }
        (fun x => { x with nowQual := kput 0 x.nowQual (unitSide s.pkg u) s.quality })).emit
          (.readData (BitVec.ofNat 32 (regAddr u R.TIME_NOW)) trOk (s.view u R.TIME_NOW)) := by
  have hclass : unitClass u = 7 := hu ▸ unitClass_sideUnit s.pkg hs
  have hunit : unitOf (BitVec.ofNat 32 (regAddr u R.TIME_NOW)) = u :=
    unitOf_regAddr (hu ▸ sideUnit_lt s.pkg hs) (by decide)
  have hoff : offOf (BitVec.ofNat 32 (regAddr u R.TIME_NOW)) = R.TIME_NOW := offOf_regAddr (by decide)
  have hlo : isHi ⟨R.TIME_NOW, 1, 8, .roPair, [F.TIME_NOW_FT]⟩ R.TIME_NOW = false := by decide
  rw [readOut_of_row s _ ha (hunit.symm ▸ hk) (hoff.symm ▸ rowAt_TIME_NOW), hunit, hoff, hlo, readAt_TIME_NOW s u hclass]

/-- Settles O24: the half and the capture tell a counter's three reads apart, and a TIME unit, whose low half would also capture the quality, has no
counter. -/
theorem countersReadConsistently : Obligations.CountersReadConsistently := by
  intro s u off side addr k r v
  refine ⟨?_, ?_⟩
  · rintro ha rfl rfl hk hr hc
    have hread := readOut_of_row s addr ha hk hr
    rw [hc] at hread
    refine ⟨fun hlo => ?_, fun hhi hv => ?_, fun hhi hv => ?_⟩
    · rw [hlo, readAt_counter_lo s _ _ (unitClass_ne_time_of_counter hk hr hc)] at hread
      exact (congrArg (done s) hread).trans (done_shadows_emit s _ _)
    · rw [hhi, readAt_counter_hi_unread s _ _ hv] at hread
      exact (congrArg (done s) hread).trans (done_shadows_emit s _ _)
    · rw [hhi, readAt_counter_hi_read s _ _ hv] at hread
      exact (congrArg (done s) hread).trans (done_emit s _)
  · rintro hs hu rfl ha hk
    have hexec : exec (.timeNowLoRead side) s = done s (s.readOut (BitVec.ofNat 32 (regAddr u R.TIME_NOW))) :=
      hu ▸ onUnit_true s _ (decide_eq_true hs)
    rw [readOut_TIME_NOW s hs hu ha hk] at hexec
    exact ⟨_, hexec, rfl, kfind_kins_self _ _ _, kget_kput_self _ _ _ _⟩

end Sys2Proof.Machine
end

section
/-! What a write of a clear register leaves in the counters (R20). -/
namespace Sys2Proof.Machine

/-! ## Clear registers -/

/-- The registers by which a unit of a kind does more than take a word and clear counters. -/
def actRegs : UnitKind → List Nat
  | .ni => [R.NI_CTRL, R.NI_JRNL_CTRL, R.NI_PFENCE_CMD]
  | .port => [R.PORT_CTRL]
  | .dlink => [R.DLINK_CTRL]
  | .reduce => [R.REDUCE_CTRL]
  | .pool => [R.POOL_CTRL]
  | .fault => [R.FAULT_UNIT_CMD]
  | .chron => [R.CHRON_CTRL, R.CHRON_RD_CMD, R.CHRON_CMD, R.CHRON_SW_CMD]
  | .trace => [R.TRACE_CTRL, R.TRACE_CMD]
  | .mbx => [R.MBX_CMD_PROD, R.MBX_RSP_CONS]
  | _ => []

/-- Every clear register is a register of one word. -/
theorem clearsOf_rows (k : UnitKind) : ∀ c ∈ clearsOf k, (rowAt k c.1).all (fun r => r.kind == .single) = true := by
  cases k <;> decide +kernel

/-- No clear register makes its unit do more. -/
theorem clearsOf_not_actRegs (k : UnitKind) : ∀ c ∈ clearsOf k, c.1 ∉ actRegs k := by
  cases k <;> decide +kernel

/-- A clear register of a kind is in its map of clears. -/
theorem exists_mem_clearsOf {k : UnitKind} {off : Nat} (h : (clearsOf k).any (fun c => c.1 == off) = true) :
    ∃ c ∈ clearsOf k, c.1 = off := by
  simpa using List.any_eq_true.mp h

theorem kind_of_clearReg {k : UnitKind} {off : Nat} {r : RegRow} (h : (clearsOf k).any (fun c => c.1 == off) = true)
    (hr : rowAt k off = some r) : r.kind = .single := by
  obtain ⟨c, hc, rfl⟩ := exists_mem_clearsOf h
  simpa [hr] using clearsOf_rows k c hc

theorem clearReg_not_mem_actRegs {k : UnitKind} {off : Nat} (h : (clearsOf k).any (fun c => c.1 == off) = true) :
    off ∉ actRegs k := by
  obtain ⟨c, hc, rfl⟩ := exists_mem_clearsOf h
  exact clearsOf_not_actRegs k c hc

/-- A write of a clear register does nothing but clear. -/
theorem wordAct_clearReg (s : State) {k : UnitKind} (u : Nat) (r : RegRow) (i : Nat) {off : Nat} (data : W32) (ok : Bool)
    (h : (clearsOf k).any (fun c => c.1 == off) = true) : s.wordAct k u r i off data ok = s.clearCounters k u off data := by
  have hact := clearReg_not_mem_actRegs h
  cases k with
  | ni | port | dlink | reduce | pool | fault | chron | trace | mbx =>
    simp_all [actRegs, State.wordAct, State.niWrite, State.portWrite, State.dlinkWrite, State.faultWrite, State.chronWrite,
      State.traceWrite]
  | global | router | memst | almRouter | probe | diary => rfl
  | time | almCtl | holiday | power | boot => cases h

/-- What counters read from. -/
def State.ctrPart (s : State) : Package × KMap W48 := (s.pkg, s.ctrs)

theorem ctrPart_eq_iff {s t : State} : t.ctrPart = s.ctrPart ↔ t.pkg = s.pkg ∧ t.ctrs = s.ctrs := Prod.mk_inj

theorem ctrAt_of_ctrPart {s t : State} (h : t.ctrPart = s.ctrPart) (u c : Nat) : t.ctrAt u c = s.ctrAt u c := by
  obtain ⟨hp, hc⟩ := ctrPart_eq_iff.mp h
  simp only [State.ctrAt, hp, hc]

theorem ctrPart_setReg (s : State) (u off : Nat) (v : W32) : (s.setReg u off v).ctrPart = s.ctrPart := rfl

/-- What a command leaves of a state of the same package has its counters. -/
theorem ctrAt_kept {s t : State} (h : t.pkg = s.pkg) (u c : Nat) : (kept s t).ctrAt u c = t.ctrAt u c :=
  ctrAt_of_ctrPart (by simp only [State.ctrPart, kept, h]) u c

/-- Steps that keep what counters read from keep it together. -/
theorem ctrPart_foldl {β : Type} (f : State → β → State) (hf : ∀ s b, (f s b).ctrPart = s.ctrPart) (l : List β) (s : State) :
    (l.foldl f s).ctrPart = s.ctrPart := by
  induction l generalizing s with
  | nil => rfl
  | cons b l ih => exact (ih (f s b)).trans (hf s b)

/-- The state with counters of a unit set to one value. -/
def State.setCtrs (s : State) (u : Nat) (v : W48) (l : List Nat) : State := l.foldl (fun t c => t.setCtr u c v) s

theorem setCtrs_pkg (s : State) (u : Nat) (v : W48) (l : List Nat) : (s.setCtrs u v l).pkg = s.pkg := by
  induction l generalizing s with
  | nil => rfl
  | cons c l ih => exact ih (s.setCtr u c v)

theorem setCtrs_ctrPart {s t : State} (h : t.ctrPart = s.ctrPart) (u : Nat) (v : W48) (l : List Nat) :
    (t.setCtrs u v l).ctrPart = (s.setCtrs u v l).ctrPart := by
  induction l generalizing s t with
  | nil => exact h
  | cons c l ih =>
    refine ih ?_
    obtain ⟨hp, hc⟩ := ctrPart_eq_iff.mp h
    simp only [State.ctrPart, State.setCtr, hp, hc]

/-- A counter of the unit after counters of it were set: the value, or what it held. -/
theorem ctrAt_setCtrs (s : State) (u : Nat) (v : W48) (l : List Nat) (c : Nat) :
    (s.setCtrs u v l).ctrAt u c = if c ∈ l then v else s.ctrAt u c := by
  induction l generalizing s with
  | nil => rfl
  | cons d l ih =>
    have hset : (s.setCtr u d v).ctrAt u c = if c = d then v else s.ctrAt u c := by
      by_cases h : c = d
      · subst h; simp
      · simp only [h, if_false]; exact ctrAt_setCtr_ne s v (by unfold regAddr; omega)
    have hcons := ih (s.setCtr u d v)
    rw [hset] at hcons
    refine hcons.trans ?_
    by_cases hl : c ∈ l <;> by_cases hd : c = d <;> simp [hl, hd]

/-- The histograms and high-water marks of a clear register are no counters. -/
theorem clearCounters_ctrPart (s : State) (k : UnitKind) (u off : Nat) (data : W32) :
    (s.clearCounters k u off data).ctrPart = (s.setCtrs u 0 (clearedBy k off data)).ctrPart := by
  unfold State.clearCounters State.setCtrs
  generalize (clearedBy k off data).foldl (fun t c => t.setCtr u c 0) s = t
  dsimp only
  split
  · refine ctrPart_foldl _ (fun s b => ?_) _ _
    split <;> rfl
  · split
    · exact ctrPart_foldl _ (fun s _ => ctrPart_setReg s u _ 0) _ _
    · split
      · exact ctrPart_foldl _ (fun s _ => ctrPart_setReg s u _ 0) _ _
      · split <;> rfl

/-- What a bit of the data and of the coincident events selects, the data selects. -/
theorem mem_clearedBy_of_and {k : UnitKind} {off c : Nat} {data coincident : W32}
    (h : c ∈ clearedBy k off (data &&& coincident)) : c ∈ clearedBy k off data := by
  simp only [clearedBy, List.mem_map, List.mem_filter, BitVec.getLsbD_and, Bool.and_eq_true] at h ⊢
  obtain ⟨e, ⟨he, hoff, hdata, -⟩, hce⟩ := h
  exact ⟨e, ⟨he, hoff, hdata⟩, hce⟩

/-! ## A clear that reaches its register -/

section
variable {s : State} {addr : W32} {k : UnitKind} {r : RegRow} (data coincident : W32) (ha : s.addrOk addr = true)
  (hk : unitKind s.pkg (unitOf addr) = some k) (hr : rowAt k (offOf addr) = some r)
  (hi : s.ignoresWrite k (unitOf addr) (offOf addr) = false) (hc : (clearsOf k).any (fun c => c.1 == offOf addr) = true)
include ha hk hr hi hc

/-- A write of a clear register leaves the counters as clearing alone leaves them. -/
theorem writeOut_clearReg_ctrPart :
    (s.writeOut addr data).ctrPart = (s.setCtrs (unitOf addr) 0 (clearedBy k (offOf addr) data)).ctrPart := by
  have hpower : ¬ (k = .power ∧ offOf addr = R.POWER_CTRL) := by
    rintro ⟨rfl, -⟩; cases hc
  simp only [State.writeOut, State.writeReg, ha, hk, hr, hi, kind_of_clearReg hc hr, hpower, if_false, Bool.not_true,
    Bool.false_eq_true, State.writeWord, wordAct_clearReg _ _ _ _ _ _ hc]
  exact (clearCounters_ctrPart _ _ _ _ _).trans (setCtrs_ctrPart (ctrPart_setReg s _ _ _) _ _ _)

/-- The clear is the write, after which the counters of coincident events are set to 1. -/
theorem counterClear_eq_setCtrs :
    s.counterClear addr data coincident =
      (s.writeOut addr data).setCtrs (unitOf addr) 1 (clearedBy k (offOf addr) (data &&& coincident)) := by
  simp [State.counterClear, State.rowOf, hk, hr, hc, ha, hi, State.setCtrs]

theorem counterClear_pkg : (s.counterClear addr data coincident).pkg = s.pkg := by
  rw [counterClear_eq_setCtrs data coincident ha hk hr hi hc, setCtrs_pkg]
  exact (ctrPart_eq_iff.mp (writeOut_clearReg_ctrPart data ha hk hr hi hc)).1.trans (setCtrs_pkg _ _ _ _)

/-- The coincident events are counted after the clear. -/
theorem ctrAt_counterClear (c : Nat) :
    (s.counterClear addr data coincident).ctrAt (unitOf addr) c =
      if c ∈ clearedBy k (offOf addr) (data &&& coincident) then 1
      else if c ∈ clearedBy k (offOf addr) data then 0 else s.ctrAt (unitOf addr) c := by
  rw [counterClear_eq_setCtrs data coincident ha hk hr hi hc, ctrAt_setCtrs,
    ctrAt_of_ctrPart (writeOut_clearReg_ctrPart data ha hk hr hi hc), ctrAt_setCtrs]

end

/-- Settles O25: counting saturates by `satAdd48_toNat`; a clear is its write, which zeroes what the data selects, and then the coincident counts. -/
theorem countersSaturateAndClear : Obligations.CountersSaturateAndClear := by
  refine ⟨fun s u off n => by rw [ctrAt_count_self, satAdd48_toNat], ?_⟩
  rintro s u off addr data coincident k r ha rfl rfl hk hr hi hc
  have hctr (c : Nat) : (kept s (s.counterClear addr data coincident)).ctrAt (unitOf addr) c = _ :=
    (ctrAt_kept (counterClear_pkg data coincident ha hk hr hi hc) _ c).trans (ctrAt_counterClear data coincident ha hk hr hi hc c)
  refine ⟨kept s (s.counterClear addr data coincident), done_eq s _, fun c hsel hnot => ?_, fun c hone => ?_, fun c hnot => ?_⟩
  · rw [hctr, if_neg hnot, if_pos hsel]
  · rw [hctr, if_pos hone]
  · rw [hctr, if_neg (fun hone => hnot (mem_clearedBy_of_and hone)), if_neg hnot]

end Sys2Proof.Machine
end

section
/-! The frame of every command: what the parts that it does not reach keep, and with it what every step keeps (log 5). -/
namespace Sys2Proof
open Machine

/-! ## Parts -/

/-- What a part takes from a state that has already taken it is that state. -/
theorem Part.put_self (p : Part) (s : State) : p.put s s = s := by cases p <;> rfl

theorem Part.put_pending (p : Part) (s t : State) : (p.put s t).pending = s.pending := by cases p <;> rfl

theorem Part.put_pkg (p : Part) (s t : State) : (p.put s t).pkg = s.pkg := by cases p <;> rfl

/-- No part reads the queue or the identity of the state that it takes. -/
theorem Part.put_kept (p : Part) (s t : State) : p.put s (kept s t) = p.put s t := by cases p <;> rfl

theorem kept_put (p : Part) (s t : State) : kept s (p.put s t) = p.put s t := by cases p <;> rfl

/-! ## Commands whose effect lies within a part -/

/-- An outcome differs from a state only within a part. -/
def Part.bounds (p : Part) (s : State) (r : Res) : Prop := ∀ t, r = .next t → t = p.put s t

/-- An effect within a part bounds the command. -/
theorem Part.bounds_done {p : Part} {s t : State} (h : p.put s t = t) : p.bounds s (done s t) := by
  intro u hu
  obtain rfl : kept s t = u := Host.Outcome.next.inj hu
  calc kept s t = kept s (p.put s t) := by rw [h]
    _ = p.put s (kept s t) := by rw [kept_put, p.put_kept]

theorem Part.bounds_onUnit {p : Part} (ok : Bool) {s t : State} (h : p.put s t = t) : p.bounds s (onUnit ok s t) := by
  rcases onUnit_cases ok s t with hr | hr
  · exact hr ▸ Part.bounds_done h
  · exact hr ▸ Part.bounds_done (p.put_self s)

/-- Every effect lies within the whole of the state. -/
theorem Part.all_bounds_onUnit (ok : Bool) (s t : State) : Part.all.bounds s (onUnit ok s t) := by
  rcases onUnit_cases ok s t with hr | hr <;> rw [hr] <;> intro u hu <;> cases hu <;> rfl

/-- Two effects within a part, under a condition. -/
theorem Part.put_ite {p : Part} (c : Prop) [Decidable c] {s t u : State} (ht : p.put s t = t) (hu : p.put s u = u) :
    p.put s (if c then t else u) = if c then t else u := by
  split <;> assumption

/-- What each kind of command makes of its effect lies within its part. -/
theorem Part.put_onPath (s t : State) : Part.path.put s (onPath s t) = onPath s t := rfl

theorem Part.put_onPower (s t : State) : Part.power.put s (onPower s t) = onPower s t := rfl

theorem Part.put_onDiary (s t : State) : Part.diary.put s (onDiary s t) = onDiary s t := rfl

theorem Part.path_bounds_onPath (ok : Bool) (s t : State) : Part.path.bounds s (onUnit ok s (onPath s t)) :=
  Part.bounds_onUnit ok (put_onPath s t)

theorem Part.power_bounds_onPower (ok : Bool) (s t : State) : Part.power.bounds s (onUnit ok s (onPower s t)) :=
  Part.bounds_onUnit ok (put_onPower s t)

theorem Part.pool_bounds_onPool (s : State) (die : Nat) (t : State) : Part.pool.bounds s (onPool s die t) := Part.bounds_onUnit _ rfl

theorem Part.fault_bounds_onFault (s : State) (die : Nat) (t : State) : Part.fault.bounds s (onFault s die t) := Part.bounds_onUnit _ rfl

theorem Part.sram_bounds_onSram (s : State) (unit sram : Nat) (t : State) : Part.sram.bounds s (onSram s unit sram t) := Part.bounds_onUnit _ rfl

theorem Part.chron_bounds_onChron (s t : State) : Part.chron.bounds s (onChron s t) := Part.bounds_done rfl

theorem Part.chron_bounds_onCtl (ctl : Nat) (s t : State) : Part.chron.bounds s (onCtl ctl s t) := Part.bounds_onUnit _ rfl

theorem Part.almanac_bounds_onAlm (s t : State) : Part.almanac.bounds s (onAlm s t) := Part.bounds_done rfl

theorem Part.mbx_bounds_onMbx (s t : State) : Part.mbx.bounds s (onMbx s t) := Part.bounds_done rfl

theorem Part.trace_bounds_onTrace (s t : State) : Part.trace.bounds s (onTrace s t) := Part.bounds_done rfl

theorem Part.ni_bounds_onNi (s : State) (st : Nat) (t : State) : Part.ni.bounds s (onNi s st t) := Part.bounds_onUnit _ rfl

theorem Part.ni_bounds_onNiHold (s : State) (st : Nat) (c : Instr) (t : State) : Part.ni.bounds s (onNiHold s st c t) := by
  unfold onNiHold
  split
  · exact Part.bounds_onUnit _ rfl
  · exact ni_bounds_onNi s st t

/-- A frame that a router takes from its port reaches the path alone. -/
theorem Part.path_bounds_routerFrame (isl : Island) (input plane vc : Nat) (f : Frame) (errs : FlitErrs) (s : State) :
    Part.path.bounds s (execRouterFrameReceive isl input plane vc f errs s) := by
  unfold execRouterFrameReceive
  refine Part.bounds_onUnit _ ?_
  split
  · exact Part.put_self _ s
  · rfl

/-- Every command's effect lies within its part. -/
theorem exec_bounds (c : Instr) (s : State) : c.part.bounds s (exec c s) := by
  cases c with
  | registerWrite | treeTimeout | counterLoRead | counterHiRead | timeNowLoRead | pairLoWrite | pairHiWrite | counterClear | shaperConfigWrite
    | poolDisable | kalends | latticePulse | islandFtLoad | syncExchangeStart | syncReceive | followUpReceive | delayReqReceive
    | delayRespReceive | upstreamLoss | upstreamReturn | ppsInEdge | ppsInLoss | ref10mLoss | timeRealignArm | ppsOutRise | ppsOutFall
    | timeValidChange | portEnable | portDisable | dlinkEnable | dlinkDisable | islandStop | islandStart | pllRelock | dieUngateDone
    | engineClockStop | kalendsWarnRise | kalendsWarnFall | dieResume | stateBeacon | injectArmWrite | chronSecondsTick | coldReset
    | warmResetPin | bootWarmReset | bootContinueNoImage | bootProceed | bootClearLevels | bootClearDisables | bootStepStart
    | bootStepFinish | bootStepTimeout | bootDeadlineExpiry | heartbeatTick | heartbeatMiss | leaseRequestReceive | leaseGrantExpiry
    | takeover | bootHbKick | bootMirrorFence | mirrorFenceDone | standbySyncDone | mbxGetInfo | mbxImageStage | mbxImageCommit
    | mbxImageAbort | mbxFwWrite | mbxFwSelect | mbxWarmReset | mbxRegRead | mbxRegWrite | mbxChronRead | mbxDiaryRead
    | liveChangeFinish | ref10mReturn | coldStartLeaseRequest | standbyLost =>
    obtain ⟨t, ht⟩ := exec_eq_onUnit _ s
    rw [ht]
    exact Part.all_bounds_onUnit _ s t
  | opNop | opPut | opGet | opIndexedRead | opMessage | opAtomic | opCounterAdd | opCounterSet | opStreamPut | descriptorTriggerStore
    | triggerFire | niXlatFlush | niTrigClearAll | completionRecordTaken | eventNoticeTaken | yellowRelease | yellowExpiry
    | launchNotice | niPfenceSet | niPfenceClear | vigilExpiry | grantExpiry | txnRetireExpiry | opAllReduce | opReduceScatter
    | opAllGather | opReduce | opBroadcast | opAllToAll | opSparseSum | opBarrier | opCancel | stageGrantSend | collectiveComplete
    | statsRdAdvance | jrnlRdAdvance | replayDiverge | jrnlModeWrite =>
    exact Part.ni_bounds_onNi s _ _
  | xlatMissFetchDone | writeDone | readDataReturn | writeRsvReceive | writeDataReceive | readReqReceive | idxReadReqReceive
    | messageReceive | atomicReceive | streamDataReceive | grantReceive | ackReceive | readDataReceive | idxReadDataReceive
    | atomicRespReceive | refusalReceive | vigilErrReceive | stageRsvReceive | stageGrantReceive | chunkReceive | partialReceive
    | sparseReceive | resultReceive | barrierReceive | cancelReceive =>
    exact Part.ni_bounds_onNiHold s _ _ _
  | routerFrameReceive => exact Part.path_bounds_routerFrame _ _ _ _ _ _ s
  | noWindowDrop => exact Part.bounds_onUnit _ (Part.put_ite _ (Part.put_self _ s) (Part.put_onPath s _))
  | arbiterGrant | slotBoundary | codewordReceive | acwReceive | acwLockTimeout | linkFrameReceive | nakResend | ctrlAckReceive
    | ctrlNakReceive | ctrlFlowReceive | flowPeriodic | replayTimeout | trainReceive | signalLock | signalTimeout | alignTimeout
    | exchangeTimeout | readyTimeout | retrainTimeout | cdrLoss | txActiveAtAcw | savedSettingsTimeout | qualWindowEnd
    | monitorWindowEnd | portAutoRetry | portFullRetrain | portRetrain | portCold | portPowerGate | dlinkContainerReceive
    | dlinkReplayTimeout | dlinkModuleFail | dlinkHalfTimeout | dlinkTrainDone | dlinkQualEnd | dlinkRetrain | dlinkNakResend =>
    exact Part.path_bounds_onPath _ s _
  | islandGlideStep | dieGate | dieUngate | pcInputSample | throttleNChange => exact Part.power_bounds_onPower _ s _
  | islandFreqWrite | pllLockLost | dieGateDone | ungateStepTimeout => exact Part.bounds_onUnit _ (Part.put_ite _ (Part.put_onPower s _) (Part.put_self _ s))
  | throttleHoldExpiry | forceThrottleWrite => exact Part.bounds_done (Part.put_onPower s _)
  | diaryReportReceive => exact Part.bounds_onUnit _ (Part.put_onDiary s _)
  | diaryRdAdvance => exact Part.bounds_done (Part.put_onDiary s _)
  | poolAllocate | poolWaitExpiry => exact Part.pool_bounds_onPool s _ _
  | faultReportReceive | faultCaptureDone | faultFenceMessage | faultQuietCheck | faultUnitReset | faultUnitClear | faultUnitRestore
    | faultClearJubilee =>
    exact Part.fault_bounds_onFault s _ _
  | scrubAccess | eccWriteBack => exact Part.sram_bounds_onSram s _ _ _
  | chronProgramDone | chronCompaction | sectorEraseDone | chronMountDone | chronLoad | chronNext | chronRetireTo | chronSwSubmit
    | chronFreeze | chronUnfreeze =>
    exact Part.chron_bounds_onCtl _ s _
  | bucketRefill | recordPlace | standbyDecisionApply | chronFreezeExpiry => exact Part.chron_bounds_onChron s _
  | almLoad | almCopy | almArm | almDisarm | almLoadComplete | coolRequestResume | bankHoldExpiry => exact Part.almanac_bounds_onAlm s _
  | mbxCmdProdWrite | mbxRspConsWrite | mbxNop | mbxEventMask | mbxBackgroundDone | msixHoldoffExpiry | msixTableWrite =>
    exact Part.mbx_bounds_onMbx s _
  | holidayStopPackage | holidayStopMachine | holidayPin | holidayStopFrame | dieStopAck | holidayAckTimeout | holidayRelease
    | holidayReleaseFrame | holidayScan | traceCollect | traceArm | traceTrigger | traceAdvance | traceRecordDrained
    | tracePortEnable =>
    exact Part.trace_bounds_onTrace s _

/-- Settles O58: each command's shape says which part its effect lies within. -/
theorem commandsKeepTheOtherParts : Obligations.CommandsKeepTheOtherParts :=
  fun c s t h => exec_bounds c s t h

/-! ## Steps -/

/-- A command changes neither the queue nor the identity (log 5). -/
theorem exec_keeps {c : Instr} {s t : State} (h : exec c s = .next t) : t.pending = s.pending ∧ t.pkg = s.pkg := by
  rw [exec_bounds c s t h]
  exact ⟨c.part.put_pending s t, c.part.put_pkg s t⟩

theorem step_nil {s : State} (h : s.pending = []) : step s = .next (kept s s.cycle.sramCycle) := by
  unfold step; rw [h]; rfl

theorem step_cons {s : State} {c : Instr} {cs : List Instr} (h : s.pending = c :: cs) : step s = exec c { s with pending := cs } := by
  unfold step; rw [h]

/-- A step takes the front command off the queue, where there is one, and keeps the identity. -/
theorem step_keeps {s t : State} (h : step s = .next t) : t.pending = s.pending.drop 1 ∧ t.pkg = s.pkg := by
  cases hq : s.pending with
  | nil =>
    rw [step_nil hq] at h
    obtain rfl := Host.Outcome.next.inj h
    exact ⟨hq, rfl⟩
  | cons c cs => exact exec_keeps (step_cons hq ▸ h)

/-- Settles O59: the queue of the next state is what is left of the queue, which is well formed where the whole is. -/
theorem stepKeepsQueueAndIdentity : Obligations.StepKeepsQueueAndIdentity := by
  rintro p s t ⟨hp, hw⟩ h
  obtain ⟨hq, hk⟩ := step_keeps h
  refine ⟨hk.trans hp, ?_, hq⟩
  rw [hq, List.all_eq_true]
  exact fun c hc => List.all_eq_true.mp hw c (List.mem_of_mem_drop hc)

/-- Settles O56: by the two cases of the step; a cycle visits each port listed and a cycle of the SRAMs each unit listed. -/
theorem stepRunsFrontCommand : Obligations.StepRunsFrontCommand := by
  refine ⟨fun c s => step_cons rfl, fun s h => ⟨step_nil h, rfl, fun hp => ?_, fun hu => ?_⟩⟩
  · have hports : s.tick.ports = [] := hp
    simp only [State.cycle, hports, List.foldl_nil]
  · simp only [State.sramCycle, hu, List.foldl_nil]

/-- Settles O60: the state after reset lists no register, so each reads at its cold value. -/
theorem resetStateIsCold : Obligations.ResetStateIsCold :=
  ⟨rfl, rfl, rfl, rfl, rfl, rfl, rfl, rfl, rfl, fun _ _ => rfl⟩

end Sys2Proof
end

section
/-! What an NI command leaves beyond its NI, and the NI where it acts: the rules that the statements about NIs rest on. -/
namespace Sys2Proof.Machine

/-! ## Effects within the parts that NIs reach -/

/-- t differs from s only in the parts that NI commands reach. -/
def NiWithin (s t : State) : Prop := niParts s t = t

namespace NiWithin

variable {s t : State}

theorem refl (s : State) : NiWithin s s := rfl

/-- An operation that stays within those parts where it begins within them. -/
theorem op (h : NiWithin s t) (f : State → State) (hf : ∀ t, NiWithin s (f (niParts s t))) : NiWithin s (f t) := h ▸ hf t

theorem setNi (h : NiWithin s t) (st : Nat) (n : Ni) : NiWithin s (t.setNi st n) := h.op (fun t => t.setNi st n) (fun _ => rfl)

theorem updNi (h : NiWithin s t) (st : Nat) (f : Ni → Ni) : NiWithin s (t.updNi st f) := h.op (fun t => t.updNi st f) (fun _ => rfl)

theorem emit (h : NiWithin s t) (o : Out) : NiWithin s (t.emit o) := h.op (fun t => t.emit o) (fun _ => rfl)

theorem setReg (h : NiWithin s t) (u off : Nat) (v : W32) : NiWithin s (t.setReg u off v) :=
  h.op (fun t => t.setReg u off v) (fun _ => rfl)

theorem setPair (h : NiWithin s t) (u off : Nat) (v : FT) : NiWithin s (t.setPair u off v) := (h.setReg _ _ _).setReg _ _ _

theorem setFld (h : NiWithin s t) (u : Nat) (f : Fld) (v : Nat) : NiWithin s (t.setFld u f v) := h.setReg _ _ _

theorem setFldAt (h : NiWithin s t) (u : Nat) (f : Fld) (i v : Nat) : NiWithin s (t.setFldAt u f i v) := h.setReg _ _ _

theorem count (h : NiWithin s t) (u off n : Nat) : NiWithin s (t.count u off n) := h.op (fun t => t.count u off n) (fun _ => rfl)

theorem takeFree (h : NiWithin s t) : NiWithin s t.takeFree.2 := h.op (fun t => t.takeFree.2) (fun _ => rfl)

theorem interrupt (h : NiWithin s t) (a b : Nat) : NiWithin s (t.interrupt a b) := by
  unfold State.interrupt
  split
  · exact h.emit _
  · split
    · exact h
    · exact h.op (fun t => { t with irqHeld := t.irqHeld ++ [(a, b)] }) (fun _ => rfl)

theorem eventBit (h : NiWithin s t) (u off b : Nat) : NiWithin s (t.eventBit u off b) := by
  unfold State.eventBit
  dsimp only
  split
  · exact h.setReg _ _ _
  · exact (h.setReg _ _ _).interrupt _ _

theorem completeNoPeer (h : NiWithin s t) (st : Nat) (d : Desc) (c : Nat) (q : BitVec 24) : NiWithin s (t.completeNoPeer st d c q) :=
  h.takeFree.updNi _ _

theorem markDepth (h : NiWithin s t) (st q : Nat) : NiWithin s (t.markDepth st q) := by
  unfold State.markDepth
  dsimp only
  split
  · exact (h.setFldAt _ _ _ _).eventBit _ _ _
  · exact h.setFldAt _ _ _ _

theorem enqueue (h : NiWithin s t) (st : Nat) (x : Task) : NiWithin s (t.enqueue st x) := (h.updNi _ _).markDepth _ _

theorem niRd (h : NiWithin s t) (st : Nat) (a : FT) (l : Nat) (w : RdFor) : NiWithin s (t.niRd st a l w) := by
  unfold State.niRd
  dsimp only
  split
  · exact (h.setNi _ _).emit _
  · exact h.setNi _ _

end NiWithin

theorem niNow_within {s t : State} {st : Nat} {n : Ni} (h : niNow s t st n) : NiWithin s t := by
  obtain ⟨ht, -, -⟩ := h
  rw [ht]
  rfl

theorem niNow_out {s t : State} {st : Nat} {n : Ni} (h : niNow s t st n) : t.out = s.out := by
  obtain ⟨ht, -, -⟩ := h
  rw [ht]

/-! ## Commands of an NI that has nothing waiting -/

theorem onNi_within {s t : State} {st : Nat} (hs : niThere s st = true) (hq : (t.getNi st).quiet) (hw : NiWithin s t) :
    onNi s st t = .next t :=
  (onNi_quiet s t st hs hq).trans (congrArg _ hw)

theorem onNiRun_within {s t : State} {st : Nat} (hs : niFree s st = true) (hq : (t.getNi st).quiet) (hw : NiWithin s t) :
    onNiRun s st t = .next t :=
  (onNiRun_quiet s t st hs hq).trans (congrArg _ hw)

theorem onNiHold_within {s t : State} {st : Nat} {c : Instr} (hs : niFree s st = true) (hq : (t.getNi st).quiet) (hw : NiWithin s t) :
    onNiHold s st c t = .next t :=
  (onNiHold_quiet s t st c hs hq).trans (congrArg _ hw)

theorem niFree_there {s : State} {st : Nat} (h : niFree s st = true) : niThere s st = true := ((niFree_iff s st).mp h).1

theorem niFree_quiet {s : State} {st : Nat} (h : niFree s st = true) : (s.getNi st).quiet := ((niFree_iff s st).mp h).2.2

theorem niFree_up {s : State} {st : Nat} (h : niFree s st = true) : niUp s st = true := by
  obtain ⟨hthere, hrun, -⟩ := (niFree_iff s st).mp h
  simp [niUp, hthere, hrun]

theorem niFree_of_up_quiet {s : State} {st : Nat} (h : niUp s st = true) (hq : niQuiet s st = true) : niFree s st = true := by
  simpa [niFree, niUp, hq] using h

/-! ## The NI after the shared operations -/

theorem getNi_completeNoPeer (s : State) (st : Nat) (d : Desc) (c : Nat) (q : BitVec 24) :
    (s.completeNoPeer st d c q).getNi st = (s.getNi st).complete d c q 0 ((Config.freeValue s.freeCtr).extractLsb' 0 16) :=
  getNi_updNi_self _ _ _

theorem completeNoPeer_quiet (s : State) (st : Nat) (d : Desc) (c : Nat) (q : BitVec 24) :
    ((s.completeNoPeer st d c q).getNi st).quiet ↔ (s.getNi st).quiet := by
  rw [getNi_completeNoPeer]
  exact Ni.complete_quiet _ _ _ _ _ _

theorem localCtr_quiet (n : Ni) (d : Desc) : (n.localCtr d).quiet ↔ n.quiet := by
  unfold Ni.localCtr
  split
  · exact Ni.bump_quiet n _ _
  · exact Iff.rfl

theorem setTo_quiet (n : Ni) (c : Nat) (v : W48) : (n.setTo c v).quiet ↔ n.quiet := Ni.setCounter_quiet _ c v

theorem getNi_markDepth (s : State) (st q j : Nat) : (s.markDepth st q).getNi j = s.getNi j := by
  unfold State.markDepth
  dsimp only
  split
  · simp [State.getNi, State.setFldAt]
  · rfl

theorem enqueue_quiet (s : State) (st : Nat) (x : Task) : ((s.enqueue st x).getNi st).quiet ↔ (s.getNi st).quiet := by
  unfold State.enqueue
  rw [getNi_markDepth, getNi_updNi_self]
  exact Iff.rfl

theorem niRd_quiet (s : State) (st : Nat) (a : FT) (l : Nat) (w : RdFor) : ((s.niRd st a l w).getNi st).quiet ↔ (s.getNi st).quiet := by
  unfold State.niRd
  dsimp only
  split
  · rw [getNi_emit, getNi_setNi_self]
    exact Iff.rfl
  · rw [getNi_setNi_self]
    exact Iff.rfl

/-! ## A descriptor that is taken at once -/

section
variable {s u : State} {st : Nat} {d : Desc}

theorem liveOne_quiet (h : liveOne s u st) (hs : niFree s st = true) : (u.getNi st).quiet := by
  obtain ⟨-, hg, -⟩ := h
  rw [hg]
  exact niFree_quiet hs

theorem liveOne_within (h : liveOne s u st) : NiWithin s u := niNow_within h

theorem descTaken_free (h : descTaken s st d) : niFree s st = true := h.1

/-- A descriptor of no collective that passes the checks of R52 acts on the state in which it is live. -/
theorem submit_starts (h : descTaken s st d) (hc : opCollective (dOp d) = false) (hf : s.descFails st d = none) :
    ∃ u, liveOne s u st ∧ s.submit st d =
      (if dOp d == 0 then (u.updNi st (fun n => n.localCtr d)).completeNoPeer st d stOk 0
       else if dOp d == 6 then (u.completeNoPeer st d stOk 0).updNi st (fun n => n.bump (dLocalCtr d) (dw d 10).toNat)
       else if dOp d == 7 then (u.completeNoPeer st d stOk 0).updNi st (fun n => n.setTo (dLocalCtr d) (d.extractLsb' 320 48))
       else if dOp d == 8 then u.streamPut st d
       else u.translate st d) := by
  obtain ⟨u, hu, hs⟩ := submit_live s st d h
  refine ⟨u, hu, ?_⟩
  rw [hs, live_descFails s u st d hu, hf, hc]
  rfl

/-- A command of an opcode leaves what its descriptor leaves. -/
theorem offer_eq {op : Nat} {d w t : _} (hw : w = withOpcode d op) (h : descTaken s st w) (ht : s.submit st w = t) (hq : (t.getNi st).quiet)
    (hin : NiWithin s t) : offer s st op d = .next t := by
  subst hw ht
  exact onNi_within (niFree_there (descTaken_free h)) hq hin

end

/-! ## Local descriptors (R52–R54) -/

/-- Settles O1: each of the three acts and completes on the state in which it is live, and leaves nothing waiting. -/
theorem localDescriptorsComplete : Obligations.LocalDescriptorsComplete := by
  intro s st d w
  refine ⟨fun hw ht hf => ?_, fun hw ht hf => ?_, fun hw ht hf => ?_⟩
  · have hop : dOp w = 0 := hw ▸ dOp_withOpcode d 0 (by decide)
    obtain ⟨u, hu, hs⟩ := submit_starts ht (by rw [hop]; rfl) hf
    simp only [hop] at hs
    refine ⟨u, hu, offer_eq hw ht hs ?_ (((liveOne_within hu).updNi _ _).completeNoPeer _ _ _ _)⟩
    rw [completeNoPeer_quiet, getNi_updNi_self, localCtr_quiet]
    exact liveOne_quiet hu (descTaken_free ht)
  · have hop : dOp w = 6 := hw ▸ dOp_withOpcode d 6 (by decide)
    obtain ⟨u, hu, hs⟩ := submit_starts ht (by rw [hop]; rfl) hf
    simp only [hop] at hs
    refine ⟨u, hu, offer_eq hw ht hs ?_ (((liveOne_within hu).completeNoPeer _ _ _ _).updNi _ _)⟩
    rw [getNi_updNi_self, Ni.bump_quiet, completeNoPeer_quiet]
    exact liveOne_quiet hu (descTaken_free ht)
  · have hop : dOp w = 7 := hw ▸ dOp_withOpcode d 7 (by decide)
    obtain ⟨u, hu, hs⟩ := submit_starts ht (by rw [hop]; rfl) hf
    simp only [hop] at hs
    refine ⟨u, hu, offer_eq hw ht hs ?_ (((liveOne_within hu).completeNoPeer _ _ _ _).updNi _ _)⟩
    rw [getNi_updNi_self, setTo_quiet, completeNoPeer_quiet]
    exact liveOne_quiet hu (descTaken_free ht)

end Sys2Proof.Machine
end

section
/-! Transfers at their source NI (R41–R43, R47–R49, R52, R160) and triggered descriptors (R55). -/
namespace Sys2Proof.Machine

/-! ## Transfers -/

section
variable {s u : State} {st op : Nat} {d w : Desc} {c : Instr}

/-- The commands of the five transfers. -/
theorem transfer_exec (s : State) (h : (op, c) ∈ [(1, Instr.opPut st d), (2, Instr.opGet st d), (3, Instr.opIndexedRead st d),
    (4, Instr.opMessage st d), (5, Instr.opAtomic st d)]) : exec c s = offer s st op d ∧ 1 ≤ op ∧ op ≤ 5 := by
  simp only [List.mem_cons, Prod.mk.injEq, List.not_mem_nil, or_false] at h
  rcases h with ⟨rfl, rfl⟩ | ⟨rfl, rfl⟩ | ⟨rfl, rfl⟩ | ⟨rfl, rfl⟩ | ⟨rfl, rfl⟩ <;> exact ⟨rfl, by decide, by decide⟩

/-- A transfer that passes the checks of R52 has its destination found. -/
theorem submit_translates (hw : w = withOpcode d op) (h1 : 1 ≤ op) (h5 : op ≤ 5) (h : descTaken s st w) (hf : s.descFails st w = none) :
    ∃ u, liveOne s u st ∧ s.submit st w = u.translate st w := by
  have hop : dOp w = op := hw ▸ dOp_withOpcode d op (by omega)
  obtain ⟨u, hu, hs⟩ := submit_starts h (by rw [hop]; simp [opCollective]; omega) hf
  rw [hop] at hs
  refine ⟨u, hu, hs.trans ?_⟩
  have h0 : ¬ op = 0 := by omega
  have h6 : ¬ op = 6 := by omega
  have h7 : ¬ op = 7 := by omega
  have h8 : ¬ op = 8 := by omega
  simp [h0, h6, h7, h8]

end

/-- A task that its NI does not meter, with none of its key in the yellow list, enters the queue of its key (R160, R166). -/
theorem police_unmetered (s : State) (st : Nat) (x : Task) (hp : dKey x.d = 0 ∨ s.policerOf (niUnit st) (dKey x.d) = none)
    (hy : (s.getNi st).yellow.any (fun y => y.key == dKey x.d) = false) : s.police st x = s.enqueue st x := by
  have hgo : s.goGreen st x = s.enqueue st x := by simp only [State.goGreen, hy, Bool.false_eq_true, if_false]
  rcases hp with hp | hp
  · simp [State.police, State.meterTask, hp, hgo]
  · simp [State.police, State.meterTask, hp, hgo]

/-- A station of the package that is there, with power and a sound die path, is policed (R38, R41, R281, R299). -/
theorem destKnown_there (s : State) (st : Nat) (x : Task) (hb : s.tableBad (niUnit st) srPath (s.taskPath st x) = false)
    (ha : s.stationAbsent x.dest.toNat = false) (ho : s.dieOff (x.dest.toNat / 2048) = false) : s.destKnown st x = s.police st x := by
  simp [State.destKnown, hb, ha, ho]

/-- Settles O2: the direct station is known, nothing polices it, and so the task is queued. -/
theorem directTransfersQueue : Obligations.DirectTransfersQueue := by
  intro s st op d w c x hc hw ht hf hd hx hbad habs hoff hpol hyel
  obtain ⟨hexec, h1, h5⟩ := transfer_exec s hc
  obtain ⟨u, hu, hs⟩ := submit_translates hw h1 h5 ht hf
  have hlive := hu
  obtain ⟨hus, hg, -⟩ := hu
  generalize u.ni = m at hus
  subst hus
  have hq : State.translate { s with ni := m } st w = State.enqueue { s with ni := m } st x := by
    have hxw : x.d = w := by rw [hx]
    simp only [State.translate, hd, if_true]
    refine (congrArg (State.destKnown { s with ni := m } st) hx.symm).trans ?_
    calc State.destKnown { s with ni := m } st x = State.police { s with ni := m } st x := destKnown_there { s with ni := m } st x hbad habs hoff
      _ = State.enqueue { s with ni := m } st x :=
        police_unmetered { s with ni := m } st x (hxw.symm ▸ hpol) (by rw [hg, hxw]; exact hyel)
  refine ⟨{ s with ni := m }, hlive, hexec.trans (offer_eq hw ht (hs.trans hq) ?_ ((liveOne_within hlive).enqueue st x))⟩
  rw [enqueue_quiet]
  exact liveOne_quiet hlive (descTaken_free ht)

/-- A rank that the translation cache does not hold is fetched (R42, R43). -/
theorem translate_miss (s : State) (st : Nat) (d : Desc) (r : RankDesc) (hd : dDirect d = false) (hr : rankDesc s.bankIn (dKey d) = some r)
    (hb : s.tableBad (niUnit st) srRank (inBank s.alm.inForce (dKey d)) = false) (hl : dDest d < r.count)
    (hm : s.xlatHit st (dKey d) (dDest d) = none) :
    s.translate st d = ((s.setNi st { s.getNi st with
      xlatWait := (s.getNi st).xlatWait ++ [{ d := d, coord := 0, dest := 0, acc := s.stFt st }] }).count (niUnit st) R.NI_XLAT_MISS 1).emit
        (.xlatFetch st (r.entries (dDest d)).1 (r.entries (dDest d)).2) := by
  simp only [State.translate, hd, hr, hb, hm, Bool.false_eq_true, if_false, Nat.not_le.mpr hl]

/-- Settles O3: below RANK_COUNT and without a cache entry, the translation is the miss of R43. -/
theorem rankMissFetches : Obligations.RankMissFetches := by
  intro s st op d w c r hc hw ht hf hd hr hbad hlt hmiss
  obtain ⟨hexec, h1, h5⟩ := transfer_exec s hc
  obtain ⟨u, hu, hs⟩ := submit_translates hw h1 h5 ht hf
  have hlive := hu
  obtain ⟨hus, hg, -⟩ := hu
  generalize u.ni = m at hus
  subst hus
  have hm : State.xlatHit { s with ni := m } st (dKey w) (dDest w) = none := by
    rw [← hmiss]
    unfold State.xlatHit
    rw [hg]
    rfl
  have htr := translate_miss { s with ni := m } st w r hd hr hbad hlt hm
  refine ⟨_, hexec.trans (offer_eq hw ht (hs.trans htr) ?_ ((((liveOne_within hlive).setNi _ _).count _ _ _).emit _)), rfl, ?_, ?_⟩
  · rw [getNi_emit, getNi_count, getNi_setNi_self, hg]
    exact niFree_quiet (descTaken_free ht)
  · exact ctrAt_count_self _ _ _ _
  · rw [getNi_emit, getNi_count, getNi_setNi_self, hg]
    rfl

/-- Settles O4: the read of the tile is the whole effect, and the NI numbers it when the data comes. -/
theorem streamPutReadsTile : Obligations.StreamPutReadsTile := by
  intro s st id d w hw ht hf hid
  have hop : dOp w = 8 := hw ▸ dOp_withOpcode d 8 (by decide)
  obtain ⟨u, hu, hs⟩ := submit_starts ht (by rw [hop]; rfl) hf
  simp only [hop] at hs
  have hlive := hu
  obtain ⟨-, hg, -⟩ := hu
  have hfree : kfree (u.getNi st).rd 256 = some id := by rw [hg]; exact hid
  have hout : u.out = s.out := niNow_out hlive
  refine ⟨u.streamPut st w, offer_eq hw ht hs ?_ ((liveOne_within hlive).niRd _ _ _ _), ?_⟩
  · exact (niRd_quiet u st _ _ _).mpr (liveOne_quiet hlive (descTaken_free ht))
  · unfold State.streamPut
    rw [niRd_some u st id _ _ _ hfree]
    refine ⟨by rw [out_emit]; exact congrArg _ hout, ?_, ?_⟩ <;> rw [getNi_emit, getNi_setNi_self, hg]

/-! ## Triggered descriptors -/

/-- The triggered form of a descriptor says so. -/
theorem dTrigEn_or (d : Desc) : dTrigEn (d ||| ((1#512) <<< 472)) = true := by
  unfold dTrigEn dw
  rw [BitVec.getLsbD_extractLsb', BitVec.getLsbD_or]
  simp

/-- A free NI that is ready takes a descriptor on the state as it was. -/
theorem submit_takes (s : State) (st : Nat) (d : Desc) (hf : niFree s st = true) (hr : s.cmdReady st d = true) :
    ∃ b, niNow s b st (s.getNi st) ∧ s.submit st d = b.takeDesc st d := by
  obtain ⟨hthere, hrun, hq⟩ := (niFree_iff s st).mp hf
  obtain ⟨hcmdq, hcmd, hcoll, hyel⟩ := hq
  generalize ha : s.updNi st (fun n => { n with cmdWait := n.cmdWait ++ [d] }) = a
  have hga : a.getNi st = { s.getNi st with cmdWait := [d] } := by rw [← ha, getNi_updNi_self, hcmd]; rfl
  have hsa : a = { s with ni := a.ni } := by rw [← ha]; rfl
  have hready : a.cmdReady st d = true := by
    rw [← hr]
    unfold State.cmdReady
    rw [hga, hsa]
    rfl
  have hrun' : a.niStopped st = false := by rw [hsa]; exact hrun
  refine ⟨a.updNi st (fun n => { n with cmdWait := [] }), ⟨?_, ?_, fun j hj => ?_⟩, ?_⟩
  · rw [hsa]; rfl
  · rw [getNi_updNi_self, hga]; exact Ni.no_cmdWait (s.getNi st) hcmd
  · rw [getNi_updNi_ne _ _ hj, ← ha, getNi_updNi_ne _ _ hj]
  · have hsub : s.submit st d = a.service st := by rw [← ha]; rfl
    rw [hsub, service_one a st d hrun' (by rw [hga]; exact hyel) (by rw [hga]; exact hcoll) (by rw [hga]; exact hcmdq) (by rw [hga]) hready]

theorem arm_quiet (n : Ni) (d : Desc) : (n.arm d).quiet ↔ n.quiet := by
  unfold Ni.arm
  dsimp only
  split <;> exact Iff.rfl

/-- A change of one NI, seen from the state before. -/
theorem niNow_updNi {s b : State} {st : Nat} {n : Ni} (h : niNow s b st n) (f : Ni → Ni) : niNow s (b.updNi st f) st (f n) := by
  obtain ⟨hb, hg, hne⟩ := h
  refine ⟨?_, by rw [getNi_updNi_self, hg], fun j hj => by rw [getNi_updNi_ne _ _ hj, hne j hj]⟩
  rw [hb]
  rfl

/-- Settles O5: a triggered descriptor is stored or refused by storeTrigger; the head of the ready slots is taken; clearing empties both lists. -/
theorem triggersStoreFireClear : Obligations.TriggersStoreFireClear := by
  intro s st slot d w ks
  refine ⟨fun hw hs hr => ?_, fun hup hq hk => ?_, fun hs => ?_⟩
  · obtain ⟨b, hb, hsub⟩ := submit_takes s st w hs hr
    have htake : s.submit st w = b.storeTrigger st w := by
      rw [hsub]
      simp only [State.takeDesc, hw, dTrigEn_or, if_true]
    have hexec {t : State} (ht : b.storeTrigger st w = t) (hq : (t.getNi st).quiet) (hin : NiWithin s t) :
        exec (.descriptorTriggerStore st d) s = .next t := by
      have hall : s.submit st (d ||| ((1#512) <<< 472)) = t := hw ▸ htake.trans ht
      exact (congrArg (onNi s st) hall).trans (onNi_within (niFree_there hs) hq hin)
    refine ⟨fun hok hcoll => ⟨b.updNi st (fun n => n.arm w), niNow_updNi hb _, hexec ?_ ?_ ((niNow_within hb).updNi _ _)⟩,
      fun hbad => ⟨b.updNi st (fun n => { n with live := n.live + 1 }), niNow_updNi hb _, hexec ?_ ?_ ?_⟩⟩
    · have hcollOk : (opCollective (dOp w) && collMalformed w) = false := by
        cases ho : opCollective (dOp w)
        · rfl
        · simp [hcoll ho]
      simp only [State.storeTrigger, hok, hcollOk, Bool.or_false, Bool.false_eq_true, if_false]
    · rw [getNi_updNi_self, arm_quiet, hb.2.1]
      exact niFree_quiet hs
    · simp only [State.storeTrigger, hbad, Bool.true_or, if_true]
    · rw [completeNoPeer_quiet, getNi_updNi_self, hb.2.1]
      exact niFree_quiet hs
    · exact ((niNow_within hb).updNi _ _).completeNoPeer _ _ _ _
  · refine (onNiRun_up s _ st hup).trans ?_
    simp only [hq, hk, if_true]
  · exact onNi_within (niFree_there hs) (by rw [getNi_updNi_self]; exact niFree_quiet hs) ((NiWithin.refl s).updNi _ _)

end Sys2Proof.Machine
end

section
/-! The station's side of an NI and the requests and responses that reach it (R42, R43, R46–R48, R52, R57, R58, R114, R116, R120, R310, R311). -/
namespace Sys2Proof.Machine

/-! ## Translations -/

/-- Settles O6: an NI that is up acts on the oldest miss, and the entry alone tells a translation from a failure. -/
theorem translationsAnswerAndFlush : Obligations.TranslationsAnswerAndFlush := by
  intro s st pkgEntry stnEntry x xs y
  refine ⟨fun hup hq hv hs hy => ?_, fun hup hq hbad => ?_, fun hs => ?_⟩
  · have hok : ¬ (pkgEntry.getLsbD 31 = false ∨ stnEntry = 0xFFFF) := by simp only [hv, hs, or_self, Bool.true_eq_false, not_false_eq_true]
    refine ⟨(s.setNi st { s.getNi st with xlatWait := xs }).updNi st (fun n =>
      { n with xlat := (y :: n.xlat.filter (fun z => !(z.key == y.key && z.rank == y.rank))).take 512 }), ⟨rfl, ?_, fun j hj => ?_⟩, ?_⟩
    · rw [getNi_updNi_self, getNi_setNi_self]
    · rw [getNi_updNi_ne _ _ hj, getNi_setNi_ne _ _ hj]
    · refine (onNiHold_up s _ st _ hup).trans ?_
      simp only [hq, hok, if_false, hy]
      rfl
  · refine (onNiHold_up s _ st _ hup).trans ?_
    simp only [hq, hbad, if_true]
  · exact onNi_within (niFree_there hs) (by rw [getNi_updNi_self]; exact niFree_quiet hs) ((NiWithin.refl s).updNi _ _)

/-! ## Signals of the station -/

theorem drainDue_quiet (ds : List Due) (n : Ni) : (drainDue ds n).quiet ↔ n.quiet := by
  obtain ⟨hcmdq, hcmd, hcoll, hyel⟩ := drainDue_wait ds n
  unfold Ni.quiet
  rw [hcmdq, hcmd, hcoll, hyel]

/-- Settles O7: each signal finds what it names, and acts on it. -/
theorem stationSignalsAct : Obligations.StationSignalsAct := by
  intro s st id ctr data poisoned w r c cs v
  refine ⟨fun hup hw => ?_, fun hup hr => ?_, fun hs hc => ?_, fun hs hv => ?_⟩
  · refine (onNiHold_up s _ st _ hup).trans ?_
    simp only [hw]
  · refine (onNiHold_up s _ st _ hup).trans ?_
    simp only [hr]
  · have hexec : exec (.completionRecordTaken st) s =
        onNiRun s st ((s.updNi st (fun n => drainDue n.due { n with cpl := cs })).emit (.niCpl st c.bytes)) := by
      show onNiRun s st _ = _
      simp only [hc]
    refine hexec.trans (onNiRun_within hs ?_ (((NiWithin.refl s).updNi _ _).emit _))
    rw [getNi_emit, getNi_updNi_self, drainDue_quiet]
    exact niFree_quiet hs
  · have hexec : exec (.eventNoticeTaken st ctr) s =
        onNiRun s st ((s.updNi st (fun n => { n with evt := kdel n.evt ctr })).emit (.niEvt st ctr v)) := by
      show onNiRun s st _ = _
      simp only [hv]
    refine hexec.trans (onNiRun_within hs ?_ (((NiWithin.refl s).updNi _ _).emit _))
    rw [getNi_emit, getNi_updNi_self]
    exact niFree_quiet hs

/-! ## Reads and writes toward the station -/

theorem niWr_quiet (s : State) (st : Nat) (a : FT) (l : List Byte) (p : Marks) (w : WrFor) :
    ((s.niWr st a l p w).getNi st).quiet ↔ (s.getNi st).quiet := by
  unfold State.niWr
  dsimp only
  split
  · rw [getNi_emit, getNi_setNi_self]
    exact Iff.rfl
  · rw [getNi_setNi_self]
    exact Iff.rfl

section
variable {s t : State} {st id : Nat} {c : Instr}

/-- An NI command that ends in a write toward the station. -/
theorem onNiHold_writes (hs : niFree s st = true) (hq : (t.getNi st).quiet) (ho : t.out = s.out) (a : FT) (l : List Byte) (p : Marks) (w : WrFor)
    (hid : kfree (t.getNi st).wr 256 = some id) :
    ∃ v, onNiHold s st c (t.niWr st a l p w) = .next v ∧ v.out = .niWrite st id (niBeats a l p) :: s.out := by
  refine ⟨_, onNiHold_quiet s _ st c hs ((niWr_quiet t st a l p w).mpr hq), ?_⟩
  rw [niParts_out, niWr_some t st id a l p w hid, out_emit]
  exact congrArg _ ho

/-- An NI command that ends in a read from the station. -/
theorem onNiHold_reads (hs : niFree s st = true) (hq : (t.getNi st).quiet) (ho : t.out = s.out) (a : FT) (l : Nat) (w : RdFor)
    (hid : kfree (t.getNi st).rd 256 = some id) :
    ∃ v, onNiHold s st c (t.niRd st a l w) = .next v ∧ v.out = .niRead st id a l :: s.out := by
  refine ⟨_, onNiHold_quiet s _ st c hs ((niRd_quiet t st a l w).mpr hq), ?_⟩
  rw [niParts_out, niRd_some t st id a l w hid, out_emit]
  exact congrArg _ ho

/-- A command that changes its NI and then writes. -/
theorem onNiHold_updNi_writes (hs : niFree s st = true) (f : Ni → Ni) (hf : (f (s.getNi st)).quiet ↔ (s.getNi st).quiet) (a : FT) (l : List Byte)
    (p : Marks) (w : WrFor) (hid : kfree (f (s.getNi st)).wr 256 = some id) :
    ∃ v, onNiHold s st c ((s.updNi st f).niWr st a l p w) = .next v ∧ v.out = .niWrite st id (niBeats a l p) :: s.out := by
  refine onNiHold_writes (t := s.updNi st f) hs ?_ rfl a l p w ?_ <;> rw [getNi_updNi_self]
  exacts [hf.mpr (niFree_quiet hs), hid]

/-- A command that changes its NI and then reads. -/
theorem onNiHold_updNi_reads (hs : niFree s st = true) (f : Ni → Ni) (hf : (f (s.getNi st)).quiet ↔ (s.getNi st).quiet) (a : FT) (l : Nat)
    (w : RdFor) (hid : kfree (f (s.getNi st)).rd 256 = some id) :
    ∃ v, onNiHold s st c ((s.updNi st f).niRd st a l w) = .next v ∧ v.out = .niRead st id a l :: s.out := by
  refine onNiHold_reads (t := s.updNi st f) hs ?_ rfl a l w ?_ <;> rw [getNi_updNi_self]
  exacts [hf.mpr (niFree_quiet hs), hid]

end

/-! ## Requests that arrive -/

/-- The first row of an indexed read that lies in a window is read (R48). -/
theorem nextRow_inWindow (s : State) (st : Nat) (f : Frame) (no i : Nat) {k : Nat} (acc : List Byte) (z : Option Nat) (p : Marks) (hk : 0 < k)
    (hw : s.windowOk st f.epoch f.pkey.toNat (rowAddr f i).toNat (rowSize f) 3 = true) :
    State.nextRow st f no k i acc z p s = s.niRd st (rowAddr f i) (rowSize f) (.rows f no i acc z p) := by
  cases k with
  | zero => exact absurd hk (Nat.lt_irrefl 0)
  | succ k => simp only [State.nextRow, hw, if_true]

/-- An ATOMIC that replay does not hold, with none before it, reads its target (R52, R248). -/
theorem accept_atomic (s : State) (st : Nat) (d : Delivery) (hk : d.kind = 2)
    (hj : d.f.journal = false ∨ s.fld (niUnit st) F.NI_JRNL_CTRL_MODE ≠ 2) (ha : (s.getNi st).atomics = []) :
    s.accept st d = (s.updNi st (fun n => { n with atomics := n.atomics ++ [d] })).niRd st d.f.addr 8 (.atomic d) := by
  have hdeliver : s.accept st d = s.deliver st d := by
    unfold State.accept
    rcases hj with hj | hj
    · simp [hj]
    · simp [hj]
  simp [hdeliver, State.deliver, hk, State.atomicIn, ha, State.atomicStart]

/-- A frame that passes its checks is what it does. -/
theorem onNiHold_checked {s : State} {st : Nat} {c : Instr} {f : Frame} {w : Bool} {act : State → State} (h : s.destChecks st f w = none) :
    onNiHold s st c (s.checked st f w act) = onNiHold s st c (act s) :=
  congrArg (onNiHold s st c) (checked_none s st f w act h)

/-- A WRITE_DATA under an open grant is written (R46, R47). -/
theorem exec_writeData {s : State} {st k : Nat} {f : Frame} {g : Grant}
    (hck : s.destChecks st f (s.windowOk st f.epoch f.pkey.toNat f.addr.toNat f.length.toNat 1) = none)
    (hg : (s.getNi st).grantOf f = some (k, g)) (hgr : g.granted = true) (hb : g.bufs ≠ 0) :
    exec (.writeDataReceive st f) s = onNiHold s st (.writeDataReceive st f) ((s.updNi st (fun n => { n with
      grants := kins n.grants k { g with
        left := g.left - f.length.toNat, bufs := g.bufs - 1, writes := g.writes + 1, q := if g.q.toNat < f.qdelay.toNat then f.qdelay else g.q,
        poison := firstPoison g.poison (poisonAt f f.seq.toNat), since := s.stFt st } })).niWr st f.addr (f.payload.take f.length.toNat)
      (frameMarks f) (.grantData k)) := by
  have hopen : (!g.granted || g.bufs == 0) = false := by simp [hgr, hb]
  refine (onNiHold_checked hck).trans ?_
  simp only [hg, hopen, Bool.false_eq_true, if_false]

/-- A request to read that takes its place in the order of its source's. -/
theorem getNi_openServe (s : State) (st : Nat) (f : Frame) (cls : Nat) : (s.openServe st f cls).1.getNi st =
    { (s.getNi st).openForm f.srcStation f.srcCoord cls (s.getNi st).arriveNo with arriveNo := (s.getNi st).arriveNo + 1 } :=
  getNi_updNi_self _ _ _

/-- A request to read that takes its place, and then reads. -/
theorem onNiHold_openServe_reads {s : State} {st id : Nat} {c : Instr} {f : Frame} (cls : Nat) (hs : niFree s st = true) (a : FT) (l : Nat) (w : RdFor)
    (hid : kfree (s.getNi st).rd 256 = some id) :
    ∃ v, onNiHold s st c ((s.openServe st f cls).1.niRd st a l w) = .next v ∧ v.out = .niRead st id a l :: s.out := by
  refine onNiHold_reads (t := (s.openServe st f cls).1) hs ?_ rfl a l w ?_ <;> rw [getNi_openServe]
  exacts [niFree_quiet hs, hid]

/-- Settles O8: past the checks of R408 each request ends in one write or read, under the lowest free id. -/
theorem requestsReachTheStation : Obligations.RequestsReachTheStation := by
  intro s st id k f g hs
  refine ⟨fun hck hg hgr hb hid => ?_, fun hck hid => ?_, fun hck hid => ?_, fun hck hid => ?_, fun hck hrows hwin hid => ?_,
    fun hck hj ha hid => ?_⟩
  · rw [exec_writeData hck hg hgr hb]
    exact onNiHold_updNi_writes hs _ Iff.rfl _ _ _ _ hid
  · have hexec : exec (.messageReceive st f) s = onNiHold s st _ (State.niWr (s.updNi st _) st _ _ _ _) := onNiHold_checked hck
    rw [hexec]
    exact onNiHold_updNi_writes hs _ Iff.rfl _ _ _ _ hid
  · have hexec : exec (.streamDataReceive st f) s = onNiHold s st _ (State.niWr (State.updNi (if (_ : Nat) = _ then s else s.streamGap st _) st _) st _ _ _ _) :=
      onNiHold_checked hck
    rw [hexec]
    generalize hv : (if ((kget {} (s.getNi st).rx f.streamId.toNat).begin f).next = (kget {} (s.getNi st).rx f.streamId.toNat).next then s
      else s.streamGap st ((kget {} (s.getNi st).rx f.streamId.toNat).expect == f.seq)) = v
    have hparts : v.getNi st = s.getNi st ∧ v.out = s.out := by
      rw [← hv]
      split
      · exact ⟨rfl, rfl⟩
      · exact streamGap_parts s st _
    obtain ⟨hni, hout⟩ := hparts
    refine onNiHold_writes hs ?_ ?_ _ _ _ _ ?_
    · rw [getNi_updNi_self, hni]
      exact niFree_quiet hs
    · exact hout
    · rw [getNi_updNi_self, hni]
      exact hid
  · have hexec : exec (.readReqReceive st f) s = onNiHold s st _ (State.niRd (s.openServe st f 0x21).1 st _ _ _) := onNiHold_checked hck
    rw [hexec]
    exact onNiHold_openServe_reads _ hs _ _ _ hid
  · have hexec : exec (.idxReadReqReceive st f) s = onNiHold s st _ (State.niRd (s.openServe st f 0x22).1 st _ _ _) :=
      (onNiHold_checked hck).trans (congrArg (onNiHold s st _) (nextRow_inWindow (s.openServe st f 0x22).1 st f _ 0 [] none [] hrows hwin))
    rw [hexec]
    exact onNiHold_openServe_reads _ hs _ _ _ hid
  · have hexec : exec (.atomicReceive st f) s = onNiHold s st _ (State.niRd (s.updNi st _) st _ _ _) :=
      (onNiHold_checked hck).trans (congrArg (onNiHold s st _) (accept_atomic s st _ rfl hj ha))
    rw [hexec]
    exact onNiHold_updNi_reads hs _ Iff.rfl _ _ _ hid

end Sys2Proof.Machine
end

section
/-! Reservations and responses at an NI, and its timers (R46–R48, R114, R116, R120, R168, R169, R309–R311). -/
namespace Sys2Proof.Machine

/-! ## Reservations -/

theorem slotsBetween_self (a : FT) : slotsBetween a a = 0 := by
  unfold slotsBetween
  split
  · have : a.toNat / 128 + 2 ^ 57 - a.toNat / 128 = 2 ^ 57 := by omega
    rw [this, Nat.mod_self]
  · rfl

/-- A request that meets free buffers takes them and proceeds (R169). -/
theorem poolRequest_granted (s : State) (r : PoolReq) {die : Nat} (hd : die = poolDie s.pkg r.st) (hp : s.poolPresent die = true)
    (he : s.bit (poolUnit die) F.POOL_CTRL_EN = true) (hc : (s.getPool die).held r.key + r.n ≤ s.ceiling (poolUnit die) r.key)
    (hq : (s.getPool die).queue = []) (hf : r.n ≤ s.poolFree die) :
    s.poolRequest r = (s.setPool die ((s.getPool die).take r.key r.n)).poolGranted r := by
  subst hd
  simp only [State.poolRequest, hp, he, hq, hf, Nat.not_lt.mpr hc, Bool.not_true, Bool.false_eq_true, if_false, List.isEmpty_nil,
    decide_true, Bool.and_self, if_true]

/-- A WRITE_RSV whose buffers are allocated is granted, and its GRANT waits for the issue stage (R47). -/
theorem poolGranted_rsv (s : State) (r : PoolReq) {g : Grant} (hr : r.rsv = true) (hg : kfind (s.getNi r.st).grants r.ref = some g) :
    s.poolGranted r = (s.setNi r.st { s.getNi r.st with
      grants := kins (s.getNi r.st).grants r.ref
        { g with granted := true, q := addQ g.f.qdelay (s.poolWait r), since := s.stFt r.st, at_ := s.stFt r.st } }).sendQ r.st
        { respond g.f 0x11 (addQ g.f.qdelay (s.poolWait r)) with seq := g.f.seq, last := true } := by
  simp only [State.poolGranted, hr, if_true, hg]

theorem getNi_sendQ (s : State) (st : Nat) (f : Frame) : (s.sendQ st f).getNi st =
    { s.getNi st with outq := pushHead (s.getNi st).outq (s.niRouted st f) (s.stFt st) [] } := getNi_updNi_self _ _ _

/-- The grant that a WRITE_RSV opens, under the arrival's number. -/
def rsvGrant (s : State) (st : Nat) (f : Frame) : Grant :=
  { f := f, granted := false, left := f.seq.toNat, bufs := (putPieces f.addr f.seq.toNat).length, writes := 0, q := f.qdelay, poison := none,
    since := s.stFt st }

/-- That grant once its buffers are allocated at once. -/
def rsvGranted (s : State) (st : Nat) (f : Frame) : Grant :=
  { rsvGrant s st f with granted := true, q := addQ f.qdelay 0, since := s.stFt st, at_ := s.stFt st }

/-- The pool request of a WRITE_RSV. -/
def rsvRequest (s : State) (st : Nat) (f : Frame) : PoolReq :=
  { st := st, key := f.pkey.toNat, n := (putPieces f.addr f.seq.toNat).length, rsv := true, ref := (s.getNi st).arriveNo, since := s.stFt st }

/-- The NI once a WRITE_RSV has opened its grant. -/
def Ni.openRsv (s : State) (st : Nat) (f : Frame) (n : Ni) : Ni :=
  { n with grants := kins n.grants (s.getNi st).arriveNo (rsvGrant s st f), arriveNo := (s.getNi st).arriveNo + 1 }

/-- A WRITE_RSV that passes its checks opens its grant and asks for its buffers. -/
theorem exec_writeRsv {s : State} {st : Nat} {f : Frame} (hck : s.destChecks st f (s.piecesOk st f 1) = none) :
    exec (.writeRsvReceive st f) s =
      onNiHold s st (.writeRsvReceive st f) ((s.updNi st (Ni.openRsv s st f)).poolRequest (rsvRequest s st f)) :=
  onNiHold_checked hck

theorem getPool_sendQ (s : State) (st : Nat) (f : Frame) (die : Nat) : (s.sendQ st f).getPool die = s.getPool die := rfl

theorem getPool_setNi (s : State) (st : Nat) (n : Ni) (die : Nat) : (s.setNi st n).getPool die = s.getPool die := rfl

theorem getNi_setPool (s : State) (die : Nat) (p : Pool) (st : Nat) : (s.setPool die p).getNi st = s.getNi st := rfl

/-- What a WRITE_RSV with free buffers leaves: its buffers taken, its grant recorded and its GRANT waiting. -/
theorem rsv_granted {s : State} {st die : Nat} {f : Frame} (hdie : die = poolDie s.pkg st) (hp : s.poolPresent die = true)
    (he : s.bit (poolUnit die) F.POOL_CTRL_EN = true)
    (hc : (s.getPool die).held f.pkey.toNat + (rsvRequest s st f).n ≤ s.ceiling (poolUnit die) f.pkey.toNat)
    (hq : (s.getPool die).queue = []) (hf : (rsvRequest s st f).n ≤ s.poolFree die) :
    ∃ b n, (s.updNi st (Ni.openRsv s st f)).poolRequest (rsvRequest s st f) =
        (b.setNi st n).sendQ st { respond f 0x11 (addQ f.qdelay 0) with seq := f.seq, last := true } ∧
      b = State.setPool { s with ni := b.ni } die ((s.getPool die).take f.pkey.toNat (rsvRequest s st f).n) ∧
      n = { Ni.openRsv s st f (s.getNi st) with grants := kins (Ni.openRsv s st f (s.getNi st)).grants (s.getNi st).arriveNo (rsvGranted s st f) } := by
  obtain ⟨a, ha⟩ : ∃ a, a = s.updNi st (Ni.openRsv s st f) := ⟨_, rfl⟩
  have hga : a.getNi st = Ni.openRsv s st f (s.getNi st) := by rw [ha, getNi_updNi_self]
  have has : a = { s with ni := a.ni } := by rw [ha]; rfl
  rw [← ha]
  obtain ⟨b, hb⟩ : ∃ b, b = a.setPool die ((s.getPool die).take f.pkey.toNat (rsvRequest s st f).n) := ⟨_, rfl⟩
  have hgb : b.getNi st = Ni.openRsv s st f (s.getNi st) := by rw [hb, getNi_setPool, hga]
  have hbs : b = State.setPool { s with ni := b.ni } die ((s.getPool die).take f.pkey.toNat (rsvRequest s st f).n) := by rw [hb, has]; rfl
  have hreq : a.poolRequest (rsvRequest s st f) = b.poolGranted (rsvRequest s st f) := by
    rw [hb]
    have hpool : a.getPool die = s.getPool die := by rw [has]; rfl
    refine (poolRequest_granted a (rsvRequest s st f) ?_ ?_ ?_ ?_ ?_ ?_).trans (by rw [hpool]; rfl) <;> rw [has]
    exacts [hdie, hp, he, hc, hq, hf]
  have hgrant : kfind (b.getNi st).grants (s.getNi st).arriveNo = some (rsvGrant s st f) := by rw [hgb]; exact kfind_kins_self _ _ _
  have hnow : b.stFt (rsvRequest s st f).st = s.stFt st := by rw [hbs]; rfl
  have hwait : b.poolWait (rsvRequest s st f) = 0 := (congrArg (slotsBetween (s.stFt st)) hnow).trans (slotsBetween_self _)
  refine ⟨b, _, ?_, hbs, rfl⟩
  rw [hreq, poolGranted_rsv b (rsvRequest s st f) rfl hgrant, hwait, hnow, ← hgb]
  rfl

/-- Settles O9: the request takes its buffers at once, and what it granted is recorded under the arrival's number. -/
theorem reservationsAreGranted : Obligations.ReservationsAreGranted := by
  intro s st n die f hs hck hdie hn hp he hc hq hf
  subst hn
  obtain ⟨b, m, hreq, hb, hm⟩ := rsv_granted hdie hp he hc hq hf
  rw [exec_writeRsv hck, hreq]
  refine ⟨_, onNiHold_quiet s _ st _ hs ?_, ?_, ⟨rsvGranted s st f, ?_, rfl, rfl, rfl, rfl⟩, ?_⟩
  · rw [getNi_sendQ, getNi_setNi_self, hm]
    exact niFree_quiet hs
  · rw [niParts_getPool, getPool_sendQ, getPool_setNi, hb, getPool_setPool_self]
    rfl
  · rw [niParts_getNi, getNi_sendQ, getNi_setNi_self, hm]
    exact kfind_kins_self _ _ _
  · rw [niParts_getNi, getNi_sendQ, getNi_setNi_self, hm, hb]
    rfl

end Sys2Proof.Machine
end

section
/-! Responses at an NI, its registers and its timers (R47, R48, R106, R114, R116, R120, R167, R169, R235, R247, R249, R303, R309–R311). -/
namespace Sys2Proof.Machine

/-! ## Responses that act -/

/-- The NI of a transaction that a response has reached: its Vigil starts again, and it notes the response's QDELAY (R309, R310). -/
def Ni.responded (s : State) (st : Nat) (f : Frame) (n : Ni) : Ni :=
  n.updTxn f.txn.toNat (fun t => { t with vigil := some (s.stFt st), lastQ := f.qdelay })

section
variable {s : State} {st id : Nat} {f : Frame} {x : Txn} {c : Instr} {act : Txn → State → State}

theorem onNiHold_response (hck : s.destChecks st f true = none) (ha : s.answered st f = some x) :
    onNiHold s st c (s.response st f act) = onNiHold s st c (act x (s.updNi st (Ni.responded s st f))) :=
  congrArg (onNiHold s st c) (response_some s st f x act hck ha)

theorem updTxn_quiet (n : Ni) (t : Nat) (g : Txn → Txn) : (n.updTxn t g).quiet ↔ n.quiet := by
  obtain ⟨hcmdq, hcmd, hcoll, hyel, -, -⟩ := updTxn_parts n t g
  unfold Ni.quiet
  rw [hcmdq, hcmd, hcoll, hyel]

theorem updTxn_rd (n : Ni) (t : Nat) (g : Txn → Txn) : (n.updTxn t g).rd = n.rd := by
  obtain ⟨-, -, -, -, hrd, -⟩ := updTxn_parts n t g
  exact hrd

theorem updTxn_wr (n : Ni) (t : Nat) (g : Txn → Txn) : (n.updTxn t g).wr = n.wr := by
  obtain ⟨-, -, -, -, -, hwr⟩ := updTxn_parts n t g
  exact hwr

theorem responded_quiet (n : Ni) : (Ni.responded s st f n).quiet ↔ n.quiet := updTxn_quiet n _ _

theorem responded_rd (n : Ni) : (Ni.responded s st f n).rd = n.rd := updTxn_rd n _ _

theorem responded_wr (n : Ni) : (Ni.responded s st f n).wr = n.wr := updTxn_wr n _ _

/-- A response that writes under its transaction. -/
theorem onNiHold_txn_writes (hs : niFree s st = true) (g : Txn → Txn) (a : FT) (l : List Byte) (p : Marks) (w : WrFor)
    (hid : kfree (s.getNi st).wr 256 = some id) :
    ∃ v, onNiHold s st c (((s.updNi st (Ni.responded s st f)).updNi st (fun n => n.updTxn f.txn.toNat g)).niWr st a l p w) = .next v ∧
      v.out = .niWrite st id (niBeats a l p) :: s.out := by
  refine onNiHold_writes hs ?_ ?_ a l p w ?_
  · rw [getNi_updNi_self, getNi_updNi_self, updTxn_quiet, responded_quiet]
    exact niFree_quiet hs
  · rfl
  · rw [getNi_updNi_self, getNi_updNi_self, updTxn_wr, responded_wr]
    exact hid

/-- A response that reads under its transaction. -/
theorem onNiHold_txn_reads (hs : niFree s st = true) (g : Txn → Txn) (a : FT) (l : Nat) (w : RdFor)
    (hid : kfree (s.getNi st).rd 256 = some id) :
    ∃ v, onNiHold s st c (((s.updNi st (Ni.responded s st f)).updNi st (fun n => n.updTxn f.txn.toNat g)).niRd st a l w) = .next v ∧
      v.out = .niRead st id a l :: s.out := by
  refine onNiHold_reads hs ?_ ?_ a l w ?_
  · rw [getNi_updNi_self, getNi_updNi_self, updTxn_quiet, responded_quiet]
    exact niFree_quiet hs
  · rfl
  · rw [getNi_updNi_self, getNi_updNi_self, updTxn_rd, responded_rd]
    exact hid

end

/-- Settles O10: an answered transaction of the response's opcode goes on with one read, or one write into its space. -/
theorem responsesReachTheStation : Obligations.ResponsesReachTheStation := by
  intro s st id f x hs hck ha
  refine ⟨fun hop hph hid => ?_, fun hop hid => ?_, fun hop hid => ?_, fun hop hid => ?_⟩
  · have hexec : exec (.grantReceive st f) s = onNiHold s st _ _ := onNiHold_response hck ha
    rw [hexec, if_pos ⟨hop, hph⟩]
    exact onNiHold_txn_reads hs _ _ _ _ hid
  · have hexec : exec (.readDataReceive st f) s = onNiHold s st _ _ := onNiHold_response hck ha
    rw [hexec, if_pos hop]
    exact onNiHold_txn_writes hs _ _ _ _ _ hid
  · have hexec : exec (.idxReadDataReceive st f) s = onNiHold s st _ _ := onNiHold_response hck ha
    rw [hexec, if_pos hop]
    exact onNiHold_txn_writes hs _ _ _ _ _ hid
  · have hexec : exec (.atomicRespReceive st f) s = onNiHold s st _ _ := onNiHold_response hck ha
    rw [hexec, if_pos hop]
    exact onNiHold_txn_writes hs _ _ _ _ _ hid

/-! ## Responses that end their transaction -/

theorem kfind_updTxn (n : Ni) (t : Nat) (g : Txn → Txn) {x : Txn} (h : kfind n.txn t = some x) : kfind (n.updTxn t g).txn t = some (g x) := by
  unfold Ni.updTxn
  rw [h]
  exact kfind_kins_self _ _ _

/-- A stale response is dropped and counted (R311). -/
theorem onNiHold_stale {s : State} {st : Nat} {f : Frame} {c : Instr} {act : Txn → State → State} (hs : niFree s st = true)
    (hck : s.destChecks st f true = none) (ha : s.answered st f = none) :
    onNiHold s st c (s.response st f act) = .next (s.count (niUnit st) R.NI_STALE_DROP 1) := by
  have hstale : s.response st f act = s.count (niUnit st) R.NI_STALE_DROP 1 := by
    unfold State.response
    rw [checked_none _ _ _ _ _ hck, ha]
  rw [hstale]
  exact onNiHold_within hs (niFree_quiet hs) ((NiWithin.refl s).count _ _ _)

/-- Settles O11: what answers an outstanding transaction ends it with the status of its class, and what answers none is stale. -/
theorem responsesEndTransactions : Obligations.ResponsesEndTransactions := by
  intro s u st f x hup hck
  refine ⟨fun ha hu => ?_, fun hq ha c hc => ?_⟩
  · have hup' {c : Instr} {act : Txn → State → State} : onNiHold s st c (s.response st f act) = .next (niAfter s (act x u) st) := by
      rw [hu, onNiHold_up s _ st c hup]
      exact congrArg (fun t => Host.Outcome.next (niAfter s t st)) (response_some s st f x act hck ha)
    have htxn : kfind (u.getNi st).txn f.txn.toNat = some { x with vigil := some (s.stFt st), lastQ := f.qdelay } := by
      rw [hu, getNi_updNi_self]
      exact kfind_updTxn _ _ _ (answered_txn s st f x ha)
    refine ⟨fun hop => ?_, hup', ?_⟩
    · refine Eq.trans hup' ?_
      rw [if_pos hop]
    · refine Eq.trans hup' ?_
      simp only [State.vigilEnd, htxn, Bool.false_eq_true, if_false]
  · have hs := niFree_of_up_quiet hup hq
    simp only [List.mem_cons, List.not_mem_nil, or_false] at hc
    rcases hc with rfl | rfl | rfl | rfl | rfl | rfl | rfl <;> exact onNiHold_stale hs hck ha

/-! ## Registers of an NI -/

/-- An NI command that changes only what neither waits nor lies beyond its NI. -/
theorem onNiRun_updNi {s : State} {st : Nat} (hs : niFree s st = true) (f : Ni → Ni) (hf : (f (s.getNi st)).quiet ↔ (s.getNi st).quiet) :
    onNiRun s st (s.updNi st f) = .next (s.updNi st f) :=
  onNiRun_within hs (by rw [getNi_updNi_self]; exact hf.mpr (niFree_quiet hs)) ((NiWithin.refl s).updNi _ _)

theorem onNi_updNi {s : State} {st : Nat} (hs : niFree s st = true) (f : Ni → Ni) (hf : (f (s.getNi st)).quiet ↔ (s.getNi st).quiet) :
    onNi s st (s.updNi st f) = .next (s.updNi st f) :=
  onNi_within (niFree_there hs) (by rw [getNi_updNi_self]; exact hf.mpr (niFree_quiet hs)) ((NiWithin.refl s).updNi _ _)

/-- A read pointer that does not pass its write pointer moves. -/
theorem onNi_rdAdvance {s : State} {st : Nat} (hs : niFree s st = true) (u wr rd : Nat) (v : FT) (h : ftGe (s.pair u wr) v = true) :
    onNi s st (if ftGe (s.pair u wr) v then s.setPair u rd v else s) = .next (s.setPair u rd v) := by
  rw [if_pos h]
  exact onNi_within (niFree_there hs) (niFree_quiet (s := s) hs) ((NiWithin.refl s).setPair _ _ _)

theorem fence_quiet (n : Ni) (key : Nat) : (n.fence key).quiet ↔ n.quiet := by
  unfold Ni.fence
  split <;> exact Iff.rfl

/-- A wave that has begun, at a station that has not launched it in this cycle, advances its launch counter (R106). -/
theorem launchOne_begun (s : State) (st w c : Nat) (hw : ftGe (s.stFt st) (s.alm.start + BitVec.ofNat 64 (w * s.alm.spacing)) = true)
    (hl : kfind (s.getNi st).launched (w * 4096 + c) ≠ some s.alm.cycles) :
    s.launchOne st w c = s.updNi st (fun n => { n.bump c 1 with launched := kins n.launched (w * 4096 + c) s.alm.cycles }) := by
  simp [State.launchOne, hw, hl]

/-- Settles O12: each command makes its one change, and leaves nothing waiting. -/
theorem niRegistersFollowTheirCommands : Obligations.NiRegistersFollowTheirCommands := by
  intro s st key txn w c rd since hs
  refine ⟨onNi_updNi hs _ (fence_quiet _ _), onNi_updNi hs _ Iff.rfl, onNi_rdAdvance hs _ _ _ rd, onNi_rdAdvance hs _ _ _ rd,
    fun hr ht => ?_, fun hh hl hw hn => ?_⟩
  · have hexec : exec (.txnRetireExpiry st txn) s = onNiRun s st (s.updNi st (fun n => { n with retired := kdel n.retired txn })) := by
      show onNiRun s st _ = _
      simp only [hr, ht, if_true]
    exact hexec.trans (onNiRun_updNi hs _ Iff.rfl)
  · have hexec : exec (.launchNotice st) s = onNiRun s st (s.launchOne st w c) := by
      show onNiRun s st _ = _
      simp only [hh, hl, Bool.false_eq_true, if_false, List.foldl_cons, List.foldl_nil]
    rw [hexec, launchOne_begun s st w c hw hn]
    exact onNiRun_updNi hs _ (Ni.bump_quiet _ c 1)

/-! ## Timers of an NI -/

/-- Settles O13: an NI that is up acts on the timer that has run out. -/
theorem vigilsEndWhatTheyWatch : Obligations.VigilsEndWhatTheyWatch := by
  intro s st txn src k tag x g m since hup
  refine ⟨fun hx hv hl => ?_, fun hm he hl => ?_, fun hg => ?_⟩
  · have hexpired : x.vigil.any (fun t => decide (s.vigilLimit st x.task.coord ≤ ftSince (s.stFt st) t)) = true := by simp [hv, hl]
    refine (onNiRun_up s _ st hup).trans ?_
    simp only [hx, hexpired, if_true, State.vigilEnd]
  · refine (onNiRun_up s _ st hup).trans ?_
    simp only [State.collVigil, hm, he, hl, Option.isNone_none, decide_true, Bool.and_self, if_true]
  · refine (onNiRun_up s _ st hup).trans ?_
    simp only [hg]

/-- Settles O14: the head leaves where it may, and an entry that has stood its time is refused where it does not leave. -/
theorem yellowListDrains : Obligations.YellowListDrains := by
  intro s st key y p hup
  refine ⟨fun hy hr => ?_, fun hy hp hw hn => ?_⟩
  · refine (onNiRun_up s _ st hup).trans ?_
    simp only [hy, hr, if_true]
  · have hstays : ((s.getNi st).yellow.find? (fun z => z.key == key) == some y && s.yellowReady st y) = false := by
      rcases hn with hn | hn
      · simp [hn]
      · simp [hn]
    refine (onNiRun_up s _ st hup).trans ?_
    simp only [hy, hp, Nat.not_lt.mpr hw, hstays, Bool.false_eq_true, if_false]

/-! ## The arrival journal -/

theorem jrnlMode_local (s : State) (st mode : Nat) (ring : List FT) (hm : mode < 2) (hold : s.fld (niUnit st) F.NI_JRNL_CTRL_MODE ≠ 2) :
    s.jrnlMode st mode ring = s.setFld (niUnit st) F.NI_JRNL_CTRL_MODE mode := by
  have h3 : mode ≠ 3 := by omega
  have h2 : mode ≠ 2 := by omega
  simp only [State.jrnlMode, h3, h2, hold, if_false]

/-- Replay takes its ring where its head is not at its end (R249, R251). -/
theorem jrnlMode_replay (s : State) (st : Nat) (ring : List FT) (hold : s.fld (niUnit st) F.NI_JRNL_CTRL_MODE ≠ 2)
    (hend : s.fld (niUnit st) F.NI_JRNL_REPLAY_HEAD_INDEX ≠ s.fld (niUnit st) F.NI_JRNL_REPLAY_END_INDEX) :
    s.jrnlMode st 2 ring = (s.setFld (niUnit st) F.NI_JRNL_CTRL_MODE 2).updNi st
      (fun n => { n with ring := ring, ringBase := s.fld (niUnit st) F.NI_JRNL_REPLAY_HEAD_INDEX }) := by
  have hnot : State.atReplayEnd ((s.setFld (niUnit st) F.NI_JRNL_CTRL_MODE 2).updNi st
      (fun n => { n with ring := ring, ringBase := s.fld (niUnit st) F.NI_JRNL_REPLAY_HEAD_INDEX })) st = false := by
    have hhead := fld_setFld_off s (niUnit st) F.NI_JRNL_CTRL_MODE F.NI_JRNL_REPLAY_HEAD_INDEX 2 (by decide)
    have hlast := fld_setFld_off s (niUnit st) F.NI_JRNL_CTRL_MODE F.NI_JRNL_REPLAY_END_INDEX 2 (by decide)
    exact beq_eq_false_iff_ne.mpr (fun he => hend (hhead.symm.trans (Eq.trans he hlast)))
  have h23 : ¬ (2 : Nat) = 3 := by decide
  simp only [State.jrnlMode, h23, hold, if_false, if_true, hnot, Bool.false_eq_true]

/-- Settles O15: outside REPLAY the mode is one field; the oldest held transfer that has waited its limit diverges. -/
theorem journalModesAndDivergence : Obligations.JournalModesAndDivergence := by
  intro s st ring h hs hfree
  have hmode {t : State} (mode : W2) (ht : s.jrnlMode st mode.toNat ring = t) (hq : (t.getNi st).quiet) (hin : NiWithin s t) :
      exec (.jrnlModeWrite st mode ring) s = .next t :=
    (congrArg (onNi s st) ht).trans (onNi_within (niFree_there hfree) hq hin)
  refine ⟨fun hold => ⟨?_, ?_⟩, fun hold hend => ⟨_, hmode 2 (jrnlMode_replay s st ring hold hend) ?_ ?_, ?_, ?_, ?_⟩, fun hh hl => ?_⟩
  · exact hmode 0 (jrnlMode_local s st 0 ring (by decide) hold) (niFree_quiet (s := s) hfree) ((NiWithin.refl s).setFld _ _ _)
  · exact hmode 1 (jrnlMode_local s st 1 ring (by decide) hold) (niFree_quiet (s := s) hfree) ((NiWithin.refl s).setFld _ _ _)
  · rw [getNi_updNi_self]
    exact niFree_quiet (s := s) hfree
  · exact ((NiWithin.refl s).setFld _ _ _).updNi _ _
  · exact fld_setFld_self s (niUnit st) F.NI_JRNL_CTRL_MODE 2 (by decide) (by decide)
  · rw [getNi_updNi_self]
  · rw [getNi_updNi_self]
  · refine (onNiRun_up s _ st (niFree_up hfree)).trans ?_
    simp only [hh, hl, decide_true, if_true]

end Sys2Proof.Machine
end

section
/-! The receive buffer pool serves and refuses (R169). -/
namespace Sys2Proof.Machine

theorem poolThere_eq (s : State) (die : Nat) : poolThere s die = (unitKind s.pkg (poolUnit die) == some .pool && !s.dieDisabled die) := rfl

/-- A command of a pool that is there leaves what its effect leaves of the parts that pools reach. -/
theorem onPool_there (s t : State) {die : Nat} (h : poolThere s die = true) : onPool s die t = .next (Part.put .pool s t) :=
  onUnit_true s _ h

/-! ## Refusals -/

/-- What a refusal keeps: it changes the NI of the request alone. -/
theorem poolRefused_eq (s : State) (r : PoolReq) (reason : Nat) : s.poolRefused r reason = { s with ni := (s.poolRefused r reason).ni } := by
  unfold State.poolRefused
  dsimp only
  split
  · split
    · rfl
    · unfold State.refuse
      split <;> rfl
  · split <;> rfl

theorem foldl_poolRefused_eq (rs : List PoolReq) (reason : Nat) (s : State) :
    rs.foldl (fun s r => s.poolRefused r reason) s = { s with ni := (rs.foldl (fun s r => s.poolRefused r reason) s).ni } := by
  induction rs generalizing s with
  | nil => rfl
  | cons r rs ih =>
    rw [List.foldl_cons, ih, poolRefused_eq s r reason]

/-- A head that has waited its time without its buffers is refused, and those behind it are served. -/
theorem exec_poolWaitExpiry {s : State} {die : Nat} {r : PoolReq} {rs : List PoolReq} (hq : (s.getPool die).queue = r :: rs)
    (hz : s.dieFrozen die = false) (hf : s.poolFree die < r.n) (hw : s.fld (poolUnit die) F.POOL_CTRL_WAIT_MAX ≤ s.poolWait r - r.froze) :
    exec (.poolWaitExpiry die) s = onPool s die (servePool die rs
      (((s.setPool die { s.getPool die with queue := rs }).count (poolUnit die) R.POOL_REFUSE_WAIT 1).poolRefused r stCeiling)) := by
  have hrest : ((((s.setPool die { s.getPool die with queue := rs }).count (poolUnit die) R.POOL_REFUSE_WAIT 1).poolRefused r
      stCeiling).getPool die).queue = rs := by
    rw [poolRefused_eq]
    exact congrArg Pool.queue (getPool_setPool_self s die _)
  show onPool s die _ = _
  simp only [hz, hq, Nat.not_le.mpr hf, Nat.not_lt.mpr hw, Bool.false_eq_true, if_false, hrest]

theorem ctrAt_poolRefused (s : State) (r : PoolReq) (reason u off : Nat) : (s.poolRefused r reason).ctrAt u off = s.ctrAt u off := by
  rw [poolRefused_eq]
  rfl

/-- Closing a pool changes, beside its EN and its queue, only NIs. -/
theorem poolDisable_eq (s : State) (die : Nat) : s.poolDisable die =
    { (s.setFld (poolUnit die) F.POOL_CTRL_EN 0).setPool die { s.getPool die with queue := [] } with ni := (s.poolDisable die).ni } :=
  foldl_poolRefused_eq _ _ _

theorem poolDisable_bit (s : State) (die : Nat) : (s.poolDisable die).bit (poolUnit die) F.POOL_CTRL_EN = false := by
  have hfld : (s.setFld (poolUnit die) F.POOL_CTRL_EN 0).fld (poolUnit die) F.POOL_CTRL_EN = 0 :=
    fld_setFld_self s (poolUnit die) F.POOL_CTRL_EN 0 (by decide) (by decide)
  rw [poolDisable_eq]
  exact congrArg (fun n : Nat => n == 1) hfld

theorem poolDisable_queue (s : State) (die : Nat) : ((s.poolDisable die).getPool die).queue = [] := by
  rw [poolDisable_eq]
  exact congrArg Pool.queue (getPool_setPool_self (s.setFld (poolUnit die) F.POOL_CTRL_EN 0) die _)

theorem poolDisable_pkg (s : State) (die : Nat) : (s.poolDisable die).pkg = s.pkg := by
  rw [poolDisable_eq]
  rfl

/-- What a command keeps of the registers: it changes no identity. -/
theorem bit_kept {s t : State} (h : t.pkg = s.pkg) (u : Nat) (f : Fld) : (kept s t).bit u f = t.bit u f := by
  unfold State.bit State.fld State.reg
  rw [h]
  rfl

/-- Settles O16: the queue's head is served or refused, and closing the pool refuses every request of the queue it empties. -/
theorem poolServesAndRefuses : Obligations.PoolServesAndRefuses := by
  intro s u die r rs hthere hq
  refine ⟨fun hf => ?_, fun hz hf hw hu => ⟨?_, ?_⟩, ?_⟩
  · refine (onPool_there s _ hthere).trans ?_
    rw [hq, servePool, if_pos hf]
  · rw [hu, exec_poolWaitExpiry hq hz hf hw, onPool_there s _ hthere]
  · rw [hu, ctrAt_poolRefused, ctrAt_count_self]
    rfl
  · refine ⟨kept s ((s.poolDisable die).noteCtl (poolUnit die)), onUnit_true s _ hthere, ?_, poolDisable_queue s die, ?_⟩
    · exact (bit_kept (poolDisable_pkg s die) _ _).trans (poolDisable_bit s die)
    · rw [← hq]
      rfl

end Sys2Proof.Machine
end

section
/-! Collectives at an NI: how one starts, what grants, results and barriers do, and how one ends (R174–R203, R283). -/
namespace Sys2Proof.Machine

/-! ## Starting -/

section
variable {s u : State} {st op : Nat} {d w : Desc} {c : Instr}

/-- The commands of the collectives. -/
theorem collective_exec (s : State) (h : (op, c) ∈ [(0x20, Instr.opAllReduce st d), (0x21, Instr.opReduceScatter st d), (0x22, Instr.opAllGather st d),
    (0x23, Instr.opReduce st d), (0x24, Instr.opBroadcast st d), (0x25, Instr.opAllToAll st d), (0x26, Instr.opSparseSum st d),
    (0x27, Instr.opBarrier st d)]) : exec c s = offer s st op d ∧ 0x20 ≤ op ∧ op < 0x28 := by
  simp only [List.mem_cons, Prod.mk.injEq, List.not_mem_nil, or_false] at h
  rcases h with ⟨rfl, rfl⟩ | ⟨rfl, rfl⟩ | ⟨rfl, rfl⟩ | ⟨rfl, rfl⟩ | ⟨rfl, rfl⟩ | ⟨rfl, rfl⟩ | ⟨rfl, rfl⟩ | ⟨rfl, rfl⟩ <;>
    exact ⟨rfl, by decide, by decide⟩

/-- A collective descriptor starts on the state in which it is live. -/
theorem submit_collective (h : descTaken s st d) (hc : opCollective (dOp d) = true) :
    ∃ u, liveOne s u st ∧ s.submit st d = u.startCollective st d (u.stFt st) := by
  obtain ⟨u, hu, hs⟩ := submit_live s st d h
  exact ⟨u, hu, by rw [hs, hc]; rfl⟩

/-- The checks of a collective descriptor read no count of live descriptors. -/
theorem live_collFails (h : liveOne s u st) (d : Desc) : u.collFails st d = s.collFails st d := by
  obtain ⟨hs, hg, -⟩ := h
  unfold State.collFails State.keyBad State.fencedAt State.memberFor
  rw [hg, hs]
  rfl

/-- What a command of a collective leaves. -/
theorem offer_up {t : State} (hw : w = withOpcode d op) (h : descTaken s st w) (ht : s.submit st w = t) :
    offer s st op d = .next (niAfter s t st) := by
  subst hw ht
  exact onNi_up s _ st (niFree_there (descTaken_free h))

end

/-- An update of a unit is what that unit then holds. -/
theorem getEng_updEng (s : State) (st : Nat) (f : Eng → Eng) : (s.updEng st f).getEng st = f (s.getEng st) := kget_kput_self ..


/-- A collective that passes its checks and finds room starts (R177, R192, R203). -/
theorem startCollective_launches (s : State) (st : Nat) (d : Desc) (acc : FT) {g : Group} {tag : W16} {m : Member} {gen : Nat}
    (hf : s.collFails st d = none) (hc : dOp d ≠ 0x28) (hg : findGroup s.bankIn (cGroup d) = some g)
    (hr : (s.getNi st).collRoom (cGroup d) = true) (hgen : gen = kget 0 (s.getNi st).genNext (cGroup d))
    (ht : tag = BitVec.ofNat 16 (gen * 4096 + cGroup d)) (hm : m = s.memberFor st d g tag acc)
    (hn : ((s.getEng st).forget tag).cancelled.find? (fun c => c.1 == tag) = none) :
    s.startCollective st d acc = ((((s.setNi st { s.getNi st with
      genNext := kput 0 (s.getNi st).genNext (cGroup d) ((gen + 1) % 16), members := kins (s.getNi st).members tag.toNat m }).wakeUnit st).updEng st
        (fun e => e.forget tag)).launch st tag m g) := by
  have hg' : findGroup (s.wakeUnit st).bankIn (cGroup d) = some g := hg
  have hr' : (((s.wakeUnit st).getNi st).collRoom (cGroup d)) = true := hr
  unfold State.startCollective
  simp only [hf, hc, if_false, hg', hr', Bool.not_true, Bool.false_eq_true]
  subst hgen ht hm
  simp only [getEng_updEng]
  split
  case h_1 c hc => exact absurd (hc.symm.trans hn) (by simp)
  case h_2 => rfl

/-- Writing the record of one NI keeps what is so of the others and of the rest. -/
theorem niNow_setNi {s u : State} {st : Nat} {n : Ni} (h : niNow s u st n) (m : Ni) : niNow s (u.setNi st m) st m := by
  obtain ⟨hu, -, hne⟩ := h
  refine ⟨?_, getNi_setNi_self _ _ _, fun j hj => by rw [getNi_setNi_ne _ _ hj, hne j hj]⟩
  rw [hu]
  rfl

/-- Settles O17: the descriptor becomes live, and what it starts takes the next generation and begins. -/
theorem collectivesStartAnInstance : Obligations.CollectivesStartAnInstance := by
  intro s st op gen d w c g tag m hc hw ht hf hg hr hgen htag hm hn
  obtain ⟨hexec, h1, h5⟩ := collective_exec s hc
  have hop : dOp w = op := hw ▸ dOp_withOpcode d op (by omega)
  obtain ⟨u, hu, hs⟩ := submit_collective ht (by rw [hop]; simp [opCollective]; omega)
  have hfu : u.collFails st w = none := (live_collFails hu w).trans hf
  have hlive := hu
  obtain ⟨hus, hgu, -⟩ := hu
  generalize u.ni = k at hus
  subst hus
  have hl := startCollective_launches { s with ni := k } st w (s.stFt st) hfu (by omega) hg (by rw [hgu]; exact hr)
    (by rw [hgu]; exact hgen) htag hm hn
  rw [hgu] at hl
  exact ⟨_, niNow_setNi hlive _, hexec.trans (offer_up hw ht (hs.trans hl))⟩

/-! ## Grants, results and barriers -/

section
variable {s v : State} {st : Nat} {f : Frame} {c : Instr} {act : State → State}

/-- A collective frame that passes the checks of its destination acts on the state in which its unit is awake. -/
theorem onNiHold_collective (h : niUp s st = true) (hv : v.destChecks st f true = none) :
    onNiHold s st c (v.checked st f true act) = .next (niAfter s (act v) st) := by
  rw [checked_none v st f true act hv]
  exact onNiHold_up s _ st c h

end

/-- Settles O19: each frame passes its checks, and its own conditions pick the branch that acts. -/
theorem grantsResultsAndBarriersAct : Obligations.GrantsResultsAndBarriersAct := by
  intro s u v st chunk f m g i n tag no hup hv
  refine ⟨fun hck hover => ⟨fun hm hg hin hlen => ?_, fun hm => ?_, fun heng hi => ?_, fun hn hin => ?_, fun hn hin hpar => ?_⟩,
    fun hi hc hgr hu => ?_⟩
  · subst hv
    refine (onNiHold_collective hup hck).trans ?_
    simp only [hover, hm, hg, hin, hlen, Bool.false_eq_true, if_false]
  · subst hv
    refine (onNiHold_collective hup hck).trans ?_
    simp only [hover, hm, Bool.false_eq_true, if_false]
  · subst hv
    refine (onNiHold_collective hup hck).trans ?_
    have he : isEngine (s.wakeUnit st).pkg st = false := heng
    simp only [hover, hi, he, Bool.false_eq_true, if_false]
  · subst hv
    refine (onNiHold_collective hup hck).trans ?_
    simp only [hover, hn, hin, Bool.false_eq_true, if_false, if_true]
  · subst hv
    refine (onNiHold_collective hup hck).trans ?_
    simp only [hover, hn, hin, hpar, Bool.false_eq_true, if_false, if_true, Option.isSome_none]
  · subst hu
    refine (onNiRun_up s _ st hup).trans ?_
    simp only [hi, hc, hgr, Bool.and_true, if_true]

/-! ## The end -/

/-- A CANCEL that passes its checks starts nothing (R201). -/
theorem startCollective_cancels (s : State) (st : Nat) (d : Desc) (acc : FT) (hf : s.collFails st d = none) (hc : dOp d = 0x28) :
    s.startCollective st d acc = (s.wakeUnit st).softCancel st d := by
  unfold State.startCollective
  simp only [hf, hc, if_true]

/-- Settles O20: a CANCEL that passes its checks cancels what it finds; a member with every chunk visible ends. -/
theorem instancesEnd : Obligations.InstancesEnd := by
  intro s st d w tag m
  refine ⟨fun hw ht hf => ?_, fun hup hm hr he => ?_⟩
  · have hop : dOp w = 0x28 := (congrArg dOp hw).trans (dOp_withOpcode d 0x28 (by decide))
    obtain ⟨u, hu, hs⟩ := submit_collective ht ((congrArg opCollective hop).trans (by decide))
    have hgo := hs.trans (startCollective_cancels u st w (u.stFt st) ((live_collFails hu w).trans hf) hop)
    have hexec : exec (.opCancel st d) s = offer s st 0x28 d := rfl
    exact ⟨u, hu, hexec.trans (offer_up hw ht hgo)⟩
  · refine (onNiRun_up s _ st hup).trans ?_
    simp only [hm, hr, he, Option.isNone_none, Bool.and_true, if_true]

end Sys2Proof.Machine
end

section
/-! Register writes: what the fields of a word take (R17, R18), what a write over the tree does (R391, R393, R396), and the writes of shapers, injectors and
pairs (R164, R318, R394). -/
namespace Sys2Proof.Machine

/-! ## The fields of a word -/

/-- Two fields share no bit. -/
def fldBeside (f g : Fld) : Bool := decide (f.hi < g.lo ∨ g.hi < f.lo)

/-- The fields of a register lie in its word, beside each other (R17). -/
def fldsFit : List Fld → Bool
  | [] => true
  | f :: fs => decide (f.lo ≤ f.hi ∧ f.hi < 32) && fs.all (fldBeside f) && fldsFit fs

theorem fldsFit_cons {f : Fld} {fs : List Fld} (h : fldsFit (f :: fs) = true) :
    (f.lo ≤ f.hi ∧ f.hi < 32) ∧ (∀ g ∈ fs, fldBeside f g = true) ∧ fldsFit fs = true := by
  simp only [fldsFit, Bool.and_eq_true, decide_eq_true_eq, List.all_eq_true] at h
  exact ⟨h.1.1, h.1.2, h.2⟩

theorem fldsFit_mem {fs : List Fld} (h : fldsFit fs = true) : ∀ f ∈ fs, f.lo ≤ f.hi ∧ f.hi < 32 := by
  induction fs with
  | nil => exact fun f hf => absurd hf List.not_mem_nil
  | cons g gs ih =>
    obtain ⟨hg, -, hgs⟩ := fldsFit_cons h
    intro f hf
    rcases List.mem_cons.mp hf with rfl | hf
    · exact hg
    · exact ih hgs f hf

theorem rowsOf_fit (k : UnitKind) : ∀ r ∈ rowsOf k, fldsFit r.flds = true := by
  cases k <;> decide +kernel

section
variable (s : State) (k : UnitKind) (u i : Nat) (r : RegRow) (old data : W32)

/-- The value that a field gives its bits: none where it keeps what is there (R18). -/
def fieldTakes (f : Fld) : Option Nat :=
  match f.acc with
  | .ro => none
  | .wo => none
  | .w1c => some (getBits old f.hi f.lo &&& (2 ^ (f.hi - f.lo + 1) - 1 - getBits data f.hi f.lo))
  | .w1s => some (getBits old f.hi f.lo ||| getBits data f.hi f.lo)
  | _ => if actsItself k r f || s.fieldStatus k u r i f old data != trOk then none else some (getBits data f.hi f.lo)

theorem fieldNext_eq (w : W32) (f : Fld) :
    s.fieldNext k u r i old data w f = match fieldTakes s k u i r old data f with
      | some v => setBits w f.hi f.lo v
      | none => w := by
  unfold State.fieldNext fieldTakes
  dsimp only
  cases f.acc
  case rw | rwl =>
    dsimp only
    cases actsItself k r f || s.fieldStatus k u r i f old data != trOk <;> rfl
  all_goals rfl

/-- A field keeps the bits of those beside it. -/
theorem fieldNext_beside (w : W32) {f g : Fld} (hf : f.lo ≤ f.hi ∧ f.hi < 32) (hg : g.lo ≤ g.hi) (h : fldBeside f g = true) :
    getBits (s.fieldNext k u r i old data w f) g.hi g.lo = getBits w g.hi g.lo := by
  rw [fieldNext_eq]
  split
  · exact getBits_setBits_ne w f.hi f.lo _ g.hi g.lo hf.2 hf.1 ((of_decide_eq_true h).symm) hg
  · rfl

theorem foldl_fieldNext_beside (fs : List Fld) (w : W32) {f : Fld} (hf : f.lo ≤ f.hi) (hfs : ∀ g ∈ fs, g.lo ≤ g.hi ∧ g.hi < 32)
    (h : ∀ g ∈ fs, fldBeside f g = true) :
    getBits (fs.foldl (s.fieldNext k u r i old data) w) f.hi f.lo = getBits w f.hi f.lo := by
  induction fs generalizing w with
  | nil => rfl
  | cons g gs ih =>
    have hb : fldBeside g f = true := decide_eq_true (of_decide_eq_true (h g List.mem_cons_self)).symm
    rw [List.foldl_cons, ih _ (fun a ha => hfs a (List.mem_cons_of_mem _ ha)) (fun a ha => h a (List.mem_cons_of_mem _ ha)),
      fieldNext_beside s k u i r old data w (hfs g List.mem_cons_self) hf hb]

/-- A field of a word takes its value, or keeps what was there. -/
theorem foldl_fieldNext_at {fs : List Fld} (hfit : fldsFit fs = true) (w : W32) {f : Fld} (hf : f ∈ fs) :
    getBits (fs.foldl (s.fieldNext k u r i old data) w) f.hi f.lo =
      ((fieldTakes s k u i r old data f).map (· % 2 ^ (f.hi - f.lo + 1))).getD (getBits w f.hi f.lo) := by
  induction fs generalizing w with
  | nil => exact absurd hf List.not_mem_nil
  | cons g gs ih =>
    obtain ⟨hg, hbeside, hgs⟩ := fldsFit_cons hfit
    rw [List.foldl_cons]
    by_cases hgf : f ∈ gs
    · rw [ih hgs _ hgf, fieldNext_beside s k u i r old data w hg (fldsFit_mem hgs f hgf).1 (hbeside f hgf)]
    · obtain rfl : f = g := (List.mem_cons.mp hf).resolve_right hgf
      rw [foldl_fieldNext_beside s k u i r old data gs _ hg.1 (fldsFit_mem hgs) hbeside, fieldNext_eq]
      split
      next v hv => rw [hv]; exact getBits_setBits w f.hi f.lo v hg.2 hg.1
      next hv => rw [hv]; rfl

variable {s k u i r old data} {f : Fld}

/-- What a write leaves in a field of a row (R18). -/
theorem getBits_wordNext (hr : r ∈ rowsOf k) (hf : f ∈ r.flds) :
    getBits (s.wordNext k u r i old data) f.hi f.lo =
      ((fieldTakes s k u i r old data f).map (· % 2 ^ (f.hi - f.lo + 1))).getD (getBits old f.hi f.lo) :=
  foldl_fieldNext_at s k u i r old data (rowsOf_fit k r hr) old hf

theorem fieldTakes_rw (ha : f.acc = .rw ∨ f.acc = .rwl) : fieldTakes s k u i r old data f =
    if actsItself k r f || s.fieldStatus k u r i f old data != trOk then none else some (getBits data f.hi f.lo) := by
  rcases ha with ha | ha <;> rw [fieldTakes, ha]

/-- A field whose write is not OK is reserved or locked (R18). -/
theorem fieldStatus_bad (h : s.fieldStatus k u r i f old data ≠ trOk) :
    s.fieldStatus k u r i f old data = trReserved ∨ s.fieldStatus k u r i f old data = trLocked := by
  unfold State.fieldStatus at h ⊢
  dsimp only at h ⊢
  split at h
  next => exact absurd rfl h
  next h1 =>
    rw [if_neg h1]
    split at h
    next h2 => exact .inl (if_pos h2)
    next h2 =>
      rw [if_neg h2]
      split at h
      next h3 => exact .inr (if_pos h3)
      next => exact absurd rfl h

/-- A write of a locked field of a committed image that would change it is not OK (R17). -/
theorem fieldStatus_locked (ha : f.acc = .rwl) (hc : s.committed = true) (hne : getBits data f.hi f.lo ≠ getBits old f.hi f.lo) :
    s.fieldStatus k u r i f old data ≠ trOk := by
  have hb : (getBits data f.hi f.lo != getBits old f.hi f.lo) = true := bne_iff_ne.mpr hne
  unfold State.fieldStatus
  simp only [ha, hc, hb, reduceCtorEq, or_self, if_false, beq_self_eq_true, Bool.and_self, Bool.or_true, if_true]
  split <;> decide

end

/-- A status that is reserved or locked makes the word's so. -/
theorem worseStatus_bad {a b : Nat} (h : (a = trReserved ∨ a = trLocked) ∨ b = trReserved ∨ b = trLocked) :
    worseStatus a b = trReserved ∨ worseStatus a b = trLocked := by
  unfold worseStatus
  split
  next => exact .inl rfl
  next hr =>
    simp only [Bool.or_eq_true, beq_iff_eq, not_or] at hr
    refine .inr (if_pos ?_)
    simp only [Bool.or_eq_true, beq_iff_eq]
    tauto

theorem foldl_worseStatus_bad {fs : List Fld} {status : Fld → Nat} {a : Nat}
    (h : (a = trReserved ∨ a = trLocked) ∨ ∃ f ∈ fs, status f = trReserved ∨ status f = trLocked) :
    fs.foldl (fun st f => worseStatus st (status f)) a = trReserved ∨ fs.foldl (fun st f => worseStatus st (status f)) a = trLocked := by
  induction fs generalizing a with
  | nil => exact h.resolve_right (fun ⟨f, hf, _⟩ => absurd hf List.not_mem_nil)
  | cons g gs ih =>
    refine ih ?_
    rcases h with h | ⟨f, hf, h⟩
    · exact .inl (worseStatus_bad (.inl h))
    · rcases List.mem_cons.mp hf with rfl | hf
      · exact .inl (worseStatus_bad (.inr h))
      · exact .inr ⟨f, hf, h⟩

/-- A word with a field that is not OK is not OK (R18). -/
theorem wordStatus_ne_ok {s : State} {k : UnitKind} {u i : Nat} {r : RegRow} {old data : W32} {f : Fld} (hf : f ∈ r.flds)
    (h : s.fieldStatus k u r i f old data ≠ trOk) : s.wordStatus k u r i old data ≠ trOk := by
  have hw : s.wordStatus k u r i old data = trReserved ∨ s.wordStatus k u r i old data = trLocked :=
    foldl_worseStatus_bad (.inr ⟨f, hf, fieldStatus_bad h⟩)
  rcases hw with hw | hw <;> rw [hw] <;> decide

/-- Settles O21: the fields of a row share no bit, and so each one's bits are what that field alone takes. -/
theorem fieldsTakeOrKeepWrites : Obligations.FieldsTakeOrKeepWrites := by
  intro s k u i r f old data hr hf
  have hkeeps : fieldTakes s k u i r old data f = none → getBits (s.wordNext k u r i old data) f.hi f.lo = getBits old f.hi f.lo := by
    intro h
    rw [getBits_wordNext hr hf, h]
    rfl
  have hbad : (f.acc = .rw ∨ f.acc = .rwl) → s.fieldStatus k u r i f old data ≠ trOk →
      getBits (s.wordNext k u r i old data) f.hi f.lo = getBits old f.hi f.lo := by
    intro ha hst
    refine hkeeps ((fieldTakes_rw ha).trans (if_pos ?_))
    rw [bne_iff_ne.mpr hst, Bool.or_true]
  refine ⟨fun ha => hkeeps (by rw [fieldTakes, ha]), fun ha => ?_, fun ha hact hst => ?_, hbad, fun ha hc => ⟨?_, fun hne => ?_⟩⟩
  · have ht : fieldTakes s k u i r old data f =
        some (getBits old f.hi f.lo &&& (2 ^ (f.hi - f.lo + 1) - 1 - getBits data f.hi f.lo)) := by rw [fieldTakes, ha]
    rw [getBits_wordNext hr hf, ht]
    exact Nat.mod_eq_of_lt (Nat.and_lt_two_pow _ (by have := Nat.two_pow_pos (f.hi - f.lo + 1); omega))
  · rw [getBits_wordNext hr hf, fieldTakes_rw ha, hact, hst]
    exact Nat.mod_eq_of_lt (getBits_lt _ _ _)
  · by_cases hne : getBits data f.hi f.lo = getBits old f.hi f.lo
    · rw [getBits_wordNext hr hf, fieldTakes_rw (.inr ha)]
      split
      · rfl
      · rw [hne]
        exact Nat.mod_eq_of_lt (getBits_lt _ _ _)
    · exact hbad (.inr ha) (fieldStatus_locked ha hc hne)
  · exact wordStatus_ne_ok hf (fieldStatus_locked ha hc hne)

/-! ## Registers that only take -/

/-- The registers at which a unit of a kind does more than take a value: those that act and those that clear. -/
def stirring (k : UnitKind) : List Nat :=
  actRegs k ++ (clearsOf k).map (·.1) ++ if k = .port then [R.PORT_SHAPE_CNT_CLR] else []

theorem clearedBy_eq_nil {k : UnitKind} {off : Nat} (h : off ∉ (clearsOf k).map (·.1)) (data : W32) : clearedBy k off data = [] := by
  simp only [clearedBy, List.map_eq_nil_iff, List.filter_eq_nil_iff, Bool.and_eq_true, beq_iff_eq, not_and]
  intro c hc ho
  exact absurd (List.mem_map.mpr ⟨c, hc, ho⟩) h

/-- A write of a register that does not clear leaves the counters. -/
theorem clearCounters_eq_self (s : State) {k : UnitKind} (u : Nat) {off : Nat} (data : W32) (h : off ∉ stirring k) (hp : k ≠ .probe) :
    s.clearCounters k u off data = s := by
  have hclr : off ∉ (clearsOf k).map (·.1) := fun hm => h (List.mem_append_left _ (List.mem_append_right _ hm))
  have hni : ¬ (k = .ni ∧ off = R.NI_SHAPE_CNT_CLR ∧ data.getLsbD 3 = true) := by
    rintro ⟨rfl, rfl, -⟩; exact h (by decide)
  have hport : ¬ (k = .port ∧ off = R.PORT_SHAPE_CNT_CLR ∧ data.getLsbD 3 = true) := by
    rintro ⟨rfl, rfl, -⟩; exact h (by decide)
  have hred : ¬ (k = .reduce ∧ off = R.REDUCE_PROMO_CNT_CLR ∧ data.getLsbD 3 = true) := by
    rintro ⟨rfl, rfl, -⟩; exact h (by decide)
  simp only [State.clearCounters, clearedBy_eq_nil hclr, List.foldl_nil, hp, hni, hport, hred, false_and, if_false]

/-- Where an injecting unit's register neither acts nor clears, a write only takes (R318). -/
theorem wordAct_eq_self (s : State) {k : UnitKind} (u : Nat) (r : RegRow) (i : Nat) {off : Nat} (data : W32) (ok : Bool)
    (hk : injectKind k = true) (h : off ∉ stirring k) : s.wordAct k u r i off data ok = s := by
  have hact : off ∉ actRegs k := fun hm => h (List.mem_append_left _ (List.mem_append_left _ hm))
  unfold State.wordAct
  rw [clearCounters_eq_self s u data h (by rintro rfl; cases hk)]
  cases k with
  | ni | port | dlink | reduce | pool => simp_all [actRegs, State.niWrite, State.portWrite, State.dlinkWrite]
  | memst | router | almRouter => rfl
  | global | time | almCtl | fault | chron | probe | diary | holiday | trace | power | mbx | boot => cases hk

section
variable {s : State} {u off : Nat} {addr : W32} {k : UnitKind} {r : RegRow} (data : W32)

/-- A write of a register of one word, where its unit does not ignore it. -/
theorem writeReg_single (ha : s.addrOk addr = true) (hu : u = unitOf addr) (ho : off = offOf addr) (hk : unitKind s.pkg u = some k)
    (hr : rowAt k off = some r) (hi : s.ignoresWrite k u off = false) (hs : r.kind = .single) :
    s.writeReg addr data = s.writeWord k (if k = .power ∧ off = R.POWER_CTRL then powerUnit s.pkg else u) r off data := by
  subst hu ho
  unfold State.writeReg
  simp only [ha, hk, hr, hi, hs, Bool.not_true, Bool.false_eq_true, if_false]

/-- A write of a half of a pair, where its unit does not ignore it. -/
theorem writeReg_pair (ha : s.addrOk addr = true) (hu : u = unitOf addr) (ho : off = offOf addr) (hk : unitKind s.pkg u = some k)
    (hr : rowAt k off = some r) (hi : s.ignoresWrite k u off = false) (hp : r.kind = .rwPair) :
    s.writeReg addr data = if isHi r off then s.writeHi k u r (off - 4) data else s.writeLo k u r off data := by
  subst hu ho
  unfold State.writeReg
  simp only [ha, hk, hr, hi, hp, Bool.not_true, Bool.false_eq_true, if_false]

/-- A write where the address is what the row is about is a write that answers with its status. -/
theorem writeIf_about {about : UnitKind → RegRow → Bool} (hu : u = unitOf addr) (ho : off = offOf addr) (hk : unitKind s.pkg u = some k)
    (hr : rowAt k off = some r) (hb : about k r = true) : s.writeIf about addr data = s.writeOut addr data := by
  subst hu ho
  simp only [State.writeIf, State.rowOf, hk, hr, hb, Option.bind_some, Option.map_some, if_true]

/-- A write of a register that only takes: its fields take what they take, and the write completes with their status. -/
theorem writeOut_takes (ha : s.addrOk addr = true) (hu : u = unitOf addr) (ho : off = offOf addr) (hk : unitKind s.pkg u = some k)
    (hr : rowAt k off = some r) (hs : r.kind = .single) (hj : injectKind k = true) (hq : off ∉ stirring k) :
    s.writeOut addr data = (s.setReg u off (s.wordNext k u r (rowIndex r off) (s.held k u off) data)).emit
      (.writeDone addr (s.wordStatus k u r (rowIndex r off) (s.held k u off) data)) := by
  have hi : s.ignoresWrite k u off = false := by
    cases k with
    | ni | port | dlink | reduce | pool | memst | router | almRouter => rfl
    | global | time | almCtl | fault | chron | probe | diary | holiday | trace | power | mbx | boot => cases hj
  have hp : ¬ (k = .power ∧ off = R.POWER_CTRL) := by rintro ⟨rfl, -⟩; cases hj
  unfold State.writeOut
  rw [writeReg_single data ha hu ho hk hr hi hs]
  simp only [hp, if_false, State.writeWord, wordAct_eq_self _ _ _ _ _ _ hj hq]

end

/-- The registers of a shaper are single words that neither act nor clear. -/
theorem shaperRow_takes (k : UnitKind) : ∀ r ∈ rowsOf k, shaperRow k r = true →
    injectKind k = true ∧ r.kind = .single ∧ ∀ a ∈ stirring k, rowHolds r a = false := by
  cases k <;> decide +kernel

/-- So is the injector's register of every unit that has one. -/
theorem injectRow_takes (k : UnitKind) (hk : injectKind k = true) :
    (rowAt k R.NI_INJ).all (fun r => r.kind == .single && r.off == R.NI_INJ) = true ∧ R.NI_INJ ∉ stirring k := by
  cases k with
  | ni | port | dlink | reduce | pool | memst | router | almRouter => decide +kernel
  | global | time | almCtl | fault | chron | probe | diary | holiday | trace | power | mbx | boot => cases hk

/-- Settles O26: shapers and injectors are registers that only take; a pair stages its low half and takes both with its high half. -/
theorem shapersInjectorsAndPairsTakeWrites : Obligations.ShapersInjectorsAndPairsTakeWrites := by
  intro s u off addr data k r ha hu ho hk hr
  refine ⟨fun hsh => ?_, fun hj hoff hst => ?_, fun hp hi hl => ⟨fun hlo => ?_, fun hhi => ?_⟩⟩
  · obtain ⟨hj, hs, hq⟩ := shaperRow_takes k r (mem_rowsOf_of_rowAt hr) hsh
    have hmem : off ∉ stirring k := fun h => by
      have hno := hq off h
      rw [List.find?_some hr] at hno
      cases hno
    have hexec : exec (.shaperConfigWrite addr data) s = done s (s.writeIf shaperRow addr data) := rfl
    rw [hexec, writeIf_about data hu ho hk hr hsh, writeOut_takes data ha hu ho hk hr hs hj hmem]
    exact ⟨_, rfl, reg_setReg_self _ _ _ _, rfl, rfl, rfl⟩
  · obtain ⟨hrow, hmem⟩ := injectRow_takes k hj
    rw [← hoff, hr] at hrow
    simp only [Option.all_some, Bool.and_eq_true, beq_iff_eq] at hrow
    obtain ⟨hs, hroff⟩ := hrow
    have hexec : exec (.injectArmWrite addr data) s = done s (s.writeIf (fun k r => injectKind k && r.off == R.NI_INJ) addr data) := rfl
    rw [hexec, writeIf_about data hu ho hk hr (by simp only [hj, hroff, hoff, Bool.true_and, beq_self_eq_true]), writeOut_takes data ha hu ho hk hr hs hj (hoff ▸ hmem), hst]
    exact ⟨_, rfl, reg_setReg_self _ _ _ _, rfl⟩
  · have hexec : exec (.pairLoWrite addr data) s = done s (s.writeIf (fun _ r => r.kind == .rwPair && !isHi r (offOf addr)) addr data) := rfl
    rw [hexec, writeIf_about data hu ho hk hr (by simp [hp, ← ho, hlo])]
    unfold State.writeOut
    rw [writeReg_pair data ha hu ho hk hr hi hp]
    simp only [hlo, Bool.false_eq_true, if_false, State.writeLo, hl]
    rfl
  · have hexec : exec (.pairHiWrite addr data) s = done s (s.writeIf (fun _ r => r.kind == .rwPair && isHi r (offOf addr)) addr data) := rfl
    rw [hexec, writeIf_about data hu ho hk hr (by simp [hp, ← ho, hhi])]
    unfold State.writeOut
    rw [writeReg_pair data ha hu ho hk hr hi hp]
    simp only [hhi, if_true, State.writeHi, hl, Bool.false_eq_true, if_false]
    rfl

/-! ## Writes over the tree -/

/-- A write of the lease holder that nothing holds back takes effect and completes (R391, R396). -/
theorem treeWrite_reaches {s t : State} {core tag st : Nat} {addr data : W32} (hc : s.holder = some core) (hn : s.outstanding.length < 16)
    (hw : s.treeWait = []) (htag : s.outstanding.any (fun b => b.tag == tag) = false) (hs : s.unitStopped (unitOf addr) = false)
    (hr : s.startsReset addr data = false) (ht : s.writeReg addr data = (t, st)) :
    s.treeWrite core tag s.lease.epoch addr data = (t.emit (.treeDone core tag st 0)).settle := by
  have hroom : ¬ (16 ≤ s.outstanding.length ∨ s.treeWait ≠ []) := by
    rintro (h | h)
    · omega
    · exact h hw
  simp only [State.treeWrite, hc, bne_self_eq_false, Bool.false_eq_true, if_false, hroom, State.issue, htag, hs, Bool.and_false, State.finish, ht,
    hr, Bool.or_self]

/-- Where nothing waits at the tree, nothing settles. -/
theorem settle_idle {s : State} (h : s.tree = []) (hw : s.treeWait = []) : s.settle = s := by
  unfold State.settle
  rw [h, hw]
  rfl

/-- Setting counters changes the counters alone. -/
theorem setCtrs_eq (s : State) (u : Nat) (v : W48) (l : List Nat) : s.setCtrs u v l = { s with ctrs := (s.setCtrs u v l).ctrs } := by
  induction l generalizing s with
  | nil => rfl
  | cons c l ih => exact (ih (s.setCtr u c v)).trans rfl

/-- In a unit whose registers do nothing more, a write takes the register and clears counters. -/
theorem writeWord_plain {k : UnitKind} (hk : k ∈ [UnitKind.global, .router, .memst, .almRouter]) (s : State) (u : Nat) (r : RegRow) (off : Nat)
    (data : W32) : ∃ m, s.writeWord k u r off data =
      ({ s.setReg u off (s.wordNext k u r (rowIndex r off) (s.reg u off) data) with ctrs := m },
        s.wordStatus k u r (rowIndex r off) (s.reg u off) data) := by
  simp only [List.mem_cons, List.not_mem_nil, or_false] at hk
  refine ⟨((s.setReg u off (s.wordNext k u r (rowIndex r off) (s.reg u off) data)).setCtrs u 0 (clearedBy k off data)).ctrs, ?_⟩
  have hset := setCtrs_eq (s.setReg u off (s.wordNext k u r (rowIndex r off) (s.reg u off) data)) u 0 (clearedBy k off data)
  rcases hk with rfl | rfl | rfl | rfl <;> exact congrArg (Prod.mk · _) hset

/-- Settles O22: the write reaches its unit and completes; in a plain unit only its register and the counters it clears change. -/
theorem registerWritesComplete : Obligations.RegisterWritesComplete := by
  intro s core tag u off addr data k r hcore hc hn hw htag ha hs hreset hu ho hk hr hi hkind
  obtain ⟨v, hv⟩ : ∃ v, v = if k = .power ∧ off = R.POWER_CTRL then powerUnit s.pkg else u := ⟨_, rfl⟩
  have hreg : s.writeReg addr data = s.writeWord k v r off data := by
    rw [writeReg_single data ha hu ho hk hr hi hkind, hv]
  have hexec : exec (.registerWrite core tag s.lease.epoch addr data) s =
      .next (kept s (((s.writeWord k v r off data).1.emit (.treeDone core tag (s.writeWord k v r off data).2 0)).settle)) :=
    (onUnit_true s _ (decide_eq_true hcore)).trans
      (congrArg (fun t => Host.Outcome.next (kept s t)) (treeWrite_reaches hc hn hw htag hs hreset (hreg.trans Prod.mk.eta.symm)))
  rw [← hv]
  refine ⟨hexec, fun htree hplain => ?_⟩
  have hvu : v = u := by
    rw [hv]
    refine if_neg ?_
    rintro ⟨rfl, -⟩
    simp at hplain
  obtain ⟨m, hm⟩ := writeWord_plain hplain s u r off data
  rw [hvu, hm] at hexec
  have hidle := settle_idle (s := State.emit { s.setReg u off (s.wordNext k u r (rowIndex r off) (s.reg u off) data) with ctrs := m }
    (.treeDone core tag (s.wordStatus k u r (rowIndex r off) (s.reg u off) data) 0)) htree hw
  refine ⟨_, hexec.trans (congrArg (fun t => Host.Outcome.next (kept s t)) hidle), rfl, reg_setReg_self _ _ _ _, fun off' h => reg_setReg_off s _ h⟩

/-- Settles O27: the access is one that has not completed, and so it ends TIMEOUT. -/
theorem timedOutAccessesEnd : Obligations.TimedOutAccessesEnd := by
  intro s tag d addr write atRoot hmine hd
  subst hd
  have hout : (write && !s.tree.any (fun a => !a.lost && a.tag == tag && a.addr == addr)) = false := by
    rcases hmine with h | h <;> simp [h]
  have hexec : exec (.treeTimeout tag addr write atRoot) s = .next (kept s (s.treeTimeout tag addr write atRoot)) := rfl
  rw [hexec]
  unfold State.treeTimeout
  simp only [hout, Bool.false_eq_true, if_false]

end Sys2Proof.Machine
end

section
/-! Routers, arbiters and slot boundaries (R45, R83, R86, R92, R96, R111–R119, R141–R164). -/
namespace Sys2Proof.Machine

/-! ## Frames at a router -/

section
variable {s t : State} {isl : Island} {input plane vc : Nat} {f g g0 : Frame} {bad : List Nat} {b : Bank} {outs : List Nat}

/-- A frame that comes from its input is checked on the state that its port leaves. -/
theorem routerFrameReceive_exec (hup : islUp s isl = true) (hp : s.fromPort isl input plane vc f = some (t, g0)) (headErr : Bool) :
    exec (.routerFrameReceive isl input plane vc f ⟨headErr, bad⟩) s =
      .next (onPath s (t.routerChecks isl input plane vc (poisonFlits plane bad g0) headErr)) := by
  refine (onUnit_true s _ hup).trans ?_
  rw [hp]
  rfl

theorem routerChecks_headErr : t.routerChecks isl input plane vc g true = t.headError (routerUnit isl.die isl.inst) := rfl

theorem routerChecks_malformed {why : Nat} (h : malformedWhy g plane = some why) : t.routerChecks isl input plane vc g false =
    (t.count (routerUnit isl.die isl.inst) R.ROUTER_MALFORMED 1).faultEvent (routerUnit isl.die isl.inst) 14 (malformedDetail g why) := by
  unfold State.routerChecks
  simp only [h, Bool.false_eq_true, if_false]

theorem routerChecks_notAdmitted (hm : malformedWhy g plane = none) (hb : t.epochBank g.epoch = some b)
    (ha : t.admits (bitNat g.epoch) b (routerUnit isl.die isl.inst) g.pkey.toNat = false) : t.routerChecks isl input plane vc g false =
      (((t.readBad (routerUnit isl.die isl.inst) srAdmit (inBank (bitNat g.epoch) g.pkey.toNat)).count (routerUnit isl.die isl.inst)
        R.ROUTER_PKEY_DROP 1).faultEvent (routerUnit isl.die isl.inst) 7 (partitionDetail g 0)).refuseAt (routerUnit isl.die isl.inst) g
        stPartition 1 := by
  unfold State.routerChecks
  simp only [hm, hb, ha, Bool.false_eq_true, if_false, Bool.not_false, if_true]

theorem routerChecks_admitted (hm : malformedWhy g plane = none) (hb : t.epochBank g.epoch = some b)
    (ha : t.admits (bitNat g.epoch) b (routerUnit isl.die isl.inst) g.pkey.toNat = true) :
    t.routerChecks isl input plane vc g false = t.enterInput isl input plane vc g := by
  unfold State.routerChecks
  simp only [hm, hb, ha, Bool.false_eq_true, if_false, Bool.not_true]

/-- A head whose input has space and whose route has outputs enters its VC (R142, R149). -/
theorem enterInput_room (hroom : input = 6 ∨ t.vcFlits isl.die isl.inst (inKey input plane vc) < inCap t.pkg isl.die isl.inst input)
    (ho : t.routeOuts isl.die isl.inst input vc g = some outs) (hne : outs ≠ []) :
    t.enterInput isl input plane vc g = (t.updRtr (islKey isl.die isl.inst) (fun r =>
      { r with inq := kput [] r.inq (inKey input plane vc) (pushHead (kget [] r.inq (inKey input plane vc)) g
          (t.islFt (islKey isl.die isl.inst)) outs) })).inputTell isl.die isl.inst (inKey input plane vc) := by
  have hfull : (input != 6 && decide (inCap t.pkg isl.die isl.inst input ≤ t.vcFlits isl.die isl.inst (inKey input plane vc))) = false := by
    rcases hroom with rfl | h
    · rfl
    · simp only [decide_eq_false (Nat.not_le.mpr h), Bool.and_false]
  have hsome : outs.isEmpty = false := by simpa using hne
  unfold State.enterInput
  simp only [hfull, ho, hsome, Bool.false_eq_true, if_false]

end

/-- Settles O28: the checks are taken in their order, each on the frame as its port and its flits leave it. -/
theorem routerFramesEnterOrDrop : Obligations.RouterFramesEnterOrDrop := by
  intro s t isl input plane vc key f g g0 bad b outs hup hp hg hkey
  subst hg hkey
  refine ⟨fun hm hb ha hroom ho hne => ?_, ?_, fun why hm => ?_, fun hm hb ha => ?_⟩
  · rw [routerFrameReceive_exec hup hp, routerChecks_admitted hm hb ha, enterInput_room hroom ho hne]
  · rw [routerFrameReceive_exec hup hp, routerChecks_headErr]
  · rw [routerFrameReceive_exec hup hp, routerChecks_malformed hm]
  · rw [routerFrameReceive_exec hup hp, routerChecks_notAdmitted hm hb ha]

/-! ## Arbiters -/

/-- Settles O29: without an emergency the rule picks among the requesters; the emergency and the scrubber come before it. -/
theorem arbitersGrantOneRequester : Obligations.ArbitersGrantOneRequester := by
  intro s t u arb extra o w hup
  have hexec : exec (.arbiterGrant arb extra) s = .next (onPath s (s.arbGrant arb extra)) := onUnit_true s _ hup
  rw [hexec]
  refine ⟨fun he hx hsram ho hpick ht => ?_, fun he => ?_, fun he hx hsram hscrub => ?_⟩
  · subst ht
    have hgrant : s.arbGrant arb extra = s.fairGrant arb extra := by simp only [State.arbGrant, he, hx, Bool.not_false, if_true]
    rw [hgrant]
    simp only [State.fairGrant, ho, hpick, hsram, Bool.false_eq_true, if_false]
  · simp only [State.arbGrant, he]
  · simp only [State.arbGrant, he, hx, hsram, hscrub, Bool.not_true, Bool.false_eq_true, if_false, if_true]

/-! ## Slot boundaries: the islands that a boundary keeps -/

/-- Steps that keep the islands keep them together. -/
theorem foldl_isl {β : Type} {f : State → β → State} (hf : ∀ s b, (f s b).isl = s.isl) (l : List β) (s : State) : (l.foldl f s).isl = s.isl := by
  induction l generalizing s with
  | nil => rfl
  | cons b l ih => exact (ih (f s b)).trans (hf s b)

section
variable (s : State)

@[simp] theorem State.updRtr_isl (k : Nat) (f : Rtr → Rtr) : (s.updRtr k f).isl = s.isl := rfl
@[simp] theorem State.updPort_isl (q : Nat) (f : Port → Port) : (s.updPort q f).isl = s.isl := rfl
@[simp] theorem State.almEvent_isl (f : Fld) : (s.almEvent f).isl = s.isl := State.event_isl s _ f

@[simp] theorem State.lastMap_isl (key plane link : Nat) : (s.lastMap key plane link).isl = s.isl := by
  unfold State.lastMap; split <;> rfl

@[simp] theorem State.readBad_isl (u kind item : Nat) : (s.readBad u kind item).isl = s.isl := by
  unfold State.readBad; split
  · rfl
  · split <;> rfl

@[simp] theorem State.mapEvent_isl (key plane link c : Nat) (e : Option Fld) : (s.mapEvent key plane link c e).isl = s.isl := by
  unfold State.mapEvent; dsimp only; split <;> simp

@[simp] theorem State.slip_isl (key plane link stream : Nat) (seq : W32) : (s.slip key plane link stream seq).isl = s.isl := by
  have hf : ∀ d, ((s.mapEvent key plane link R.ALM_SLIP (some F.ALM_EVENT_SLIP)).faultEvent (almRouterUnit (key / 1024) (key % 1024)) 9 d).isl =
      s.isl := fun d => State.mapEvent_isl ..
  unfold State.slip; dsimp only; split <;> exact hf (BitVec.ofNat 32 stream)

@[simp] theorem State.refillNi_isl (n st : Nat) : (s.refillNi n st).isl = s.isl := rfl

@[simp] theorem State.refillPort_isl (n q : Nat) : (s.refillPort n q).isl = s.isl := rfl

theorem freezeClocks_isl (key n : Nat) (stations : List Nat) (port : Option Nat) : (s.freezeClocks key n stations port).isl = s.isl := by
  unfold State.freezeClocks
  refine (foldl_isl (fun t st => State.updNi_isl t st _) _ _).trans ?_
  cases port <;> rfl

theorem headSlot_isl (key plane vc pos : Nat) (links : List Nat) (dur : Nat) (started : Nat → Nat) (top : Bool) (h : Head) :
    (s.headSlot key plane vc pos links dur started top h).1.isl = s.isl := by
  unfold State.headSlot; dsimp only
  split
  · rfl
  · split
    · split
      · exact State.slip_isl ..
      · rfl
    · split
      · exact State.mapEvent_isl ..
      · rfl

theorem queueSlot_isl {step : State → Bool → Head → State × Head} (hstep : ∀ s b h, (step s b h).1.isl = s.isl) (top : Bool) (hs : List Head) :
    (queueSlot step s top hs).1.isl = s.isl := by
  induction hs generalizing s top with
  | nil => rfl
  | cons h hs ih => exact (ih (step s top h).1 false).trans (hstep s top h)

theorem inputsSlot_isl (key pos : Nat) : (s.inputsSlot key pos).isl = s.isl := by
  unfold State.inputsSlot
  refine foldl_isl (fun t e => ?_) _ _
  exact queueSlot_isl t (fun _ _ _ => headSlot_isl ..) true e.2

theorem stagedSlot_isl (key q pos : Nat) : (s.stagedSlot key q pos).isl = s.isl := by
  unfold State.stagedSlot
  refine foldl_isl (fun t e => ?_) _ _
  exact queueSlot_isl t (fun _ _ _ => headSlot_isl ..) true e.2

theorem runsSlot_isl (key pos : Nat) : (s.runsSlot key pos).isl = s.isl := by
  unfold State.runsSlot
  refine foldl_isl (fun t m => ?_) _ _
  dsimp only
  split
  · rfl
  · have hread : ∀ (l : List Nat) (x : State), (l.foldl (fun s w => s.readBad (almRouterUnit (key / 1024) (key % 1024)) srMap
        (inBank s.alm.inForce w)) x).isl = x.isl := fun l x => foldl_isl (fun _ _ => State.readBad_isl ..) l x
    split <;> simp only [State.almEvent_isl, State.lastMap_isl, hread] <;> split <;> (try split) <;> rfl

/-- A head that its window missed is deferred, or not. -/
theorem deferIf_isl (c : Bool) (key plane link st : Nat) (f : Ni → Ni) :
    (if c then (s.mapEvent key plane link R.ALM_DEFER none).updNi st f else s).isl = s.isl := by
  split
  · exact State.mapEvent_isl ..
  · rfl

theorem niSlot_isl (key pos st : Nat) : (s.niSlot key pos st).isl = s.isl := by
  unfold State.niSlot
  extract_lets link freq r r0 tiles s1 s2 s3 n defer s4 s5
  split
  · rfl
  have hdefer : ∀ t k plane len since, (defer t k plane len since).isl = t.isl := fun t _ _ _ _ => deferIf_isl t ..
  have h1 : s1.isl = s.isl := foldl_isl (fun t x => by
    split
    · exact (State.updNi_isl ..).trans (foldl_isl (fun _ _ => State.slip_isl ..) _ _)
    · rfl) _ _
  have h2 : s2.isl = s1.isl := foldl_isl (fun t x => by
    split
    · exact State.slip_isl ..
    · rfl) _ _
  have h3 : s3.isl = s2.isl := by
    unfold s3; split <;> rfl
  have h4 : s4.isl = s3.isl := by
    unfold s4; split
    · exact hdefer ..
    · rfl
  have h5 : s5.isl = s4.isl := by
    unfold s5; split
    · exact hdefer ..
    · rfl
  refine (foldl_isl (fun t e => ?_) _ _).trans (h5.trans (h4.trans (h3.trans (h2.trans h1))))
  split
  · exact hdefer ..
  · rfl

/-- A boundary that a running island with a valid FT reaches becomes its last one (R83, R86). -/
theorem slotBoundary_slot {key n : Nat} {b : FT} (hr : (kget {} s.isl key).running = true) (hv : (kget {} s.isl key).ftValid = true)
    (hn : s.nextBoundary key = (b, n)) : (kget {} (s.slotBoundary key).isl key).slot = b := by
  have hkey : islKey (key / 1024) (key % 1024) = key := by unfold islKey; omega
  unfold State.slotBoundary
  extract_lets i die inst
  have hrun : (!i.running || !i.ftValid) = false := by
    unfold i
    rw [hr, hv]
    rfl
  rw [if_neg (ne_true_of_eq_false hrun), hn]
  dsimp -zeta only
  extract_lets t stations port pos t1 t2 t3 t4 t5
  have ht : (kget {} t.isl key).slot = b := by
    unfold t State.setIsland
    rw [hkey, kget_kput_self]
  split
  · rw [freezeClocks_isl]
    exact ht
  clear_value port
  have h1 : t1.isl = t.isl := foldl_isl (fun _ _ => State.refillNi_isl ..) _ _
  have h2 : t2.isl = t1.isl := by
    unfold t2; split <;> rfl
  have h3 : t3.isl = t2.isl := inputsSlot_isl ..
  have h4 : t4.isl = t3.isl := by
    unfold t4; split
    · exact stagedSlot_isl ..
    · rfl
  have h5 : t5.isl = t4.isl := foldl_isl (fun _ _ => niSlot_isl ..) _ _
  rw [runsSlot_isl, h5, h4, h3, h2, h1]
  exact ht

end

/-! ## Refills -/

/-- One queue of an NI at a refill: its shaper takes its registers' values, and its tokens those of the slots that passed (R164). -/
def refillQueue (s : State) (n st : Nat) (ni : Ni) (q : Nat) : Ni :=
  { ni with shaper := kput {} ni.shaper q (s.niShaper st q),
            tokens := kput (65536 * 256) ni.tokens q (refill (kget (65536 * 256) ni.tokens q) (s.niShaper st q) s.shapeScale n) }

theorem refillNi_eq (s : State) (n st : Nat) : s.refillNi n st = s.setNi st { (List.range 16).foldl (refillQueue s n st) (s.getNi st) with
    spent := (s.policers (niUnit st)).foldl (fun m e => kput {} m e.1
      { tc := (kget {} m e.1).tc - n * e.2.cir, tp := (kget {} m e.1).tp - n * e.2.pir })
      ((List.range 16).foldl (refillQueue s n st) (s.getNi st)).spent } := rfl

/-- Refilling other queues leaves a queue's shaper and tokens. -/
theorem foldl_refillQueue_ne (s : State) (n st : Nat) (ni : Ni) {q : Nat} {l : List Nat} (h : q ∉ l) :
    kget {} (l.foldl (refillQueue s n st) ni).shaper q = kget {} ni.shaper q ∧
    kget (65536 * 256) (l.foldl (refillQueue s n st) ni).tokens q = kget (65536 * 256) ni.tokens q := by
  induction l generalizing ni with
  | nil => exact ⟨rfl, rfl⟩
  | cons j l ih =>
    obtain ⟨hj, hl⟩ := not_or.mp (mt List.mem_cons.mpr h)
    obtain ⟨hs, ht⟩ := ih (refillQueue s n st ni j) hl
    exact ⟨hs.trans (kget_kput_ne _ _ _ hj), ht.trans (kget_kput_ne _ _ _ hj)⟩

/-- Each queue is refilled once. -/
theorem foldl_refillQueue (s : State) (n st : Nat) (ni : Ni) {q : Nat} {l : List Nat} (hd : l.Nodup) (h : q ∈ l) :
    kget {} (l.foldl (refillQueue s n st) ni).shaper q = s.niShaper st q ∧
    kget (65536 * 256) (l.foldl (refillQueue s n st) ni).tokens q =
      refill (kget (65536 * 256) ni.tokens q) (s.niShaper st q) s.shapeScale n := by
  induction l generalizing ni with
  | nil => exact absurd h List.not_mem_nil
  | cons j l ih =>
    obtain ⟨hj, hl⟩ := List.nodup_cons.mp hd
    by_cases hq : q = j
    · subst hq
      obtain ⟨hs, ht⟩ := foldl_refillQueue_ne s n st (refillQueue s n st ni q) hj
      exact ⟨hs.trans (kget_kput_self ..), ht.trans (kget_kput_self ..)⟩
    · obtain ⟨hs, ht⟩ := ih (refillQueue s n st ni j) hl ((List.mem_cons.mp h).resolve_left hq)
      refine ⟨hs, ht.trans ?_⟩
      have hk : kget (65536 * 256) (refillQueue s n st ni j).tokens q = kget (65536 * 256) ni.tokens q := kget_kput_ne _ _ _ hq
      rw [hk]

/-- What an NI's queue has after a refill. -/
theorem refillNi_queue (s : State) (n st : Nat) {q : Nat} (hq : q < 16) :
    kget {} ((s.refillNi n st).getNi st).shaper q = s.niShaper st q ∧
    kget (65536 * 256) ((s.refillNi n st).getNi st).tokens q =
      refill (kget (65536 * 256) (s.getNi st).tokens q) (s.niShaper st q) s.shapeScale n := by
  have h := foldl_refillQueue s n st (s.getNi st) List.nodup_range (List.mem_range.mpr hq)
  rw [refillNi_eq, getNi_setNi_self]
  generalize (List.range 16).foldl (refillQueue s n st) (s.getNi st) = ni at h ⊢
  exact h

/-! ## Deferrals -/

/-- A VC whose queue is known loses its head. -/
theorem updRtr_popHead {s : State} {key k : Nat} {q : List Head} (hq : kget [] (s.getRtr key).inq k = q) (now : FT) :
    s.updRtr key (fun r => { r with inq := kput [] r.inq k (popHead (kget [] r.inq k) now) }) =
      s.updRtr key (fun r => { r with inq := kput [] r.inq k (popHead q now) }) := by
  subst hq
  rfl

/-- The head of a router's input whose deferral is over leaves, and NO_WINDOW is counted for it (R92). -/
theorem noWindowDrop_input {s : State} {isl : Island} {key input plane vc : Nat} {h : Head} {hs : List Head} (hkey : key = islKey isl.die isl.inst)
    (hi : input < 32) (hq : kget [] (s.getRtr key).inq (inKey input plane vc) = h :: hs) (hd : deferredOut h.defer (s.islFt key) = true) :
    s.noWindowDrop isl.die isl.inst input plane vc = ((s.updRtr key (fun r =>
        { r with inq := kput [] r.inq (inKey input plane vc) (popHead (h :: hs) (s.islFt key)) })).inputFreed isl.die isl.inst
          (inKey input plane vc)).noWindow key plane (h.out.headD 6) h.f 1 := by
  subst hkey
  have hupd := updRtr_popHead hq (s.islFt (islKey isl.die isl.inst))
  have h1 : ¬ (input = 33 ∨ input = 34) := by omega
  have h2 : ¬ input = 32 := by omega
  unfold State.noWindowDrop
  simp only [h1, h2, if_false, hq, hd, if_true, hupd]

/-- Settles O30: the boundary survives all that a slot does to the island's stations, port and router; the refill is queue by queue. -/
theorem slotBoundariesRefillAndDrop : Obligations.SlotBoundariesRefillAndDrop := by
  intro s isl key n q st b hup hkey
  refine ⟨fun hr hv hn => ?_, fun hq => refillNi_queue s n st hq, fun input plane vc h hs hf hi hq hd => ?_⟩
  · subst hkey
    exact ⟨_, onUnit_true s _ hup, slotBoundary_slot s hr hv hn⟩
  · refine (onUnit_true s _ hup).trans ?_
    rw [hf, noWindowDrop_input hkey hi hq hd]
    rfl

end Sys2Proof.Machine
end

section
/-! The almanac's banks and its Kalends (R84, R94, R97, R100–R103). -/
namespace Sys2Proof.Machine

/-! ## Commands of the controller -/

/-- What a command of the almanac controller reaches: the almanac, registers, outputs and held interrupts. -/
def AlmWithin (s t : State) : Prop := t = { s with alm := t.alm, regs := t.regs, out := t.out, irqHeld := t.irqHeld }

namespace AlmWithin
variable {s t : State}

theorem refl (s : State) : AlmWithin s s := rfl

theorem onAlm_eq (h : AlmWithin s t) : onAlm s t = .next t := by
  unfold onAlm
  rw [← show t = { s with alm := t.alm, regs := t.regs, out := t.out, irqHeld := t.irqHeld } from h, done_eq, h]

theorem updAlm (h : AlmWithin s t) (f : Alm → Alm) : AlmWithin s (t.updAlm f) := by
  unfold AlmWithin at *; rw [h]; rfl

theorem setOther (h : AlmWithin s t) (b : Bank) : AlmWithin s (t.setOther b) := h.updAlm _

theorem setFld (h : AlmWithin s t) (u : Nat) (f : Fld) (v : Nat) : AlmWithin s (t.setFld u f v) := by
  unfold AlmWithin at *; rw [h]; rfl

theorem interrupt (h : AlmWithin s t) (a b : Nat) : AlmWithin s (t.interrupt a b) := by
  unfold State.interrupt
  split
  · unfold AlmWithin at *; rw [h]; rfl
  · split
    · exact h
    · unfold AlmWithin at *; rw [h]

theorem almEvent (h : AlmWithin s t) (f : Fld) : AlmWithin s (t.almEvent f) := by
  have hset : AlmWithin s (t.setReg (almUnit t.pkg) f.off (setBits (t.reg (almUnit t.pkg) f.off) f.lo f.lo 1)) := by
    unfold AlmWithin at *; rw [h]; rfl
  unfold State.almEvent State.event State.eventBit
  dsimp only
  split
  · exact hset
  · exact hset.interrupt _ _

end AlmWithin

/-- Changing the content of the other bank leaves the pending cool request. -/
theorem setOther_cool (s : State) (b : Bank) : (s.setOther b).alm.cool = s.alm.cool := by
  unfold State.setOther State.updAlm
  dsimp only
  split <;> rfl

theorem setOther_byPower (s : State) (b : Bank) : (s.setOther b).alm.byPower = s.alm.byPower := by
  unfold State.setOther State.updAlm
  dsimp only
  split <;> rfl

/-- A bank that is not in the state that a command needs: the command is rejected. -/
theorem other_bne {a b : OtherState} (h : a ≠ b) : (a != b) = true := bne_iff_ne.mpr h

/-- Settles O31: each command acts in its bank's state, and is rejected in another. -/
theorem almanacBanksMove : Obligations.AlmanacBanksMove := by
  intro s v w b cool
  have r := AlmWithin.refl s
  refine ⟨fun h hl => ?_, fun h => ?_, fun h ht => ?_, fun h => ?_, fun h hb hp => ?_, fun h hb => ?_, fun hc h hv hl => ?_, fun h hc => ?_,
    fun h => ⟨?_, ?_⟩, fun h => ?_, fun h => ?_⟩
  · have hgo : (s.setFld (almUnit s.pkg) F.ALM_BANK_CTRL_VARIANT v.toNat).almLoad v =
        (s.setFld (almUnit s.pkg) F.ALM_BANK_CTRL_VARIANT v.toNat).startLoad (bankOf ((s.image.map (·.recs)).getD []) v) := by
      have h' : (s.setFld (almUnit s.pkg) F.ALM_BANK_CTRL_VARIANT v.toNat).alm.other = .free := h
      have hl' : (s.setFld (almUnit s.pkg) F.ALM_BANK_CTRL_VARIANT v.toNat).loadable v = true := hl
      simp only [State.almLoad, h', hl', bne_self_eq_false, Bool.not_true, Bool.false_eq_true, if_false]
      rfl
    exact (congrArg (onAlm s) hgo).trans ((r.setFld _ _ _).updAlm _).onAlm_eq
  · have hgo : s.almCopy = s.startLoad s.bankIn := by simp only [State.almCopy, h, bne_self_eq_false, Bool.false_eq_true, if_false]
    exact (congrArg (onAlm s) hgo).trans (r.updAlm _).onAlm_eq
  · have hgo : s.almArmAt (s.pair (almUnit s.pkg) R.ALM_EQX_AT) false = s.updAlm (fun a =>
        { a with other := .armed, target := s.pair (almUnit s.pkg) R.ALM_EQX_AT, byPower := false }) := by
      simp only [State.almArmAt, h, ht, bne_self_eq_false, Bool.not_true, Bool.false_eq_true, if_false]
    exact (congrArg (onAlm s) hgo).trans (r.updAlm _).onAlm_eq
  · have hgo : s.almDisarm = s.updAlm (fun a => { a with other := .ready, byPower := false }) := by
      simp only [State.almDisarm, h, beq_self_eq_true, if_true]
    exact (congrArg (onAlm s) hgo).trans (r.updAlm _).onAlm_eq
  · have hby : (((s.setOther b).updAlm (fun a => { a with other := .ready, loading := none })).almEvent F.ALM_EVENT_LOAD_DONE).alm.byPower = false := by
      unfold State.almEvent
      rw [State.event_alm]
      exact (setOther_byPower s b).trans hp
    have hgo : s.loadEnd true = ((s.setOther b).updAlm (fun a => { a with other := .ready, loading := none })).almEvent F.ALM_EVENT_LOAD_DONE := by
      simp only [State.loadEnd, h, hb, if_true, hby, Bool.false_eq_true, if_false]
    exact (congrArg (onAlm s) hgo).trans (((r.setOther b).updAlm _).almEvent _).onAlm_eq
  · have hgo : s.loadEnd false =
        (s.updAlm (fun a => { a with other := .free, loading := none, byPower := false })).almEvent F.ALM_EVENT_LOAD_FAIL := by
      simp only [State.loadEnd, h, hb, Bool.false_eq_true, if_false]
    exact (congrArg (onAlm s) hgo).trans ((r.updAlm _).almEvent _).onAlm_eq
  · have hgo : s.coolTry = (s.startLoad (bankOf ((s.image.map (·.recs)).getD []) w)).updAlm (fun a => { a with byPower := true }) := by
      simp only [State.coolTry, hc, h, hv, hl, bne_self_eq_false, Bool.false_eq_true, if_false, if_true]
    exact (congrArg (onAlm s) hgo).trans ((r.updAlm _).updAlm _).onAlm_eq
  · have hcool : ((s.setOther {}).updAlm (fun a => { a with other := .free })).alm.cool = none := (setOther_cool s {}).trans hc
    have hgo : (if s.alm.other == .held then ((s.setOther {}).updAlm (fun a => { a with other := .free })).coolTry else s) =
        (s.setOther {}).updAlm (fun a => { a with other := .free }) := by
      rw [h]
      simp only [beq_self_eq_true, if_true, State.coolTry, hcool]
    exact (congrArg (onAlm s) hgo).trans ((r.setOther {}).updAlm _).onAlm_eq
  · have hgo : s.almCopy = s.almEvent F.ALM_EVENT_CMD_REJECT := by simp only [State.almCopy, other_bne h, if_true]
    exact (congrArg (onAlm s) hgo).trans (r.almEvent _).onAlm_eq
  · have hgo : (s.setFld (almUnit s.pkg) F.ALM_BANK_CTRL_VARIANT v.toNat).almLoad v =
        (s.setFld (almUnit s.pkg) F.ALM_BANK_CTRL_VARIANT v.toNat).almEvent F.ALM_EVENT_CMD_REJECT := by
      have h' : ((s.setFld (almUnit s.pkg) F.ALM_BANK_CTRL_VARIANT v.toNat).alm.other != .free) = true := other_bne h
      simp only [State.almLoad, h', if_true]
    exact (congrArg (onAlm s) hgo).trans ((r.setFld _ _ _).almEvent _).onAlm_eq
  · have hgo : s.almArmAt (s.pair (almUnit s.pkg) R.ALM_EQX_AT) false = s.almEvent F.ALM_EVENT_CMD_REJECT := by
      simp only [State.almArmAt, other_bne h, if_true]
    exact (congrArg (onAlm s) hgo).trans (r.almEvent _).onAlm_eq
  · have hgo : s.almDisarm = s.almEvent F.ALM_EVENT_CMD_REJECT := by
      have h' : (s.alm.other == .armed) = false := beq_eq_false_iff_ne.mpr h
      simp only [State.almDisarm, h', Bool.false_eq_true, if_false]
    exact (congrArg (onAlm s) hgo).trans (r.almEvent _).onAlm_eq

/-! ## What leaves the almanac as it is -/

/-- Steps that keep a part of the state keep it together. -/
theorem foldl_keeps {α β : Type} (g : State → α) {f : State → β → State} (hf : ∀ s b, g (f s b) = g s) (l : List β) (s : State) :
    g (l.foldl f s) = g s := by
  induction l generalizing s with
  | nil => rfl
  | cons b l ih => exact (ih (f s b)).trans (hf s b)

section
variable (s : State)

@[simp] theorem State.almEvent_alm (f : Fld) : (s.almEvent f).alm = s.alm := State.event_alm s _ f
@[simp] theorem State.almEvent_time (f : Fld) : (s.almEvent f).time = s.time := State.event_time s _ f
@[simp] theorem State.timeEvent_alm (f : Fld) : (s.timeEvent f).alm = s.alm := by
  unfold State.timeEvent; dsimp only; split <;> simp
@[simp] theorem State.timeEvent_time (f : Fld) : (s.timeEvent f).time = s.time := by
  unfold State.timeEvent; dsimp only; split <;> simp
@[simp] theorem State.updTime_alm (f : Time → Time) : (s.updTime f).alm = s.alm := rfl
@[simp] theorem State.enterHoldover_alm : s.enterHoldover.alm = s.alm := State.timeEvent_alm ..
theorem enterHoldover_accepted : s.enterHoldover.time.accepted = s.time.accepted := by
  unfold State.enterHoldover
  rw [State.timeEvent_time]
  rfl

/-- The end of the realignments in progress leaves the almanac, and what TIME has accepted (R78). -/
theorem realignDone_alm : s.realignDone.alm = s.alm := by
  unfold State.realignDone; dsimp only
  split
  · split <;> simp
  · rfl

theorem realignDone_accepted : s.realignDone.time.accepted = s.time.accepted := by
  unfold State.realignDone; dsimp only
  split
  · split
    · rfl
    · exact enterHoldover_accepted _
  · rfl

theorem applyOne_alm (l : Int) (r : Realign) : (s.applyOne l r).1.alm = s.alm := by
  unfold State.applyOne; dsimp only
  split
  · split
    · exact State.timeEvent_alm ..
    · rfl
  · rfl

theorem applyRealign_alm (k : FT) : (s.applyRealign k).1.alm = s.alm := by
  unfold State.applyRealign
  dsimp only
  generalize (s.updTime fun t => { t with eqxFt := some k }).time.records.filter (fun r => ftGe k r.ft && !r.applied) = l
  suffices h : ∀ a : State × Int, (l.foldl (fun a r => a.1.applyOne a.2 r) a).1.alm = a.1.alm from h _
  induction l with
  | nil => exact fun a => rfl
  | cons r l ih => exact fun a => (ih (a.1.applyOne a.2 r)).trans (applyOne_alm a.1 a.2 r)

theorem loadDieMasks_alm : s.loadDieMasks.alm = s.alm := by
  unfold State.loadDieMasks
  split
  · refine foldl_keeps State.alm (fun t st => ?_) _ _
    split <;> rfl
  · rfl

theorem watchClose_alm (slots : List WatchSlot) (st sid : Nat) : (s.watchClose slots st sid).alm = s.alm := by
  unfold State.watchClose; dsimp only
  split
  · split <;> rfl
  · rfl

theorem watchEquinox_alm (old : List WatchSlot) : (s.watchEquinox old).alm = s.alm := by
  unfold State.watchEquinox
  refine foldl_keeps State.alm (fun t e => foldl_keeps State.alm (fun u w => ?_) _ _) _ _
  split
  · rfl
  · exact watchClose_alm ..

theorem fminTaken_alm (was : Nat) : (s.fminTaken was).alm = s.alm := by
  unfold State.fminTaken
  refine foldl_keeps State.alm (fun t e => ?_) _ _
  split
  · exact State.event_alm ..
  · rfl

@[simp] theorem State.updMbx_alm (f : Mbx → Mbx) : (s.updMbx f).alm = s.alm := rfl
@[simp] theorem State.setMb_alm (f : Fld) (v : Nat) : (s.setMb f v).alm = s.alm := rfl
@[simp] theorem State.setPw_alm (f : Fld) (v : Nat) : (s.setPw f v).alm = s.alm := rfl
@[simp] theorem State.pwEvent_alm (f : Fld) : (s.pwEvent f).alm = s.alm := State.event_alm s _ f

@[simp] theorem State.msixSend_alm (v : Nat) : (s.msixSend v).alm = s.alm := by
  unfold State.msixSend; dsimp only
  split
  · rfl
  · split <;> rfl

@[simp] theorem State.vec_alm (v : Nat) : (s.vec v).alm = s.alm := by
  unfold State.vec; split <;> simp

@[simp] theorem State.mbxEvent_alm (f : Fld) : (s.mbxEvent f).alm = s.alm := by
  unfold State.mbxEvent; dsimp only; split <;> simp

@[simp] theorem State.rspWrite_alm (r : MbxRsp) : (s.rspWrite r).alm = s.alm := by
  unfold State.rspWrite; dsimp only; split <;> simp

@[simp] theorem State.mbxRecord_alm (k detail : Nat) (result : List Byte) : (s.mbxRecord k detail result).alm = s.alm := by
  unfold State.mbxRecord
  split
  · rfl
  · split <;> simp

theorem equinoxTaken_alm (old : List WatchSlot) (fmin : Nat) (k : FT) : (s.equinoxTaken old fmin k).alm = s.alm := by
  unfold State.equinoxTaken; dsimp only
  have h : ∀ d l, (((s.watchEquinox old).fminTaken fmin).mbxRecord 4 d l).alm = s.alm := fun d l => by
    rw [State.mbxRecord_alm, fminTaken_alm, watchEquinox_alm]
  split <;> exact h _ _

end

/-! ## The Kalends -/

/-- What the package does after a Kalends keeps of it: the bank in force, its start and count, the leap slots taken, and a bank that is HELD. -/
def KalendsKept (a b : Alm) : Prop :=
  b.inForce = a.inForce ∧ b.start = a.start ∧ b.cycles = a.cycles ∧ b.t = a.t ∧ (a.other = .held → b.other = .held)

theorem KalendsKept.of_eq {a b : Alm} (h : b = a) : KalendsKept a b := h ▸ ⟨rfl, rfl, rfl, rfl, id⟩

theorem KalendsKept.trans {a b c : Alm} (h : KalendsKept a b) (k : KalendsKept b c) : KalendsKept a c := by
  obtain ⟨h1, h2, h3, h4, h5⟩ := h
  obtain ⟨k1, k2, k3, k4, k5⟩ := k
  exact ⟨k1.trans h1, k2.trans h2, k3.trans h3, k4.trans h4, fun h => k5 (h5 h)⟩

theorem coolTry_kept (s : State) : KalendsKept s.alm s.coolTry.alm := by
  unfold State.coolTry
  split
  · exact .of_eq rfl
  · split
    · exact .of_eq rfl
    next h =>
      have hfree : s.alm.other = .free := by simpa using h
      have hheld : s.alm.other ≠ .held := by rw [hfree]; decide
      split
      · exact ⟨rfl, rfl, rfl, rfl, id⟩
      · split <;> exact ⟨rfl, rfl, rfl, rfl, fun h => absurd h hheld⟩

theorem coolRequest_kept (s : State) (cool : Bool) : KalendsKept s.alm (s.coolRequest cool).alm :=
  KalendsKept.trans ⟨rfl, rfl, rfl, rfl, id⟩ (coolTry_kept (s.updAlm (fun a => { a with cool := some cool })))

theorem throttleWith_kept (s : State) (short : Bool) : KalendsKept s.alm (s.throttleWith short).alm := by
  unfold State.throttleWith; dsimp only
  split
  · split
    · exact .of_eq rfl
    · exact KalendsKept.trans (.of_eq (by simp)) (coolRequest_kept _ true)
  · split
    · split <;> exact .of_eq rfl
    · exact .of_eq rfl

theorem throttleEval_kept (s : State) : KalendsKept s.alm s.throttleEval.alm := by
  unfold State.throttleEval; dsimp only
  refine KalendsKept.trans (.of_eq ?_) (throttleWith_kept _ _)
  split <;> simp

theorem spacingNow_kept (s : State) : KalendsKept s.alm s.spacingNow.alm := by
  unfold State.spacingNow; dsimp only
  split <;> simp [KalendsKept, State.updAlm]

/-- A Kalends that the package takes leaves what its first part makes of the almanac. -/
theorem kalendsFull_kept (s : State) (k : FT) : KalendsKept (s.kalendsAt k).alm (s.kalendsFull k).alm := by
  unfold State.kalendsFull; dsimp only
  refine KalendsKept.trans (.of_eq ?_) ((spacingNow_kept _).trans (throttleEval_kept _))
  split
  · rfl
  · exact equinoxTaken_alm ..

/-- The Equinox changes the bank in force and holds the previous one (R97). -/
theorem equinox_alm (s : State) : s.equinox.alm = { s.alm with
    inForce := 1 - s.alm.inForce, other := .held, byPower := false,
    cool := s.alm.cool.filter (fun c => (coolVariant s.bankOther.variant c).isSome) } := by
  unfold State.equinox
  rw [State.almEvent_alm]
  exact loadDieMasks_alm _

/-- Whether the Kalends at an FT is the Equinox of the armed target (R97). -/
def equinoxDue (s : State) (k : FT) : Bool :=
  s.alm.other == .armed && decide (s.alm.target.toNat < 2 ^ 57) && ftGe k (BitVec.ofInt 64 (s.time.accepted + 128 * s.alm.target.toNat))

/-- The state once the leap slots that were taken are over (R103). -/
def leapEnded (s : State) : State := if s.alm.leap == 0 && s.alm.t != 0 then (s.almEvent F.ALM_EVENT_LEAP_DONE).realignDone else s

theorem leapEnded_alm (s : State) : (leapEnded s).alm = s.alm := by
  unfold leapEnded
  split
  · rw [realignDone_alm, State.almEvent_alm]
  · rfl

theorem leapEnded_accepted (s : State) : (leapEnded s).time.accepted = s.time.accepted := by
  unfold leapEnded
  split
  · rw [realignDone_accepted, State.almEvent_time]
  · rfl

theorem equinoxDue_leapEnded (s : State) (k : FT) : equinoxDue (leapEnded s) k = equinoxDue s k := by
  unfold equinoxDue
  rw [leapEnded_alm, leapEnded_accepted]

/-- The state once the Equinox that is due has been taken, with its realignments (R78, R97). -/
def equinoxDone (s : State) (k : FT) : State :=
  if equinoxDue s k then
    let a := s.equinox.applyRealign k
    let t := a.1.updAlm (fun x => { x with leap := x.leap + a.2 })
    if t.alm.leap == 0 then t.realignDone else t
  else s

/-- The almanac of the cycle that begins at a Kalends. -/
def cycleBegun (s : State) (k : FT) : Alm :=
  let t := leapTake s.alm.leap (bankLeapInsert s.bankIn) (bankLeapRemove s.bankIn)
  { s.alm with leap := s.alm.leap - t, t := t, start := k, cycles := s.alm.cycles + 1, spacing := s.alm.spacingNext }

theorem kalendsAt_alm (s : State) (k : FT) : (s.kalendsAt k).alm = cycleBegun (equinoxDone (leapEnded s) k) k := rfl

theorem equinoxDone_due {s : State} {k : FT} (h : equinoxDue s k = true) : (equinoxDone s k).alm.inForce = 1 - s.alm.inForce ∧
    (equinoxDone s k).alm.other = .held ∧ (equinoxDone s k).alm.cycles = s.alm.cycles := by
  have hap := (applyRealign_alm s.equinox k).trans (equinox_alm s)
  unfold equinoxDone
  rw [if_pos h]
  dsimp only
  split <;> simp only [realignDone_alm, State.updAlm, hap, and_self]

theorem equinoxDone_not_due {s : State} {k : FT} (h : equinoxDue s k = false) : equinoxDone s k = s := if_neg (ne_true_of_eq_false h)

/-- Settles O32: the Kalends begins a cycle on the state that the leap slots and a due Equinox leave, and the rest of the package keeps it. -/
theorem kalendsBeginsACycle : Obligations.KalendsBeginsACycle := by
  intro s hsus
  obtain ⟨r, hr⟩ : ∃ r, r = s.reachFt s.nextKalends := ⟨_, rfl⟩
  have hralm : r.alm = s.alm := by
    rw [hr]; unfold State.reachFt; split <;> rfl
  have hracc : r.time.accepted = s.time.accepted := by
    rw [hr]; unfold State.reachFt; split <;> rfl
  have hrsus : r.hol.suspended = false := by
    rw [hr]; unfold State.reachFt; split <;> exact hsus
  have hgo : s.kalends = r.kalendsFull s.nextKalends := by
    unfold State.kalends
    dsimp only
    rw [← hr, hrsus]
    rfl
  have hdue : equinoxDue (leapEnded r) s.nextKalends = equinoxDue s s.nextKalends := by
    rw [equinoxDue_leapEnded]
    unfold equinoxDue
    rw [hralm, hracc]
  have hleap : (leapEnded r).alm = s.alm := (leapEnded_alm r).trans hralm
  obtain ⟨hin, hst, hcy, ht, hheld⟩ := kalendsFull_kept r s.nextKalends
  rw [kalendsAt_alm] at hin hst hcy ht hheld
  refine ⟨{ s.kalends with pending := s.pending, pkg := s.pkg }, rfl, ?_⟩
  show s.kalends.alm.start = _ ∧ s.kalends.alm.cycles = _ ∧ (_ → _ → _ → s.kalends.alm.inForce = _ ∧ s.kalends.alm.other = _) ∧
    (_ → s.kalends.alm.inForce = _ ∧ s.kalends.alm.t = _)
  rw [hgo]
  have hcyc : (equinoxDone (leapEnded r) s.nextKalends).alm.cycles = s.alm.cycles := by
    cases h : equinoxDue (leapEnded r) s.nextKalends with
    | true => rw [(equinoxDone_due h).2.2, hleap]
    | false => rw [equinoxDone_not_due h, hleap]
  refine ⟨hst, hcy.trans (congrArg (· + 1) hcyc), fun harm htgt hge => ?_, fun hno => ?_⟩
  · have h : equinoxDue (leapEnded r) s.nextKalends = true := by
      rw [hdue]
      simp only [equinoxDue, harm, hge, beq_self_eq_true, decide_eq_true htgt, Bool.and_self]
    obtain ⟨hforce, hother, -⟩ := equinoxDone_due h
    exact ⟨hin.trans (hforce.trans (by rw [hleap])), hheld hother⟩
  · have h : equinoxDue (leapEnded r) s.nextKalends = false := by
      rw [hdue]
      rcases hno with hno | hno | hno
      · simp [equinoxDue, hno]
      · simp only [equinoxDue, decide_eq_false (Nat.not_lt.mpr hno), Bool.and_false, Bool.false_and]
      · simp [equinoxDue, hno]
    rw [equinoxDone_not_due h] at hin ht
    have hbank : (leapEnded r).bankIn = s.bankIn := by
      unfold State.bankIn
      rw [hleap]
    exact ⟨hin.trans (by unfold cycleBegun; rw [hleap]), ht.trans (by unfold cycleBegun; dsimp only; rw [hleap, hbank])⟩

end Sys2Proof.Machine
end

section
/-! Fabric time: the exchange (R70, R127), the references (R69, R74, R80), and the pins and islands that follow (R64–R67, R77, R81). -/
namespace Sys2Proof.Machine

/-! ## The exchange -/

/-- The FOLLOW_UP of the Sync that a port sends (R70, R78). -/
def followUpNow (s : State) (port : Nat) : FollowUp :=
  let r := s.recordNow (s.exch port).sendXid
  { xid := (s.exch port).sendXid, t1 := s.portFt port, quality := BitVec.ofNat 2 s.quality, steps := if s.role = 0 then s.time.steps else 0,
    gm := s.role != 0, realignValid := r.isSome, errEst := BitVec.ofNat 32 s.errEst,
    realignFt := (r.map (·.ft)).getD 0, leap := (r.map (·.leap)).getD 0 }

/-- Settles O33: on a trained port that runs, each message takes the branch of its own. -/
theorem timeExchangeRuns : Obligations.TimeExchangeRuns := by
  intro s port xid t2 t3 t4 fu hthere htr hlive
  have hup : (!s.portTrained port || !s.portLive port) = false := by rw [htr, hlive]; rfl
  refine ⟨⟨followUpNow s port, rfl, rfl, rfl, rfl, rfl, (onUnit_true s _ hthere).trans ?_⟩, fun hgm => ?_, fun hgm ht2 hx => ?_, ?_, fun h2 hf h3 hx hfx => ?_⟩
  · simp only [htr, hlive, Bool.and_self, if_true]
    rfl
  · have hno : (s.role != 0 && ((s.timePort port).heard && (s.timePort port).adv.any (fun a => a.gm))) = false := by
      rcases hgm with h | h
      · rw [h]; rfl
      · rw [h, Bool.and_false]
    have hgo : s.syncIn port xid = (s.setExch port { s.exch port with
        xid := xid, t2 := some (s.portFt port), fu := none, t3 := some (s.portFt port) }).sendCtl port (.delayReq xid) := by
      unfold State.syncIn
      dsimp only
      rw [hup]
      cases hadv : (s.timePort port).adv with
      | none => simp only [Bool.and_false, Bool.false_eq_true, if_false]
      | some a =>
        rw [hadv, Option.any_some] at hno
        simp only [hno, Bool.false_eq_true, if_false]
    exact (onUnit_true s _ hthere).trans (congrArg (fun t => Host.Outcome.next (kept s t)) hgo)
  · have hno : (s.role != 0 && fu.gm) = false := by
      rcases hgm with h | h
      · rw [h]; rfl
      · rw [h, Bool.and_false]
    have hx' : ((s.exch port).xid == fu.xid) = true := beq_iff_eq.mpr hx
    have hgo : s.followUpIn port fu = (s.setExch port { s.exch port with fu := some fu }).followUp port fu := by
      unfold State.followUpIn
      simp only [hup, hno, ht2, hx', Bool.and_self, Bool.false_eq_true, if_false, if_true]
    exact (onUnit_true s _ hthere).trans (congrArg (fun t => Host.Outcome.next (kept s t)) hgo)
  · have hgo : s.delayReqIn port xid = s.sendCtl port (.delayResp xid (s.portFt port)) := by
      unfold State.delayReqIn
      simp only [htr, hlive, Bool.and_self, if_true]
    exact (onUnit_true s _ hthere).trans (congrArg (fun t => Host.Outcome.next (kept s t)) hgo)
  · have hgo : s.delayRespIn port xid t4 = (s.setExch port { s.exch port with t2 := none, fu := none, t3 := none }).exchanged port
        (Int.tdiv (ftDiff t2 fu.t1 + ftDiff t4 t3) 2) (Int.tdiv (ftDiff t2 fu.t1 - ftDiff t4 t3) 2 - s.portAsym port) := by
      unfold State.delayRespIn
      simp only [hup, h2, hf, h3, hx, Bool.false_eq_true, if_false, if_true]
    exact (onUnit_true s _ hthere).trans (congrArg (fun t => Host.Outcome.next (kept s t)) hgo)

/-! ## The references -/

theorem setUpstream_upstream (s : State) (r : Nat) : (s.setUpstream (some r)).time.upstream = some r := by
  unfold State.setUpstream State.updTimePort State.updTime
  dsimp only
  rw [State.timeEvent_time]

theorem setUpstream_state (s : State) (r : Nat) : (s.setUpstream (some r)).time.state = s.time.state := by
  unfold State.setUpstream State.updTimePort State.updTime
  dsimp only
  rw [State.timeEvent_time]

/-- Every reference lost takes a locked package to HOLDOVER (Table 03-3). -/
theorem refsLost_locked {s : State} (h : s.time.state = 3) : s.refsLost.time.state = 2 ∧ s.refsLost.time.ppsInOk = s.time.ppsInOk := by
  unfold State.refsLost
  rw [if_pos h]
  unfold State.enterHoldover
  dsimp only
  rw [State.timeEvent_time]
  exact ⟨rfl, rfl⟩

/-- Settles O34: the lost upstream gives way to the first of the list that qualifies, and each pin takes its own branch. -/
theorem referencesComeAndGo : Obligations.ReferencesComeAndGo := by
  intro s port q r
  refine ⟨fun hrole hup hmiss hfind => ?_, fun hthere hrole hmem hq hup hidx hgood => ?_, fun hrole hst => ?_, fun hrole hst hw => ?_, rfl, rfl⟩
  · have hcond : (decide (s.role = 0) && s.time.upstream.any (fun q => s.syncsMissed q 8)) = true := by
      simp only [hrole, hup, decide_true, Option.any_some, hmiss, Bool.and_self]
    have hgo : s.loseUpstream = (s.updTimePort q (fun p => { p with good := 0 })).setUpstream (some r) := by
      unfold State.loseUpstream
      simp only [hup, hfind]
    have hexec : exec .upstreamLoss s = done s s.loseUpstream := congrArg (done s) (if_pos (by simpa using hcond))
    rw [hexec, hgo]
    exact ⟨_, rfl, setUpstream_upstream _ _, setUpstream_state _ _⟩
  · have htake : (s.role == 0 && s.upstreamList.contains port && s.portQualifies port && match s.time.upstream with
        | none => true
        | some q => decide (s.upstreamList.idxOf port < s.upstreamList.idxOf q) && decide (64 ≤ (s.timePort port).good)) = true := by
      rw [hrole, hmem, hq, hup]
      simp only [beq_self_eq_true, decide_eq_true hidx, decide_eq_true hgood, Bool.and_self]
    have hexec : exec (.upstreamReturn port) s = done s (s.setUpstream (some port)) :=
      (onUnit_true s _ hthere).trans (congrArg (done s) (if_pos htake))
    rw [hexec]
    exact ⟨_, rfl, setUpstream_upstream s port⟩
  · have hexec : exec .ppsInLoss s = done s (s.updTime (fun t => { t with ppsInOk := false, ppsChecks := [] })).refsLost :=
      congrArg (done s) (if_pos hrole)
    rw [hexec]
    exact ⟨_, rfl, refsLost_locked (s := s.updTime (fun t => { t with ppsInOk := false, ppsChecks := [] })) hst⟩
  · refine ⟨_, congrArg (done s) ((if_neg ?_).trans ((if_pos hst).trans (if_pos hw))), rfl, rfl, rfl⟩
    simp [hrole]

/-! ## Pins and islands -/

/-- A TIME event sets its bit (R80). -/
theorem bit_timeEvent (s : State) (f : Fld) (h : f.hi = f.lo) (h32 : f.lo < 32) : (s.timeEvent f).bit (timeUnit s.pkg) f = true := by
  have hev : (s.event (timeUnit s.pkg) f).bit (timeUnit s.pkg) f = true := by
    unfold State.bit
    rw [fld_event_self s _ f h h32]
    rfl
  unfold State.timeEvent
  dsimp only
  split
  · exact hev
  · exact hev

@[simp] theorem State.timeEvent_pkg (s : State) (f : Fld) : (s.timeEvent f).pkg = s.pkg := by
  unfold State.timeEvent; dsimp only; split <;> simp

/-- So it does for what a command leaves of a state of its package. -/
theorem bit_kept_timeEvent {s t : State} (hp : t.pkg = s.pkg) (f : Fld) (h : f.hi = f.lo) (h32 : f.lo < 32) :
    (kept s (t.timeEvent f)).bit (timeUnit s.pkg) f = true := by
  rw [bit_kept ((State.timeEvent_pkg t f).trans hp), ← hp]
  exact bit_timeEvent t f h h32

@[simp] theorem State.timeEvent_isl (s : State) (f : Fld) : (s.timeEvent f).isl = s.isl := by
  unfold State.timeEvent; dsimp only; split <;> simp

/-- The island after a lattice pulse (R65): its trim, spread over 100 cycles, and how often in a row it was beyond 2 ns. -/
def pulsedIsl (s : State) (i : Isl) (seen : Int) : Isl :=
  { i with trim := clampTo (tickUnits / 1000) (Int.tdiv ((seen - i.delay) * 2 ^ 32) 100), trimLeft := 100, pulse := s.pulses,
           beyond := if decide (8 < (seen - i.delay).natAbs) then i.beyond + 1 else 0 }

/-- What a lattice pulse leaves: the island trimmed, and LATTICE_FAULT where it is the second in a row beyond 2 ns. -/
def latticePulsed (s : State) (isl : Island) (seen : Int) : State :=
  let i := s.island isl.die isl.inst
  let t := s.setIsland isl.die isl.inst (pulsedIsl s i seen)
  if decide (8 < (seen - i.delay).natAbs) && decide (1 ≤ i.beyond) then t.timeEvent F.TIME_EVENT_LATTICE_FAULT else t

theorem latticePulse_exec {s : State} {isl : Island} (seen : Int) (hthere : islThere s isl = true)
    (hr : (s.island isl.die isl.inst).running = true) (hf : (s.island isl.die isl.inst).ftValid = true)
    (hp : (s.island isl.die isl.inst).pulse < s.pulses) : exec (.latticePulse isl seen) s = done s (latticePulsed s isl seen) := by
  refine (onUnit_true s _ hthere).trans (congrArg (done s) (if_pos ?_))
  rw [hr, hf, decide_eq_true hp]
  rfl

theorem latticePulsed_island (s : State) (isl : Island) (seen : Int) :
    (latticePulsed s isl seen).island isl.die isl.inst = pulsedIsl s (s.island isl.die isl.inst) seen := by
  unfold latticePulsed
  dsimp only
  have hset : kget {} (s.setIsland isl.die isl.inst (pulsedIsl s (s.island isl.die isl.inst) seen)).isl (islKey isl.die isl.inst) =
    pulsedIsl s (s.island isl.die isl.inst) seen := kget_kput_self ..
  split
  · unfold State.island
    rw [State.timeEvent_isl]
    exact hset
  · exact hset

/-- Settles O35: each pin and island follows its own condition. -/
theorem timePinsAndIslandsFollow : Obligations.TimePinsAndIslandsFollow := by
  intro s side isl seen i hside hi
  subst hi
  refine ⟨fun hroot hst hleap => ?_, fun hen hst hout hsec hin => ?_, fun hout hend => ?_, fun hnow hv => ?_, fun hnow hv => ?_,
    fun hthere hr hf hp => ?_, fun hthere hr hf => ⟨?_, fun hbusy => ?_⟩⟩
  · have hroot' : (s.time.root != side) = false := by rw [hroot]; exact bne_self_eq_false side
    have hok : (s.time.state != 1 || decide (leapBound < (Int.tdiv s.time.d 128 + s.alm.leap).natAbs)) = false := by
      rw [hst, decide_eq_false (Nat.not_lt.mpr hleap)]
      rfl
    refine (onUnit_true s _ (decide_eq_true hside)).trans ?_
    unfold State.realignArm
    dsimp only
    rw [hroot', hok]
    rfl
  · refine congrArg (done s) (if_pos ?_)
    simp [hen, hst, hout, hsec, hin]
  · refine congrArg (done s) (if_pos ?_)
    rcases hend with h | h <;> simp [hout, h]
  · have hexec : exec .timeValidChange s = done s ((s.updTime (fun t => { t with valid := s.timeValidNow })).emit
        (.pin (.timeValid s.pinSide) s.timeValidNow)) :=
      congrArg (done s) ((if_neg (by simp [hnow, hv])).trans (if_pos hnow))
    rw [hexec, hnow]
    rfl
  · have hexec : exec .timeValidChange s = done s (((s.updTime (fun t => { t with valid := s.timeValidNow })).emit
        (.pin (.timeValid s.pinSide) s.timeValidNow)).timeEvent F.TIME_EVENT_TIME_INVALID) :=
      congrArg (done s) ((if_neg (by simp [hnow, hv])).trans (if_neg (by simp [hnow])))
    rw [hexec, hnow]
    refine ⟨kept s _, rfl, ?_, bit_kept_timeEvent (by rfl) F.TIME_EVENT_TIME_INVALID rfl (by decide)⟩
    exact congrArg Time.valid (State.timeEvent_time ..)
  · rw [latticePulse_exec seen hthere hr hf hp]
    have hisl := latticePulsed_island s isl seen
    refine ⟨kept s _, rfl, congrArg Isl.pulse hisl, congrArg Isl.trim hisl, congrArg Isl.trimLeft hisl, fun h8 h1 => ?_⟩
    have hbeyond : latticePulsed s isl seen =
        (s.setIsland isl.die isl.inst (pulsedIsl s (s.island isl.die isl.inst) seen)).timeEvent F.TIME_EVENT_LATTICE_FAULT :=
      if_pos (by rw [decide_eq_true h8, decide_eq_true h1]; rfl)
    rw [hbeyond]
    exact bit_kept_timeEvent (by rfl) F.TIME_EVENT_LATTICE_FAULT rfl (by decide)
  · refine (onUnit_true s _ hthere).trans (congrArg (done s) (if_pos ?_))
    rw [hr, hf]
    rfl
  · unfold State.islandUp
    rw [hbusy]
    rfl

end Sys2Proof.Machine
end

section
/-! The link layer of a port (R122–R131). -/
namespace Sys2Proof.Machine

/-! ## A port's registers and record -/

section
variable (s : State) (q : Nat)

@[simp] theorem getPort_updPort_self (f : Port → Port) : (s.updPort q f).getPort q = f (s.getPort q) := kget_kput_self ..

/-- What a state of the same package and registers shows of a port. -/
theorem pt_congr {s t : State} (hr : t.regs = s.regs) (hp : t.pkg = s.pkg) (q : Nat) (f : Fld) : t.pt q f = s.pt q f := by
  simp only [State.pt, State.fld, State.reg, hr, hp]

theorem getPort_congr {s t : State} (h : t.ports = s.ports) (q : Nat) : t.getPort q = s.getPort q := by
  simp only [State.getPort, h]

@[simp] theorem pt_updPort (p : Nat) (f : Port → Port) (g : Fld) : (s.updPort p f).pt q g = s.pt q g := rfl
@[simp] theorem pt_emit (o : Out) (g : Fld) : (s.emit o).pt q g = s.pt q g := rfl
@[simp] theorem pt_ptCount (p off n : Nat) (g : Fld) : (s.ptCount p off n).pt q g = s.pt q g := rfl
@[simp] theorem pt_linkFault (p cls what : Nat) (g : Fld) : (s.linkFault p cls what).pt q g = s.pt q g := rfl
@[simp] theorem pt_timePortDown (p : Nat) (g : Fld) : (s.timePortDown p).pt q g = s.pt q g := rfl
@[simp] theorem pt_sendCtl (p : Nat) (c : PortCtl) (g : Fld) : (s.sendCtl p c).pt q g = s.pt q g := rfl
@[simp] theorem pt_sendPrbs (p : Nat) (g : Fld) : (s.sendPrbs p).pt q g = s.pt q g := rfl

/-- A port's field reads as what was written to it. -/
theorem pt_setPt_self (f : Fld) (v : Nat) (h : f.hi < 32) (hl : f.lo ≤ f.hi) : (s.setPt q f v).pt q f = v % 2 ^ (f.hi - f.lo + 1) :=
  fld_setFld_self s _ f v h hl

theorem pt_setPt_off (f g : Fld) (v : Nat) (h : g.off ≠ f.off) : (s.setPt q f v).pt q g = s.pt q g := fld_setFld_off s _ f g v h

theorem pt_setPt_beside (f g : Fld) (v : Nat) (ho : g.off = f.off) (h : f.hi < 32) (hl : f.lo ≤ f.hi) (hd : g.hi < f.lo ∨ f.hi < g.lo)
    (hg : g.lo ≤ g.hi) : (s.setPt q f v).pt q g = s.pt q g := fld_setFld_beside s _ f g v ho h hl hd hg

theorem pt_ptEvent_self (f : Fld) (h : f.hi = f.lo) (h32 : f.lo < 32) : (s.ptEvent q f).pt q f = 1 := by
  unfold State.pt State.ptEvent
  rw [State.event_pkg]
  exact fld_event_self s _ f h h32

theorem pt_ptEvent_off (f g : Fld) (h : g.off ≠ f.off) : (s.ptEvent q f).pt q g = s.pt q g := by
  unfold State.pt State.ptEvent State.fld State.event
  rw [State.eventBit_pkg, reg_eventBit_off s f.lo h]

@[simp] theorem State.ptEvent_pkg (f : Fld) : (s.ptEvent q f).pkg = s.pkg := State.event_pkg ..
@[simp] theorem getPort_ptEvent (p : Nat) (f : Fld) : (s.ptEvent p f).getPort q = s.getPort q := getPort_congr (State.event_ports ..) q
@[simp] theorem getPort_setPt (p : Nat) (f : Fld) (v : Nat) : (s.setPt p f v).getPort q = s.getPort q := rfl
@[simp] theorem getPort_ptCount (p off n : Nat) : (s.ptCount p off n).getPort q = s.getPort q := rfl
@[simp] theorem getPort_emit (o : Out) : (s.emit o).getPort q = s.getPort q := rfl
@[simp] theorem getPort_linkFault (p cls what : Nat) : (s.linkFault p cls what).getPort q = s.getPort q := rfl
@[simp] theorem getPort_timePortDown (p : Nat) : (s.timePortDown p).getPort q = s.getPort q := rfl
@[simp] theorem getPort_sendPrbs (p : Nat) : (s.sendPrbs p).getPort q = s.getPort q := rfl

/-- What a command of a port that is there leaves. -/
theorem onPort_there {q : Nat} {s : State} (h : portThere s q = true) (t : State) : onPort q s t = .next (onPath s t) := onUnit_true s _ h

end

/-! ## Frames that are accepted -/

/-- What the delivery of a frame keeps at the port that took it: its E, and every output before. -/
def DeliveredAt (q : Nat) (s t : State) : Prop := (t.getPort q).e = (s.getPort q).e ∧ ∀ o ∈ s.out, o ∈ t.out

namespace DeliveredAt
variable {q : Nat} {s t u : State}

theorem refl (q : Nat) (s : State) : DeliveredAt q s s := ⟨rfl, fun _ => id⟩

theorem trans (h : DeliveredAt q s t) (k : DeliveredAt q t u) : DeliveredAt q s u := ⟨k.1.trans h.1, fun o ho => k.2 o (h.2 o ho)⟩

theorem emit (q : Nat) (s : State) (o : Out) : DeliveredAt q s (s.emit o) := ⟨rfl, fun _ => List.mem_cons_of_mem o⟩

theorem updPort (s : State) {f : Port → Port} (h : ∀ p, (f p).e = p.e) : DeliveredAt q s (s.updPort q f) :=
  ⟨by rw [getPort_updPort_self, h], fun _ => id⟩

theorem refuseAt (q : Nat) (s : State) (u : Nat) (f : Frame) (reason refuser : Nat) : DeliveredAt q s (s.refuseAt u f reason refuser) := by
  unfold State.refuseAt
  split
  · exact emit q s _
  · exact refl q s

theorem ingressError (q : Nat) (s : State) (p : Nat) (f : Frame) : DeliveredAt q s (s.ingressError p f) := by
  unfold State.ingressError
  exact (emit q (s.count _ _ 1) _).trans (refuseAt ..)

theorem readBad (q : Nat) (s : State) (u kind item : Nat) : DeliveredAt q s (s.readBad u kind item) := by
  unfold State.readBad
  split
  · exact refl q s
  · split
    · exact refl q s
    · exact emit q s _

theorem sendCtl (s : State) (c : PortCtl) : DeliveredAt q s (s.sendCtl q c) := by
  unfold State.sendCtl
  refine trans ?_ (emit q _ _)
  exact updPort s (fun _ => rfl)

theorem flowCheck (s : State) : DeliveredAt q s (s.flowCheck q) := by
  unfold State.flowCheck
  dsimp only
  split
  · exact refl q s
  · refine trans ?_ (sendCtl _ _)
    exact updPort s (fun _ => rfl)

theorem ingress (s : State) (plane vc : Nat) (f : Frame) : DeliveredAt q s (s.ingress q plane vc f) := by
  unfold State.ingress
  dsimp only
  split
  · exact ingressError ..
  · split
    · exact ingressError ..
    · split
      · exact (readBad ..).trans (ingressError ..)
      · split
        · exact ((readBad q s _ _ _).trans (emit q (State.mark (State.count _ _ _ 1) _ _) _)).trans (refuseAt ..)
        · refine trans ?_ (flowCheck _)
          exact updPort s (fun _ => rfl)

end DeliveredAt

section
variable {s : State} {port : Nat} {lf : LinkFrame}

/-- In ACTIVE a frame that carries no acknowledgement is handled by its row alone (Table 05-9). -/
theorem frameIn_active (hst : s.portState port = 5) : s.frameIn port lf = s.linkFrame port lf := by
  have hon : s.rxOn port = true := by simp [State.rxOn, hst]
  have hheard : s.heard port = s := by simp [State.heard, hst]
  unfold State.frameIn
  rw [if_pos hon, hheard]

theorem linkFrame_accepted (hack : lf.ackValid = false) (ha : s.arrival port lf = .accepted) : s.linkFrame port lf = s.acceptFrame port lf := by
  unfold State.linkFrame
  simp only [hack, ha, Bool.and_false, Bool.false_eq_true, if_false]

theorem linkFrame_duplicate (hack : lf.ackValid = false) (ha : s.arrival port lf = .duplicate) : s.linkFrame port lf = s := by
  unfold State.linkFrame
  simp only [hack, ha, Bool.and_false, Bool.false_eq_true, if_false]

/-- An accepted frame moves E on, and its acknowledgement leaves (R129). -/
theorem acceptFrame_acks (hc : lf.frame.cls ≠ 0x3C) : ((s.acceptFrame port lf).getPort port).e = ((s.getPort port).e + 1) % 4096 ∧
    Out.portCtl port (.ack (s.getPort port).e) ∈ (s.acceptFrame port lf).out := by
  have hcls : (lf.frame.cls == 0x3C) = false := beq_eq_false_iff_ne.mpr hc
  unfold State.acceptFrame
  simp only [hcls, Bool.false_eq_true, if_false]
  obtain ⟨t, ht⟩ : ∃ t, t = (s.updPort port (fun p => { p with e := (p.e + 1) % 4096, nakFor := none })).sendCtl port (.ack (s.getPort port).e) := ⟨_, rfl⟩
  rw [← ht]
  obtain ⟨he, hout⟩ := DeliveredAt.ingress (q := port) t lf.plane lf.vc lf.frame
  refine ⟨he.trans ?_, hout _ ?_⟩
  · rw [ht, (DeliveredAt.sendCtl _ _).1, getPort_updPort_self]
  · rw [ht]
    exact List.mem_cons_self

end

section
variable {s : State} {port : Nat} {cw : Codeword}

/-- A port that has found its lanes decodes the codewords that come (R122, R124). -/
theorem codewordReceive_exec (hthere : portThere s port = true) (hst : 2 ≤ s.portState port) (hlock : (s.getPort port).acwLock = true) :
    exec (.codewordReceive port cw) s = .next (onPath s (s.codewordIn port cw)) := by
  have hcond : ¬ (s.portState port < 2 ∨ (s.getPort port).acwLock = false) := by
    rintro (h | h)
    · omega
    · exact absurd (hlock.symm.trans h) (by decide)
  exact (onPort_there hthere _).trans (congrArg (fun t => Host.Outcome.next (onPath s t)) (if_neg hcond))

theorem codewordIn_decoded {out : List Nat} (h : rsDecode (codewordSymbols (s.getPort port).rxLanes cw) = some out) :
    s.codewordIn port cw = s.codewordGood port (codewordSymbols (s.getPort port).rxLanes cw) out := by
  unfold State.codewordIn
  dsimp only
  rw [h]

theorem codewordIn_undecoded (h : rsDecode (codewordSymbols (s.getPort port).rxLanes cw) = none) :
    s.codewordIn port cw = s.codewordBad port := by
  unfold State.codewordIn
  dsimp only
  rw [h]

end

/-- Settles O36: the port takes codewords and frames by its state; each unit acts as its type says. -/
theorem linkLayerActs : Obligations.LinkLayerActs := by
  intro s port i inv cw acw old lf a off h hs hthere
  refine ⟨fun hst hlock => ⟨fun out hout => ?_, fun hout => ?_⟩, fun hst hfind hmod hpos hskew hold => ?_, fun hst => ?_,
    fun hon => ⟨?_, ?_, ?_, ?_⟩, fun htr => ?_, fun hon hnak => ?_, fun htr hheld => ?_, fun hst hack ha hc => ?_, fun hst hack ha => ?_⟩
  · rw [codewordReceive_exec hthere hst hlock, codewordIn_decoded hout]
  · rw [codewordReceive_exec hthere hst hlock, codewordIn_undecoded hout]
  · subst hold
    refine (onPort_there hthere _).trans ?_
    rw [if_neg (Nat.not_lt.mpr hst)]
    simp only [State.acwIn, hfind, hmod, beq_self_eq_true, decide_eq_true hpos, decide_eq_true hskew, Bool.and_self, true_and, Bool.not_true,
      Bool.false_and, Bool.false_eq_true, if_false]
  · refine (onPort_there hthere _).trans ?_
    simp only [State.lockLost, hst, if_true]
  · refine (onPort_there hthere _).trans ?_
    simp only [State.frameIn, hon, if_true]
  · refine (onPort_there hthere _).trans ?_
    simp only [State.ackIn, hon, if_true]
  · refine (onPort_there hthere _).trans ?_
    simp only [State.nakIn, hon, if_true]
  · refine (onPort_there hthere _).trans ?_
    simp only [State.flowIn, hon, if_true]
  · refine (onPort_there hthere _).trans ?_
    rw [if_pos htr]
  · refine (onPort_there hthere _).trans ?_
    simp only [hon, hnak, beq_self_eq_true, Bool.and_self, if_true]
  · refine (onPort_there hthere _).trans ?_
    simp only [hheld, htr, if_true]
  · have hgo : s.frameIn port lf = s.acceptFrame port lf := (frameIn_active hst).trans (linkFrame_accepted hack ha)
    have hexec : exec (.linkFrameReceive port lf) s = .next (onPath s (s.frameIn port lf)) := onPort_there hthere _
    rw [hexec, hgo]
    exact ⟨_, rfl, acceptFrame_acks hc⟩
  · have hexec : exec (.linkFrameReceive port lf) s = .next (onPath s (s.frameIn port lf)) := onPort_there hthere _
    rw [hexec, frameIn_active hst, linkFrame_duplicate hack ha]
    rfl

end Sys2Proof.Machine
end

section
/-! Training, degrading and leaving service (R132–R135, R256–R264), and the commands of a port (Table 11-7). -/
namespace Sys2Proof.Machine

/-! ## What the steps of a port's training leave -/

/-- Two fields that share no bit: they lie in different registers, or beside each other. -/
def fldsApart (f g : Fld) : Bool :=
  (g.off != f.off) || (decide (f.hi < 32) && decide (f.lo ≤ f.hi) && decide (g.lo ≤ g.hi) && (decide (g.hi < f.lo) || decide (f.hi < g.lo)))

section
variable (s : State) (q : Nat)

/-- Writing a field leaves a field that is apart from it. -/
theorem pt_setPt_apart {f g : Fld} (v : Nat) (h : fldsApart f g = true) : (s.setPt q f v).pt q g = s.pt q g := by
  by_cases ho : g.off = f.off
  · simp only [fldsApart, ho, bne_self_eq_false, Bool.false_or, Bool.and_eq_true, Bool.or_eq_true, decide_eq_true_eq] at h
    obtain ⟨⟨⟨h32, hf⟩, hg⟩, hd⟩ := h
    exact pt_setPt_beside s q f g v ho h32 hf hd hg
  · exact pt_setPt_off s q f g v ho

/-- A port that moves to a training state shows it; only PORT_STATUS changes. -/
theorem toState_state {st : Nat} (h : st < 8) : (s.toState q st).portState q = st := by
  show (s.toState q st).pt q F.PORT_STATUS_STATE = st
  unfold State.toState
  rw [pt_setPt_apart _ q _ (by decide), pt_setPt_apart _ q _ (by decide), pt_setPt_self _ q F.PORT_STATUS_STATE _ (by decide) (by decide)]
  exact Nat.mod_eq_of_lt h

theorem toState_pt (st : Nat) {f : Fld} (h : f.off ≠ 4) : (s.toState q st).pt q f = s.pt q f := by
  unfold State.toState
  rw [pt_setPt_off _ q F.PORT_STATUS_EFF_MASK f _ h, pt_setPt_off _ q F.PORT_STATUS_DOWN_CAUSE f _ h,
    pt_setPt_off _ q F.PORT_STATUS_STATE f _ h]

@[simp] theorem getPort_toState (st : Nat) : (s.toState q st).getPort q = s.getPort q := rfl
@[simp] theorem State.toState_pkg (st : Nat) : (s.toState q st).pkg = s.pkg := rfl

@[simp] theorem portState_sendPrbs (p : Nat) : (s.sendPrbs p).portState q = s.portState q := rfl
@[simp] theorem State.sendPrbs_pkg : (s.sendPrbs q).pkg = s.pkg := rfl

@[simp] theorem State.updPort_pkg (p : Nat) (f : Port → Port) : (s.updPort p f).pkg = s.pkg := rfl
@[simp] theorem State.ptCount_pkg (p off n : Nat) : (s.ptCount p off n).pkg = s.pkg := rfl
@[simp] theorem State.timePortDown_pkg (p : Nat) : (s.timePortDown p).pkg = s.pkg := rfl
@[simp] theorem pt_dropLink (f : Fld) : (s.dropLink q).pt q f = s.pt q f := by
  unfold State.dropLink
  rw [pt_updPort, pt_ptCount]

@[simp] theorem State.dropLink_pkg (p : Nat) : (s.dropLink p).pkg = s.pkg := rfl

@[simp] theorem portState_sendCtl (p : Nat) (c : PortCtl) : (s.sendCtl p c).portState q = s.portState q := rfl
@[simp] theorem portState_updPort (p : Nat) (f : Port → Port) : (s.updPort p f).portState q = s.portState q := rfl
@[simp] theorem State.sendCtl_pkg (p : Nat) (c : PortCtl) : (s.sendCtl p c).pkg = s.pkg := rfl

/-! ### Saved settings -/

theorem setSaved_pt (b : List Byte) {f : Fld} (h : f.off < F.PORT_SAVED_WORD.off) : (s.setSaved q b).pt q f = s.pt q f := by
  unfold State.setSaved
  refine foldl_keeps (fun t => t.pt q f) (fun t i => ?_) _ _
  exact congrArg (getBits · f.hi f.lo) (reg_setReg_off t _ (by omega))

theorem getPort_setSaved (b : List Byte) (p : Nat) : (s.setSaved q b).getPort p = s.getPort p := by
  unfold State.setSaved
  refine foldl_keeps (fun t => t.getPort p) (fun t i => ?_) _ _
  rfl

theorem setSaved_pkg (b : List Byte) : (s.setSaved q b).pkg = s.pkg := by
  unfold State.setSaved
  refine foldl_keeps State.pkg (fun t i => ?_) _ _
  rfl

theorem qualifySaved_pt {f : Fld} (h : f.off < F.PORT_SAVED_WORD.off) : (s.qualifySaved q).pt q f = s.pt q f := by
  unfold State.qualifySaved
  exact setSaved_pt s q _ h

theorem qualifySaved_pkg : (s.qualifySaved q).pkg = s.pkg := by
  unfold State.qualifySaved
  exact setSaved_pkg s q _

theorem adaptedLanes_freeCtr (n : Nat) : ∃ k, (adaptedLanes n s).2 = { s with freeCtr := k } := by
  induction n generalizing s with
  | zero => exact ⟨s.freeCtr, rfl⟩
  | succ n ih =>
    obtain ⟨k, hk⟩ := ih s.takeFree.2
    exact ⟨k, hk⟩

theorem writeSaved_pt {f : Fld} (h : f.off < F.PORT_SAVED_WORD.off) : (s.writeSaved q).pt q f = s.pt q f := by
  obtain ⟨k, hk⟩ := adaptedLanes_freeCtr s 16
  unfold State.writeSaved
  dsimp only
  rw [hk, setSaved_pt _ q _ h]
  rfl

theorem writeSaved_pkg : (s.writeSaved q).pkg = s.pkg := by
  obtain ⟨k, hk⟩ := adaptedLanes_freeCtr s 16
  unfold State.writeSaved
  dsimp only
  rw [hk, setSaved_pkg]

/-! ### Leaving service -/

/-- The frames that are dropped leave registers and ports as they are. -/
theorem downDrops_keep (fs : List Frame) : (fs.foldl (fun s f => s.downDrop q f) s).regs = s.regs ∧
    (fs.foldl (fun s f => s.downDrop q f) s).ports = s.ports ∧ (fs.foldl (fun s f => s.downDrop q f) s).pkg = s.pkg := by
  refine ⟨foldl_keeps State.regs (fun t f => ?_) _ _, foldl_keeps State.ports (fun t f => ?_) _ _, foldl_keeps State.pkg (fun t f => ?_) _ _⟩
  all_goals
    unfold State.downDrop State.refuseAt
    split <;> rfl

/-- What leaves with a port that enters DOWN (R263). -/
def downCleared (s : State) (q : Nat) : State :=
  ((s.dropLink q).dropQueued q).updPort q (fun p =>
    { p with peer := none, trainRx := 0, readyRx := 0, readyTx := 0, rxActive := false, away := false, rxLanes := [], rxOpen := [], txUnits := [],
             goodCw := 0, savedUse := false, win := {}, fails := 0, failSum := {}, cold := true })

theorem dropQueued_keeps : (s.dropQueued q).regs = s.regs ∧ (s.dropQueued q).pkg = s.pkg ∧
    ((s.dropQueued q).getPort q).held = (s.getPort q).held ∧ ((s.dropQueued q).getPort q).staged = [] := by
  unfold State.dropQueued
  dsimp only
  obtain ⟨hr, hports, hp⟩ := downDrops_keep (s.updPort q (fun p => { p with localq := [], direct := [], staged := [], stageUse := [], hq := [] })) q
    (((s.getPort q).localq ++ (s.getPort q).direct ++ (s.getPort q).staged).flatMap (fun e => e.2.map (·.f)))
  rw [hr, hp, getPort_congr hports, getPort_updPort_self]
  exact ⟨rfl, rfl, rfl, rfl⟩

theorem downCleared_pkg : (downCleared s q).pkg = s.pkg := by
  unfold downCleared
  rw [State.updPort_pkg, (dropQueued_keeps (s.dropLink q) q).2.1, State.dropLink_pkg]

theorem downCleared_pt (f : Fld) : (downCleared s q).pt q f = s.pt q f := by
  obtain ⟨hr, hp, -⟩ := dropQueued_keeps (s.dropLink q) q
  unfold downCleared
  rw [pt_updPort, pt_congr hr hp, pt_dropLink]

theorem downCleared_port : ((downCleared s q).getPort q).held = [] ∧ ((downCleared s q).getPort q).staged = [] := by
  obtain ⟨-, -, hheld, hstaged⟩ := dropQueued_keeps (s.dropLink q) q
  have hnone : ((s.dropLink q).getPort q).held = [] := by
    unfold State.dropLink
    rw [getPort_updPort_self]
  unfold downCleared
  rw [getPort_updPort_self]
  exact ⟨hheld.trans hnone, hstaged⟩

/-- PORT_STATUS of a port that enters DOWN. -/
def downStatus (s : State) (q cause : Nat) : State :=
  let t := (((s.setPt q F.PORT_STATUS_STATE 0).setPt q F.PORT_STATUS_DOWN_CAUSE cause).setPt q F.PORT_STATUS_LAYOUT 0).setPt q F.PORT_STATUS_EFF_MASK 0
  if t.pt q F.PORT_STATUS_QUAL = 1 then t.setPt q F.PORT_STATUS_QUAL 0 else t

theorem downStatus_apart (cause : Nat) {f : Fld} (h : fldsApart F.PORT_STATUS_QUAL f = true) :
    (downStatus s q cause).pt q f = ((((s.setPt q F.PORT_STATUS_STATE 0).setPt q F.PORT_STATUS_DOWN_CAUSE cause).setPt q F.PORT_STATUS_LAYOUT 0).setPt q
      F.PORT_STATUS_EFF_MASK 0).pt q f := by
  unfold downStatus
  dsimp only
  split
  · exact pt_setPt_apart _ q 0 h
  · rfl

theorem downStatus_state (cause : Nat) : (downStatus s q cause).pt q F.PORT_STATUS_STATE = 0 := by
  rw [downStatus_apart s q cause (by decide), pt_setPt_apart _ q _ (by decide), pt_setPt_apart _ q _ (by decide),
    pt_setPt_apart _ q _ (by decide), pt_setPt_self _ q F.PORT_STATUS_STATE _ (by decide) (by decide)]
  rfl

theorem downStatus_cause {cause : Nat} (h : cause < 16) : (downStatus s q cause).pt q F.PORT_STATUS_DOWN_CAUSE = cause := by
  rw [downStatus_apart s q cause (by decide), pt_setPt_apart _ q _ (by decide), pt_setPt_apart _ q _ (by decide),
    pt_setPt_self _ q F.PORT_STATUS_DOWN_CAUSE _ (by decide) (by decide)]
  exact Nat.mod_eq_of_lt h

theorem downStatus_qual {cause : Nat} (h : s.pt q F.PORT_STATUS_QUAL ≠ 1) :
    (downStatus s q cause).pt q F.PORT_STATUS_QUAL = s.pt q F.PORT_STATUS_QUAL := by
  have hset : ((((s.setPt q F.PORT_STATUS_STATE 0).setPt q F.PORT_STATUS_DOWN_CAUSE cause).setPt q F.PORT_STATUS_LAYOUT 0).setPt q
      F.PORT_STATUS_EFF_MASK 0).pt q F.PORT_STATUS_QUAL = s.pt q F.PORT_STATUS_QUAL := by
    rw [pt_setPt_apart _ q _ (by decide), pt_setPt_apart _ q _ (by decide), pt_setPt_apart _ q _ (by decide), pt_setPt_apart _ q _ (by decide)]
  unfold downStatus
  dsimp only
  rw [if_neg (fun h1 => h (hset.symm.trans h1)), hset]

theorem downStatus_off (cause : Nat) {f : Fld} (h : f.off ≠ 4) : (downStatus s q cause).pt q f = s.pt q f := by
  have hset : ((((s.setPt q F.PORT_STATUS_STATE 0).setPt q F.PORT_STATUS_DOWN_CAUSE cause).setPt q F.PORT_STATUS_LAYOUT 0).setPt q
      F.PORT_STATUS_EFF_MASK 0).pt q f = s.pt q f := by
    rw [pt_setPt_off _ q F.PORT_STATUS_EFF_MASK f _ h, pt_setPt_off _ q F.PORT_STATUS_LAYOUT f _ h,
      pt_setPt_off _ q F.PORT_STATUS_DOWN_CAUSE f _ h, pt_setPt_off _ q F.PORT_STATUS_STATE f _ h]
  unfold downStatus
  dsimp only
  split
  · exact (pt_setPt_off _ q F.PORT_STATUS_QUAL f 0 h).trans hset
  · exact hset

theorem getPort_downStatus (cause : Nat) : (downStatus s q cause).getPort q = s.getPort q := by
  unfold downStatus
  dsimp only
  split <;> rfl

theorem downStatus_pkg (cause : Nat) : (downStatus s q cause).pkg = s.pkg := by
  unfold downStatus
  dsimp only
  split <;> rfl

/-- What is told of a port that has entered DOWN. -/
def downTold (s : State) (q cause : Nat) : State :=
  let t := (s.timePortDown q).ptEvent q F.PORT_EVENT_DOWN
  if cause = 1 ∨ cause = 2 then t
  else if cause = 6 then (t.ptEvent q F.PORT_EVENT_MISCABLED).linkFault q 3 7
  else t.linkFault q 3 6

theorem portDown_eq (cause : Nat) : s.portDown q cause = downTold (downStatus (downCleared s q) q cause) q cause := rfl

theorem downTold_pt (cause : Nat) {f : Fld} (h : f.off ≠ 8) : (downTold s q cause).pt q f = s.pt q f := by
  have hev : ((s.timePortDown q).ptEvent q F.PORT_EVENT_DOWN).pt q f = s.pt q f := pt_ptEvent_off _ q F.PORT_EVENT_DOWN f h
  unfold downTold
  dsimp only
  split
  · exact hev
  · split
    · exact (pt_ptEvent_off _ q F.PORT_EVENT_MISCABLED f h).trans hev
    · exact hev

theorem getPort_downTold (cause : Nat) : (downTold s q cause).getPort q = s.getPort q := by
  unfold downTold
  dsimp only
  split
  · simp
  · split <;> simp

theorem downTold_pkg (cause : Nat) : (downTold s q cause).pkg = s.pkg := by
  have hev : ((s.timePortDown q).ptEvent q F.PORT_EVENT_DOWN).pkg = s.pkg := State.ptEvent_pkg ..
  unfold downTold
  dsimp only
  split
  · exact hev
  · split
    · exact (State.ptEvent_pkg ..).trans hev
    · exact hev

theorem portDown_pkg (cause : Nat) : (s.portDown q cause).pkg = s.pkg := by
  rw [portDown_eq, downTold_pkg, downStatus_pkg, downCleared_pkg]

/-- A port that enters DOWN shows it, with its cause (R263). -/
theorem portDown_state (cause : Nat) : (s.portDown q cause).portState q = 0 := by
  show (s.portDown q cause).pt q F.PORT_STATUS_STATE = 0
  rw [portDown_eq, downTold_pt _ q cause (by decide), downStatus_state]

theorem portDown_cause {cause : Nat} (h : cause < 16) : (s.portDown q cause).pt q F.PORT_STATUS_DOWN_CAUSE = cause := by
  rw [portDown_eq, downTold_pt _ q cause (by decide), downStatus_cause _ q h]

theorem portDown_qual {cause : Nat} (h : s.pt q F.PORT_STATUS_QUAL ≠ 1) :
    (s.portDown q cause).pt q F.PORT_STATUS_QUAL = s.pt q F.PORT_STATUS_QUAL := by
  rw [portDown_eq, downTold_pt _ q cause (by decide), downStatus_qual _ q (by rw [downCleared_pt]; exact h), downCleared_pt]

theorem portDown_pt (cause : Nat) {f : Fld} (h4 : f.off ≠ 4) (h8 : f.off ≠ 8) : (s.portDown q cause).pt q f = s.pt q f := by
  rw [portDown_eq, downTold_pt _ q cause h8, downStatus_off _ q cause h4, downCleared_pt]

theorem portDown_port (cause : Nat) : ((s.portDown q cause).getPort q).held = [] ∧ ((s.portDown q cause).getPort q).staged = [] := by
  rw [portDown_eq, getPort_downTold, getPort_downStatus]
  exact downCleared_port s q

/-! ### Cold training and retraining -/

/-- A cold training begins: the port's record starts afresh, and what was held is discarded (R132, R135, R256). -/
def coldBegun (s : State) (q : Nat) : State :=
  (((s.timePortDown q).dropLink q).updPort q (fun p =>
    { p.rewind with cold := true, adapted := true, txOff := 0x3FFF, layoutWas := 0 })).ptCount q R.PORT_RETRAINS 1

theorem coldBegun_pt (f : Fld) : (coldBegun s q).pt q f = s.pt q f := by
  unfold coldBegun
  rw [pt_ptCount, pt_updPort, pt_dropLink, pt_timePortDown]

theorem coldBegun_pkg : (coldBegun s q).pkg = s.pkg := by
  unfold coldBegun
  rw [State.ptCount_pkg, State.updPort_pkg, State.dropLink_pkg, State.timePortDown_pkg]

theorem getPort_coldBegun : ((coldBegun s q).getPort q).held = [] ∧ ((coldBegun s q).getPort q).ownMask = (s.getPort q).ownMask := by
  unfold coldBegun State.dropLink
  rw [getPort_ptCount, getPort_updPort_self, getPort_updPort_self]
  exact ⟨rfl, rfl⟩

/-- The lanes that a port may use are those of its own mask that its fuses leave. -/
theorem ownLanes_congr {s t : State} (hm : (t.getPort q).ownMask = (s.getPort q).ownMask)
    (hf : t.pt q F.PORT_LANE_FUSE_BAD = s.pt q F.PORT_LANE_FUSE_BAD) : t.ownLanes q = s.ownLanes q := by
  unfold State.ownLanes State.fuseMask
  rw [hf, hm]

/-- What a cold training then does with its saved settings leaves its state and what it holds. -/
theorem coldTrain_signals (h : layoutOf (s.ownLanes q) ≠ 0) : (s.coldTrain q).portState q = 1 ∧ (s.coldTrain q).pkg = s.pkg ∧
    ((s.coldTrain q).getPort q).held = [] ∧ ((s.coldTrain q).getPort q).ownMask = (s.getPort q).ownMask ∧
    (s.coldTrain q).pt q F.PORT_CTRL_EN = s.pt q F.PORT_CTRL_EN := by
  obtain ⟨hheld, hmask⟩ := getPort_coldBegun s q
  have hlanes : layoutOf ((coldBegun s q).ownLanes q) ≠ 0 := by rwa [ownLanes_congr q hmask (coldBegun_pt s q _)]
  obtain ⟨x, hx⟩ : ∃ x, x = ((coldBegun s q).toState q 1).sendPrbs q := ⟨_, rfl⟩
  have hfacts : x.portState q = 1 ∧ x.pkg = s.pkg ∧ (x.getPort q).held = [] ∧ (x.getPort q).ownMask = (s.getPort q).ownMask ∧
      x.pt q F.PORT_CTRL_EN = s.pt q F.PORT_CTRL_EN := by
    rw [hx, portState_sendPrbs, State.sendPrbs_pkg, getPort_sendPrbs, pt_sendPrbs, State.toState_pkg, getPort_toState, toState_pt _ q 1 (by decide)]
    exact ⟨toState_state _ q (by decide), coldBegun_pkg s q, hheld, hmask, coldBegun_pt s q _⟩
  have hgo : s.coldTrain q = if x.pt q F.PORT_CTRL_USE_SAVED = 0 then x
      else if x.savedOk q then x.updPort q (fun p => { p with savedUse := true, adapted := false }) else x.ptEvent q F.PORT_EVENT_SAVED_REJECT := by
    rw [hx]
    exact if_neg hlanes
  obtain ⟨h1, h2, h3, h4, h5⟩ := hfacts
  rw [hgo]
  split
  · exact ⟨h1, h2, h3, h4, h5⟩
  · split
    · rw [getPort_updPort_self]
      exact ⟨h1, h2, h3, h4, h5⟩
    · rw [getPort_ptEvent]
      exact ⟨(pt_ptEvent_off _ q F.PORT_EVENT_SAVED_REJECT F.PORT_STATUS_STATE (by decide)).trans h1, (State.ptEvent_pkg ..).trans h2, h3, h4,
        (pt_ptEvent_off _ q F.PORT_EVENT_SAVED_REJECT F.PORT_CTRL_EN (by decide)).trans h5⟩

/-- A retrain that finds lanes to use begins in its state and keeps what is held (R132, R135). -/
theorem retrain_begins {st : Nat} (hst : st < 8) (h : layoutOf (s.ownLanes q) ≠ 0) : (s.retrain q st).portState q = st ∧
    (s.retrain q st).pkg = s.pkg ∧ ((s.retrain q st).getPort q).held = (s.getPort q).held ∧
    ((s.retrain q st).getPort q).ownMask = (s.getPort q).ownMask ∧ (s.retrain q st).pt q F.PORT_EVENT_RETRAIN = 1 := by
  obtain ⟨t, ht⟩ : ∃ t, t = ((s.timePortDown q).updPort q (fun p =>
    { p.rewind with cold := false, away := true, layoutWas := s.portLayout q, txOff := 0x3FFF })).ptCount q R.PORT_RETRAINS 1 := ⟨_, rfl⟩
  have hpkg : t.pkg = s.pkg := by rw [ht, State.ptCount_pkg, State.updPort_pkg, State.timePortDown_pkg]
  have hport : (t.getPort q).held = (s.getPort q).held ∧ (t.getPort q).ownMask = (s.getPort q).ownMask := by
    rw [ht, getPort_ptCount, getPort_updPort_self]
    exact ⟨rfl, rfl⟩
  have hlanes : layoutOf ((t.ptEvent q F.PORT_EVENT_RETRAIN).ownLanes q) ≠ 0 := by
    have hfuse : (t.ptEvent q F.PORT_EVENT_RETRAIN).pt q F.PORT_LANE_FUSE_BAD = s.pt q F.PORT_LANE_FUSE_BAD := by
      rw [pt_ptEvent_off _ q F.PORT_EVENT_RETRAIN F.PORT_LANE_FUSE_BAD (by decide), ht, pt_ptCount, pt_updPort, pt_timePortDown]
    rwa [ownLanes_congr q ((congrArg Port.ownMask (getPort_ptEvent t q q _)).trans hport.2) hfuse]
  have hev : (t.ptEvent q F.PORT_EVENT_RETRAIN).pt q F.PORT_EVENT_RETRAIN = 1 := pt_ptEvent_self _ q F.PORT_EVENT_RETRAIN rfl (by decide)
  have hgo : s.retrain q st = if st = 1 then ((t.ptEvent q F.PORT_EVENT_RETRAIN).toState q 1).sendPrbs q
      else (t.ptEvent q F.PORT_EVENT_RETRAIN).toState q st := by
    unfold State.retrain
    dsimp only
    rw [← ht, if_neg hlanes]
  rw [hgo]
  split
  case isTrue h1 =>
    subst h1
    rw [portState_sendPrbs, State.sendPrbs_pkg, getPort_sendPrbs, getPort_toState, getPort_ptEvent, pt_sendPrbs, toState_pt _ q 1 (by decide)]
    exact ⟨toState_state _ q hst, (State.ptEvent_pkg ..).trans hpkg, hport.1, hport.2, hev⟩
  case isFalse =>
    rw [getPort_toState, getPort_ptEvent, toState_pt _ q st (by decide)]
    exact ⟨toState_state _ q hst, (State.ptEvent_pkg ..).trans hpkg, hport.1, hport.2, hev⟩

/-! ### ACTIVE -/

theorem qualStart_state (cold changed : Bool) : (s.qualStart q cold changed).portState q = s.portState q := by
  show (s.qualStart q cold changed).pt q F.PORT_STATUS_STATE = s.pt q F.PORT_STATUS_STATE
  unfold State.qualStart
  split
  · rw [pt_setPt_apart _ q _ (by decide), pt_setPt_apart _ q _ (by decide)]
  · split
    · rw [pt_updPort, pt_setPt_apart _ q _ (by decide), pt_setPt_apart _ q _ (by decide)]
    · rfl

theorem qualStart_pkg (cold changed : Bool) : (s.qualStart q cold changed).pkg = s.pkg := by
  unfold State.qualStart
  split
  · rfl
  · split <;> rfl

/-- A port that enters ACTIVE shows it (R132). -/
theorem enterActive_state : (s.enterActive q).portState q = 5 ∧ (s.enterActive q).pkg = s.pkg := by
  unfold State.enterActive
  extract_lets p lay kept t1 t2 t3 t4 t5
  have h3 : t3.portState q = 5 ∧ t3.pkg = t2.pkg := by
    refine ⟨?_, State.ptEvent_pkg ..⟩
    show t3.pt q F.PORT_STATUS_STATE = 5
    unfold t3
    rw [pt_ptEvent_off _ q F.PORT_EVENT_ACTIVE _ (by decide), pt_setPt_apart _ q _ (by decide)]
    exact toState_state _ q (by decide)
  have h2 : t2.pkg = s.pkg := by
    unfold t2
    split <;> rfl
  have h4 : t4.portState q = 5 ∧ t4.pkg = s.pkg :=
    ⟨(qualStart_state t3 q _ _).trans h3.1, (qualStart_pkg t3 q _ _).trans (h3.2.trans h2)⟩
  have h5 : t5.portState q = 5 ∧ t5.pkg = s.pkg := by
    unfold t5
    split
    · exact ⟨(writeSaved_pt t4 q (f := F.PORT_STATUS_STATE) (by decide)).trans h4.1, (writeSaved_pkg t4 q).trans h4.2⟩
    · exact h4
  rw [portState_sendCtl, portState_updPort, State.sendCtl_pkg, State.updPort_pkg]
  exact h5

end

/-! ## Commands and timeouts of a port -/

section
variable {s t : State} {port : Nat}

theorem pt_onPath (h : t.pkg = s.pkg) (q : Nat) (f : Fld) : (onPath s t).pt q f = t.pt q f := pt_congr (s := t) (t := onPath s t) rfl h.symm q f

@[simp] theorem getPort_onPath (q : Nat) : (onPath s t).getPort q = t.getPort q := rfl

theorem portState_onPath (h : t.pkg = s.pkg) (q : Nat) : (onPath s t).portState q = t.portState q := pt_onPath h q F.PORT_STATUS_STATE

end

section
variable {s : State} {port : Nat}

/-- A port whose record changed and that moves to a training state shows it. -/
theorem movedTo_state (f : Port → Port) {st : Nat} (h : st < 8) : (onPath s ((s.updPort port f).toState port st)).portState port = st :=
  (portState_onPath ((State.toState_pkg _ port st).trans (State.updPort_pkg s port f)) port).trans (toState_state _ port h)

theorem clearDeaf_pkg : (s.clearDeaf port).pkg = s.pkg := by
  unfold State.clearDeaf
  dsimp only
  split
  · rfl
  · exact State.ptEvent_pkg ..

/-- The end of a qualification window, before what its outcome does (R261). -/
def qualEnded (s : State) (port : Nat) (ok : Bool) : State :=
  ((s.setPt port F.PORT_STATUS_QUAL (if ok then 2 else 3)).updPort port (fun p => { p with win := {}, fails := 0, failSum := {} })).ptEvent port
    F.PORT_EVENT_QUAL_DONE

theorem qualEnded_qual (ok : Bool) : (qualEnded s port ok).pt port F.PORT_STATUS_QUAL = if ok then 2 else 3 := by
  unfold qualEnded
  rw [pt_ptEvent_off _ port F.PORT_EVENT_QUAL_DONE _ (by decide), pt_updPort, pt_setPt_self _ port F.PORT_STATUS_QUAL _ (by decide) (by decide)]
  cases ok <;> rfl

theorem qualEnded_done (ok : Bool) : (qualEnded s port ok).pt port F.PORT_EVENT_QUAL_DONE = 1 := pt_ptEvent_self _ port _ rfl (by decide)

theorem qualEnded_pkg (ok : Bool) : (qualEnded s port ok).pkg = s.pkg := State.ptEvent_pkg ..

theorem qualWindowEnd_exec (hthere : portThere s port = true) (hst : s.portState port = 5) (hq : s.pt port F.PORT_STATUS_QUAL = 1) {ok : Bool}
    (hok : s.windowPasses port (s.getPort port).win = ok) :
    exec (.qualWindowEnd port) s = .next (onPath s (if ok then (qualEnded s port ok).qualifySaved port
      else match (qualEnded s port ok).degradeLane port (s.getPort port).win with
        | some l => (qualEnded s port ok).degrade port l
        | none => (qualEnded s port ok).portDown port 8)) := by
  subst hok
  exact (onPort_there hthere _).trans (congrArg (fun t => Host.Outcome.next (onPath s t)) (if_pos ⟨hst, hq⟩))

/-- Without AUTO_DEGRADE no lane may be cleared (R262). -/
theorem degradeLane_none (h : s.pt port F.PORT_CTRL_AUTO_DEGRADE = 0) (w : QualSum) : s.degradeLane port w = none := by
  unfold State.degradeLane
  rw [if_neg (by rw [h]; omega)]

/-- The third failing window in a row, before a lane is cleared (R262). -/
def berHigh (s : State) (port : Nat) : State :=
  ((s.updPort port (fun p => { p with win := {}, fails := 0, failSum := {} })).ptEvent port F.PORT_EVENT_BER_HIGH).linkFault port 3 5

end

/-- Settles O37: each input acts in its states, and the steps above say what it leaves. -/
theorem portTrainingMoves : Obligations.PortTrainingMoves := by
  intro s port tr hthere
  refine ⟨fun h1 h3 hst => ?_, fun h1 h3 h2 h4 => ?_, fun hst => ?_, fun hst => ?_, fun hst hl => ⟨?_, ?_⟩, fun hst => ?_, fun hst => ?_,
    fun h1 h4 haway => ?_, fun hst hl => ?_, fun hst hact => ?_, fun hst hsaved => ?_, fun hst hq => ⟨fun hok => ?_, fun hno hdeg => ?_⟩,
    fun hst hq hno hfails hdeg => ?_⟩
  · refine (onPort_there hthere _).trans ?_
    unfold State.trainIn
    rw [if_neg (by omega), if_pos hst]
  · refine (onPort_there hthere _).trans ?_
    unfold State.trainIn
    rw [if_neg (by omega), if_neg (by omega), if_pos h2]
  · have hexec : exec (.signalLock port) s = .next (onPath s ((s.updPort port (fun p => { p with savedUse := false })).toState port 2)) :=
      (onPort_there hthere _).trans (congrArg (fun t => Host.Outcome.next (onPath s t)) (if_pos hst))
    refine ⟨_, hexec, movedTo_state _ (by decide), ?_⟩
    rw [getPort_onPath, getPort_toState, getPort_updPort_self]
  · have hexec : exec (.signalTimeout port) s = .next (onPath s (s.portDown port 3)) :=
      (onPort_there hthere _).trans (congrArg (fun t => Host.Outcome.next (onPath s t)) (if_pos hst))
    have hp := portDown_pkg s port 3
    exact ⟨_, hexec, (portState_onPath hp port).trans (portDown_state s port 3), (pt_onPath hp port _).trans (portDown_cause s port (by decide))⟩
  · exact (onPort_there hthere _).trans (congrArg (fun t => Host.Outcome.next (onPath s t)) (if_pos hst))
  · obtain ⟨hstate, hp, -⟩ := coldTrain_signals (s.clearDeaf port) port hl
    have hexec : exec (.alignTimeout port) s = .next (onPath s ((s.clearDeaf port).coldTrain port)) :=
      (onPort_there hthere _).trans (congrArg (fun t => Host.Outcome.next (onPath s t)) (if_pos hst))
    exact ⟨_, hexec, (portState_onPath (hp.trans clearDeaf_pkg) port).trans hstate⟩
  · have hexec : exec (.exchangeTimeout port) s = .next (onPath s ((s.updPort port Port.rewind).toState port 2)) :=
      (onPort_there hthere _).trans (congrArg (fun t => Host.Outcome.next (onPath s t)) (if_pos hst))
    exact ⟨_, hexec, movedTo_state _ (by decide)⟩
  · have hexec : exec (.readyTimeout port) s = .next (onPath s ((s.updPort port Port.rewind).toState port 2)) :=
      (onPort_there hthere _).trans (congrArg (fun t => Host.Outcome.next (onPath s t)) (if_pos hst))
    exact ⟨_, hexec, movedTo_state _ (by decide)⟩
  · have hexec : exec (.retrainTimeout port) s = .next (onPath s (s.portDown port 4)) :=
      (onPort_there hthere _).trans (congrArg (fun t => Host.Outcome.next (onPath s t)) (if_pos ⟨h1, h4, haway⟩))
    have hp := portDown_pkg s port 4
    exact ⟨_, hexec, (portState_onPath hp port).trans (portDown_state s port 4), (pt_onPath hp port _).trans (portDown_cause s port (by decide))⟩
  · obtain ⟨hstate, hp, hheld, -, -⟩ := retrain_begins s port (st := 1) (by decide) hl
    have hexec : exec (.cdrLoss port) s = .next (onPath s (s.retrain port 1)) :=
      (onPort_there hthere _).trans (congrArg (fun t => Host.Outcome.next (onPath s t)) (if_pos hst))
    exact ⟨_, hexec, (portState_onPath hp port).trans hstate, hheld⟩
  · obtain ⟨hstate, hp⟩ := enterActive_state s port
    have hexec : exec (.txActiveAtAcw port) s = .next (onPath s (s.enterActive port)) :=
      (onPort_there hthere _).trans (congrArg (fun t => Host.Outcome.next (onPath s t)) (if_pos ⟨hst, hact⟩))
    exact ⟨_, hexec, (portState_onPath hp port).trans hstate⟩
  · obtain ⟨x, hx⟩ : ∃ x, x = s.updPort port (fun p => { p with savedUse := false, adapted := true }) := ⟨_, rfl⟩
    have hexec : exec (.savedSettingsTimeout port) s = .next (onPath s (x.ptEvent port F.PORT_EVENT_SAVED_REJECT)) := by
      rw [hx]
      exact (onPort_there hthere _).trans (congrArg (fun t => Host.Outcome.next (onPath s t)) (if_pos ⟨hst, hsaved⟩))
    have hp : (x.ptEvent port F.PORT_EVENT_SAVED_REJECT).pkg = s.pkg := (State.ptEvent_pkg ..).trans (by rw [hx]; rfl)
    refine ⟨_, hexec, ?_, (pt_onPath hp port _).trans (pt_ptEvent_self x port F.PORT_EVENT_SAVED_REJECT rfl (by decide))⟩
    rw [getPort_onPath, getPort_ptEvent, hx, getPort_updPort_self]
  · have hexec := qualWindowEnd_exec hthere hst hq hok
    have hp : ((qualEnded s port true).qualifySaved port).pkg = s.pkg := (qualifySaved_pkg ..).trans (qualEnded_pkg true)
    refine ⟨_, hexec, (pt_onPath hp port _).trans ?_, (pt_onPath hp port _).trans ?_⟩
    · exact (qualifySaved_pt _ port (by decide)).trans (qualEnded_qual true)
    · exact (qualifySaved_pt _ port (by decide)).trans (qualEnded_done true)
  · have hnone : (qualEnded s port false).degradeLane port (s.getPort port).win = none := by
      refine degradeLane_none ?_ _
      unfold qualEnded
      rw [pt_ptEvent_off _ port F.PORT_EVENT_QUAL_DONE _ (by decide), pt_updPort, pt_setPt_apart _ port _ (by decide)]
      exact hdeg
    have hexec := qualWindowEnd_exec hthere hst hq hno
    rw [hnone] at hexec
    have hqual := qualEnded_qual (s := s) (port := port) false
    have hp : ((qualEnded s port false).portDown port 8).pkg = s.pkg := (portDown_pkg _ port 8).trans (qualEnded_pkg false)
    refine ⟨_, hexec, (portState_onPath hp port).trans (portDown_state _ port 8), (pt_onPath hp port _).trans (portDown_cause _ port (by decide)),
      (pt_onPath hp port _).trans ((portDown_qual _ port ?_).trans hqual)⟩
    rw [hqual]
    decide
  · have hnone : (berHigh s port).degradeLane port ((s.getPort port).failSum.add (s.getPort port).win) = none := by
      refine degradeLane_none ?_ _
      unfold berHigh
      rw [pt_linkFault, pt_ptEvent_off _ port F.PORT_EVENT_BER_HIGH _ (by decide), pt_updPort]
      exact hdeg
    have hexec : exec (.monitorWindowEnd port) s = .next (onPath s (berHigh s port)) := by
      refine (onPort_there hthere _).trans (congrArg (fun t => Host.Outcome.next (onPath s t)) ((if_pos ⟨hst, hq⟩).trans ?_))
      dsimp only
      rw [if_neg (by rw [hno]; decide), if_neg (by omega)]
      exact (congrArg (fun o => match o with
        | some l => (berHigh s port).degrade port l
        | none => berHigh s port) hnone).trans rfl
    have hp : (berHigh s port).pkg = s.pkg := by
      unfold berHigh
      exact (State.faultEvent_pkg ..).trans (State.ptEvent_pkg ..)
    refine ⟨_, hexec, (pt_onPath hp port _).trans ?_, ?_⟩
    · unfold berHigh
      rw [pt_linkFault]
      exact pt_ptEvent_self _ port F.PORT_EVENT_BER_HIGH rfl (by decide)
    · unfold berHigh
      rw [getPort_onPath, getPort_linkFault, getPort_ptEvent, getPort_updPort_self]

/-- Settles O38: each command acts in its states, and the steps above say what it leaves. -/
theorem portCommandsAct : Obligations.PortCommandsAct := by
  intro s port hthere
  refine ⟨fun hen hon hl => ?_, fun hen => ?_, fun hst hl => ?_, fun hst hl => ?_, fun hst hl => ?_, fun hst hretry hen hc hl => ?_, fun hen => ?_⟩
  · obtain ⟨x, hx⟩ : ∃ x, x = (s.setPt port F.PORT_CTRL_EN 1).updPort port (fun p => { p with ownMask := 0xFFFF }) := ⟨_, rfl⟩
    have hmask : (x.getPort port).ownMask = 0xFFFF := by rw [hx, getPort_updPort_self]
    have hxen : x.pt port F.PORT_CTRL_EN = 1 := by
      rw [hx, pt_updPort, pt_setPt_self _ port F.PORT_CTRL_EN _ (by decide) (by decide)]
      rfl
    have hxl : layoutOf (x.ownLanes port) ≠ 0 := by
      have hown : x.ownLanes port = s.fuseMask port := by
        unfold State.ownLanes
        rw [hmask]
        have hfuse : x.fuseMask port = s.fuseMask port := by
          unfold State.fuseMask
          rw [hx, pt_updPort, pt_setPt_apart _ port _ (by decide)]
        rw [hfuse]
        exact BitVec.allOnes_and
      rwa [hown]
    obtain ⟨hstate, hp, -, hm, he⟩ := coldTrain_signals x port hxl
    have hpkg : (x.coldTrain port).pkg = s.pkg := hp.trans (by rw [hx, State.updPort_pkg]; rfl)
    have hgo : s.portEnable port = x.coldTrain port := by
      unfold State.portEnable
      dsimp only
      rw [if_neg (by omega), if_neg, hx]
      have hon' : (s.setPt port F.PORT_CTRL_EN 1).portEnabled port = true := hon
      rw [hon']
      decide
    have hexec : exec (.portEnable port) s = .next (kept s ((onPath s (s.portEnable port)).noteCtl (portUnit s.pkg port))) := onUnit_true s _ hthere
    rw [hexec, hgo]
    refine ⟨_, rfl, ?_, ?_, ?_⟩
    · exact (pt_onPath hpkg port F.PORT_CTRL_EN).trans (he.trans hxen)
    · exact (portState_onPath hpkg port).trans hstate
    · exact hm.trans hmask
  · obtain ⟨x, hx⟩ : ∃ x, x = s.setPt port F.PORT_CTRL_EN 0 := ⟨_, rfl⟩
    have hxen : x.pt port F.PORT_CTRL_EN = 0 := by
      rw [hx, pt_setPt_self _ port F.PORT_CTRL_EN _ (by decide) (by decide)]
      rfl
    have hpkg : (x.portDown port 1).pkg = s.pkg := (portDown_pkg x port 1).trans (by rw [hx]; rfl)
    obtain ⟨hheld, hstaged⟩ := portDown_port x port 1
    have hexec : exec (.portDisable port) s = .next (kept s ((onPath s (x.portDown port 1)).noteCtl (portUnit s.pkg port))) := by
      rw [hx]
      refine (onUnit_true s _ hthere).trans ?_
      rw [if_neg (by omega)]
      rfl
    rw [hexec]
    refine ⟨_, rfl, ?_, ?_, ?_, hheld, hstaged⟩
    · exact (pt_onPath hpkg port F.PORT_CTRL_EN).trans ((portDown_pt x port 1 (by decide) (by decide)).trans hxen)
    · exact (portState_onPath hpkg port).trans (portDown_state x port 1)
    · exact (pt_onPath hpkg port F.PORT_STATUS_DOWN_CAUSE).trans (portDown_cause x port (by decide))
  · obtain ⟨hstate, hp, hheld, -, hev⟩ := retrain_begins s port (st := 2) (by decide) hl
    have hexec : exec (.portRetrain port) s = .next (onPath s (s.retrain port 2)) :=
      (onPort_there hthere _).trans (congrArg (fun t => Host.Outcome.next (onPath s t)) (if_pos hst))
    exact ⟨_, hexec, (portState_onPath hp port).trans hstate, (pt_onPath hp port _).trans hev, hheld⟩
  · obtain ⟨x, hx⟩ : ∃ x, x = s.updPort port (fun p => { p with ownMask := 0xFFFF }) := ⟨_, rfl⟩
    have hmask : (x.getPort port).ownMask = 0xFFFF := by rw [hx, getPort_updPort_self]
    have hxl : layoutOf (x.ownLanes port) ≠ 0 := by
      have hown : x.ownLanes port = s.fuseMask port := by
        unfold State.ownLanes
        rw [hmask]
        have hfuse : x.fuseMask port = s.fuseMask port := by rw [hx]; rfl
        rw [hfuse]
        exact BitVec.allOnes_and
      rwa [hown]
    obtain ⟨hstate, hp, -, hm, -⟩ := retrain_begins x port (st := 2) (by decide) hxl
    have hpkg : (x.retrain port 2).pkg = s.pkg := hp.trans (by rw [hx, State.updPort_pkg])
    have hexec : exec (.portFullRetrain port) s = .next (onPath s (x.retrain port 2)) := by
      rw [hx]
      exact (onPort_there hthere _).trans (congrArg (fun t => Host.Outcome.next (onPath s t)) (if_pos hst))
    exact ⟨_, hexec, (portState_onPath hpkg port).trans hstate, hm.trans hmask⟩
  · obtain ⟨hstate, hp, hheld, -⟩ := coldTrain_signals s port hl
    have hexec : exec (.portCold port) s = .next (onPath s (s.coldTrain port)) :=
      (onPort_there hthere _).trans (congrArg (fun t => Host.Outcome.next (onPath s t)) (if_neg hst))
    exact ⟨_, hexec, (portState_onPath hp port).trans hstate, hheld⟩
  · obtain ⟨hstate, hp, -⟩ := coldTrain_signals s port hl
    have hexec : exec (.portAutoRetry port) s = .next (onPath s (s.coldTrain port)) :=
      (onPort_there hthere _).trans (congrArg (fun t => Host.Outcome.next (onPath s t)) (if_pos ⟨hst, hretry, hen, hc⟩))
    exact ⟨_, hexec, (portState_onPath hp port).trans hstate⟩
  · exact (onPort_there hthere _).trans (congrArg (fun t => Host.Outcome.next (onPath s t)) (if_pos hen))

end Sys2Proof.Machine
end

section
/-! Die-to-die crossings (R152, R266, R269, R270). -/
namespace Sys2Proof.Machine

/-! ## Registers of other units -/

section
variable (s : State) {u v : Nat}

/-- Units that stand for the same one have the same registers (R79, R109, R395). -/
theorem reg_home (h : homeUnit s.pkg u = homeUnit s.pkg v) (off : Nat) : s.reg u off = s.reg v off := by
  unfold State.reg
  rw [h]

theorem setReg_home (h : homeUnit s.pkg u = homeUnit s.pkg v) (off : Nat) (w : W32) : s.setReg u off w = s.setReg v off w := by
  unfold State.setReg
  rw [h]

theorem setFld_home (h : homeUnit s.pkg u = homeUnit s.pkg v) (f : Fld) (n : Nat) : s.setFld u f n = s.setFld v f n := by
  unfold State.setFld
  rw [setReg_home s h, reg_home s h]

theorem fld_home (h : homeUnit s.pkg u = homeUnit s.pkg v) (f : Fld) : s.fld u f = s.fld v f := by
  unfold State.fld
  rw [reg_home s h]

/-- A write of another register, of any unit, leaves a register. -/
theorem reg_setReg_apart {off off' : Nat} (w : W32) (h : off ≠ off') (h1 : off < 4096) (h2 : off' < 4096) :
    (s.setReg v off' w).reg u off = s.reg u off := by
  refine reg_setReg_ne s w ?_
  unfold regAddr
  omega

/-- A write of a field, at any unit, leaves a field that is apart from it. -/
theorem fld_setFld_apart {f g : Fld} (n : Nat) (h : fldsApart f g = true) (hf : f.off < 4096) (hg : g.off < 4096) :
    (s.setFld v f n).fld u g = s.fld u g := by
  by_cases ho : g.off = f.off
  · by_cases hu : homeUnit s.pkg u = homeUnit s.pkg v
    · rw [← setFld_home s hu, fld_setFld_beside s u f g n ho]
      all_goals simp only [fldsApart, ho, bne_self_eq_false, Bool.false_or, Bool.and_eq_true, Bool.or_eq_true, decide_eq_true_eq] at h; tauto
    · unfold State.fld State.setFld
      rw [reg_setReg_ne]
      unfold regAddr
      omega
  · unfold State.fld State.setFld
    rw [reg_setReg_apart s _ ho hg hf]

/-- A field that has the value that is written, to it or to that of another unit, keeps it. -/
theorem fld_setFld_same {f : Fld} {n : Nat} (h : f.hi < 32) (hl : f.lo ≤ f.hi) (hn : s.fld u f = n % 2 ^ (f.hi - f.lo + 1)) :
    (s.setFld v f n).fld u f = n % 2 ^ (f.hi - f.lo + 1) := by
  by_cases hu : homeUnit s.pkg u = homeUnit s.pkg v
  · rw [← setFld_home s hu, fld_setFld_self s u f n h hl]
  · rw [← hn]
    unfold State.fld State.setFld
    rw [reg_setReg_ne]
    unfold regAddr
    omega

/-- An event of any unit leaves the fields of other registers. -/
theorem fld_event_apart {f g : Fld} (h : g.off ≠ f.off) (hf : f.off < 4096) (hg : g.off < 4096) : (s.event v f).fld u g = s.fld u g := by
  unfold State.fld State.event State.eventBit
  dsimp only
  split
  · rw [reg_setReg_apart s _ h hg hf]
  · rw [reg_interrupt, reg_setReg_apart s _ h hg hf]

end

/-! ## The fields of a crossing's end -/

section
variable (s : State) (key k : Nat)

theorem dl_congr {s t : State} (hr : t.regs = s.regs) (hp : t.pkg = s.pkg) (key : Nat) (f : Fld) : t.dl key f = s.dl key f := by
  simp only [State.dl, State.fld, State.reg, hr, hp]

theorem dl_setDl_self (f : Fld) (v : Nat) (h : f.hi < 32) (hl : f.lo ≤ f.hi) : (s.setDl key f v).dl key f = v % 2 ^ (f.hi - f.lo + 1) :=
  fld_setFld_self s _ f v h hl

theorem dl_setDl_apart {f g : Fld} (v : Nat) (h : fldsApart f g = true) (hf : f.off < 4096) (hg : g.off < 4096) :
    (s.setDl k f v).dl key g = s.dl key g := fld_setFld_apart s v h hf hg

theorem dl_setDl_same {f : Fld} {v : Nat} (h : f.hi < 32) (hl : f.lo ≤ f.hi) (hn : s.dl key f = v % 2 ^ (f.hi - f.lo + 1)) :
    (s.setDl k f v).dl key f = v % 2 ^ (f.hi - f.lo + 1) := fld_setFld_same s h hl hn

theorem dl_dlEvent {f g : Fld} (h : g.off ≠ f.off) (hf : f.off < 4096) (hg : g.off < 4096) : (s.dlEvent k f).dl key g = s.dl key g := by
  unfold State.dl State.dlEvent
  exact fld_event_apart s h hf hg

@[simp] theorem State.dlEvent_pkg (f : Fld) : (s.dlEvent k f).pkg = s.pkg := State.event_pkg ..
@[simp] theorem State.setDl_pkg (f : Fld) (v : Nat) : (s.setDl k f v).pkg = s.pkg := rfl
@[simp] theorem dl_updDl (f : Dlink → Dlink) (g : Fld) : (s.updDl k f).dl key g = s.dl key g := rfl
@[simp] theorem State.updDl_pkg (f : Dlink → Dlink) : (s.updDl k f).pkg = s.pkg := rfl
@[simp] theorem dl_dlFault (cls what : Nat) (g : Fld) : (s.dlFault k cls what).dl key g = s.dl key g := rfl
@[simp] theorem State.dlFault_pkg (cls what : Nat) : (s.dlFault k cls what).pkg = s.pkg := rfl
@[simp] theorem getDl_setDl (f : Fld) (v : Nat) : (s.setDl k f v).getDl key = s.getDl key := rfl

/-! ## DOWN -/

/-- What an end that goes DOWN drops leaves the registers (R152). -/
def endCleared (s : State) (key : Nat) : State :=
  let d := s.getDl key
  let r := dlRouter key
  let s := d.rxOpen.foldl (fun s e => if e.2.bad then s else s.crossed key (e.1 / 4) (e.1 % 4) (e.2.frame (e.1 / 4) true)) s
  let s := d.txq.foldl (fun s e => (wholeFrames e.2).foldl (fun s f => s.downError (r.1 / 1024) (r.1 % 1024) f) s) s
  (s.dlCount key R.DLINK_CUT (d.worms + d.rxOpen.length)).updDl key (fun _ => {})

/-- Registers and package together: what the fields of a crossing read from. -/
def State.regPart (s : State) : KMap W32 × Package := (s.regs, s.pkg)

theorem dl_regPart {s t : State} (h : t.regPart = s.regPart) (key : Nat) (f : Fld) : t.dl key f = s.dl key f :=
  dl_congr (congrArg Prod.fst h) (congrArg Prod.snd h) key f

theorem refuseAt_regPart (u : Nat) (f : Frame) (reason refuser : Nat) : (s.refuseAt u f reason refuser).regPart = s.regPart := by
  unfold State.refuseAt
  split <;> rfl

theorem downError_regPart (die inst : Nat) (f : Frame) : (s.downError die inst f).regPart = s.regPart := by
  unfold State.downError
  exact refuseAt_regPart ..

theorem crossed_regPart (plane vc : Nat) (f : Frame) : (s.crossed key plane vc f).regPart = s.regPart := by
  unfold State.crossed
  dsimp only
  split
  · rfl
  · split
    · exact refuseAt_regPart ..
    · rfl

theorem endCleared_regPart : (endCleared s key).regPart = s.regPart := by
  unfold endCleared
  dsimp only
  refine (foldl_keeps State.regPart (fun t e => ?_) _ _).trans (foldl_keeps State.regPart (fun t e => ?_) _ _)
  · refine foldl_keeps State.regPart (fun t f => ?_) _ _
    exact downError_regPart ..
  · split
    · rfl
    · exact crossed_regPart ..

/-- The end that goes DOWN, once its QUAL has been cleared (R270). -/
def endUnqualified (s : State) (key : Nat) : State :=
  if (endCleared s key).dl key F.DLINK_STATUS_QUAL = 1 then (endCleared s key).setDl key F.DLINK_STATUS_QUAL 0 else endCleared s key

theorem endDown_eq : s.endDown key = if (endUnqualified s key).dl key F.DLINK_STATUS_STATE = 0 then endUnqualified s key
    else ((endUnqualified s key).setDl key F.DLINK_STATUS_STATE 0).dlEvent key F.DLINK_EVENT_DOWN := rfl

theorem endUnqualified_pkg : (endUnqualified s key).pkg = s.pkg := by
  have hc : (endCleared s key).pkg = s.pkg := congrArg Prod.snd (endCleared_regPart s key)
  unfold endUnqualified
  split
  · exact hc
  · exact hc

theorem endDown_pkg : (s.endDown key).pkg = s.pkg := by
  rw [endDown_eq]
  split
  · exact endUnqualified_pkg s key
  · rw [State.dlEvent_pkg, State.setDl_pkg, endUnqualified_pkg]

theorem endUnqualified_apart {g : Fld} (hq : fldsApart F.DLINK_STATUS_QUAL g = true) (hg : g.off < 4096) :
    (endUnqualified s k).dl key g = s.dl key g := by
  have hc := dl_regPart (endCleared_regPart s k) key g
  unfold endUnqualified
  split
  · rw [dl_setDl_apart _ key k 0 hq (by decide) hg, hc]
  · exact hc

/-- A QUAL that is not running stays, at this end and at every other. -/
theorem endUnqualified_qual (h : s.dl key F.DLINK_STATUS_QUAL ≠ 1) :
    (endUnqualified s k).dl key F.DLINK_STATUS_QUAL = s.dl key F.DLINK_STATUS_QUAL := by
  have hc := dl_regPart (endCleared_regPart s k) key F.DLINK_STATUS_QUAL
  unfold endUnqualified
  split
  case isTrue hk =>
    by_cases hu : homeUnit (endCleared s k).pkg (dlinkUnit (key / 32) (key % 32)) = homeUnit (endCleared s k).pkg (dlinkUnit (k / 32) (k % 32))
    · exact absurd (hc.symm.trans ((fld_home (endCleared s k) hu F.DLINK_STATUS_QUAL).trans hk)) h
    · refine Eq.trans ?_ hc
      unfold State.dl State.setDl State.fld State.setFld
      rw [reg_setReg_ne]
      unfold regAddr
      omega
  case isFalse => exact hc

/-- A field that is apart from what DOWN writes keeps its value at every end. -/
theorem endDown_apart {g : Fld} (hq : fldsApart F.DLINK_STATUS_QUAL g = true) (hs : fldsApart F.DLINK_STATUS_STATE g = true)
    (he : g.off ≠ F.DLINK_EVENT_DOWN.off) (hg : g.off < 4096) : (s.endDown k).dl key g = s.dl key g := by
  have hc := endUnqualified_apart s key k hq hg
  rw [endDown_eq]
  split
  · exact hc
  · rw [dl_dlEvent _ key k he (by decide) hg, dl_setDl_apart _ key k 0 hs (by decide) hg, hc]

theorem endDown_qual (h : s.dl key F.DLINK_STATUS_QUAL ≠ 1) : (s.endDown k).dl key F.DLINK_STATUS_QUAL = s.dl key F.DLINK_STATUS_QUAL := by
  have hc := endUnqualified_qual s key k h
  rw [endDown_eq]
  split
  · exact hc
  · rw [dl_dlEvent _ key k (by decide) (by decide) (by decide), dl_setDl_apart _ key k 0 (by decide) (by decide) (by decide), hc]

/-- An end that goes DOWN shows it (R152). -/
theorem endDown_state : (s.endDown key).dl key F.DLINK_STATUS_STATE = 0 := by
  rw [endDown_eq]
  split
  case isTrue h => exact h
  case isFalse =>
    rw [dl_dlEvent _ key key (by decide) (by decide) (by decide), dl_setDl_self _ key F.DLINK_STATUS_STATE _ (by decide) (by decide)]
    rfl

theorem endDown_state_kept (h : s.dl key F.DLINK_STATUS_STATE = 0) : (s.endDown k).dl key F.DLINK_STATUS_STATE = 0 := by
  have hc : (endUnqualified s k).dl key F.DLINK_STATUS_STATE = 0 := (endUnqualified_apart s key k (by decide) (by decide)).trans h
  rw [endDown_eq]
  split
  · exact hc
  · rw [dl_dlEvent _ key k (by decide) (by decide) (by decide)]
    exact dl_setDl_same _ key k (f := F.DLINK_STATUS_STATE) (v := 0) (by decide) (by decide) hc

/-- A crossing that goes DOWN shows it (R152). -/
theorem crossingDown_state : (s.crossingDown key).dl key F.DLINK_STATUS_STATE = 0 := by
  have h := endDown_state (s.dlFault key 5 5) key
  unfold State.crossingDown
  dsimp only
  split
  · exact endDown_state_kept _ key _ h
  · exact h

theorem crossingDown_pkg : (s.crossingDown key).pkg = s.pkg := by
  have h : ((s.dlFault key 5 5).endDown key).pkg = s.pkg := (endDown_pkg _ key).trans (State.dlFault_pkg ..)
  unfold State.crossingDown
  dsimp only
  split
  · exact (endDown_pkg _ _).trans h
  · exact h

theorem crossingDown_apart {g : Fld} (hq : fldsApart F.DLINK_STATUS_QUAL g = true) (hs : fldsApart F.DLINK_STATUS_STATE g = true)
    (he : g.off ≠ F.DLINK_EVENT_DOWN.off) (hg : g.off < 4096) : (s.crossingDown key).dl key g = s.dl key g := by
  have h : ((s.dlFault key 5 5).endDown key).dl key g = s.dl key g := (endDown_apart _ key key hq hs he hg).trans (dl_dlFault ..)
  unfold State.crossingDown
  dsimp only
  split
  · exact (endDown_apart _ key _ hq hs he hg).trans h
  · exact h

theorem crossingDown_qual (h : s.dl key F.DLINK_STATUS_QUAL ≠ 1) :
    (s.crossingDown key).dl key F.DLINK_STATUS_QUAL = s.dl key F.DLINK_STATUS_QUAL := by
  have h1 : ((s.dlFault key 5 5).endDown key).dl key F.DLINK_STATUS_QUAL = s.dl key F.DLINK_STATUS_QUAL :=
    (endDown_qual _ key key (by rw [dl_dlFault]; exact h)).trans (dl_dlFault ..)
  unfold State.crossingDown
  dsimp only
  split
  · exact (endDown_qual _ key _ (by rw [h1]; exact h)).trans h1
  · exact h1

/-! ## Training -/

/-- An end that is in service trains again (R269). -/
def trainsAgain (s : State) (k : Nat) : State := if 2 ≤ s.dl k F.DLINK_STATUS_STATE then s.setDl k F.DLINK_STATUS_STATE 1 else s

theorem trainsAgain_kept (h : s.dl key F.DLINK_STATUS_STATE = 1) : (trainsAgain s k).dl key F.DLINK_STATUS_STATE = 1 ∧ (trainsAgain s k).pkg = s.pkg := by
  unfold trainsAgain
  split
  · exact ⟨dl_setDl_same _ key k (f := F.DLINK_STATUS_STATE) (v := 1) (by decide) (by decide) h, rfl⟩
  · exact ⟨h, rfl⟩

/-- A crossing in service that trains again shows it (R269). -/
theorem crossingRetrain_state (h : 2 ≤ s.dl key F.DLINK_STATUS_STATE) :
    (s.crossingRetrain key).dl key F.DLINK_STATUS_STATE = 1 ∧ (s.crossingRetrain key).pkg = s.pkg := by
  have hone : trainsAgain s key = s.setDl key F.DLINK_STATUS_STATE 1 := if_pos h
  have h1 : (trainsAgain s key).dl key F.DLINK_STATUS_STATE = 1 ∧ (trainsAgain s key).pkg = s.pkg := by
    rw [hone, dl_setDl_self _ key F.DLINK_STATUS_STATE _ (by decide) (by decide)]
    exact ⟨rfl, rfl⟩
  have hgo : s.crossingRetrain key = match dlPeerKey s.pkg key with
    | some k => trainsAgain (trainsAgain s key) k
    | none => trainsAgain s key := rfl
  rw [hgo]
  split
  · obtain ⟨h2, hp⟩ := trainsAgain_kept _ key _ h1.1
    exact ⟨h2, hp.trans h1.2⟩
  · exact h1

/-- A DOWN end whose EN is 1 begins to train (R270). -/
theorem dlTrain_state (he : s.dl key F.DLINK_CTRL_EN = 1) (h : s.dl key F.DLINK_STATUS_STATE = 0) :
    (s.dlTrain key).dl key F.DLINK_STATUS_STATE = 1 := by
  unfold State.dlTrain
  rw [if_pos ⟨he, h⟩, dl_updDl, dl_setDl_self _ key F.DLINK_STATUS_STATE _ (by decide) (by decide)]
  rfl

theorem dlTrain_pkg : (s.dlTrain k).pkg = s.pkg := by
  unfold State.dlTrain
  split <;> rfl

theorem dlTrain_apart {g : Fld} (hs : fldsApart F.DLINK_STATUS_STATE g = true) (hg : g.off < 4096) : (s.dlTrain k).dl key g = s.dl key g := by
  unfold State.dlTrain
  split
  · rw [dl_updDl, dl_setDl_apart _ key k 1 hs (by decide) hg]
  · rfl

theorem dlTrain_kept (h : s.dl key F.DLINK_STATUS_STATE = 1) : (s.dlTrain k).dl key F.DLINK_STATUS_STATE = 1 := by
  unfold State.dlTrain
  split
  · rw [dl_updDl]
    exact dl_setDl_same _ key k (f := F.DLINK_STATUS_STATE) (v := 1) (by decide) (by decide) h
  · exact h

/-- EN 1 at an end that may be used and is DOWN makes it train (R270). -/
theorem dlEnable_trains (ha : s.dlAllowed key = true) (h : s.dl key F.DLINK_STATUS_STATE = 0) : (s.dlEnable key).dl key F.DLINK_CTRL_EN = 1 ∧
    (s.dlEnable key).dl key F.DLINK_STATUS_STATE = 1 ∧ (s.dlEnable key).pkg = s.pkg := by
  obtain ⟨x, hx⟩ : ∃ x, x = s.setDl key F.DLINK_CTRL_EN 1 := ⟨_, rfl⟩
  have hen : x.dl key F.DLINK_CTRL_EN = 1 := by
    rw [hx, dl_setDl_self _ key F.DLINK_CTRL_EN _ (by decide) (by decide)]
    rfl
  have hst : x.dl key F.DLINK_STATUS_STATE = 0 := by rw [hx, dl_setDl_apart _ key key 1 (by decide) (by decide) (by decide), h]
  have hp : x.pkg = s.pkg := by rw [hx, State.setDl_pkg]
  have h1 : (x.dlTrain key).dl key F.DLINK_CTRL_EN = 1 ∧ (x.dlTrain key).dl key F.DLINK_STATUS_STATE = 1 ∧ (x.dlTrain key).pkg = s.pkg :=
    ⟨(dlTrain_apart x key key (by decide) (by decide)).trans hen, dlTrain_state x key hen hst, (dlTrain_pkg x key).trans hp⟩
  obtain ⟨h2, h3, h4⟩ := h1
  unfold State.dlEnable
  rw [ha, ← hx]
  dsimp only
  rw [if_neg (by decide)]
  split
  · exact ⟨(dlTrain_apart _ key _ (by decide) (by decide)).trans h2, dlTrain_kept _ key _ h3, (dlTrain_pkg _ _).trans h4⟩
  · exact ⟨h2, h3, h4⟩

/-- EN 0 at an end that is not DOWN takes it DOWN (R152). -/
theorem dlDisable_down (h : s.dl key F.DLINK_STATUS_STATE ≠ 0) : (s.dlDisable key).dl key F.DLINK_CTRL_EN = 0 ∧
    (s.dlDisable key).dl key F.DLINK_STATUS_STATE = 0 ∧ (s.dlDisable key).pkg = s.pkg := by
  obtain ⟨x, hx⟩ : ∃ x, x = s.setDl key F.DLINK_CTRL_EN 0 := ⟨_, rfl⟩
  have hen : x.dl key F.DLINK_CTRL_EN = 0 := by
    rw [hx, dl_setDl_self _ key F.DLINK_CTRL_EN _ (by decide) (by decide)]
    rfl
  have hst : x.dl key F.DLINK_STATUS_STATE ≠ 0 := by
    rw [hx, dl_setDl_apart _ key key 0 (by decide) (by decide) (by decide)]
    exact h
  have hp : x.pkg = s.pkg := by rw [hx, State.setDl_pkg]
  have hgo : s.dlDisable key = x.crossingDown key := by
    rw [hx] at hst ⊢
    exact if_neg hst
  rw [hgo]
  exact ⟨(crossingDown_apart x key (by decide) (by decide) (by decide) (by decide)).trans hen, crossingDown_state x key,
    (crossingDown_pkg x key).trans hp⟩

/-! ## Containers that leave -/

theorem takeCrcInject_dl (u : Nat) {g : Fld} (h : fldsApart F.PORT_INJ_ARM g = true) (hg : g.off < 4096) :
    (s.takeCrcInject u).2.dl key g = s.dl key g := by
  unfold State.takeCrcInject
  split
  · dsimp only
    split
    · rfl
    · exact fld_setFld_apart s 0 h (by decide) hg
  · rfl

theorem takeCrcInject_pkg (u : Nat) : (s.takeCrcInject u).2.pkg = s.pkg := by
  unfold State.takeCrcInject
  split
  · dsimp only
    split <;> rfl
  · rfl

theorem pump_keeps (n : Nat) (now : FT) {g : Fld} (h : fldsApart F.PORT_INJ_ARM g = true) (hg : g.off < 4096) :
    (s.pump n k now).dl key g = s.dl key g ∧ (s.pump n k now).pkg = s.pkg := by
  induction n generalizing s with
  | zero => exact ⟨rfl, rfl⟩
  | succ n ih =>
    unfold State.pump
    dsimp only
    split
    · exact ⟨rfl, rfl⟩
    · obtain ⟨h1, h2⟩ := ih (State.emit (State.updDl (s.takeCrcInject (dlinkUnit (k / 32) (k % 32))).2 k _) _)
      exact ⟨h1.trans (takeCrcInject_dl s key _ h hg), h2.trans (takeCrcInject_pkg s _)⟩

theorem pumpDl_keeps (now : FT) {g : Fld} (h : fldsApart F.PORT_INJ_ARM g = true) (hg : g.off < 4096) :
    (s.pumpDl k now).dl key g = s.dl key g ∧ (s.pumpDl k now).pkg = s.pkg := by
  unfold State.pumpDl State.adapterTell
  split
  · obtain ⟨h1, h2⟩ := pump_keeps s key k 32 now h hg
    refine ⟨(foldl_keeps (fun t => t.dl key g) (fun t i => ?_) _ _).trans h1, (foldl_keeps State.pkg (fun t i => ?_) _ _).trans h2⟩ <;> rfl
  · exact ⟨rfl, rfl⟩

theorem dlQualStart_keeps {g : Fld} (hq : fldsApart F.DLINK_STATUS_QUAL g = true) (hi : fldsApart F.DLINK_STATUS_INHERITED g = true)
    (hg : g.off < 4096) : (s.dlQualStart k).dl key g = s.dl key g ∧ (s.dlQualStart k).pkg = s.pkg := by
  unfold State.dlQualStart
  split
  · exact ⟨dl_setDl_apart s key k 1 hi (by decide) hg, rfl⟩
  · split
    · rw [dl_updDl, dl_setDl_apart _ key k 0 hi (by decide) hg, dl_setDl_apart _ key k 1 hq (by decide) hg]
      exact ⟨rfl, rfl⟩
    · exact ⟨rfl, rfl⟩

/-- An end with all its modules enters ACTIVE (R266). -/
theorem trainDone_active (repaired : Nat) : (s.trainDone key 0xF repaired).dl key F.DLINK_STATUS_STATE = 2 ∧
    (s.trainDone key 0xF repaired).dl key F.DLINK_STATUS_MODULE_OK = 0xF ∧ (s.trainDone key 0xF repaired).pkg = s.pkg := by
  unfold State.trainDone
  extract_lets more fresh t1 t2 t3 half t4 t5 t6 d
  have h1 : t1.dl key F.DLINK_STATUS_MODULE_OK = 0xF ∧ t1.pkg = s.pkg := by
    unfold t1
    rw [dl_setDl_apart _ key key _ (by decide) (by decide) (by decide), dl_setDl_self _ key F.DLINK_STATUS_MODULE_OK _ (by decide) (by decide)]
    exact ⟨by decide, rfl⟩
  have h2 : t2.dl key F.DLINK_STATUS_MODULE_OK = 0xF ∧ t2.pkg = s.pkg := by
    unfold t2
    split
    · rw [dl_updDl, dl_dlFault, dl_dlEvent _ key key (by decide) (by decide) (by decide), State.updDl_pkg, State.dlFault_pkg, State.dlEvent_pkg]
      exact h1
    · exact h1
  have h3 : t3.dl key F.DLINK_STATUS_MODULE_OK = 0xF ∧ t3.pkg = s.pkg := h2
  have hhalf : half = false := rfl
  have h4 : t4.dl key F.DLINK_STATUS_STATE = 2 ∧ t4.dl key F.DLINK_STATUS_MODULE_OK = 0xF ∧ t4.pkg = s.pkg := by
    unfold t4
    rw [dl_dlEvent _ key key (by decide) (by decide) (by decide), dl_dlEvent _ key key (by decide) (by decide) (by decide), State.dlEvent_pkg,
      dl_setDl_self _ key F.DLINK_STATUS_STATE _ (by decide) (by decide), dl_setDl_apart _ key key _ (by decide) (by decide) (by decide), hhalf]
    exact ⟨rfl, h3⟩
  have h5 : t5.dl key F.DLINK_STATUS_STATE = 2 ∧ t5.dl key F.DLINK_STATUS_MODULE_OK = 0xF ∧ t5.pkg = s.pkg := by
    unfold t5
    rw [hhalf]
    exact h4
  have h6 : t6.dl key F.DLINK_STATUS_STATE = 2 ∧ t6.dl key F.DLINK_STATUS_MODULE_OK = 0xF ∧ t6.pkg = s.pkg := by
    unfold t6
    split
    · obtain ⟨hs, hp⟩ := dlQualStart_keeps t5 key key (g := F.DLINK_STATUS_STATE) (by decide) (by decide) (by decide)
      obtain ⟨hm, -⟩ := dlQualStart_keeps t5 key key (g := F.DLINK_STATUS_MODULE_OK) (by decide) (by decide) (by decide)
      exact ⟨hs.trans h5.1, hm.trans h5.2.1, hp.trans h5.2.2⟩
    · exact h5
  rw [if_pos (.inl rfl)]
  obtain ⟨x, hx⟩ : ∃ x, x = d.held.foldl (fun s c => s.emit (.container (key / 32) (key % 32) c)) t6 := ⟨_, rfl⟩
  have hxr : x.regPart = t6.regPart := by
    rw [hx]
    refine foldl_keeps State.regPart (fun t c => ?_) _ _
    rfl
  rw [← hx]
  obtain ⟨hs, hp⟩ := pumpDl_keeps x key key (t6.dlFt key) (g := F.DLINK_STATUS_STATE) (by decide) (by decide)
  obtain ⟨hm, -⟩ := pumpDl_keeps x key key (t6.dlFt key) (g := F.DLINK_STATUS_MODULE_OK) (by decide) (by decide)
  exact ⟨hs.trans ((dl_regPart hxr key _).trans h6.1), hm.trans ((dl_regPart hxr key _).trans h6.2.1),
    hp.trans ((congrArg Prod.snd hxr).trans h6.2.2)⟩

/-- A module that fails leaves an intact pair (R269). -/
theorem pairOk_of_one_fails : ∀ m < 4, pairOk (0xF#4 &&& ~~~ (1#4 <<< m)) = true ∧ (0xF#4 &&& ~~~ (1#4 <<< m)) ≠ 0xF := by decide

/-- A crossing in service whose module fails trains again, or goes DOWN (R269). -/
theorem moduleFail_active {m : Nat} (hst : s.dl key F.DLINK_STATUS_STATE = 2) (hok : s.dl key F.DLINK_STATUS_MODULE_OK = 0xF)
    (hf : (s.getDl key).fresh = false) (hm : m < 4) :
    s.moduleFail key m = if s.dl key F.DLINK_CTRL_HALF_ALLOW == 1
      then (s.setDl key F.DLINK_STATUS_MODULE_OK (0xF#4 &&& ~~~ (1#4 <<< m)).toNat).crossingRetrain key
      else (s.setDl key F.DLINK_STATUS_MODULE_OK (0xF#4 &&& ~~~ (1#4 <<< m)).toNat).crossingDown key := by
  obtain ⟨hpair, hne⟩ := pairOk_of_one_fails m hm
  have hallow := dl_setDl_apart s key key (f := F.DLINK_STATUS_MODULE_OK) (g := F.DLINK_CTRL_HALF_ALLOW)
    (0xF#4 &&& ~~~ (1#4 <<< m)).toNat (by decide) (by decide) (by decide)
  have hcond : ¬ (2 = 0 ∨ (s.getDl key).fresh = true ∨ 4 ≤ m ∨ (0xF#4 &&& ~~~ (1#4 <<< m)) = 0xF#4) := by
    rintro (h | h | h | h)
    · omega
    · exact absurd (hf.symm.trans h) (by decide)
    · omega
    · exact hne h
  unfold State.moduleFail
  dsimp only
  rw [hst, hok, show BitVec.ofNat 4 0xF = 0xF#4 from rfl, getDl_setDl, if_neg hcond, hallow, hpair, Bool.true_and, if_pos rfl]

end

/-! ## Commands and inputs of a crossing -/

section
variable {s t : State} {die n key : Nat}

theorem dl_onPath (h : t.pkg = s.pkg) (f : Fld) : (onPath s t).dl key f = t.dl key f := dl_congr (s := t) (t := onPath s t) rfl h.symm key f

/-- The same, once the command's control fields are noted for the beacon (R315). -/
theorem dl_noted (h : t.pkg = s.pkg) (u : Nat) (f : Fld) : (kept s ((onPath s t).noteCtl u)).dl key f = t.dl key f :=
  dl_congr (s := t) (t := kept s ((onPath s t).noteCtl u)) rfl h.symm key f

/-- What a command of a crossing's end that is there leaves. -/
theorem onDlink_up (hup : dlinkUp s die n = true) (t : State) : onDlink die n s t = .next (onPath s t) := onUnit_true s _ hup

theorem dlinkThere_of_up (hup : dlinkUp s die n = true) : dlinkThere s.pkg die n = true := by
  unfold dlinkUp at hup
  exact (Bool.and_eq_true _ _ ▸ hup).1

end

/-- Settles O40: each command and input acts in its states, and both ends follow. -/
theorem crossingsTrainAndFall : Obligations.CrossingsTrainAndFall := by
  intro s die n m key repaired hup hn hkey
  subst hkey
  refine ⟨fun ha hst => ?_, fun hst => ?_, fun hst => ?_, fun hst => ?_, fun hst hok hf hm hallow => ?_, fun hst hok hf hm hallow => ?_,
    fun hst hf => ?_, fun hst hq => ⟨fun hrep herr => ?_, fun hbad => ?_⟩⟩
  · obtain ⟨hen, hstate, hp⟩ := dlEnable_trains s _ ha hst
    have hexec : exec (.dlinkEnable die n) s = .next (kept s ((onPath s (s.dlEnable (die * 32 + n))).noteCtl (dlinkUnit die n))) :=
      onUnit_true s _ (dlinkThere_of_up hup)
    exact ⟨_, hexec, (dl_noted hp _ _).trans hen, (dl_noted hp _ _).trans hstate⟩
  · obtain ⟨hen, hstate, hp⟩ := dlDisable_down s _ hst
    have hexec : exec (.dlinkDisable die n) s = .next (kept s ((onPath s (s.dlDisable (die * 32 + n))).noteCtl (dlinkUnit die n))) :=
      onUnit_true s _ (dlinkThere_of_up hup)
    exact ⟨_, hexec, (dl_noted hp _ _).trans hen, (dl_noted hp _ _).trans hstate⟩
  · obtain ⟨hstate, hok, hp⟩ := trainDone_active s (die * 32 + n) repaired
    have hexec : exec (.dlinkTrainDone die n 0xF repaired) s = .next (onPath s (s.trainDone (die * 32 + n) 0xF repaired)) :=
      (onDlink_up hup _).trans (congrArg (fun t => Host.Outcome.next (onPath s t)) (if_pos hst))
    exact ⟨_, hexec, (dl_onPath hp _).trans hstate, (dl_onPath hp _).trans hok⟩
  · obtain ⟨hstate, hp⟩ := crossingRetrain_state s _ hst
    exact ⟨_, onDlink_up hup _, (dl_onPath hp _).trans hstate⟩
  · obtain ⟨x, hx⟩ : ∃ x, x = s.setDl (die * 32 + n) F.DLINK_STATUS_MODULE_OK (0xF#4 &&& ~~~ (1#4 <<< m)).toNat := ⟨_, rfl⟩
    have hxs : x.dl (die * 32 + n) F.DLINK_STATUS_STATE = 2 := by rw [hx, dl_setDl_apart _ _ _ _ (by decide) (by decide) (by decide), hst]
    obtain ⟨hstate, hp⟩ := crossingRetrain_state x _ (le_of_eq hxs.symm)
    have hgo : s.moduleFail (die * 32 + n) m = x.crossingRetrain (die * 32 + n) := by
      rw [moduleFail_active s _ hst hok hf hm, hallow, hx]
      rfl
    have hexec : exec (.dlinkModuleFail die n m) s = .next (onPath s (s.moduleFail (die * 32 + n) m)) := onDlink_up hup _
    rw [hexec, hgo]
    exact ⟨_, rfl, (dl_onPath (hp.trans (by rw [hx, State.setDl_pkg])) _).trans hstate⟩
  · obtain ⟨x, hx⟩ : ∃ x, x = s.setDl (die * 32 + n) F.DLINK_STATUS_MODULE_OK (0xF#4 &&& ~~~ (1#4 <<< m)).toNat := ⟨_, rfl⟩
    have hgo : s.moduleFail (die * 32 + n) m = x.crossingDown (die * 32 + n) := by
      rw [moduleFail_active s _ hst hok hf hm, hallow, hx]
      rfl
    have hexec : exec (.dlinkModuleFail die n m) s = .next (onPath s (s.moduleFail (die * 32 + n) m)) := onDlink_up hup _
    rw [hexec, hgo]
    exact ⟨_, rfl, (dl_onPath ((crossingDown_pkg x _).trans (by rw [hx, State.setDl_pkg])) _).trans (crossingDown_state x _)⟩
  · have hexec : exec (.dlinkHalfTimeout die n) s = .next (onPath s (s.crossingDown (die * 32 + n))) :=
      (onDlink_up hup _).trans (congrArg (fun t => Host.Outcome.next (onPath s t)) (if_pos ⟨hst, hf⟩))
    exact ⟨_, hexec, (dl_onPath (crossingDown_pkg s _) _).trans (crossingDown_state s _)⟩
  · obtain ⟨x, hx⟩ : ∃ x, x = (s.setDl (die * 32 + n) F.DLINK_STATUS_QUAL 2).dlEvent (die * 32 + n) F.DLINK_EVENT_QUAL_DONE := ⟨_, rfl⟩
    have hxq : x.dl (die * 32 + n) F.DLINK_STATUS_QUAL = 2 := by
      rw [hx, dl_dlEvent _ _ _ (by decide) (by decide) (by decide), dl_setDl_self _ _ F.DLINK_STATUS_QUAL _ (by decide) (by decide)]
      rfl
    have hxp : x.pkg = s.pkg := by rw [hx, State.dlEvent_pkg, State.setDl_pkg]
    obtain ⟨hqual, hp⟩ := pumpDl_keeps x (die * 32 + n) (die * 32 + n) (s.dlFt (die * 32 + n)) (g := F.DLINK_STATUS_QUAL) (by decide) (by decide)
    have hgo : s.dlQualEnd (die * 32 + n) = x.pumpDl (die * 32 + n) (s.dlFt (die * 32 + n)) := by
      rw [hx]
      exact if_pos ⟨hrep, herr⟩
    have hexec : exec (.dlinkQualEnd die n) s = .next (onPath s (s.dlQualEnd (die * 32 + n))) :=
      (onDlink_up hup _).trans (congrArg (fun t => Host.Outcome.next (onPath s t)) (if_pos ⟨hst, hq⟩))
    rw [hexec, hgo]
    exact ⟨_, rfl, (dl_onPath (hp.trans hxp) _).trans (hqual.trans hxq)⟩
  · obtain ⟨x, hx⟩ : ∃ x, x = (s.setDl (die * 32 + n) F.DLINK_STATUS_QUAL 3).dlEvent (die * 32 + n) F.DLINK_EVENT_QUAL_DONE := ⟨_, rfl⟩
    have hxq : x.dl (die * 32 + n) F.DLINK_STATUS_QUAL = 3 := by
      rw [hx, dl_dlEvent _ _ _ (by decide) (by decide) (by decide), dl_setDl_self _ _ F.DLINK_STATUS_QUAL _ (by decide) (by decide)]
      rfl
    have hxp : x.pkg = s.pkg := by rw [hx, State.dlEvent_pkg, State.setDl_pkg]
    have hgo : s.dlQualEnd (die * 32 + n) = x.crossingDown (die * 32 + n) := by
      rw [hx]
      refine if_neg ?_
      rintro ⟨h1, h2⟩
      rcases hbad with h | h
      · exact absurd (h1.symm.trans h) (by decide)
      · omega
    have hexec : exec (.dlinkQualEnd die n) s = .next (onPath s (s.dlQualEnd (die * 32 + n))) :=
      (onDlink_up hup _).trans (congrArg (fun t => Host.Outcome.next (onPath s t)) (if_pos ⟨hst, hq⟩))
    have hp := (crossingDown_pkg x (die * 32 + n)).trans hxp
    rw [hexec, hgo]
    exact ⟨_, rfl, (dl_onPath hp _).trans ((crossingDown_qual x _ (by rw [hxq]; decide)).trans hxq), (dl_onPath hp _).trans (crossingDown_state x _)⟩

end Sys2Proof.Machine
end

section
/-! Clock islands (R273, R274, R278, R279, R283). -/
namespace Sys2Proof.Machine

/-! ## What the commands of POWER carry out -/

section
variable {s t : State}

/-- The fields of a unit's registers depend on the registers and the package alone. -/
theorem fldAt_regPart (h : t.regPart = s.regPart) (u : Nat) (f : Fld) (i : Nat) : t.fldAt u f i = s.fldAt u f i := by
  obtain ⟨hr, hp⟩ := Prod.mk.inj h
  simp only [State.fldAt, State.reg, hr, hp]

theorem fld_regPart (h : t.regPart = s.regPart) (u : Nat) (f : Fld) : t.fld u f = s.fld u f := by
  obtain ⟨hr, hp⟩ := Prod.mk.inj h
  simp only [State.fld, State.reg, hr, hp]

theorem bit_regPart (h : t.regPart = s.regPart) (u : Nat) (f : Fld) : t.bit u f = s.bit u f := by
  unfold State.bit
  rw [fld_regPart h]

theorem kept_regPart (h : t.pkg = s.pkg) : (kept s t).regPart = t.regPart := congrArg (Prod.mk t.regs) h.symm

theorem onPower_regPart (h : t.pkg = s.pkg) : (kept s (onPower s t)).regPart = t.regPart := congrArg (Prod.mk t.regs) h.symm

end

/-- A command of POWER at a unit that is there. -/
theorem onUnit_power {ok : Bool} (h : ok = true) (s t : State) : onUnit ok s t = .next (kept s t) := onUnit_true s t h

theorem setIsland_regPart (s : State) (d n : Nat) (i : Isl) : (s.setIsland d n i).regPart = s.regPart := rfl
theorem island_congr {s t : State} (h : t.isl = s.isl) (d n : Nat) : t.island d n = s.island d n := by
  unfold State.island
  rw [h]

/-- An event leaves the registers of the unit other than its own. -/
theorem fldAt_event_off (s : State) (u : Nat) {f g : Fld} {i : Nat} (h : g.off + g.stride * i ≠ f.off) : (s.event u f).fldAt u g i = s.fldAt u g i := by
  unfold State.fldAt State.event
  rw [reg_eventBit_off s _ h]

/-! ## Gliding -/

section
variable (s : State) (d n : Nat)

/-- A gliding island makes one step toward its goal (R274). -/
theorem glideStep_island (hr : (s.island d n).running = true) (hg : (s.island d n).freq ≠ s.islGoal d n) :
    (s.glideStep d n).island d n =
      { s.island d n with freq := if (s.island d n).freq < s.islGoal d n then (s.island d n).freq + 1 else (s.island d n).freq - 1 } := by
  have hglides : s.gliding d n = true := by simp only [State.gliding, hr, Bool.true_and, bne_iff_ne, ne_eq, hg, not_false_eq_true]
  unfold State.glideStep
  rw [hglides]
  dsimp only
  rw [if_neg (show ¬ (!true) = true by decide), apply_ite (fun t : State => t.island d n)]
  refine (ite_congr rfl (fun _ => ?_) fun _ => ?_).trans (ite_self _)
  · exact (island_congr (State.event_isl ..) d n).trans (island_setIsland_self ..)
  · exact island_setIsland_self ..

end

/-! ## STOP -/

section
variable (s : State) (d n : Nat)

theorem stopWrite_island (stop : Bool) :
    (s.stopWrite d n stop).island d n = if stop then { s.island d n with running := false } else (s.island d n).start :=
  (island_congr rfl d n).trans (island_setIsland_self ..)

theorem stopWrite_regPart (stop : Bool) : (s.stopWrite d n stop).regPart = s.regPart := rfl

/-- A clock that stands on a locked PLL starts, with an FT that is not valid (R67, R86). -/
theorem Isl.start_stopped {i : Isl} (hl : i.locked = true) (hr : i.running = false) : i.start = { i with running := true, ftValid := false } := by
  simp only [Isl.start, hl, hr, Bool.not_false, Bool.and_self, if_true]

end

section
variable (s : State) (isl : Island)

theorem islandStop_exec (h : islThere s isl = true) :
    exec (.islandStop isl) s = .next (kept s ((s.setFldAt (dieUnit isl.die) F.POWER_ISL_CTRL_STOP isl.inst 1).stopWrite isl.die isl.inst true)) :=
  onUnit_power h s _

theorem islandStart_exec (h : islThere s isl = true) (ht : s.tree = []) (hw : s.treeWait = []) :
    exec (.islandStart isl) s = .next (kept s ((s.setFldAt (dieUnit isl.die) F.POWER_ISL_CTRL_STOP isl.inst 0).stopWrite isl.die isl.inst false)) :=
  (onUnit_power h s _).trans (congrArg (fun t => Host.Outcome.next (kept s t)) (settle_idle ht hw))

/-- An island whose PLL locks again (R279), once nothing waits in the tree. -/
theorem pllRelock_exec (h : islThere s isl = true) (ht : s.tree = []) (hw : s.treeWait = []) (hl : (s.island isl.die isl.inst).locked = false)
    (hd : s.dieState isl.die = 0) :
    exec (.pllRelock isl) s = .next (kept s (s.setIsland isl.die isl.inst
      (if s.fldAt (dieUnit isl.die) F.POWER_ISL_CTRL_STOP isl.inst == 1 then { s.island isl.die isl.inst with locked := true, freq := 80 }
       else ({ s.island isl.die isl.inst with locked := true } : Isl).start))) := by
  refine (onUnit_power h s _).trans (congrArg (fun t => Host.Outcome.next (kept s t)) ?_)
  rw [if_neg (by simp [hl, hd])]
  exact settle_idle ht hw

/-- What the loss of a lock leaves (R67, R279). -/
def lockLost (s : State) (isl : Island) : State :=
  (((s.setIsland isl.die isl.inst { s.island isl.die isl.inst with running := false, locked := false, ftValid := false }).setFldAt (dieUnit isl.die)
    F.POWER_ISL_STATUS_LOCK_LOST isl.inst 1).event (dieUnit isl.die) F.POWER_EVENT_LOCK_LOST).faultEvent (dieUnit isl.die) 11
      (BitVec.ofNat 32 (s.island isl.die isl.inst).freq)

theorem pllLockLost_exec (h : islThere s isl = true) (hl : (s.island isl.die isl.inst).locked = true) :
    exec (.pllLockLost isl) s = .next (kept s (onPower s (lockLost s isl))) :=
  (onUnit_power h s _).trans (congrArg (fun t => Host.Outcome.next (kept s t)) (if_pos hl))

theorem lockLost_pkg : (lockLost s isl).pkg = s.pkg := by
  unfold lockLost State.faultEvent
  rw [State.emit_pkg, State.event_pkg, State.setFldAt_pkg, State.setIsland_pkg]

theorem lockLost_island :
    (lockLost s isl).island isl.die isl.inst = { s.island isl.die isl.inst with running := false, locked := false, ftValid := false } := by
  unfold lockLost State.faultEvent
  refine (island_congr ((State.emit_isl ..).trans (State.event_isl ..)) _ _).trans ?_
  exact island_setIsland_self ..

theorem lockLost_status : (lockLost s isl).fldAt (dieUnit isl.die) F.POWER_ISL_STATUS_LOCK_LOST isl.inst = 1 := by
  unfold lockLost State.faultEvent
  refine Eq.trans (fldAt_regPart rfl _ _ _) ((fldAt_event_off _ _ ?_).trans (fldAt_setFldAt_self _ _ _ _ _ (by decide) (by decide)))
  simp only [F.POWER_ISL_STATUS_LOCK_LOST, F.POWER_EVENT_LOCK_LOST]
  omega

theorem lockLost_event : (lockLost s isl).bit (dieUnit isl.die) F.POWER_EVENT_LOCK_LOST = true := by
  unfold lockLost State.faultEvent State.bit
  rw [fld_emit, fld_event_self _ _ _ rfl (by decide)]
  rfl

end

/-- Settles O41. -/
theorem islandsGlideAndStop : Obligations.IslandsGlideAndStop := by
  unfold Obligations.IslandsGlideAndStop
  rintro s isl u freq st i hthere rfl rfl
  refine ⟨fun h1 h2 h3 => ?_, fun h => ?_, fun hr hg => ?_, fun hr hg => ?_, ?_, fun ht hw hl hr => ?_, fun hl => ?_, fun ht hw hl hr hd hs => ?_,
    fun ht hw hl hd hs => ?_, fun hk ha hi => ?_⟩
  · exact (onUnit_power hthere s _).trans (congrArg (fun t => Host.Outcome.next (kept s t)) (if_pos ⟨h1, h2, h3⟩))
  · exact (onUnit_power hthere s _).trans (congrArg (fun t => Host.Outcome.next (kept s t)) (if_neg (by omega)))
  · refine ⟨_, onUnit_power hthere s _, ?_⟩
    rw [← if_pos (c := (s.island isl.die isl.inst).freq < s.islGoal isl.die isl.inst) (t := (s.island isl.die isl.inst).freq + 1)
      (e := (s.island isl.die isl.inst).freq - 1) hg]
    exact glideStep_island s _ _ hr (by omega)
  · refine ⟨_, onUnit_power hthere s _, ?_⟩
    rw [← if_neg (c := (s.island isl.die isl.inst).freq < s.islGoal isl.die isl.inst) (t := (s.island isl.die isl.inst).freq + 1)
      (e := (s.island isl.die isl.inst).freq - 1) (by omega)]
    exact glideStep_island s _ _ hr (by omega)
  · exact ⟨_, islandStop_exec s isl hthere, fldAt_setFldAt_self s _ _ _ _ (by decide) (by decide), stopWrite_island _ _ _ true, rfl, rfl, rfl, rfl⟩
  · refine ⟨_, islandStart_exec s isl hthere ht hw, fldAt_setFldAt_self s _ _ _ _ (by decide) (by decide), ?_⟩
    exact (stopWrite_island _ _ _ false).trans (Isl.start_stopped hl hr)
  · have hreg := onPower_regPart (lockLost_pkg s isl)
    refine ⟨_, pllLockLost_exec s isl hthere hl, lockLost_island s isl, (fldAt_regPart hreg _ _ _).trans (lockLost_status s isl),
      (bit_regPart hreg _ _).trans (lockLost_event s isl), List.mem_cons_self⟩
  · refine ⟨_, pllRelock_exec s isl hthere ht hw hl hd, (island_setIsland_self ..).trans ?_⟩
    rw [hs]
    exact Isl.start_stopped rfl hr
  · refine ⟨_, pllRelock_exec s isl hthere ht hw hl hd, (island_setIsland_self ..).trans ?_⟩
    rw [hs]
    rfl
  · exact (onUnit_power hk s _).trans (congrArg (fun t => Host.Outcome.next (kept s t)) (if_neg (by rw [ha, hi]; decide)))

end Sys2Proof.Machine
end

section
/-! Dies that go OFF and come back (R280–R282, R292). -/
namespace Sys2Proof.Machine

/-! ## The power state of a die -/

theorem unitClass_dieUnit (die : Nat) : unitClass (dieUnit die) = 13 := by
  unfold unitClass dieUnit unitAddr
  omega

/-- No unit of another class stands for a die's POWER unit (R79, R109, R395). -/
theorem homeUnit_ne_dieUnit (p : Package) {v : Nat} (h : unitClass v ≠ 13) (die : Nat) : homeUnit p v ≠ homeUnit p (dieUnit die) := by
  have hself : homeUnit p (dieUnit die) = dieUnit die := by
    unfold homeUnit
    simp only [unitClass_dieUnit]
    rfl
  have hother : unitClass (homeUnit p v) ≠ 13 := by
    unfold homeUnit
    dsimp only
    split_ifs
    · unfold timeUnit sideUnit unitAddr unitClass
      split_ifs <;> omega
    · unfold almUnit unitAddr unitClass
      split_ifs <;> omega
    · unfold diaryUnit unitAddr unitClass
      split_ifs <;> omega
    · unfold holidayUnit unitAddr unitClass
      split_ifs <;> omega
    · exact h
  rw [hself]
  intro he
  rw [he] at hother
  exact hother (unitClass_dieUnit die)

section
variable (s : State) (die : Nat)

/-- A die's power state, with the package. -/
def State.diePower (s : State) (die : Nat) : Nat × Package := (s.dieState die, s.pkg)

theorem diePower_pkg {t : State} {n : Nat} {p : Package} (h : t.diePower die = (n, p)) : t.pkg = p := congrArg Prod.snd h
theorem diePower_state {t : State} {n : Nat} {p : Package} (h : t.diePower die = (n, p)) : t.dieState die = n := congrArg Prod.fst h

theorem diePower_regPart {t : State} (h : t.regPart = s.regPart) : t.diePower die = s.diePower die := by
  have hp : t.pkg = s.pkg := congrArg Prod.snd h
  simp only [State.diePower, State.dieState, fld_regPart h, hp]

theorem diePower_setReg {v off : Nat} (w : W32) (hv : unitClass v ≠ 13) (ho : off < 4096) : (s.setReg v off w).diePower die = s.diePower die := by
  have hreg : (s.setReg v off w).reg (dieUnit die) F.POWER_DIE_STATUS_STATE.off = s.reg (dieUnit die) F.POWER_DIE_STATUS_STATE.off := by
    refine reg_setReg_ne s w ?_
    have := homeUnit_ne_dieUnit s.pkg hv die
    simp only [regAddr, F.POWER_DIE_STATUS_STATE]
    omega
  simp only [State.diePower, State.dieState, State.fld, hreg, State.setReg_pkg]

theorem diePower_setFld {v : Nat} (f : Fld) (n : Nat) (hv : unitClass v ≠ 13) (ho : f.off < 4096) : (s.setFld v f n).diePower die = s.diePower die :=
  diePower_setReg s die _ hv ho

theorem setDieState_state {v : Nat} (h : v < 8) : (s.setDieState die v).dieState die = v :=
  (fld_setFld_self s _ _ v (by decide) (by decide)).trans (Nat.mod_eq_of_lt h)

theorem event_dieState (u : Nat) {f : Fld} (h : f.off = 8) : (s.event u f).dieState die = s.dieState die := by
  refine fld_event_apart s ?_ ?_ (by decide)
  · rw [h]
    decide
  · omega

theorem unitClass_dlinkUnit {d m : Nat} (h : m < 32) : unitClass (dlinkUnit d m) = 5 := by
  unfold unitClass dlinkUnit unitAddr
  omega

theorem unitClass_niUnit (st : Nat) : unitClass (niUnit st) = 2 + st % 2048 / 1024 := by
  unfold unitClass niUnit unitAddr
  omega

theorem sidePos_lt {io d k : Nat} (h : sidePos io d = some k) : k < 4 := by
  unfold sidePos at h
  split_ifs at h <;> (obtain rfl := Option.some.inj h; omega)

/-- The facing end is one of the 32 of its die (R38). -/
theorem dlinkPeer_lt {d n e m : Nat} (h : dlinkPeer d n = some (e, m)) : m < 32 := by
  unfold dlinkPeer at h
  dsimp only at h
  split_ifs at h
  · obtain ⟨-, rfl⟩ := Prod.mk.inj (Option.some.inj h)
    omega
  · obtain ⟨k, hk, hp⟩ := Option.map_eq_some_iff.mp h
    have := sidePos_lt hk
    obtain ⟨-, rfl⟩ := Prod.mk.inj hp
    omega
  all_goals
    obtain ⟨-, rfl⟩ := Prod.mk.inj (Option.some.inj h)
    omega

end

/-! ## The islands of a die -/

section
variable (s : State) (die : Nat) (f : Isl → Isl)

theorem updIslands_keeps {α : Type} (g : State → α) (hg : ∀ (t : State) (i : Nat) (x : Isl), g (t.setIsland die i x) = g t) :
    g (s.updIslands die f) = g s := by
  unfold State.updIslands
  refine foldl_keeps g (fun t i => ?_) _ _
  split
  · exact hg ..
  · rfl

/-- Every island of the die has been changed. -/
theorem updIslands_island {P : Isl → Prop} (hf : ∀ x, P (f x)) {i : Nat} (hi : islExists s.pkg die i = true) :
    P ((s.updIslands die f).island die i) := by
  have hall : ∀ (l : List Nat) (t : State), t.pkg = s.pkg → i ∈ l ∨ P (t.island die i) →
      P ((l.foldl (fun t j => if islExists t.pkg die j then t.setIsland die j (f (t.island die j)) else t) t).island die i) := by
    intro l
    induction l with
    | nil => exact fun t _ h => h.resolve_left (by simp)
    | cons j l ih =>
      intro t hp h
      have hstep : ∀ {Q : State → Prop}, (islExists t.pkg die j = true → Q (t.setIsland die j (f (t.island die j)))) →
          (¬islExists t.pkg die j = true → Q t) → Q (if islExists t.pkg die j then t.setIsland die j (f (t.island die j)) else t) := by
        intro Q hthen helse
        split
        · exact hthen ‹_›
        · exact helse ‹_›
      refine ih _ (hstep (Q := fun t => t.pkg = s.pkg) (fun _ => hp) fun _ => hp) ?_
      by_cases hj : j = i
      · subst hj
        refine Or.inr (hstep (Q := fun t => P (t.island die j)) (fun _ => ?_) fun hn => absurd (hp ▸ hi) hn)
        rw [island_setIsland_self]
        exact hf _
      · refine h.imp (fun hm => (List.mem_cons.mp hm).resolve_left (Ne.symm hj)) fun hP => ?_
        refine hstep (Q := fun t => P (t.island die i)) (fun _ => ?_) fun _ => hP
        rw [island_setIsland_ne _ _ (by unfold islKey; omega)]
        exact hP
  refine hall _ s rfl (Or.inl (List.mem_range.mpr ?_))
  simp only [islExists, Bool.and_eq_true, decide_eq_true_eq] at hi
  have := hi.2
  split at this <;> omega

end

/-! ## GATE -/

section
variable (s : State) (die : Nat)

theorem watchClose_pkg (slots : List WatchSlot) (st sid : Nat) : (s.watchClose slots st sid).pkg = s.pkg := by
  unfold State.watchClose; dsimp only
  split
  · split <;> rfl
  · rfl

theorem watchDie_pkg : (s.watchDie die).pkg = s.pkg := by
  unfold State.watchDie
  refine foldl_keeps State.pkg (fun t e => ?_) _ _
  split
  · exact foldl_keeps State.pkg (fun u w => watchClose_pkg ..) _ _
  · rfl

theorem idleFacing_isl (n : Nat) : (s.idleFacing n).isl = s.isl := by
  unfold State.idleFacing
  refine foldl_keeps State.isl (fun t i => ?_) _ _
  split <;> rfl

/-- What goes idle at the facing ends is no die's power state. -/
theorem idleFacing_diePower (n : Nat) : (s.idleFacing n).diePower die = s.diePower die := by
  unfold State.idleFacing
  refine foldl_keeps (fun t => t.diePower die) (fun t i => ?_) _ _
  split
  next d m hpeer =>
    refine (diePower_regPart _ die rfl).trans (diePower_setFld t die _ _ ?_ (by decide))
    rw [unitClass_dlinkUnit (dlinkPeer_lt hpeer)]
    decide
  next => rfl

/-- A die that is in GATING: its islands are stopped. -/
def gateIslands (s : State) (die : Nat) : State :=
  ((s.watchDie die).setDieState die 1).updIslands die (fun i => { i with running := false, locked := false, ftValid := false })

theorem gate_eq (hc : dieCompute s.pkg die = true) (hu : s.dieUsed die = false) (hd : s.dieState die = 0) :
    s.gate die = (gateIslands s die).idleFacing die := by
  unfold State.gate
  exact if_neg (by simp [hc, hu, hd])

theorem gate_diePower (hc : dieCompute s.pkg die = true) (hu : s.dieUsed die = false) (hd : s.dieState die = 0) :
    (s.gate die).diePower die = (1, s.pkg) := by
  rw [gate_eq s die hc hu hd, idleFacing_diePower]
  unfold gateIslands
  rw [updIslands_keeps _ die _ (fun t => t.diePower die) (fun t i x => diePower_regPart t die (setIsland_regPart ..))]
  exact congrArg₂ Prod.mk (setDieState_state _ die (by decide)) (watchDie_pkg s die)

theorem gate_stops (hc : dieCompute s.pkg die = true) (hu : s.dieUsed die = false) (hd : s.dieState die = 0) {i : Nat}
    (hi : islExists s.pkg die i = true) : ((s.gate die).island die i).running = false := by
  rw [gate_eq s die hc hu hd, island_congr (idleFacing_isl ..)]
  refine updIslands_island _ die _ (P := fun x => x.running = false) (fun _ => rfl) ?_
  rw [show ((s.watchDie die).setDieState die 1).pkg = s.pkg from watchDie_pkg s die]
  exact hi

theorem getNi_onPower (t : State) (st : Nat) : (kept s (onPower s t)).getNi st = t.getNi st := rfl

/-- A command of POWER that only sets an event leaves the state with the event. -/
theorem kept_onPower_event (u : Nat) (f : Fld) : kept s (onPower s (s.event u f)) = s.event u f := by
  unfold State.event State.eventBit
  dsimp only
  split
  · rfl
  · unfold State.interrupt
    split
    · rfl
    · split <;> rfl

end

/-! ## OFF -/

section
variable (s : State) (die : Nat)

/-- The contents of the NIs of a die that is gated are lost (R280). -/
theorem eraseDie_getNi {st : Nat} (h : st / 2048 = die) : (s.eraseDie die).getNi st = {} := by
  have hnone : ∀ m : KMap Ni, kfind (m.filter (fun e => e.1 / 2048 != die)) st = none := by
    intro m
    induction m with
    | nil => rfl
    | cons e m ih =>
      rw [List.filter_cons]
      split
      next he =>
        rw [kfind_cons, if_neg]
        · exact ih
        · rintro rfl
          simp [h] at he
      next => exact ih
  unfold State.getNi kget State.eraseDie
  rw [hnone]
  rfl

/-- The die is OFF, with its contents lost. -/
def gatedOff (s : State) (die : Nat) : State :=
  (((s.eraseDie die).setDieState die 2).event (dieUnit die) F.POWER_EVENT_GATE_DONE).updIslands die (fun _ => {})

theorem gatedOff_regPart : (gatedOff s die).regPart = (((s.eraseDie die).setDieState die 2).event (dieUnit die) F.POWER_EVENT_GATE_DONE).regPart :=
  updIslands_keeps _ die _ State.regPart fun t i x => setIsland_regPart t die i x

theorem gatedOff_diePower : (gatedOff s die).diePower die = (2, s.pkg) := by
  rw [diePower_regPart _ die (gatedOff_regPart s die)]
  exact congrArg₂ Prod.mk ((event_dieState _ die _ rfl).trans (setDieState_state _ die (by decide))) (State.event_pkg ..)

theorem gatedOff_done : (gatedOff s die).bit (dieUnit die) F.POWER_EVENT_GATE_DONE = true := by
  rw [bit_regPart (gatedOff_regPart s die)]
  unfold State.bit
  rw [fld_event_self _ _ _ rfl (by decide)]
  rfl

theorem gatedOff_getNi {st : Nat} (h : st / 2048 = die) : (gatedOff s die).getNi st = {} := by
  have hni : (gatedOff s die).ni = (s.eraseDie die).ni :=
    (updIslands_keeps _ die _ State.ni fun t i x => State.setIsland_ni t die i x).trans (State.event_ni ..)
  rw [← eraseDie_getNi s die h]
  exact congrArg (fun m => kget ({} : Ni) m st) hni

theorem gatedOff_pwr : (gatedOff s die).pwr = s.pwr :=
  (updIslands_keeps _ die _ State.pwr fun t i x => State.setIsland_pwr t die i x).trans (State.event_pwr ..)

/-- The UNGATE that waited is taken (R292). -/
def ungateTaken (s : State) (die : Nat) : State := { s with pwr := { s.pwr with ungateWait := s.pwr.ungateWait.filter (· != die) } }

/-- An UNGATE that waits runs (R292). -/
def ungateWaited (s : State) (die : Nat) : State := if s.pwr.ungateWait.contains die then (ungateTaken s die).ungate die else s

/-- What GATE_DONE leaves: OFF, or UNGATING where an UNGATE waited (R281, R292). -/
def gateEnded (s : State) (die : Nat) : State :=
  ungateWaited (gatedOff s die) die

theorem dieGateDone_exec (hdie : dieExists s.pkg die = true) (h : s.dieState die = 1) :
    exec (.dieGateDone die) s = .next (kept s (onPower s (gateEnded s die))) := by
  have hexec : execDieGateDone die s = .next (kept s (onPower s (gateEnded s die))) := by
    unfold execDieGateDone gateEnded gatedOff
    rw [onUnit_power hdie, if_pos h]
    generalize ((s.eraseDie die).setDieState die 2).event (dieUnit die) F.POWER_EVENT_GATE_DONE = t
    dsimp only
    generalize t.updIslands die (fun _ => {}) = t
    rfl
  exact hexec

/-- An UNGATE of a die that is OFF begins UNGATING (R282). -/
theorem ungate_off (h : s.dieState die = 2) : s.ungate die = s.setDieState die 3 := if_pos h

theorem gateEnded_spec : (gateEnded s die).diePower die = (if s.pwr.ungateWait.contains die then 3 else 2, s.pkg) ∧
    (gateEnded s die).bit (dieUnit die) F.POWER_EVENT_GATE_DONE = true ∧ ∀ st, st / 2048 = die → (gateEnded s die).getNi st = {} := by
  have hpower := gatedOff_diePower s die
  have hdone := gatedOff_done s die
  have hni : ∀ st, st / 2048 = die → (gatedOff s die).getNi st = {} := fun st h => gatedOff_getNi s die h
  have hwait := gatedOff_pwr s die
  unfold gateEnded ungateWaited
  generalize gatedOff s die = x at hpower hdone hni hwait ⊢
  rw [hwait]
  split
  · have hoff : (ungateTaken x die).dieState die = 2 := diePower_state die hpower
    rw [ungate_off _ die hoff]
    have hp : x.pkg = s.pkg := diePower_pkg die hpower
    refine ⟨congrArg₂ Prod.mk (setDieState_state _ die (by decide)) hp, ?_, hni⟩
    unfold State.bit State.setDieState
    rw [fld_setFld_off _ _ _ _ _ (by decide)]
    exact hdone
  · exact ⟨hpower, hdone, hni⟩

/-- A step of ungating that times out (R282). -/
def ungateFailed (s : State) (die : Nat) : State :=
  ((s.takeFree.2.setDieState die 2).event (dieUnit die) F.POWER_EVENT_GATE_REJECT).faultEvent (dieUnit die) 11 (s.takeFree.1.extractLsb' 0 32)

theorem ungateStepTimeout_exec (hdie : dieExists s.pkg die = true) (h : s.dieState die = 3) :
    exec (.ungateStepTimeout die) s = .next (kept s (onPower s (ungateFailed s die))) :=
  (onUnit_power hdie s _).trans (congrArg (fun t => Host.Outcome.next (kept s t)) (if_pos h))

theorem ungateFailed_spec : (ungateFailed s die).diePower die = (2, s.pkg) ∧
    (ungateFailed s die).bit (dieUnit die) F.POWER_EVENT_GATE_REJECT = true ∧ (ungateFailed s die).freeCtr = s.freeCtr + 1 := by
  unfold ungateFailed State.faultEvent
  refine ⟨(diePower_regPart _ die rfl).trans ?_, ?_, ?_⟩
  · exact congrArg₂ Prod.mk ((event_dieState _ die _ rfl).trans (setDieState_state _ die (by decide))) (State.event_pkg ..)
  · unfold State.bit
    rw [fld_emit, fld_event_self _ _ _ rfl (by decide)]
    rfl
  · rw [State.emit_freeCtr, State.event_freeCtr]
    rfl

end

/-! ## ON again -/

section
variable (s : State) (die : Nat)

theorem loadIslands_diePower : (s.loadIslands die).diePower die = s.diePower die := by
  unfold State.loadIslands
  refine foldl_keeps (fun t => t.diePower die) (fun t i => ?_) _ _
  split
  · exact diePower_regPart _ die (setIsland_regPart ..)
  · rfl

/-- A register that takes the value it has keeps every die's power state. -/
theorem diePower_setReg_same {u off : Nat} (ho : off < 4096) : (s.setReg u off (s.reg u off)).diePower die = s.diePower die := by
  have hreg : (s.setReg u off (s.reg u off)).reg (dieUnit die) F.POWER_DIE_STATUS_STATE.off = s.reg (dieUnit die) F.POWER_DIE_STATUS_STATE.off := by
    by_cases h : regAddr (homeUnit s.pkg (dieUnit die)) F.POWER_DIE_STATUS_STATE.off = regAddr (homeUnit s.pkg u) off
    · obtain rfl : off = F.POWER_DIE_STATUS_STATE.off := by
        simp only [regAddr, F.POWER_DIE_STATUS_STATE] at h ⊢
        omega
      have hhome : homeUnit s.pkg (dieUnit die) = homeUnit s.pkg u := by
        simp only [regAddr] at h
        omega
      rw [reg_home s hhome, reg_home (s.setReg u _ _) (u := dieUnit die) (v := u) hhome, reg_setReg_self]
    · exact reg_setReg_ne s _ h
  simp only [State.diePower, State.dieState, State.fld, hreg, State.setReg_pkg]

/-- A load of image fields of a die's gated registers keeps every die's power state: POWER is not gated. -/
theorem loadAt_diePower (d : Nat) {u off : Nat} (ho : off < 4096) (value m b : W32) :
    (s.loadAt u off value (m &&& if unitDie u = d && gatedAddr d (regAddr u off) then b else 0)).diePower die = s.diePower die := by
  unfold State.loadAt
  by_cases hu : unitClass u = 13
  · have hgated : gatedAddr d (regAddr u off) = false := by
      have hunit : regAddr u off / 4096 = u := by
        unfold regAddr
        omega
      simp [gatedAddr, hunit, hu]
    rw [hgated, Bool.and_false, if_neg Bool.false_ne_true]
    have hsame : (s.reg u off &&& ~~~(m &&& 0)) ||| (value &&& (m &&& 0)) = s.reg u off := by
      rw [show (0 : W32) = 0#32 from rfl, BitVec.and_zero, BitVec.and_zero, BitVec.not_zero, BitVec.and_allOnes, BitVec.or_zero]
    rw [hsame]
    exact diePower_setReg_same s die ho
  · exact diePower_setReg s die _ hu ho

theorem loadSites_off {p : Package} {scope addr : W32} {e : Nat × Nat} (h : e ∈ loadSites p scope addr) : e.2 < 4096 := by
  have hoff : offOf addr < 4096 := Nat.mod_lt _ (by decide)
  unfold loadSites at h
  dsimp only at h
  split at h
  · obtain ⟨v, -, hv⟩ := List.mem_filterMap.mp h
    split at hv
    · exact absurd hv (by simp)
    · rw [← Option.some.inj hv]
      exact hoff
  · rw [List.mem_singleton.mp h]
    exact hoff

theorem loadDie_diePower : (s.loadDie die).diePower die = s.diePower die := by
  unfold State.loadDie
  split
  next img _ =>
    unfold State.loadFields
    refine foldl_keeps (fun t => t.diePower die) (fun t r => foldl_keeps (fun t => t.diePower die) (fun t e => ?_) _ _) _ _
    refine List.foldlRecOn (motive := fun x : State => x.diePower die = t.diePower die) _ _ rfl fun x hx site hsite => ?_
    exact (loadAt_diePower x die die (loadSites_off hsite) ..).trans hx
  next => rfl

theorem dlTrain_diePower (k : Nat) : (s.dlTrain k).diePower die = s.diePower die := by
  unfold State.dlTrain
  split
  · refine (diePower_regPart _ die rfl).trans (diePower_setFld s die _ _ ?_ (by decide))
    rw [unitClass_dlinkUnit (Nat.mod_lt _ (by decide))]
    decide
  · rfl

theorem dlEnable_diePower (k : Nat) : (s.dlEnable k).diePower die = s.diePower die := by
  have hen : (s.setDl k F.DLINK_CTRL_EN 1).diePower die = s.diePower die := by
    refine diePower_setFld s die _ _ ?_ (by decide)
    rw [unitClass_dlinkUnit (Nat.mod_lt _ (by decide))]
    decide
  unfold State.dlEnable
  split
  · rfl
  · dsimp only
    split
    · exact (dlTrain_diePower _ die _).trans ((dlTrain_diePower _ die _).trans hen)
    · exact (dlTrain_diePower _ die _).trans hen

theorem dieTrains_diePower : (s.dieTrains die).diePower die = s.diePower die := by
  unfold State.dieTrains
  exact foldl_keeps (fun t => t.diePower die) (fun t n => dlEnable_diePower ..) _ _

/-- The last step of ungating leaves the die ON (R282). -/
theorem ungateDone_spec : (s.ungateDone die).diePower die = (0, s.pkg) ∧ (s.ungateDone die).bit (dieUnit die) F.POWER_EVENT_GATE_DONE = true := by
  obtain ⟨a, ha⟩ : ∃ a, a = (s.setDieState die 0).updIslands die (fun i => { i with running := true, locked := true, freq := 80 }) := ⟨_, rfl⟩
  obtain ⟨b, hb⟩ : ∃ b, b = (a.loadIslands die).loadDie die := ⟨_, rfl⟩
  obtain ⟨c, hc⟩ : ∃ c, c = (dieStations b.pkg die).foldl (fun s st =>
    s.setFld (niUnit st) F.NI_FAULT_STATUS_INC ((s.fld (niUnit st) F.NI_FAULT_STATUS_INC + 1) % 16)) b := ⟨_, rfl⟩
  have hend : s.ungateDone die = (c.dieTrains die).event (dieUnit die) F.POWER_EVENT_GATE_DONE := by
    rw [hc, hb, ha]
    rfl
  have hon : a.diePower die = (0, s.pkg) := by
    rw [ha, updIslands_keeps _ die _ (fun t => t.diePower die) (fun t i x => diePower_regPart t die (setIsland_regPart ..))]
    exact congrArg₂ Prod.mk (setDieState_state s die (by decide)) rfl
  have hloaded : b.diePower die = a.diePower die := by rw [hb, loadDie_diePower, loadIslands_diePower]
  have hinc : c.diePower die = b.diePower die := by
    rw [hc]
    refine foldl_keeps (fun t => t.diePower die) (fun t st => diePower_setFld t die _ _ ?_ (by decide)) _ _
    rw [unitClass_niUnit]
    omega
  have hall : (c.dieTrains die).diePower die = (0, s.pkg) := by rw [dieTrains_diePower, hinc, hloaded, hon]
  rw [hend]
  constructor
  · rw [← hall]
    exact congrArg₂ Prod.mk (event_dieState _ die _ rfl) (State.event_pkg ..)
  · unfold State.bit
    rw [fld_event_self _ _ _ rfl (by decide)]
    rfl

end

/-- Settles O42. -/
theorem diesGateAndUngate : Obligations.DiesGateAndUngate := by
  unfold Obligations.DiesGateAndUngate
  rintro s die u hdie rfl
  have hrun : ∀ {gate : Bool} {X : State}, s.holds = false → X = (if gate then s.gate die else s.ungate die) →
      onUnit (dieExists s.pkg die) s (onPower s (s.gateCmd die gate)) = .next (kept s (onPower s X)) := by
    rintro gate X hh rfl
    exact (onUnit_power hdie s _).trans (congrArg (fun t => Host.Outcome.next (kept s (onPower s t))) (if_neg (by simp [hh])))
  refine ⟨fun hc hh hu hd => ?_, fun hno hh => ?_, fun hd => ?_, fun hh hd => ?_, fun hd => ?_, fun hd => ?_⟩
  · have hg := gate_diePower s die hc hu hd
    refine ⟨_, hrun (gate := true) hh rfl, ?_, fun i hi => gate_stops s die hc hu hd hi⟩
    exact (fld_regPart (onPower_regPart (diePower_pkg die hg)) _ _).trans (diePower_state die hg)
  · rw [← kept_onPower_event s (dieUnit die) F.POWER_EVENT_GATE_REJECT]
    have hno' : s.dieUsed die || !dieCompute s.pkg die || s.dieState die != 0 := by
      rcases hno with hc | hu | hd
      · simp [hc]
      · simp [hu]
      · simp [hd]
    exact hrun (gate := true) hh (if_pos hno').symm
  · obtain ⟨hpower, hdone, hni⟩ := gateEnded_spec s die
    have hreg := onPower_regPart (diePower_pkg die hpower)
    exact ⟨_, dieGateDone_exec s die hdie hd, (bit_regPart hreg _ _).trans hdone, (fld_regPart hreg _ _).trans (diePower_state die hpower),
      fun st h => (getNi_onPower s _ st).trans (hni st h)⟩
  · exact hrun (gate := false) hh (ungate_off s die hd).symm
  · obtain ⟨hpower, hreject, hfree⟩ := ungateFailed_spec s die
    have hreg := onPower_regPart (diePower_pkg die hpower)
    exact ⟨_, ungateStepTimeout_exec s die hdie hd, (fld_regPart hreg _ _).trans (diePower_state die hpower), (bit_regPart hreg _ _).trans hreject, hfree⟩
  · obtain ⟨hpower, hdone⟩ := ungateDone_spec s die
    have hreg := kept_regPart (diePower_pkg die hpower)
    have hexec : exec (.dieUngateDone die) s = .next (kept s (s.ungateDone die)) :=
      (onUnit_power hdie s _).trans (congrArg (fun t => Host.Outcome.next (kept s t)) (if_pos hd))
    exact ⟨_, hexec, (fld_regPart hreg _ _).trans (diePower_state die hpower), (bit_regPart hreg _ _).trans hdone⟩

end Sys2Proof.Machine
end

section
/-! The package power controller (R285–R289). -/
namespace Sys2Proof.Machine

/-! ## Its fields and events -/

section
variable (s : State) {f g : Fld}

theorem pw_regPart {s t : State} (h : t.regPart = s.regPart) (f : Fld) : t.pw f = s.pw f := by
  have hp : t.pkg = s.pkg := congrArg Prod.snd h
  unfold State.pw
  rw [fld_regPart h, hp]

theorem pw_setPw_self (v : Nat) (h : f.hi < 32) (hl : f.lo ≤ f.hi) : (s.setPw f v).pw f = v % 2 ^ (f.hi - f.lo + 1) :=
  fld_setFld_self s _ f v h hl

theorem pw_setPw_apart (v : Nat) (h : fldsApart f g = true) (hf : f.off < 4096) (hg : g.off < 4096) : (s.setPw f v).pw g = s.pw g :=
  fld_setFld_apart s v h hf hg

theorem pwEvent_pkg (f : Fld) : (s.pwEvent f).pkg = s.pkg := State.event_pkg ..
theorem setPw_pkg (f : Fld) (v : Nat) : (s.setPw f v).pkg = s.pkg := rfl

theorem pw_pwEvent (hf : f.off = 8) (hg : g.off ≠ 8) (hb : g.off < 4096) : (s.pwEvent f).pw g = s.pw g := by
  unfold State.pw State.pwEvent
  rw [State.event_pkg]
  exact fld_event_apart s (by rw [hf]; exact hg) (by omega) hb

/-- An event leaves those of its register that are set. -/
theorem bit_event_stays {u v : Nat} (hf : f.hi = f.lo) (hg : g.lo < 32) (ho : f.off < 4096) (hg' : g.off < 4096) (h : s.bit u f = true) :
    (s.event v g).bit u f = true := by
  have hfld : (s.event v g).fld u f = (s.setReg v g.off (setBits (s.reg v g.off) g.lo g.lo 1)).fld u f := by
    unfold State.event State.eventBit
    dsimp only
    split
    · rfl
    · exact fld_regPart (congrArg₂ Prod.mk (State.interrupt_regs ..) (State.interrupt_pkg ..)) u f
  have hset : (s.setReg v g.off (setBits (s.reg v g.off) g.lo g.lo 1)) = s.setFld v { g with hi := g.lo } 1 := rfl
  have hone : s.fld u f = 1 := by simpa [State.bit] using h
  unfold State.bit
  rw [hfld, hset, beq_iff_eq]
  by_cases hsame : fldsApart { g with hi := g.lo } f = true
  · rw [fld_setFld_apart s 1 hsame hg' ho, hone]
  · have hoff : f.off = g.off ∧ f.lo = g.lo := by
      simp only [fldsApart, Bool.or_eq_true, Bool.and_eq_true, bne_iff_ne, ne_eq, decide_eq_true_eq] at hsame
      omega
    have hread : ∀ t : State, t.fld u f = t.fld u { g with hi := g.lo } := by
      intro t
      unfold State.fld
      simp only [hf, hoff.1, hoff.2]
    rw [hread] at hone ⊢
    have := fld_setFld_same s (u := u) (v := v) (f := { g with hi := g.lo }) (n := 1) hg (Nat.le_refl _) (by simpa using hone)
    simpa using this

theorem bit_pwEvent_self (hf : f.hi = f.lo) (h32 : f.lo < 32) : (s.pwEvent f).bit (dieUnit s.rootDie) f = true := by
  unfold State.bit State.pwEvent
  rw [fld_event_self _ _ _ hf h32]
  rfl

theorem bit_setPw {u : Nat} (v : Nat) (h : fldsApart f g = true) (hf : f.off < 4096) (hg : g.off < 4096) : (s.setPw f v).bit u g = s.bit u g := by
  unfold State.bit State.setPw
  rw [fld_setFld_apart s v h hf hg]

end

/-! ## The throttle -/

section
variable (s : State)

theorem coolRequest_regPart (cool : Bool) : (s.coolRequest cool).regPart = s.regPart := by
  unfold State.coolRequest State.coolTry
  split
  · rfl
  · split
    · rfl
    · split
      · rfl
      · split <;> rfl

/-- A field that the throttle's evaluation does not write. -/
def besideThrottle (g : Fld) : Bool :=
  fldsApart F.POWER_STATUS_CAUSE g && fldsApart F.POWER_STATUS_THROTTLE g && fldsApart F.POWER_STATUS_HOLDING g && fldsApart F.POWER_STATUS_S g

/-- The throttle in force under some cause, before it is told (R287, R288). -/
def throttleHeld (s : State) (c : Nat) : State :=
  let t := s.setPw F.POWER_STATUS_CAUSE c
  let t := (t.setPw F.POWER_STATUS_THROTTLE 1).setPw F.POWER_STATUS_HOLDING 0
  t.setPw F.POWER_STATUS_S (s.setPw F.POWER_STATUS_CAUSE c).throttleS

theorem throttleHeld_pkg (c : Nat) : (throttleHeld s c).pkg = s.pkg := by
  unfold throttleHeld
  rw [setPw_pkg, setPw_pkg, setPw_pkg, setPw_pkg]

theorem throttleHeld_on (c : Nat) : (throttleHeld s c).pw F.POWER_STATUS_THROTTLE = 1 ∧ (throttleHeld s c).pw F.POWER_STATUS_HOLDING = 0 := by
  unfold throttleHeld
  dsimp only
  constructor
  · rw [pw_setPw_apart _ _ (by decide) (by decide) (by decide), pw_setPw_apart _ _ (by decide) (by decide) (by decide),
      pw_setPw_self _ (f := F.POWER_STATUS_THROTTLE) _ (by decide) (by decide)]
    rfl
  · rw [pw_setPw_apart _ _ (by decide) (by decide) (by decide), pw_setPw_self _ (f := F.POWER_STATUS_HOLDING) _ (by decide) (by decide)]
    rfl

theorem throttleHeld_fld (c u : Nat) {g : Fld} (h : besideThrottle g = true) (hg : g.off < 4096) : (throttleHeld s c).fld u g = s.fld u g := by
  simp only [besideThrottle, Bool.and_eq_true] at h
  obtain ⟨⟨⟨hc, ht⟩, hh⟩, hs⟩ := h
  unfold throttleHeld State.setPw
  dsimp only
  rw [fld_setFld_apart _ _ hs (by decide) hg, fld_setFld_apart _ _ hh (by decide) hg, fld_setFld_apart _ _ ht (by decide) hg,
    fld_setFld_apart _ _ hc (by decide) hg]

theorem throttleWith_eq (short : Bool) : s.throttleWith short =
    if s.causes short != 0 then
      (if s.pw F.POWER_STATUS_THROTTLE = 1 then throttleHeld s (s.causes short)
       else ((throttleHeld s (s.causes short)).pwEvent F.POWER_EVENT_THROTTLE_ON).coolRequest true)
    else if s.pw F.POWER_STATUS_THROTTLE = 1 then
      let t := s.setPw F.POWER_STATUS_CAUSE (s.causes short)
      let t := if t.pw F.POWER_STATUS_HOLDING = 1 then t else { t with pwr := { t.pwr with holdAt := t.time.ft } }
      (t.setPw F.POWER_STATUS_HOLDING 1).setPw F.POWER_STATUS_S t.throttleS
    else s.setPw F.POWER_STATUS_CAUSE (s.causes short) := rfl

/-- The throttle that no cause holds runs its hold (R287, R288). -/
def throttleHolding (s : State) : State :=
  let t := if s.pw F.POWER_STATUS_HOLDING = 1 then s else { s with pwr := { s.pwr with holdAt := s.time.ft } }
  (t.setPw F.POWER_STATUS_HOLDING 1).setPw F.POWER_STATUS_S t.throttleS

theorem throttleHolding_fld (u : Nat) {g : Fld} (h : besideThrottle g = true) (hg : g.off < 4096) : (throttleHolding s).fld u g = s.fld u g := by
  simp only [besideThrottle, Bool.and_eq_true] at h
  obtain ⟨⟨⟨-, -⟩, hh⟩, hs⟩ := h
  unfold throttleHolding State.setPw
  dsimp only
  rw [fld_setFld_apart _ _ hs (by decide) hg, fld_setFld_apart _ _ hh (by decide) hg]
  split <;> rfl

theorem throttleHolding_pkg : (throttleHolding s).pkg = s.pkg := by
  unfold throttleHolding
  rw [setPw_pkg, setPw_pkg]
  split <;> rfl

theorem throttleWith_pkg (short : Bool) : (s.throttleWith short).pkg = s.pkg := by
  rw [throttleWith_eq]
  split
  · split
    · exact throttleHeld_pkg ..
    · have hp : ((throttleHeld s (s.causes short)).pwEvent F.POWER_EVENT_THROTTLE_ON).pkg = s.pkg := (pwEvent_pkg _ _).trans (throttleHeld_pkg ..)
      exact (congrArg Prod.snd (coolRequest_regPart _ true)).trans hp
  · split
    · exact (throttleHolding_pkg _).trans (setPw_pkg ..)
    · exact setPw_pkg ..

/-- What the throttle's evaluation leaves: every field but its own, of every register but the events'. -/
theorem throttleWith_fld (short : Bool) (u : Nat) {g : Fld} (h : besideThrottle g = true) (h8 : g.off ≠ 8) (hg : g.off < 4096) :
    (s.throttleWith short).fld u g = s.fld u g := by
  have hc : fldsApart F.POWER_STATUS_CAUSE g = true := by
    simp only [besideThrottle, Bool.and_eq_true] at h
    exact h.1.1.1
  rw [throttleWith_eq]
  split
  · split
    · exact throttleHeld_fld s _ u h hg
    · rw [fld_regPart (coolRequest_regPart _ true)]
      unfold State.pwEvent
      rw [fld_event_apart _ h8 (by decide) hg]
      exact throttleHeld_fld s _ u h hg
  · split
    · exact (throttleHolding_fld _ u h hg).trans (fld_setFld_apart s _ hc (by decide) hg)
    · exact fld_setFld_apart s _ hc (by decide) hg

/-- An event that is set stays so. -/
theorem bit_throttleWith (short : Bool) (u : Nat) {g : Fld} (hg : g.hi = g.lo) (h8 : g.off = 8) (h : s.bit u g = true) :
    (s.throttleWith short).bit u g = true := by
  have hbeside : besideThrottle g = true := by
    simp [besideThrottle, fldsApart, h8, F.POWER_STATUS_CAUSE, F.POWER_STATUS_THROTTLE, F.POWER_STATUS_HOLDING, F.POWER_STATUS_S]
  have hlt : g.off < 4096 := by omega
  have hheld : (throttleHeld s (s.causes short)).bit u g = true := by
    unfold State.bit
    rw [throttleHeld_fld s _ u hbeside hlt]
    exact h
  have hcause : (s.setPw F.POWER_STATUS_CAUSE (s.causes short)).bit u g = true := by
    rw [bit_setPw s _ _ (by decide) hlt]
    · exact h
    · simp [fldsApart, h8, F.POWER_STATUS_CAUSE]
  rw [throttleWith_eq]
  split
  · split
    · exact hheld
    · rw [bit_regPart (coolRequest_regPart _ true)]
      exact bit_event_stays _ hg (by decide) hlt (by decide) hheld
  · split
    · unfold State.bit
      rw [← hcause]
      exact congrArg (· == 1) (throttleHolding_fld _ u hbeside hlt)
    · exact hcause

/-- A cause brings the throttle into force, and it does not run its hold. -/
theorem throttleWith_on {short : Bool} (h : s.causes short ≠ 0) :
    (s.throttleWith short).pw F.POWER_STATUS_THROTTLE = 1 ∧ (s.throttleWith short).pw F.POWER_STATUS_HOLDING = 0 := by
  obtain ⟨hon, hhold⟩ := throttleHeld_on s (s.causes short)
  rw [throttleWith_eq, if_pos (by simpa using h)]
  split
  · exact ⟨hon, hhold⟩
  · rw [pw_regPart (coolRequest_regPart _ true), pw_regPart (coolRequest_regPart _ true), pw_pwEvent _ rfl (by decide) (by decide),
      pw_pwEvent _ rfl (by decide) (by decide)]
    exact ⟨hon, hhold⟩

theorem throttleWith_pw (short : Bool) {g : Fld} (h : besideThrottle g = true) (h8 : g.off ≠ 8) (hg : g.off < 4096) :
    (s.throttleWith short).pw g = s.pw g := by
  unfold State.pw
  rw [throttleWith_pkg, throttleWith_fld s short _ h h8 hg]

/-- A low throttle_n, or FORCE_THROTTLE, is a cause (R287). -/
theorem causes_of_pin (short : Bool) (h : s.pw F.POWER_STATUS_THROTTLE_N = 0) : s.causes short ≠ 0 := by
  unfold State.causes
  rw [if_pos h]
  omega

theorem causes_of_force (short : Bool) (h : s.pw F.POWER_CTRL_FORCE_THROTTLE = 1) : s.causes short ≠ 0 := by
  unfold State.causes
  rw [if_pos h]
  omega

end

/-! ## The inputs -/

section
variable (s : State)

/-- The ramp limit in use as an input gives it (R286). -/
def rampTaken (s : State) (valid : Bool) (ramp : W12) : State :=
  let s := (s.setPw F.POWER_STATUS_PC_VALID (bitNat valid)).setPw F.POWER_RAMP_IN ramp.toNat
  if valid && ramp != 0 then s.setPw F.POWER_RAMP_USED ramp.toNat else (s.setPw F.POWER_RAMP_USED s.defaultRamp).pwEvent F.POWER_EVENT_RAMP_MISSING

/-- The level as an input gives it (R286). -/
def levelTaken (s : State) (valid : Bool) (budget : W3) : State :=
  if valid && s.pw F.POWER_STATUS_LEVEL != budget.toNat then
    (s.setPw F.POWER_STATUS_LEVEL budget.toNat).pwEvent F.POWER_EVENT_LEVEL_CHANGE else s

/-- What a sample leaves before the throttle is evaluated. -/
def pcTaken (s : State) (valid : Bool) (ramp : W12) (budget : W3) : State := levelTaken (rampTaken s valid ramp) valid budget

theorem pcSample_eq (valid : Bool) (ramp : W12) (budget : W3) : s.pcSample valid ramp budget =
    if (pcTaken s valid ramp budget).ramp = s.ramp then (pcTaken s valid ramp budget).throttle else (pcTaken s valid ramp budget).throttleEval := rfl

variable (valid : Bool) (ramp : W12) (budget : W3)

theorem rampTaken_pkg : (rampTaken s valid ramp).pkg = s.pkg := by
  unfold rampTaken
  dsimp only
  split
  · rfl
  · exact pwEvent_pkg ..

theorem levelTaken_pkg : (levelTaken s valid budget).pkg = s.pkg := by
  unfold levelTaken
  split
  · exact pwEvent_pkg ..
  · rfl

theorem rampTaken_ramp : (rampTaken s valid ramp).pw F.POWER_RAMP_USED = if valid = true ∧ ramp ≠ 0 then ramp.toNat else s.defaultRamp % 4096 := by
  unfold rampTaken
  dsimp only
  by_cases h : valid = true ∧ ramp ≠ 0
  · rw [if_pos (by simpa using h), if_pos h, pw_setPw_self _ (f := F.POWER_RAMP_USED) _ (by decide) (by decide)]
    exact Nat.mod_eq_of_lt ramp.isLt
  · rw [if_neg (by simpa using h), if_neg h, pw_pwEvent _ rfl (by decide) (by decide), pw_setPw_self _ (f := F.POWER_RAMP_USED) _ (by decide) (by decide)]
    rfl

theorem rampTaken_level : (rampTaken s valid ramp).pw F.POWER_STATUS_LEVEL = s.pw F.POWER_STATUS_LEVEL := by
  have hin : ((s.setPw F.POWER_STATUS_PC_VALID (bitNat valid)).setPw F.POWER_RAMP_IN ramp.toNat).pw F.POWER_STATUS_LEVEL = s.pw F.POWER_STATUS_LEVEL :=
    (pw_setPw_apart _ _ (by decide) (by decide) (by decide)).trans (pw_setPw_apart _ _ (by decide) (by decide) (by decide))
  unfold rampTaken
  dsimp only
  split
  · exact (pw_setPw_apart _ _ (by decide) (by decide) (by decide)).trans hin
  · exact (pw_pwEvent _ rfl (by decide) (by decide)).trans ((pw_setPw_apart _ _ (by decide) (by decide) (by decide)).trans hin)

theorem rampTaken_missing (h : valid = false ∨ ramp = 0) : (rampTaken s valid ramp).bit (dieUnit s.rootDie) F.POWER_EVENT_RAMP_MISSING = true := by
  have hno : ¬(valid && ramp != 0) = true := by
    rcases h with h | h
    · simp [h]
    · simp [h]
  unfold rampTaken
  dsimp only
  rw [if_neg hno]
  exact bit_pwEvent_self _ rfl (by decide)

theorem levelTaken_level : (levelTaken s valid budget).pw F.POWER_STATUS_LEVEL = if valid then budget.toNat else s.pw F.POWER_STATUS_LEVEL := by
  unfold levelTaken
  cases valid with
  | false => rfl
  | true =>
    rw [if_pos rfl]
    split
    · rw [pw_pwEvent _ rfl (by decide) (by decide), pw_setPw_self _ (f := F.POWER_STATUS_LEVEL) _ (by decide) (by decide)]
      exact Nat.mod_eq_of_lt budget.isLt
    next h => simpa using h

theorem levelTaken_ramp : (levelTaken s valid budget).pw F.POWER_RAMP_USED = s.pw F.POWER_RAMP_USED := by
  unfold levelTaken
  split
  · exact (pw_pwEvent _ rfl (by decide) (by decide)).trans (pw_setPw_apart _ _ (by decide) (by decide) (by decide))
  · rfl

theorem levelTaken_missing {u : Nat} (h : s.bit u F.POWER_EVENT_RAMP_MISSING = true) : (levelTaken s valid budget).bit u F.POWER_EVENT_RAMP_MISSING = true := by
  unfold levelTaken
  split
  · refine bit_event_stays _ rfl (by decide) (by decide) (by decide) ?_
    rw [bit_setPw s _ (by decide) (by decide) (by decide)]
    exact h
  · exact h

/-- What the throttle's evaluation keeps, whether it evaluates RAMP_SHORT or not. -/
theorem throttleEval_keeps {g : Fld} (h : besideThrottle g = true) (h8 : g.off ≠ 8) (hg : g.off < 4096) :
    s.throttleEval.pkg = s.pkg ∧ s.throttleEval.pw g = s.pw g := by
  unfold State.throttleEval
  dsimp only
  rw [throttleWith_pkg, throttleWith_pw _ _ h h8 hg]
  split
  · exact ⟨pwEvent_pkg .., pw_pwEvent _ rfl h8 hg⟩
  · exact ⟨rfl, rfl⟩

theorem bit_throttleEval {u : Nat} {g : Fld} (hg : g.hi = g.lo) (h8 : g.off = 8) (h : s.bit u g = true) : s.throttleEval.bit u g = true := by
  unfold State.throttleEval
  dsimp only
  refine bit_throttleWith _ _ u hg h8 ?_
  split
  · exact bit_event_stays _ hg (by decide) (by omega) (by decide) h
  · exact h

/-- A sample's ramp limit, level and event (R286, R287). -/
theorem pcSample_spec : (s.pcSample valid ramp budget).pkg = s.pkg ∧
    (s.pcSample valid ramp budget).pw F.POWER_RAMP_USED = (if valid = true ∧ ramp ≠ 0 then ramp.toNat else s.defaultRamp % 4096) ∧
    (s.pcSample valid ramp budget).pw F.POWER_STATUS_LEVEL = (if valid then budget.toNat else s.pw F.POWER_STATUS_LEVEL) ∧
    (valid = false ∨ ramp = 0 → (s.pcSample valid ramp budget).bit (dieUnit s.rootDie) F.POWER_EVENT_RAMP_MISSING = true) := by
  obtain ⟨x, hx⟩ : ∃ x, x = pcTaken s valid ramp budget := ⟨_, rfl⟩
  have hpkg : x.pkg = s.pkg := by rw [hx, pcTaken, levelTaken_pkg, rampTaken_pkg]
  have hramp : x.pw F.POWER_RAMP_USED = if valid = true ∧ ramp ≠ 0 then ramp.toNat else s.defaultRamp % 4096 := by
    rw [hx, pcTaken, levelTaken_ramp, rampTaken_ramp]
  have hlevel : x.pw F.POWER_STATUS_LEVEL = if valid then budget.toNat else s.pw F.POWER_STATUS_LEVEL := by
    rw [hx, pcTaken, levelTaken_level, rampTaken_level]
  have hmissing : valid = false ∨ ramp = 0 → x.bit (dieUnit s.rootDie) F.POWER_EVENT_RAMP_MISSING = true := by
    intro h
    rw [hx, pcTaken]
    exact levelTaken_missing _ valid budget (rampTaken_missing s valid ramp h)
  rw [pcSample_eq, ← hx]
  split
  · unfold State.throttle
    refine ⟨(throttleWith_pkg ..).trans hpkg, (throttleWith_pw x _ (by decide) (by decide) (by decide)).trans hramp,
      (throttleWith_pw x _ (by decide) (by decide) (by decide)).trans hlevel, fun h => ?_⟩
    exact bit_throttleWith x _ _ rfl rfl (hmissing h)
  · obtain ⟨hpk, hr⟩ := throttleEval_keeps x (g := F.POWER_RAMP_USED) (by decide) (by decide) (by decide)
    obtain ⟨-, hl⟩ := throttleEval_keeps x (g := F.POWER_STATUS_LEVEL) (by decide) (by decide) (by decide)
    exact ⟨hpk.trans hpkg, hr.trans hramp, hl.trans hlevel, fun h => bit_throttleEval x rfl rfl (hmissing h)⟩

/-- A field that a command writes and that is a cause brings the throttle into force. -/
theorem throttle_of_cause {f : Fld} {v : Nat} (hcause : ∀ (t : State) (short : Bool), t.pw f = v → t.causes short ≠ 0) (hv : v % 2 ^ (f.hi - f.lo + 1) = v)
    (h32 : f.hi < 32) (hl : f.lo ≤ f.hi) (hb : besideThrottle f = true) (h8 : f.off ≠ 8) (hoff : f.off < 4096) :
    (s.setPw f v).throttle.pkg = s.pkg ∧ (s.setPw f v).throttle.pw f = v ∧ (s.setPw f v).throttle.pw F.POWER_STATUS_THROTTLE = 1 ∧
      (s.setPw f v).throttle.pw F.POWER_STATUS_HOLDING = 0 := by
  have hset : (s.setPw f v).pw f = v := (pw_setPw_self s v h32 hl).trans hv
  unfold State.throttle
  exact ⟨throttleWith_pkg .., (throttleWith_pw _ _ hb h8 hoff).trans hset, throttleWith_on _ (hcause _ _ hset)⟩

/-- The end of the hold time ends the throttle (R287, R288). -/
theorem throttleEnd_spec (ht : s.pw F.POWER_STATUS_THROTTLE = 1) (hh : s.pw F.POWER_STATUS_HOLDING = 1)
    (hd : 4000 * s.powerParam 8 2 1000 ≤ ftSince s.time.ft s.pwr.holdAt) : s.throttleEnd.pkg = s.pkg ∧
    s.throttleEnd.pw F.POWER_STATUS_THROTTLE = 0 ∧ s.throttleEnd.pw F.POWER_STATUS_S = 16 ∧
    s.throttleEnd.bit (dieUnit s.rootDie) F.POWER_EVENT_THROTTLE_OFF = true := by
  obtain ⟨x, hx⟩ : ∃ x, x = ((s.setPw F.POWER_STATUS_THROTTLE 0).setPw F.POWER_STATUS_HOLDING 0).setPw F.POWER_STATUS_S 16 := ⟨_, rfl⟩
  have hend : s.throttleEnd = (x.pwEvent F.POWER_EVENT_THROTTLE_OFF).coolRequest false := by
    rw [hx]
    exact if_pos ⟨ht, hh, hd⟩
  have hpkg : x.pkg = s.pkg := by rw [hx, setPw_pkg, setPw_pkg, setPw_pkg]
  have hroot : x.rootDie = s.rootDie := by
    rw [hx]
    rfl
  have hcool := coolRequest_regPart (x.pwEvent F.POWER_EVENT_THROTTLE_OFF) false
  rw [hend]
  refine ⟨(congrArg Prod.snd hcool).trans ((pwEvent_pkg ..).trans hpkg), ?_, ?_, ?_⟩
  · rw [pw_regPart hcool, pw_pwEvent _ rfl (by decide) (by decide), hx, pw_setPw_apart _ _ (by decide) (by decide) (by decide),
      pw_setPw_apart _ _ (by decide) (by decide) (by decide), pw_setPw_self _ (f := F.POWER_STATUS_THROTTLE) _ (by decide) (by decide)]
    rfl
  · rw [pw_regPart hcool, pw_pwEvent _ rfl (by decide) (by decide), hx, pw_setPw_self _ (f := F.POWER_STATUS_S) _ (by decide) (by decide)]
    rfl
  · rw [bit_regPart hcool, ← hroot]
    exact bit_pwEvent_self x rfl (by decide)

end

/-- Settles O43. -/
theorem throttleFollowsItsCauses : Obligations.ThrottleFollowsItsCauses := by
  unfold Obligations.ThrottleFollowsItsCauses
  rintro s side valid ramp budget hside rfl
  have hunit : decide (s.pinSide < 2) = true := decide_eq_true hside
  refine ⟨?_, ?_, ?_, fun ht hh hd => ?_, fun hk hw hft => ?_, fun hw hft hno => ?_⟩
  · obtain ⟨x, hx⟩ : ∃ x, x = s.setPins s.pinSide { s.pcPins s.pinSide with valid := valid, ramp := ramp, budget := budget } := ⟨_, rfl⟩
    obtain ⟨hpkg, hramp, hlevel, hmissing⟩ := pcSample_spec x valid ramp budget
    have hexec : exec (.pcInputSample ⟨s.pinSide, valid⟩ ramp budget) s = .next (kept s (onPower s (x.pcSample valid ramp budget))) := by
      rw [hx]
      exact (onUnit_power hunit s _).trans (congrArg (fun t => Host.Outcome.next (kept s (onPower s t))) (if_pos rfl))
    have hxp : x.pkg = s.pkg := by rw [hx]; rfl
    have hxr : x.rootDie = s.rootDie := by rw [hx]; rfl
    have hreg := onPower_regPart (hpkg.trans hxp)
    refine ⟨_, hexec, ?_, ?_, fun h => ?_⟩
    · unfold State.ramp
      rw [pw_regPart hreg, hramp, hx]
      rfl
    · rw [pw_regPart hreg, hlevel, hx]
      rfl
    · rw [bit_regPart hreg, ← hxr]
      exact hmissing h
  · obtain ⟨x, hx⟩ : ∃ x, x = s.setPins s.pinSide { s.pcPins s.pinSide with throttleN := false } := ⟨_, rfl⟩
    obtain ⟨hpkg, hpin, hon, hhold⟩ := throttle_of_cause x (f := F.POWER_STATUS_THROTTLE_N) (v := 0) causes_of_pin rfl (by decide) (by decide) (by decide)
      (by decide) (by decide)
    have hexec : exec (.throttleNChange ⟨s.pinSide, false⟩) s = .next (kept s (onPower s (x.setPw F.POWER_STATUS_THROTTLE_N 0).throttle)) := by
      rw [hx]
      exact (onUnit_power hunit s _).trans (congrArg (fun t => Host.Outcome.next (kept s (onPower s t))) (if_pos rfl))
    have hxp : x.pkg = s.pkg := by rw [hx]; rfl
    have hreg := onPower_regPart (hpkg.trans hxp)
    exact ⟨_, hexec, (pw_regPart hreg _).trans hpin, (pw_regPart hreg _).trans hon, (pw_regPart hreg _).trans hhold⟩
  · obtain ⟨hpkg, hforce, hon, hhold⟩ := throttle_of_cause s (f := F.POWER_CTRL_FORCE_THROTTLE) (v := 1) causes_of_force rfl (by decide) (by decide)
      (by decide) (by decide) (by decide)
    have hreg := onPower_regPart hpkg
    exact ⟨kept s (onPower s (s.setPw F.POWER_CTRL_FORCE_THROTTLE 1).throttle), rfl, (pw_regPart hreg _).trans hforce, (pw_regPart hreg _).trans hon,
      (pw_regPart hreg _).trans hhold⟩
  · obtain ⟨hpkg, hoff, hs, hev⟩ := throttleEnd_spec s ht hh hd
    have hreg := onPower_regPart hpkg
    exact ⟨kept s (onPower s s.throttleEnd), rfl, (pw_regPart hreg _).trans hoff, (pw_regPart hreg _).trans hs, (bit_regPart hreg _ _).trans hev⟩
  · exact congrArg (done s) (if_pos ⟨hk, hw, hft⟩)
  · exact congrArg (done s) (if_pos ⟨hw, hft, hno⟩)

end Sys2Proof.Machine
end

section
/-! Scrubbers and state beacons (R296, R315, R318). -/
namespace Sys2Proof.Machine

section
variable (s : State) (unit sram word : Nat)

/-! ## Words and their errors -/

theorem eccAt_setEcc_self (v : Byte) : (s.setEcc unit sram word v).eccAt unit sram word = v := kget_kput_self ..

theorem eccAt_congr {s t : State} (h : t.flt.ecc = s.flt.ecc) (unit sram word : Nat) : t.eccAt unit sram word = s.eccAt unit sram word := by
  unfold State.eccAt
  rw [h]

/-- A write of a word where no injector is armed leaves what is written (R318). -/
theorem sramWrite_unarmed (h : s.fld unit (injFld 31 31) = 0) (v : Byte) : s.sramWrite unit sram word v = s.setEcc unit sram word v := by
  have harm : s.armedFor unit sram = false := by
    unfold State.armedFor
    rw [h]
    simp
  unfold State.sramWrite
  rw [harm]
  rfl

theorem weight_zero : weight 0 = 0 := by decide
theorem weight_three : weight 3 = 2 := by decide

/-- The scrubber leaves a right word, and a poisoned one (R297). -/
theorem scrubWord_none (h : s.eccAt unit sram word = 0 ∨ s.eccAt unit sram word = 3) : s.scrubWord unit sram word = s := by
  unfold State.scrubWord
  exact if_pos h

theorem ecc_of_weight_one (h : weight (s.eccAt unit sram word) = 1) : ¬(s.eccAt unit sram word = 0 ∨ s.eccAt unit sram word = 3) := by
  rintro (h0 | h3)
  · rw [h0, weight_zero] at h
    exact absurd h (by decide)
  · rw [h3, weight_three] at h
    exact absurd h (by decide)

/-- The scrubber corrects a single error (R296). -/
theorem scrubWord_one (h : weight (s.eccAt unit sram word) = 1) (hi : s.fld unit (injFld 31 31) = 0) :
    s.scrubWord unit sram word = (s.setEcc unit sram word 0).faultEvent unit 0 (eccDetail sram word false true) := by
  unfold State.scrubWord
  rw [if_neg (ecc_of_weight_one s unit sram word h), if_pos h]
  dsimp only
  rw [sramWrite_unarmed s unit sram word hi]

/-- The scrubber poisons a word whose errors are even in number (R296). -/
theorem scrubWord_even (h0 : s.eccAt unit sram word ≠ 0) (h3 : s.eccAt unit sram word ≠ 3) (h : weight (s.eccAt unit sram word) % 2 = 0)
    (hi : s.fld unit (injFld 31 31) = 0) :
    s.scrubWord unit sram word = (s.setEcc unit sram word 3).faultEvent unit 1 (eccDetail sram word false true) := by
  unfold State.scrubWord
  rw [if_neg (not_or.mpr ⟨h0, h3⟩), if_neg (by omega), if_pos h]
  dsimp only
  rw [sramWrite_unarmed s unit sram word hi]

/-! ## The commands of an SRAM -/

/-- The parts of an SRAM's command. -/
def sramPart (s t : State) : State := { s with flt := t.flt, regs := t.regs, out := t.out, freeCtr := t.freeCtr }

variable {unit sram} in
theorem onSram_there (hu : (unitKind s.pkg unit).isSome = true) (hs : sram < 64) {t x : State} (hx : t = x) :
    onSram s unit sram t = .next (sramPart s x) := by
  rw [hx]
  exact onUnit_true s _ (by simp [hu, hs])

/-- The word that the scrubber reads next. -/
def State.scrubAt (s : State) (unit sram : Nat) : Nat := kget 0 s.flt.scrub (unit * 64 + sram)

/-- The scrubber's step to the next word. -/
def scrubOn (s : State) (unit sram w : Nat) : State := s.updFlt (fun t => { t with scrub := kput 0 t.scrub (unit * 64 + sram) ((w + 1) % 2 ^ 24) })

theorem scrub_eq : s.scrub unit sram = scrubOn (s.scrubWord unit sram (s.scrubAt unit sram)) unit sram (s.scrubAt unit sram) := rfl

theorem scrubOn_at (w : Nat) : kget 0 (scrubOn s unit sram w).flt.scrub (unit * 64 + sram) = (w + 1) % 2 ^ 24 := kget_kput_self ..

/-! ## Beacons -/

/-- A unit's beacon once it has entered the shadow, with the mismatches in a row (R315). -/
def beaconNext (b : Beacon) (misses live : Nat) : Beacon := { b with misses := misses, shadow := some (b.written, live) }

/-- A beacon that enters the shadow. -/
def beaconSeen (s : State) (unit misses : Nat) : State :=
  let b := kget {} s.flt.beacons unit
  (s.updFlt (fun t => { t with beacons := kput {} t.beacons unit (beaconNext b misses (s.control unit)) })).emit
    (.shadow unit b.written (s.control unit) (s.beaconState unit))

theorem beacon_match (h : s.control unit = (kget {} s.flt.beacons unit).written) : s.beacon unit = beaconSeen s unit 0 := by
  unfold State.beacon
  have hbad : (s.control unit != (kget {} s.flt.beacons unit).written && !s.inTransition unit) = false := by simp [h]
  dsimp only
  rw [hbad, if_neg (by simp)]
  rfl

theorem beacon_third (h : s.control unit ≠ (kget {} s.flt.beacons unit).written) (ht : s.inTransition unit = false)
    (hm : (kget {} s.flt.beacons unit).misses = 2) : s.beacon unit = (beaconSeen s unit 3).faultEvent unit 12
      (BitVec.ofNat 32 ((kget {} s.flt.beacons unit).written % 65536 * 65536 + s.control unit % 65536)) := by
  unfold State.beacon
  have hbad : (s.control unit != (kget {} s.flt.beacons unit).written && !s.inTransition unit) = true := by simp [h, ht]
  dsimp only
  rw [hbad, if_pos rfl, hm, if_pos (by decide)]
  rfl

theorem stateBeacon_exec {die : Nat} (hk : (unitKind s.pkg unit).isSome = true) (hd : dieExists s.pkg die = true) (hu : unitDie unit = die) :
    exec (.stateBeacon die unit) s = .next { s with flt := (s.beacon unit).flt, out := (s.beacon unit).out } :=
  onUnit_true s _ (by simp [hk, hd, hu])

end

/-- Settles O45. -/
theorem scrubbersAndBeaconsReport : Obligations.ScrubbersAndBeaconsReport := by
  unfold Obligations.ScrubbersAndBeaconsReport
  rintro s die unit sram word w b hkind hsram hw rfl
  obtain rfl : w = s.scrubAt unit sram := hw
  refine ⟨fun h => ?_, fun h hi => ?_, fun h0 h3 h hi => ?_, fun h hi => ?_, fun hd hu h => ?_, fun hd hu h ht hm => ?_⟩
  · exact onSram_there s hkind hsram (congrArg (fun t => scrubOn t unit sram (s.scrubAt unit sram)) (scrubWord_none s unit sram _ h))
  · have hscrub := congrArg (fun t => scrubOn t unit sram (s.scrubAt unit sram)) (scrubWord_one s unit sram _ h hi)
    exact ⟨_, onSram_there s hkind hsram hscrub, (eccAt_congr (s := s.setEcc unit sram (s.scrubAt unit sram) 0) rfl ..).trans (eccAt_setEcc_self ..), rfl, scrubOn_at ..⟩
  · have hscrub := congrArg (fun t => scrubOn t unit sram (s.scrubAt unit sram)) (scrubWord_even s unit sram _ h0 h3 h hi)
    exact ⟨_, onSram_there s hkind hsram hscrub, (eccAt_congr (s := s.setEcc unit sram (s.scrubAt unit sram) 3) rfl ..).trans (eccAt_setEcc_self ..), rfl⟩
  · have hback : s.writeBack unit sram word = (s.setEcc unit sram word 0).faultEvent unit 0 (eccDetail sram word false false) := by
      unfold State.writeBack
      rw [if_pos h, sramWrite_unarmed s unit sram word hi]
    exact ⟨_, onSram_there s hkind hsram hback, (eccAt_congr rfl ..).trans (eccAt_setEcc_self s unit sram _ _), rfl⟩
  · refine ⟨_, stateBeacon_exec s unit hkind hd hu, ?_, ?_⟩
    · rw [beacon_match s unit h]
      unfold beaconSeen
      rw [h]
      rfl
    · rw [beacon_match s unit h]
      unfold beaconSeen
      rw [h]
      exact kget_kput_self ({} : Beacon) s.flt.beacons unit _
  · refine ⟨_, stateBeacon_exec s unit hkind hd hu, ?_⟩
    rw [beacon_third s unit h ht hm]
    rfl

end Sys2Proof.Machine
end

section
/-! The FAULT units (R62, R294, R300, R303–R307, R313). -/
namespace Sys2Proof.Machine

/-! ## What a FAULT unit keeps -/

section
variable (s : State)

theorem fdie_congr {s t : State} (h : t.flt.dies = s.flt.dies) (die : Nat) : t.fdie die = s.fdie die := by
  unfold State.fdie
  rw [h]

theorem funit_congr {s t : State} (h : t.flt.dies = s.flt.dies) (u : Nat) : t.funit u = s.funit u := by
  unfold State.funit
  rw [fdie_congr h]

theorem fdie_updFdie_self (die : Nat) (f : FDie → FDie) : (s.updFdie die f).fdie die = f (s.fdie die) := kget_kput_self ..

theorem fdie_updFunit {die u : Nat} (f : FUnit → FUnit) (h : unitDie u = die) : (s.updFunit u f).fdie die =
    { s.fdie die with units := kput {} (s.fdie die).units u (f (s.funit u)) } := by
  subst h
  exact fdie_updFdie_self ..

theorem funit_updFunit_self (u : Nat) (f : FUnit → FUnit) : (s.updFunit u f).funit u = f (s.funit u) := by
  unfold State.funit
  rw [fdie_updFunit s f rfl]
  exact kget_kput_self ..

theorem fdie_updFunit_capture {die u : Nat} (f : FUnit → FUnit) (h : unitDie u = die) : ((s.updFunit u f).fdie die).capture = (s.fdie die).capture := by
  rw [fdie_updFunit s f h]

theorem funit_updFdie {die u : Nat} {f : FDie → FDie} (h : unitDie u = die) (hf : ∀ d, (f d).units = d.units) : (s.updFdie die f).funit u = s.funit u := by
  subst h
  unfold State.funit
  rw [fdie_updFdie_self, hf]

theorem event_dies (u : Nat) (f : Fld) : (s.event u f).flt.dies = s.flt.dies := congrArg Flt.dies (State.event_flt ..)

theorem pair_regPart {s t : State} (h : t.regPart = s.regPart) (u off : Nat) : t.pair u off = s.pair u off := by
  obtain ⟨hr, hp⟩ := Prod.mk.inj h
  simp only [State.pair, State.reg, hr, hp]

theorem policy_regPart {s t : State} (h : t.regPart = s.regPart) (die c : Nat) : t.policy die c = s.policy die c := by
  unfold State.policy
  simp only [fldAt_regPart h]

theorem reacts_regPart {s t : State} (h : t.regPart = s.regPart) (die c sev : Nat) : t.reacts die c sev = s.reacts die c sev := by
  unfold State.reacts
  simp only [fldAt_regPart h]

/-- The parts of a FAULT unit's command. -/
def faultPart (s t : State) : State :=
  { s with flt := t.flt, regs := t.regs, ctrs := t.ctrs, out := t.out, irqHeld := t.irqHeld, freeCtr := t.freeCtr, ni := t.ni, pools := t.pools,
           ports := t.ports, dlinks := t.dlinks, rtr := t.rtr, arbs := t.arbs, chron := t.chron, mbx := t.mbx, hol := t.hol, trace := t.trace,
           time := t.time, pwr := t.pwr, eng := t.eng, diary := t.diary, alm := t.alm, isl := t.isl }

end

section
variable {s t : State} {die : Nat}

theorem onFault_exec (h : dieExists s.pkg die = true) {x : State} (hx : t = x) : onFault s die t = .next (faultPart s x) := by
  rw [hx]
  exact onUnit_true s _ h

theorem faultPart_regPart (h : t.pkg = s.pkg) : (faultPart s t).regPart = t.regPart := congrArg (Prod.mk t.regs) h.symm

theorem fdie_faultPart (die : Nat) : (faultPart s t).fdie die = t.fdie die := fdie_congr rfl die
theorem funit_faultPart (u : Nat) : (faultPart s t).funit u = t.funit u := funit_congr rfl u
theorem getNi_faultPart (st : Nat) : (faultPart s t).getNi st = t.getNi st := rfl

theorem ctrAt_faultPart (h : t.pkg = s.pkg) (u off : Nat) : (faultPart s t).ctrAt u off = t.ctrAt u off := by
  unfold State.ctrAt
  rw [show (faultPart s t).pkg = t.pkg from h.symm]
  rfl

end

/-! ## Reports -/

section
variable (s : State) (die : Nat) (r : FaultReport) (y : FClass)

/-- A strobe that is counted and classified (R294, R300). -/
def struck (s : State) (die : Nat) (r : FaultReport) (y : FClass) : State :=
  (s.count (faultUnit die) (R.FAULT_CNT + 8 * r.cls) 1).updFunit r.unit (fun x => { x with cls := kput {} x.cls r.cls y })

theorem judge_struck (hs : r.strobe = true) (hen : s.fld (faultUnit die) F.FAULT_CTRL_EN = 1)
    (hy : y = (classify (s.policy die r.cls) ((s.funit r.unit).at_ r.cls) (s.faultFt die)).1) :
    ∃ e, s.judge die r = (struck s die r y, { r := r, sev := y.st, cnt := y.cnt, entered := e }) := by
  have hpol : (s.count (faultUnit die) (R.FAULT_CNT + 8 * r.cls) 1).policy die r.cls = s.policy die r.cls := policy_regPart rfl ..
  have hen' : (s.count (faultUnit die) (R.FAULT_CNT + 8 * r.cls) 1).fld (faultUnit die) F.FAULT_CTRL_EN ≠ 0 := by
    rw [fld_regPart (t := s.count (faultUnit die) (R.FAULT_CNT + 8 * r.cls) 1) (s := s) rfl, hen]
    decide
  refine ⟨(classify (s.policy die r.cls) ((s.funit r.unit).at_ r.cls) (s.faultFt die)).2, ?_⟩
  unfold State.judge
  dsimp only
  rw [hs, if_neg (by decide), if_neg hen', hpol, hy]
  rfl

/-- A report as it is captured (R306, R307). -/
def capturedAs (s t : State) (die : Nat) (r : FaultReport) (y : FClass) (jub : Nat) : FCapture :=
  { unit := r.unit, cls := r.cls, detail := r.detail, sev := y.st, cnt := y.cnt, jub := jub, ft := t.faultFt die, qual := t.quality,
    log := (s.reacts die r.cls y.st).testBit 0 }

/-- A single report that is struck and captured. -/
def reportTaken (s : State) (die : Nat) (r : FaultReport) (y : FClass) : State :=
  (struck s die r y).updFdie die (fun d => { d with capture := d.capture ++
    [capturedAs (struck s die r y) (struck s die r y) die r y (kget {} d.units r.unit).jubilee] })

/-- It is told at most (R301, R307). -/
def reported (s : State) (die : Nat) (r : FaultReport) (y : FClass) : State :=
  if (s.reacts die r.cls y.st).testBit 1 then (reportTaken s die r y).event (faultUnit die) F.FAULT_EVENT_FAULT else reportTaken s die r y

theorem testBit_of_lt {a i : Nat} (h : a < 4) (hi : 2 ≤ i) : a.testBit i = false :=
  Nat.testBit_lt_two_pow (lt_of_lt_of_le h (by calc 4 = 2 ^ 2 := rfl
    _ ≤ 2 ^ i := Nat.pow_le_pow_right (by decide) hi))

/-- A reaction that neither isolates, fences nor stops tells at most (R301). -/
theorem react_told {j : Judged} (h : s.reacts die j.r.cls j.sev < 4) :
    s.react die j = if (s.reacts die j.r.cls j.sev).testBit 1 then s.event (faultUnit die) F.FAULT_EVENT_FAULT else s := by
  unfold State.react
  dsimp only
  rw [testBit_of_lt (i := 2) h (by decide), testBit_of_lt (i := 3) h (by decide), testBit_of_lt (i := 4) h (by decide)]
  cases j.entered <;> rfl

theorem struck_capture (hu : unitDie r.unit = die) : ((struck s die r y).fdie die).capture = (s.fdie die).capture := by
  unfold struck
  rw [fdie_updFunit_capture _ _ hu]
  exact congrArg FDie.capture (fdie_congr rfl die)

theorem faultReports_one (hc : r.cls < 15) (hu : unitDie r.unit = die) (hs : r.strobe = true) (hen : s.fld (faultUnit die) F.FAULT_CTRL_EN = 1)
    (hcap : (s.fdie die).capture = []) (hy : y = (classify (s.policy die r.cls) ((s.funit r.unit).at_ r.cls) (s.faultFt die)).1)
    (hr : s.reacts die r.cls y.st < 4) : s.faultReports die [r] = reported s die r y := by
  obtain ⟨e, hj⟩ := judge_struck s die r y hs hen hy
  have hfilter : [r].filter (fun r => decide (r.cls < 15) && unitDie r.unit == die) = [r] := by simp [hc, hu]
  have hall : judgeAll die [r] s = (struck s die r y, [{ r := r, sev := y.st, cnt := y.cnt, entered := e }]) := by
    simp only [judgeAll, hj]
  have hfree : ((struck s die r y).fdie die).capture.isEmpty = true := by
    rw [struck_capture s die r y hu, hcap]
    rfl
  unfold State.faultReports
  dsimp only
  rw [hfilter, hall, hen]
  have hlist : [({ r := r, sev := y.st, cnt := y.cnt, entered := e } : Judged)].foldl (fun l j => insJudged j l) [] =
    [{ r := r, sev := y.st, cnt := y.cnt, entered := e }] := rfl
  simp only [hlist, hfree, beq_self_eq_true, Bool.not_true, Bool.false_eq_true, if_false, if_true, List.take_succ_cons, List.take_nil, List.length_cons,
    List.length_nil, lt_irrefl, List.map_cons, List.map_nil, List.foldl_cons, List.foldl_nil]
  have hreact (t : State) (ht : t.regPart = s.regPart) : t.react die { r := r, sev := y.st, cnt := y.cnt, entered := e } =
      if (s.reacts die r.cls y.st).testBit 1 then t.event (faultUnit die) F.FAULT_EVENT_FAULT else t := by
    have hra := reacts_regPart ht die r.cls y.st
    rw [react_told t die (hra ▸ hr), hra]
  exact hreact _ rfl

theorem reportTaken_ctr : (reportTaken s die r y).ctrAt (faultUnit die) (R.FAULT_CNT + 8 * r.cls) =
    satAdd48 (s.ctrAt (faultUnit die) (R.FAULT_CNT + 8 * r.cls)) 1 := by
  have hkeeps : ∀ (t : State) (f : FUnit → FUnit) (g : FDie → FDie) (u off : Nat), ((t.updFunit r.unit f).updFdie die g).ctrAt u off = t.ctrAt u off :=
    fun _ _ _ _ _ => rfl
  unfold reportTaken struck
  rw [hkeeps, ctrAt_count_self]

theorem reportTaken_cls (hu : unitDie r.unit = die) : ((reportTaken s die r y).funit r.unit).at_ r.cls = y := by
  have hunit : (reportTaken s die r y).funit r.unit = (struck s die r y).funit r.unit := by
    unfold reportTaken
    exact funit_updFdie _ hu (fun _ => rfl)
  rw [hunit]
  unfold struck FUnit.at_
  rw [funit_updFunit_self]
  exact kget_kput_self ..

theorem reportTaken_capture (hu : unitDie r.unit = die) (hcap : (s.fdie die).capture = []) : ((reportTaken s die r y).fdie die).capture =
    [capturedAs (struck s die r y) (struck s die r y) die r y (kget {} ((struck s die r y).fdie die).units r.unit).jubilee] := by
  have hnone := (struck_capture s die r y hu).trans hcap
  unfold reportTaken
  rw [fdie_updFdie_self]
  dsimp only
  rw [hnone, List.nil_append]

theorem reported_spec (hu : unitDie r.unit = die) (hcap : (s.fdie die).capture = []) : (reported s die r y).pkg = s.pkg ∧
    (reported s die r y).ctrAt (faultUnit die) (R.FAULT_CNT + 8 * r.cls) = satAdd48 (s.ctrAt (faultUnit die) (R.FAULT_CNT + 8 * r.cls)) 1 ∧
    ((reported s die r y).funit r.unit).at_ r.cls = y ∧
    ((s.reacts die r.cls y.st).testBit 1 = true → (reported s die r y).bit (faultUnit die) F.FAULT_EVENT_FAULT = true) ∧
    ∃ w, ((reported s die r y).fdie die).capture = [w] ∧ w.unit = r.unit ∧ w.cls = r.cls ∧ w.detail = r.detail ∧ w.sev = y.st ∧ w.cnt = y.cnt ∧
      w.ft = s.faultFt die := by
  have hctr := reportTaken_ctr s die r y
  have hcls := reportTaken_cls s die r y hu
  have hcapt := reportTaken_capture s die r y hu hcap
  have hpkg : (reportTaken s die r y).pkg = s.pkg := rfl
  obtain ⟨w, hw, hcapt⟩ : ∃ w : FCapture, (w.unit = r.unit ∧ w.cls = r.cls ∧ w.detail = r.detail ∧ w.sev = y.st ∧ w.cnt = y.cnt ∧ w.ft = s.faultFt die) ∧
      ((reportTaken s die r y).fdie die).capture = [w] := ⟨_, ⟨rfl, rfl, rfl, rfl, rfl, rfl⟩, hcapt⟩
  unfold reported
  generalize reportTaken s die r y = t at hctr hcls hcapt hpkg ⊢
  split
  next hbit =>
    have hdies := event_dies t (faultUnit die) F.FAULT_EVENT_FAULT
    refine ⟨(State.event_pkg ..).trans hpkg, ?_, ?_, fun _ => ?_, ⟨w, ?_, hw⟩⟩
    · unfold State.ctrAt at hctr ⊢
      rw [State.event_ctrs, State.event_pkg]
      exact hctr
    · rw [funit_congr hdies]
      exact hcls
    · unfold State.bit
      rw [fld_event_self _ _ _ rfl (by decide)]
      rfl
    · rw [fdie_congr hdies]
      exact hcapt
  next hbit => exact ⟨hpkg, hctr, hcls, fun h => absurd h hbit, ⟨w, hcapt, hw⟩⟩

end

/-! ## The end of a capture -/

section
variable (s : State) (u off : Nat)

theorem pair_setPair_self (v : FT) : (s.setPair u off v).pair u off = v := by
  have hlo : (s.setPair u off v).reg u off = v.extractLsb' 0 32 := by
    unfold State.setPair
    rw [reg_setReg_off _ _ (by omega), reg_setReg_self]
  have hhi : (s.setPair u off v).reg u (off + 4) = v.extractLsb' 32 32 := by
    unfold State.setPair
    rw [reg_setReg_self]
  unfold State.pair
  rw [hlo, hhi]
  ext i hi
  rw [BitVec.getElem_append]
  split
  · rw [BitVec.getElem_extractLsb', Nat.zero_add, BitVec.getLsbD_eq_getElem]
  · rw [BitVec.getElem_extractLsb', Nat.add_sub_cancel' (by omega), BitVec.getLsbD_eq_getElem]

end

section
variable (s : State) (die : Nat)

/-- FAULT_FIRST as a captured report fills it (R306). -/
def firstFilled (s : State) (fu : Nat) (x : FCapture) : State :=
  ((((((s.setFld fu F.FAULT_FIRST_INFO_VALID 1).setFld fu F.FAULT_FIRST_INFO_QUALITY x.qual).setFld fu F.FAULT_FIRST_INFO_SEVERITY
    x.sev).setFld fu F.FAULT_FIRST_INFO_CLASS x.cls).setFld fu F.FAULT_FIRST_INFO_UNIT x.unit).setFld fu F.FAULT_FIRST_DETAIL_DETAIL
    x.detail.toNat).setPair fu R.FAULT_FIRST_FT x.ft

theorem fld_setPair_off (u off : Nat) (v : FT) {g : Fld} (h : g.off ≠ off) (h4 : g.off ≠ off + 4) : (s.setPair u off v).fld u g = s.fld u g := by
  unfold State.setPair State.fld
  rw [reg_setReg_off _ _ h4, reg_setReg_off _ _ h]

theorem firstFilled_spec (fu : Nat) (x : FCapture) (hs : x.sev < 4) (hc : x.cls < 16) : (firstFilled s fu x).fld fu F.FAULT_FIRST_INFO_VALID = 1 ∧
    (firstFilled s fu x).fld fu F.FAULT_FIRST_INFO_SEVERITY = x.sev ∧ (firstFilled s fu x).fld fu F.FAULT_FIRST_INFO_CLASS = x.cls ∧
    (firstFilled s fu x).fld fu F.FAULT_FIRST_DETAIL_DETAIL = x.detail.toNat ∧ (firstFilled s fu x).pair fu R.FAULT_FIRST_FT = x.ft := by
  unfold firstFilled
  refine ⟨?_, ?_, ?_, ?_, pair_setPair_self ..⟩
  · rw [fld_setPair_off _ _ _ _ (by decide) (by decide), fld_setFld_apart _ _ (by decide) (by decide) (by decide),
      fld_setFld_apart _ _ (by decide) (by decide) (by decide), fld_setFld_apart _ _ (by decide) (by decide) (by decide),
      fld_setFld_apart _ _ (by decide) (by decide) (by decide), fld_setFld_apart _ _ (by decide) (by decide) (by decide),
      fld_setFld_self _ _ F.FAULT_FIRST_INFO_VALID _ (by decide) (by decide)]
    rfl
  · rw [fld_setPair_off _ _ _ _ (by decide) (by decide), fld_setFld_apart _ _ (by decide) (by decide) (by decide),
      fld_setFld_apart _ _ (by decide) (by decide) (by decide), fld_setFld_apart _ _ (by decide) (by decide) (by decide),
      fld_setFld_self _ _ F.FAULT_FIRST_INFO_SEVERITY _ (by decide) (by decide)]
    exact Nat.mod_eq_of_lt hs
  · rw [fld_setPair_off _ _ _ _ (by decide) (by decide), fld_setFld_apart _ _ (by decide) (by decide) (by decide),
      fld_setFld_apart _ _ (by decide) (by decide) (by decide), fld_setFld_self _ _ F.FAULT_FIRST_INFO_CLASS _ (by decide) (by decide)]
    exact Nat.mod_eq_of_lt hc
  · rw [fld_setPair_off _ _ _ _ (by decide) (by decide), fld_setFld_self _ _ F.FAULT_FIRST_DETAIL_DETAIL _ (by decide) (by decide)]
    exact Nat.mod_eq_of_lt x.detail.isLt

/-- A capture of one report that has run its 16 fault cycles fills a free FAULT_FIRST (R306, R307). -/
theorem captureDone_one {x : FCapture} (hx : (s.fdie die).capture = [x]) (hft : 128 ≤ ftSince (s.faultFt die) x.ft) (hlog : x.log = false)
    (hfree : s.fld (faultUnit die) F.FAULT_FIRST_INFO_VALID = 0) (hmin : s.fld (faultUnit die) F.FAULT_CTRL_FIRST_MIN ≤ x.sev) :
    s.captureDone die = firstFilled (s.updFdie die (fun d => { d with capture := [] })) (faultUnit die) x := by
  have hdone : ([x].any fun y => decide (ftSince (s.faultFt die) y.ft < 128 * [x].length)) = false := by
    simpa using hft
  unfold State.captureDone
  dsimp only
  rw [hx, hdone, if_neg (by decide)]
  dsimp only [List.foldl]
  unfold State.place
  dsimp only
  rw [hlog, if_neg (by decide)]
  exact if_pos ⟨hfree, hmin⟩

theorem firstFilled_flt (fu : Nat) (x : FCapture) : (firstFilled s fu x).flt = s.flt := by
  unfold firstFilled State.setPair
  simp only [State.setReg_flt, State.setFld_flt]

theorem firstFilled_pkg (fu : Nat) (x : FCapture) : (firstFilled s fu x).pkg = s.pkg := by
  unfold firstFilled State.setPair
  simp only [State.setReg_pkg, State.setFld_pkg]

/-! ## Fences -/

theorem mem_fence_self (n : Ni) {key : Nat} (h : 0 < key) : key ∈ (n.fence key).fenced := by
  unfold Ni.fence
  split
  next hc =>
    have hc := hc.resolve_left (by omega)
    simpa using hc
  next => simp

theorem mem_fence (n : Ni) {k key : Nat} (h : k ∈ n.fenced) : k ∈ (n.fence key).fenced := by
  unfold Ni.fence
  split
  · exact h
  · exact List.mem_append_left _ h

/-- A key fenced at each of some stations' NIs is fenced there. -/
theorem foldl_fence {key : Nat} (hk : 0 < key) {j : Nat} (l : List Nat) (hj : j ∈ l ∨ key ∈ (s.getNi j).fenced) :
    key ∈ ((l.foldl (fun s st => s.updNi st (fun n => n.fence key)) s).getNi j).fenced := by
  induction l generalizing s with
  | nil => exact hj.resolve_left (by simp)
  | cons st l ih =>
    refine ih _ ?_
    by_cases h : j = st
    · subst h
      rw [getNi_updNi_self]
      exact Or.inr (mem_fence_self _ hk)
    · rw [getNi_updNi_ne _ _ h]
      exact hj.imp (fun hm => (List.mem_cons.mp hm).resolve_left h) id

theorem fenceDie_spec {key : Nat} (h0 : 0 < key) (h : key < 4096) : (s.fenceDie die key).pkg = s.pkg ∧
    (s.fenceDie die key).bit (faultUnit die) F.FAULT_EVENT_FENCE_APPLIED = true ∧
    ∀ j, j ∈ dieStations s.pkg die → key ∈ ((s.fenceDie die key).getNi j).fenced := by
  unfold State.fenceDie
  rw [if_neg (by omega)]
  refine ⟨(State.event_pkg ..).trans (foldl_keeps State.pkg (fun t st => ?_) _ _), ?_, fun j hj => ?_⟩
  · exact State.updNi_pkg ..
  · unfold State.bit
    rw [fld_event_self _ _ _ rfl (by decide)]
    rfl
  · have hni := State.event_ni ((dieStations s.pkg die).foldl (fun s st => s.updNi st (fun n => n.fence key)) s) (faultUnit die) F.FAULT_EVENT_FENCE_APPLIED
    unfold State.getNi
    rw [hni]
    exact foldl_fence s h0 _ (Or.inl hj)

/-! ## The quiet check -/

/-- A class at NOTE that has been quiet returns to NONE, and nothing is lifted (R304, R305). -/
theorem quietOne_note {u c : Nat} {z : FUnit} {y : FClass} (hz : s.funit u = z) (hy : z.at_ c = y) (hst : y.st = 1)
    (hq : (s.policy die c).q ≤ ftSince (s.faultFt die) y.last) (hj : z.jubilee < s.fld (faultUnit die) F.FAULT_CTRL_JUBILEE_MAX)
    (ha : (s.policy die c).auto = false) :
    s.quietOne die u c = s.updFunit u (fun x => { x with cls := kput {} x.cls c { y with st := 0, cnt := 0 }, jubilee := z.jubilee }) := by
  unfold State.quietOne
  dsimp only
  rw [hz, hy, hst, ha, if_neg (by omega), if_neg (by omega)]
  rfl

theorem kget_single {α : Type} (d : α) (k : Nat) (v : α) : kget d [(k, v)] k = v := by
  unfold kget
  rw [kfind_cons, if_pos rfl]
  rfl

theorem quietCheck_note {u c : Nat} {z : FUnit} {y : FClass} (hu : (s.fdie die).units = [(u, z)]) (hc : z.cls = [(c, y)]) (hd : unitDie u = die)
    (hst : y.st = 1) (hq : (s.policy die c).q ≤ ftSince (s.faultFt die) y.last)
    (hj : z.jubilee < s.fld (faultUnit die) F.FAULT_CTRL_JUBILEE_MAX) (ha : (s.policy die c).auto = false) :
    s.quietCheck die = s.updFunit u (fun x => { x with cls := kput {} x.cls c { y with st := 0, cnt := 0 }, jubilee := z.jubilee }) := by
  have hz : s.funit u = z := by
    unfold State.funit
    rw [hd, hu, kget_single]
  have hy : z.at_ c = y := by
    unfold FUnit.at_
    rw [hc, kget_single]
  unfold State.quietCheck
  rw [hu]
  dsimp only [List.foldl]
  rw [hc]
  exact quietOne_note s die hz hy hst hq hj ha

/-! ## FAULT_UNIT_CMD -/

/-- CLEAR leaves every state at NONE. -/
theorem unitClear_st (u k : Nat) : (((s.unitClear u).funit u).at_ k).st = 0 := by
  have hnone : ∀ m : KMap FClass,
      (kget {} ((m.map (fun e => (e.1, { e.2 with st := 0, cnt := 0 }))).filter (fun e => e.2 != ({} : FClass))) k).st = 0 := by
    intro m
    induction m with
    | nil => rfl
    | cons e m ih =>
      rw [List.map_cons, List.filter_cons]
      split
      · unfold kget
        rw [kfind_cons]
        split
        · rfl
        · exact ih
      · exact ih
  unfold State.unitClear FUnit.at_
  rw [funit_updFunit_self]
  exact hnone _

/-- What RESTORE lifts leaves the states of the classes. -/
theorem unfence_dies (key : Nat) : (s.unfence key).flt.dies = s.flt.dies := by
  unfold State.unfence
  split <;> rfl

theorem unfence_pkg (key : Nat) : (s.unfence key).pkg = s.pkg := by
  unfold State.unfence
  split <;> rfl

/-- A unit without targets of isolation whose class is lifted: its fences of the class are gone. -/
theorem lift_untargeted {u : Nat} (c : Nat) (h : isoTargets s.pkg u = []) : (s.lift u c).pkg = s.pkg ∧ ((s.lift u c).funit u).cls = (s.funit u).cls ∧
    ((s.lift u c).funit u).fences = (s.funit u).fences.filter (fun f => f.1 != c) := by
  obtain ⟨t, ht⟩ : ∃ t, t = s.updFlt (fun t => { t with held := t.held.filter (fun h => !(h.1 == u && h.2.1 == c)) }) := ⟨_, rfl⟩
  obtain ⟨x, hx⟩ : ∃ x, x = t.updFunit u (fun x => { x with iso := x.iso.filter (· != c) }) := ⟨_, rfl⟩
  have htu : t.funit u = s.funit u := by
    rw [ht]
    exact funit_congr rfl u
  have htp : t.pkg = s.pkg := by
    rw [ht]
    rfl
  have hrest : t.restore u c = x := by
    unfold State.restore
    rw [htp, h, hx]
    rfl
  have hxu : x.funit u = { s.funit u with iso := (s.funit u).iso.filter (· != c) } := by rw [hx, funit_updFunit_self, htu]
  have hxp : x.pkg = s.pkg := by
    rw [hx]
    exact htp
  have hlift : s.lift u c = x.liftFences u c := by
    rw [← hrest, ht]
    rfl
  have hkeep (l : List Nat) (y : State) : (l.foldl State.unfence y).funit u = y.funit u := by
    exact funit_congr (foldl_keeps (fun t => t.flt.dies) (fun t k => unfence_dies t k) l y) u
  rw [hlift]
  unfold State.liftFences
  dsimp only
  refine ⟨(foldl_keeps State.pkg (fun t k => unfence_pkg t k) _ _).trans hxp, ?_, ?_⟩
  · rw [hkeep, funit_updFunit_self, hxu]
  · rw [hkeep, funit_updFunit_self, hxu]

/-- RESTORE of such a unit: the states are NONE, and no fence of a class is left (R302–R305). -/
theorem unitRestore_untargeted {u : Nat} (h : isoTargets s.pkg u = []) : (s.unitRestore u).pkg = s.pkg ∧
    ((s.unitRestore u).funit u).cls = ((s.unitClear u).funit u).cls ∧ ∀ f, f ∈ ((s.unitRestore u).funit u).fences → 15 ≤ f.1 := by
  have hall : ∀ n : Nat, ((List.range n).foldl (fun s c => s.lift u c) (s.unitClear u)).pkg = s.pkg ∧
      (((List.range n).foldl (fun s c => s.lift u c) (s.unitClear u)).funit u).cls = ((s.unitClear u).funit u).cls ∧
      ∀ f, f ∈ (((List.range n).foldl (fun s c => s.lift u c) (s.unitClear u)).funit u).fences → n ≤ f.1 := by
    intro n
    induction n with
    | zero => exact ⟨rfl, rfl, fun _ _ => Nat.zero_le _⟩
    | succ n ih =>
      rw [List.range_succ, List.foldl_append]
      obtain ⟨hp, hc, hf⟩ := ih
      obtain ⟨lp, lc, lf⟩ := lift_untargeted _ n (hp ▸ h)
      refine ⟨lp.trans hp, lc.trans hc, fun f hm => ?_⟩
      have hm := lf ▸ hm
      obtain ⟨hmem, hne⟩ := List.mem_filter.mp hm
      have := hf f hmem
      have : f.1 ≠ n := by simpa using hne
      omega
  exact hall 15

end

end Sys2Proof.Machine
end

section
/-! RESET of an NI (R313, R314). -/
namespace Sys2Proof.Machine

/-! ## What ends at an NI keeps its work -/

/-- The descriptors that wait at an NI, and its grants. -/
def Ni.work (n : Ni) : KMap (List Task) × List (Desc × FT) × KMap Grant := (n.queues, n.cmdq, n.grants)

theorem Ni.setCounter_work (n : Ni) (c : Nat) (v : W48) : (n.setCounter c v).work = n.work := by
  unfold Ni.setCounter
  split <;> rfl

theorem Ni.arrive_work (n : Ni) (d : Due) : (n.arrive d).work = n.work := by
  have hbump (m : Ni) (c k : Nat) : (m.bump c k).work = m.work := by
    unfold Ni.bump
    split
    · rfl
    · exact Ni.setCounter_work ..
  unfold Ni.arrive
  dsimp only
  split
  all_goals
    split
    · exact (hbump ..).trans (by split <;> rfl)
    · split <;> rfl

theorem drainDue_work (ds : List Due) (n : Ni) : (drainDue ds n).work = n.work := by
  induction ds generalizing n with
  | nil => rfl
  | cons d ds ih =>
    unfold drainDue
    split
    · rfl
    · exact (ih _).trans (Ni.arrive_work ..)

theorem Ni.complete_work (n : Ni) (d : Desc) (c : Nat) (q : BitVec 24) (x : Nat) (p : W16) : (n.complete d c q x p).work = n.work :=
  drainDue_work _ n

section
variable (s : State) (st j : Nat)

/-- The work of an NI, in the state. -/
def State.niWork (s : State) (j : Nat) : KMap (List Task) × List (Desc × FT) × KMap Grant := (s.getNi j).work

theorem niWork_congr {s t : State} (h : t.ni = s.ni) (j : Nat) : t.niWork j = s.niWork j := by
  unfold State.niWork State.getNi
  rw [h]

theorem niWork_setNi {n : Ni} (h : n.work = (s.getNi st).work) : (s.setNi st n).niWork j = s.niWork j := by
  unfold State.niWork
  by_cases hj : j = st
  · rw [hj, getNi_setNi_self, h]
  · rw [getNi_setNi_ne _ _ hj]

theorem niWork_updNi {f : Ni → Ni} (h : ∀ n, (f n).work = n.work) : (s.updNi st f).niWork j = s.niWork j := niWork_setNi s st j (h _)

theorem niWork_updMember (tag : W16) (f : Member → Member) : (s.updMember st tag f).niWork j = s.niWork j := by
  unfold State.updMember
  refine niWork_updNi s st j fun n => ?_
  split <;> rfl

theorem niWork_niWr (a : FT) (l : List Byte) (p : Marks) (w : WrFor) : (s.niWr st a l p w).niWork j = s.niWork j := by
  unfold State.niWr
  dsimp only
  split
  · exact (niWork_congr rfl j).trans (niWork_setNi s st j (n := { s.getNi st with wr := _ }) rfl)
  · exact niWork_setNi s st j rfl

theorem niWork_endMember (tag : W16) (status : Nat) : (s.endMember st tag status).niWork j = s.niWork j := by
  unfold State.endMember
  split
  · rfl
  · split
    · rfl
    · dsimp only
      rw [niWork_niWr]
      split
      · rw [niWork_niWr, niWork_updMember]
      · rw [niWork_updMember]

theorem niWork_collNext : (s.collNext st).niWork j = s.niWork j := by
  unfold State.collNext
  dsimp only
  split
  · rfl
  · split
    · rfl
    · split
      · rfl
      · exact niWork_setNi s st j rfl

theorem niWork_collSend (f : Frame) : (s.collSend st f).niWork j = s.niWork j := by
  unfold State.collSend
  dsimp only
  split
  · exact niWork_updNi s st j fun _ => rfl
  · exact (niWork_collNext ..).trans (niWork_updNi s st j fun _ => rfl)

theorem engineReport_ni (tag : W16) : (s.engineReport tag).ni = s.ni := by
  unfold State.engineReport
  split
  · rfl
  · dsimp only
    split
    · rfl
    · split <;> rfl

theorem dropInst_ni (tag : W16) (flags : Nat) : (s.dropInst st tag flags).ni = s.ni := by
  unfold State.dropInst
  split
  · rfl
  · exact engineReport_ni ..

theorem updEng_ni (f : Eng → Eng) : (s.updEng st f).ni = s.ni := rfl

theorem engEvent_ni (f : Fld) : (s.engEvent st f).ni = s.ni := by
  unfold State.engEvent
  split
  · exact State.event_ni ..
  · rfl

theorem engCount_ni (off n : Nat) : (s.engCount st off n).ni = s.ni := by
  unfold State.engCount
  split <;> rfl

theorem niWork_cancelUnit (tag : W16) (cause flags low : Nat) (edges : List (BitVec 17 × Nat)) (from_ : Option (BitVec 17 × Nat)) :
    (s.cancelUnit st tag cause flags low edges from_).niWork j = s.niWork j := by
  unfold State.cancelUnit
  dsimp only
  refine (foldl_keeps (fun t => t.niWork j) (fun t e => niWork_collSend ..) _ _).trans ((niWork_updNi _ st j fun n => ?_).trans ?_)
  · rfl
  rw [niWork_congr (dropInst_ni ..), niWork_congr (engEvent_ni ..), niWork_congr (engCount_ni ..)]
  exact niWork_congr (updEng_ni ..) j

theorem niWork_cancelAt (tag : W16) (cause flags status : Nat) (from_ : Option (BitVec 17 × Nat)) :
    (s.cancelAt st tag cause flags status from_).niWork j = s.niWork j := by
  unfold State.cancelAt
  dsimp only
  split
  · rfl
  · refine (niWork_cancelUnit ..).trans ?_
    unfold State.cancelMember
    exact (niWork_endMember ..).trans (niWork_updMember ..)

theorem niWork_sendReport (r : DiaryReport) : (s.sendReport st r).niWork j = s.niWork j := by
  unfold State.sendReport
  refine (niWork_congr (State.emit_ni ..) j).trans (foldl_keeps (fun t => t.niWork j) (fun t f => ?_) _ _)
  exact niWork_updNi t st j fun _ => rfl

theorem niWork_statusVisible (tag : W16) : (s.statusVisible st tag).niWork j = s.niWork j := by
  unfold State.statusVisible
  split
  · rfl
  · split
    · rfl
    · split
      · exact niWork_updMember ..
      · dsimp only
        rw [niWork_sendReport]
        refine (niWork_updNi _ st j fun n => ?_).trans (niWork_congr (State.takeFree_ni s) j)
        exact Ni.complete_work ..

/-- The end of an NI's collective instances leaves its work. -/
theorem niWork_collReset : (s.collReset st).niWork j = s.niWork j := by
  unfold State.collReset
  refine foldl_keeps (fun t => t.niWork j) (fun t e => ?_) _ _
  exact (niWork_statusVisible ..).trans ((niWork_updMember ..).trans (niWork_cancelAt ..))

/-! ## RESET -/

theorem Ni.cleared_work (n : Ni) (now : FT) : (n.cleared now).work = ([], [], []) := rfl

/-- What RESET leaves of an NI's work: nothing waits, nothing is granted, and no counter counts (R313). -/
theorem niReset_work : (s.niReset st).niWork st = ([], [], []) ∧ ((s.niReset st).getNi st).ctr = [] := by
  unfold State.niReset
  extract_lets u n die p s1 s2 s3 s4 s5 s6 s7
  have hcleared : s6.niWork st = ([], [], []) := by
    unfold s6 State.niWork
    rw [getNi_updNi_self]
    rfl
  have hlast : s7.niWork st = ([], [], []) := by
    unfold s7
    refine (niWork_updNi _ st st fun n => ?_).trans ((niWork_collReset ..).trans hcleared)
    rfl
  have hctr : (s7.getNi st).ctr = [] := by
    unfold s7
    rw [getNi_updNi_self]
  exact ⟨(niWork_congr (State.setFld_ni ..) st).trans hlast, hctr⟩

theorem unitReset_ni {die u : Nat} (hk : unitKind s.pkg u = some .ni) : s.unitReset die u =
    if s.control (niUnit (niStation u)) = 0 ∧ s.recentResets (niStation u) < 15 then s.niReset (niStation u)
    else s.event (faultUnit die) F.FAULT_EVENT_CMD_REJECT := by
  unfold State.unitReset
  rw [hk]

/-- A command of a FAULT unit that only sets an event leaves the state with the event. -/
theorem faultPart_event (u : Nat) (f : Fld) : faultPart s (s.event u f) = s.event u f := by
  unfold State.event State.eventBit
  dsimp only
  split
  · rfl
  · unfold State.interrupt
    split
    · rfl
    · split <;> rfl

end

/-- Settles O44. -/
theorem faultUnitsCountCaptureAndRecover : Obligations.FaultUnitsCountCaptureAndRecover := by
  unfold Obligations.FaultUnitsCountCaptureAndRecover
  rintro s die fu u c key st r x y z hdie rfl
  refine ⟨fun hc hu hs hen hcap hy hr => ?_, fun hx hft hlog hsev hcls hfree hmin => ?_, fun h0 h => ?_, fun hu hc hd hst hq hj ha => ?_, ?_,
    fun hiso => ?_, ?_, fun hk hst hctl hn => ?_, fun hk hst hctl => ?_⟩
  · obtain ⟨hpkg, hctr, hat, hbit, w, hcapt, hw⟩ := reported_spec s die r y hu hcap
    refine ⟨_, onFault_exec hdie (faultReports_one s die r y hc hu hs hen hcap hy hr), (ctrAt_faultPart hpkg _ _).trans hctr, ?_, fun h => ?_, w, ?_, hw⟩
    · rw [funit_faultPart, hat]
    · rw [bit_regPart (faultPart_regPart hpkg), hbit h]
    · rw [fdie_faultPart, hcapt]
  · have hexec := onFault_exec hdie (captureDone_one s die hx hft hlog hfree hmin)
    generalize hs' : s.updFdie die (fun d => { d with capture := [] }) = s' at hexec
    have hcap : (s'.fdie die).capture = [] := by rw [← hs', fdie_updFdie_self]
    have hpkg : (firstFilled s' (faultUnit die) x).pkg = s.pkg := by rw [firstFilled_pkg, ← hs']; rfl
    obtain ⟨hv, hs, hcl, hdt, hp⟩ := firstFilled_spec s' (faultUnit die) x hsev hcls
    have hreg := faultPart_regPart hpkg
    refine ⟨_, hexec, ?_, (fld_regPart hreg _ _).trans hv, (fld_regPart hreg _ _).trans hs, (fld_regPart hreg _ _).trans hcl,
      (fld_regPart hreg _ _).trans hdt, ?_⟩
    · rw [fdie_faultPart, fdie_congr (congrArg Flt.dies (firstFilled_flt ..)), hcap]
    · rw [← hp]
      exact pair_regPart hreg ..
  · obtain ⟨hpkg, hbit, hall⟩ := fenceDie_spec s die h0 h
    exact ⟨_, onFault_exec hdie rfl, (bit_regPart (faultPart_regPart hpkg) _ _).trans hbit, fun j hj => hall j hj⟩
  · refine ⟨_, onFault_exec hdie (quietCheck_note s die hu hc hd hst hq hj ha), ?_⟩
    rw [funit_faultPart, funit_updFunit_self]
    have hz : s.funit u = z := by
      unfold State.funit
      rw [hd, hu, kget_single]
    exact ⟨kget_kput_self .., rfl⟩
  · exact ⟨_, onFault_exec hdie rfl, fun k => by rw [funit_faultPart]; exact unitClear_st s _ k⟩
  · obtain ⟨-, hcls, hf⟩ := unitRestore_untargeted s hiso
    refine ⟨_, onFault_exec hdie rfl, fun k => ?_, ?_⟩
    · rw [funit_faultPart, ← unitClear_st s (s.selUnit die) k]
      unfold FUnit.at_
      rw [hcls]
    · rw [funit_faultPart]
      exact hf
  · refine ⟨_, onFault_exec hdie rfl, ?_⟩
    rw [funit_faultPart]
    unfold State.clearJubilee
    rw [funit_updFunit_self]
  · subst hst
    obtain ⟨hwork, hctr⟩ := niReset_work s (niStation (s.selUnit die))
    obtain ⟨hq, hcg⟩ := Prod.mk.inj hwork
    obtain ⟨hc, hg⟩ := Prod.mk.inj hcg
    have hreset : s.unitReset die (s.selUnit die) = s.niReset (niStation (s.selUnit die)) := by
      rw [unitReset_ni s hk, if_pos ⟨hctl, hn⟩]
    exact ⟨_, onFault_exec hdie hreset, hq, hc, hg, hctr⟩
  · subst hst
    have hreject : s.unitReset die (s.selUnit die) = s.event (faultUnit die) F.FAULT_EVENT_CMD_REJECT := by
      rw [unitReset_ni s hk, if_neg (fun h => hctl h.1)]
    exact (onFault_exec hdie hreject).trans (congrArg _ (faultPart_event ..))

end Sys2Proof.Machine
end

section
/-! The Chronicle's placement and erases (R323, R324, R327–R329, R331–R333). -/
namespace Sys2Proof.Machine

/-! ## Controllers and their programs -/

section
variable (s : State) (side j : Nat)

theorem chDev_congr {s t : State} (h : t.chron = s.chron) (side : Nat) : t.chDev side = s.chDev side := by
  unfold State.chDev
  rw [h]

theorem chDev_updDev_self (f : ChDev → ChDev) : (s.updDev side f).chDev side = f (s.chDev side) := by
  unfold State.chDev State.updDev State.updChron
  dsimp only
  split <;> rfl

/-- A change of a controller keeps what it keeps of each. -/
theorem chDev_updDev_keeps {α : Type} (g : ChDev → α) {f : ChDev → ChDev} (hf : ∀ d, g (f d) = g d) : g ((s.updDev side f).chDev j) = g (s.chDev j) := by
  unfold State.chDev State.updDev State.updChron
  dsimp only
  split <;> split
  · exact hf _
  · rfl
  · rfl
  · exact hf _

theorem updDev_hold (f : ChDev → ChDev) : (s.updDev side f).chron.hold = s.chron.hold := by
  unfold State.updDev State.updChron
  dsimp only
  split <;> rfl

theorem updDev_lost (f : ChDev → ChDev) : (s.updDev side f).chron.lost = s.chron.lost := by
  unfold State.updDev State.updChron
  dsimp only
  split <;> rfl

theorem updDev_regPart (f : ChDev → ChDev) : (s.updDev side f).regPart = s.regPart := rfl

/-- A controller's program under way, and what leaves with it. -/
def devBusy (s : State) (side : Nat) (b : Bool) (o : List Out) : State := { s.updDev side (fun d => { d with busy := b }) with out := o }

theorem devBusy_same : devBusy s side (s.chDev side).busy s.out = s := by
  unfold devBusy State.updDev State.updChron State.chDev
  dsimp only
  split <;> rfl

/-- A device's next program at most makes it busy. -/
theorem kick_eq : ∃ b o, s.kick side = devBusy s side b o := by
  unfold State.kick
  dsimp only
  split
  · split
    · exact ⟨_, _, (devBusy_same s side).symm⟩
    · exact ⟨true, _, rfl⟩
  · exact ⟨_, _, (devBusy_same s side).symm⟩

theorem devBusy_chDev (b : Bool) (o : List Out) : (devBusy s side b o).chDev side = { s.chDev side with busy := b } :=
  (chDev_congr (s := s.updDev side (fun d => { d with busy := b })) rfl side).trans (chDev_updDev_self s side _)

theorem devBusy_keeps {α : Type} (g : ChDev → α) (hg : ∀ d b, g { d with busy := b } = g d) (b : Bool) (o : List Out) :
    g ((devBusy s side b o).chDev j) = g (s.chDev j) :=
  (congrArg g (chDev_congr rfl j)).trans (chDev_updDev_keeps s side j g fun d => hg d b)

theorem devBusy_hold (b : Bool) (o : List Out) : (devBusy s side b o).chron.hold = s.chron.hold := updDev_hold s side (fun d => { d with busy := b })
theorem devBusy_lost (b : Bool) (o : List Out) : (devBusy s side b o).chron.lost = s.chron.lost := updDev_lost s side (fun d => { d with busy := b })

/-- Programs put to a device wait there, after those before. -/
theorem putOps_eq (ops : List FlashOp) : ∃ b o, s.putOps side ops = devBusy (s.updDev side (fun d => { d with ops := d.ops ++ ops })) side b o := kick_eq ..

theorem putOps_chDev (ops : List FlashOp) : ∃ b, (s.putOps side ops).chDev side = { s.chDev side with ops := (s.chDev side).ops ++ ops, busy := b } := by
  obtain ⟨b, o, h⟩ := putOps_eq s side ops
  exact ⟨b, by rw [h, devBusy_chDev, chDev_updDev_self]⟩

theorem putOps_hold (ops : List FlashOp) : (s.putOps side ops).chron.hold = s.chron.hold := by
  obtain ⟨b, o, h⟩ := putOps_eq s side ops
  rw [h, devBusy_hold, updDev_hold]

theorem putOps_lost (ops : List FlashOp) : (s.putOps side ops).chron.lost = s.chron.lost := by
  obtain ⟨b, o, h⟩ := putOps_eq s side ops
  rw [h, devBusy_lost, updDev_lost]

variable {s side} in
/-- A command of a controller. -/
theorem onCtl_there {ctl : Nat} {t x : State} (h : ctl < 2) (hx : t = x) : onCtl ctl s t = .next (kept s (chronParts s x)) := by
  rw [hx]
  exact onUnit_true s _ (decide_eq_true h)

theorem chDev_kept (t : State) : (kept s (chronParts s t)).chDev j = t.chDev j := chDev_congr rfl j

end

/-! ## Placement -/

section
variable (s : State)

/-- A bucket that has suppressed nothing only takes its refill (R327). -/
theorem refillBucket_quiet (key : Nat) (b : ChBucket) (h : b.supp = 0) : s.refillBucket key b =
    s.updChron (fun c => { c with buckets := kput {} c.buckets key { b with spent := b.spent - (s.bucketRate key).1 } }) := by
  unfold State.refillBucket
  dsimp only
  rw [h, if_neg (fun hc => Nat.lt_irrefl 0 hc.1)]

theorem mirror_keeps {α : Type} (g : ChDev → α) (hg : ∀ d l, g { d with decisions := l } = g d) (x : ChDecision) (j : Nat) :
    g ((s.mirror x).chDev j) = g (s.chDev j) := by
  unfold State.mirror
  dsimp only
  split
  · exact chDev_updDev_keeps _ _ _ g fun d => hg d _
  · rfl

theorem mirror_hold (x : ChDecision) : (s.mirror x).chron.hold = s.chron.hold := by
  unfold State.mirror
  dsimp only
  split
  · exact updDev_hold ..
  · rfl

theorem mirror_lost (x : ChDecision) : (s.mirror x).chron.lost = s.chron.lost := by
  unfold State.mirror
  dsimp only
  split
  · exact updDev_lost ..
  · rfl

theorem popHold_eq (h : s.chron.lost = 0) : s.popHold = s.updChron (fun c => { c with hold := c.hold.drop 1, displaced := false }) := if_pos h

/-- A record that takes its SEQ, before the first record leaves the holding RAM (R324, R333). -/
def placed (s : State) (m n : Nat) (pre : List FlashOp) (r : ChRec) : State :=
  let x : ChSlot := { r := r, seq := (s.chDev m).seqNext }
  let t := (s.writeSlot m n pre x).updDev m (fun d => { d with seqNext := d.seqNext + 1, need := false })
  if m == t.chActive then t.mirror (.place x) else t

theorem placed_dev (m n : Nat) (pre : List FlashOp) (r : ChRec) (hops : (s.chDev m).ops = []) :
    ((placed s m n pre r).chDev m).seqNext = (s.chDev m).seqNext + 1 ∧
    ((placed s m n pre r).chDev m).ops = pre ++ [.body n { r := r, seq := (s.chDev m).seqNext }, .mark n (s.chDev m).seqNext 0x0F] := by
  obtain ⟨t, ht⟩ : ∃ t, t = (s.writeSlot m n pre { r := r, seq := (s.chDev m).seqNext }).updDev m
    (fun d => { d with seqNext := d.seqNext + 1, need := false }) := ⟨_, rfl⟩
  obtain ⟨b, hb⟩ := putOps_chDev s m (pre ++ [.body n { r := r, seq := (s.chDev m).seqNext }, .mark n (s.chDev m).seqNext 0x0F])
  have hdev : t.chDev m = { s.chDev m with
      ops := (s.chDev m).ops ++ (pre ++ [.body n { r := r, seq := (s.chDev m).seqNext }, .mark n (s.chDev m).seqNext 0x0F]), busy := b,
      seqNext := (s.chDev m).seqNext + 1, need := false } := by
    rw [ht, chDev_updDev_self]
    unfold State.writeSlot
    rw [hb]
  have hplaced : placed s m n pre r = if m == t.chActive then t.mirror (.place { r := r, seq := (s.chDev m).seqNext }) else t := by rw [ht]; rfl
  have hkeep {α : Type} (g : ChDev → α) (hg : ∀ d l, g { d with decisions := l } = g d) : g ((placed s m n pre r).chDev m) = g (t.chDev m) := by
    rw [hplaced]
    split
    · exact mirror_keeps t g hg _ _
    · rfl
  constructor
  · rw [hkeep ChDev.seqNext (fun _ _ => rfl), hdev]
  · rw [hkeep ChDev.ops (fun _ _ => rfl), hdev]
    dsimp only
    rw [hops, List.nil_append]

theorem placed_ram (m n : Nat) (pre : List FlashOp) (r : ChRec) : (placed s m n pre r).chron.hold = s.chron.hold ∧
    (placed s m n pre r).chron.lost = s.chron.lost := by
  unfold placed State.writeSlot
  dsimp only
  split
  · exact ⟨by rw [mirror_hold, updDev_hold, putOps_hold], by rw [mirror_lost, updDev_lost, putOps_lost]⟩
  · exact ⟨by rw [updDev_hold, putOps_hold], by rw [updDev_lost, putOps_lost]⟩

theorem placeRec_eq (m n : Nat) (pre : List FlashOp) (r : ChRec) : s.placeRec m n pre r = (placed s m n pre r).popHold := rfl

/-! ## Programs and erases -/

/-- A program that is done takes effect (R323, R329, R331). -/
theorem programDone_ok {side : Nat} {op : FlashOp} (hops : (s.chDev side).ops = [op]) (hb : (s.chDev side).busy = true) :
    (s.programDone side true).chDev side =
      { (s.chDev side).program op with ops := [], busy := false, fails := op.failsAfter (s.chDev side).fails } := by
  obtain ⟨t, ht⟩ : ∃ t, t = s.updDev side (fun d => { d.program op with ops := [], busy := false, fails := op.failsAfter d.fails }) := ⟨_, rfl⟩
  have hdev : t.chDev side = { (s.chDev side).program op with ops := [], busy := false, fails := op.failsAfter (s.chDev side).fails } := by
    rw [ht, chDev_updDev_self]
  have hnone : t.kick side = t := by
    unfold State.kick
    rw [hdev]
  rw [← hdev]
  unfold State.programDone
  dsimp only
  rw [hops]
  dsimp only
  rw [hb, if_neg (by decide), if_pos rfl, ← ht, hnone]
  split
  · split <;> rfl
  · split <;> rfl
  · split <;> rfl
  · rfl

/-- The second failure among a record's programs loses the device (R332). -/
theorem programDone_lost {side : Nat} {op : FlashOp} (hops : (s.chDev side).ops = [op]) (hb : (s.chDev side).busy = true)
    (hf : 1 ≤ (s.chDev side).fails) : s.programDone side false = s.devLost side := by
  unfold State.programDone
  dsimp only
  rw [hops]
  dsimp only
  rw [hb, if_neg (by decide), if_neg (by decide), if_pos hf]

theorem devLost_chDev (side : Nat) : (s.devLost side).chDev side =
    { s.chDev side with ok := false, ops := [], busy := false, eraseQ := [], decisions := [], need := false } := by
  unfold State.devLost State.chEvent
  rw [chDev_congr (State.event_chron ..)]
  exact chDev_updDev_self s side (fun d => { d with ok := false, ops := [], busy := false, eraseQ := [], decisions := [], need := false })

theorem devLost_pkg (side : Nat) : (s.devLost side).pkg = s.pkg := State.event_pkg ..

theorem devLost_event (side : Nat) : (s.devLost side).bit (chronUnit s.pkg side) F.CHRON_EVENT_DEVICE_LOST = true := by
  unfold State.devLost State.chEvent State.bit
  have hp : ((s.updDev side (fun d => { d with ok := false, ops := [], busy := false, eraseQ := [], decisions := [], need := false })).faultEvent
    (chronUnit s.pkg side) 13 4).pkg = s.pkg := rfl
  rw [hp, fld_event_self _ _ _ rfl (by decide)]
  rfl

theorem upd_ops (d : ChDev) (n : Nat) (f : ChSector → ChSector) : (d.upd n f).ops = d.ops := rfl

/-- A verified erase leaves its sector blank, and the header program follows (R331). -/
theorem eraseDone_verified {side n : Nat} {es : List Nat} (hq : (s.chDev side).eraseQ = n :: es) (hf : s.frozen = false) :
    ((s.eraseDone side true).chDev side).eraseQ = es ∧ ((s.eraseDone side true).chDev side).ops = (s.chDev side).ops ++ [.erased n] := by
  have hstep : s.eraseDone side true = (s.updDev side (fun d =>
      { d.upd n (fun t => { magic := false, erased := false, st := 0xFF, erases := t.erases }) with eraseQ := es, eraseFailed := false })).putOps
      side [.erased n] := by
    unfold State.eraseDone
    dsimp only
    rw [hq]
    dsimp only
    rw [hf, if_neg (by decide), if_pos rfl]
  obtain ⟨b, hb⟩ := putOps_chDev (s.updDev side (fun d =>
      { d.upd n (fun t => { magic := false, erased := false, st := 0xFF, erases := t.erases }) with eraseQ := es, eraseFailed := false })) side [.erased n]
  rw [hstep, hb, chDev_updDev_self]
  exact ⟨rfl, rfl⟩

/-- The second failure of an erase marks its sector BAD (R331). -/
theorem eraseDone_bad {side n : Nat} {es : List Nat} (hq : (s.chDev side).eraseQ = n :: es) (hf : s.frozen = false)
    (he : (s.chDev side).eraseFailed = true) :
    ((s.eraseDone side false).chDev side).eraseQ = es ∧ ((s.eraseDone side false).chDev side).ops = (s.chDev side).ops ++ [.bad n] := by
  have hstep : s.eraseDone side false = (s.updDev side (fun d => { d with eraseQ := es, eraseFailed := false })).putOps side [.bad n] := by
    unfold State.eraseDone
    dsimp only
    rw [hq]
    dsimp only
    rw [hf, if_neg (by decide), if_neg (by decide), if_pos he]
  obtain ⟨b, hb⟩ := putOps_chDev (s.updDev side (fun d => { d with eraseQ := es, eraseFailed := false })) side [.bad n]
  rw [hstep, hb, chDev_updDev_self]
  exact ⟨rfl, rfl⟩

/-- The first failure of an erase tries it again (R331). -/
theorem eraseDone_again {side n : Nat} {es : List Nat} (hq : (s.chDev side).eraseQ = n :: es) (hf : s.frozen = false)
    (he : (s.chDev side).eraseFailed = false) :
    s.eraseDone side false = (s.updDev side (fun d => { d with eraseFailed := true })).emit (.flashErase side n) := by
  unfold State.eraseDone
  dsimp only
  rw [hq]
  dsimp only
  rw [hf, if_neg (by decide), if_neg (by decide), he, if_neg (by decide)]

end

/-! ## Mount -/

section
variable (s : State) (side j : Nat)

theorem chHold_devs (r : ChRec) : (s.chHold r).chDev j = s.chDev j := by
  unfold State.chHold
  dsimp only
  split
  · exact chDev_congr rfl j
  · split
    · exact (chDev_congr rfl j : (s.updChron (fun c => { c with hold := c.hold ++ [r] })).chDev j = s.chDev j)
    · unfold State.chEvent
      rw [chDev_congr (State.event_chron ..)]
      exact chDev_congr rfl j

theorem chSubmit_devs (r : ChRec) : (s.chSubmit r).chDev j = s.chDev j := by
  unfold State.chSubmit
  dsimp only
  split
  · exact (chHold_devs ..).trans (chDev_congr rfl j : (s.updChron _).chDev j = s.chDev j)
  · exact chDev_congr rfl j

theorem chEvent_devs (f : Fld) : (s.chEvent side f).chDev j = s.chDev j := chDev_congr (State.event_chron ..) j

/-- Whether a controller has mounted. -/
def State.chMounted (s : State) (j : Nat) : Bool := (s.chDev j).mounted

theorem updDev_mounted {f : ChDev → ChDev} (hf : ∀ d, (f d).mounted = d.mounted) : (s.updDev side f).chMounted j = s.chMounted j :=
  chDev_updDev_keeps s side j ChDev.mounted hf

theorem program_mounted (d : ChDev) (op : FlashOp) : (d.program op).mounted = d.mounted := by
  cases op <;> rfl

theorem bringUp_mounted (d : ChDev) (xs : List ChSlot) : (d.bringUp xs).mounted = d.mounted := by
  have hpre (pre : List FlashOp) (e : ChDev) : (pre.foldl ChDev.program e).mounted = e.mounted := by
    induction pre generalizing e with
    | nil => rfl
    | cons op pre ih => exact (ih _).trans (program_mounted ..)
  unfold ChDev.bringUp
  induction xs generalizing d with
  | nil => rfl
  | cons x xs ih =>
    refine (ih _).trans ?_
    dsimp only
    split
    · exact hpre _ d
    · rfl

theorem catchUp_mounted : s.catchUp.2.chMounted j = s.chMounted j := by
  unfold State.catchUp
  extract_lets a b behind lead lag miss only s1 s2
  clear_value miss only
  have h1 : s1.chMounted j = s.chMounted j := updDev_mounted s behind j fun d => bringUp_mounted d _
  clear_value s1
  have h2 : s2.chMounted j = s1.chMounted j := by
    unfold s2
    split
    · rfl
    · exact congrArg ChDev.mounted (chSubmit_devs ..)
  split
  · rfl
  · exact h2.trans h1

theorem setFldAts_devs (u : Nat) (f : Fld) (v : Nat → Nat) (l : List Nat) : (l.foldl (fun s i => s.setFldAt u f i (v i)) s).chDev j = s.chDev j :=
  foldl_keeps (fun t => t.chDev j) (fun _ _ => chDev_congr (State.setFldAt_chron ..) j) l s

theorem chRead_devs (next : Bool) : (s.chRead side next).chDev j = s.chDev j := by
  unfold State.chRead
  dsimp only
  split
  · exact chDev_congr rfl j
  · exact (setFldAts_devs ..).trans (chDev_congr rfl j)

/-- Once a mount is done, the controller has mounted (R332–R334). -/
theorem mountDone_mounted (answers : Bool) : (s.mountDone side answers).chMounted side = true := by
  unfold State.mountDone
  extract_lets d bad usable torn s1 s2 s3
  split
  next h => exact h
  · split
    · unfold State.chMounted
      rw [devLost_chDev, chDev_updDev_self]
    · have h1 : s1.chMounted side = true := by
        unfold s1 State.chMounted
        rw [chDev_updDev_self]
      have h2 : s2.chMounted side = true := by
        refine Eq.trans (foldl_keeps (fun t => t.chMounted side) (fun t n => ?_) _ _) h1
        exact congrArg ChDev.mounted ((chEvent_devs ..).trans (chSubmit_devs ..))
      clear_value s2 bad
      have h3 : s3.chMounted side = true := by
        unfold s3
        split
        · exact (congrArg ChDev.mounted (chDev_congr (State.emit_chron ..) side)).trans h2
        · exact h2
      have h4 : s3.catchUp.2.chMounted side = true := (catchUp_mounted s3 side).trans h3
      dsimp only
      split
      · refine Eq.trans (congrArg ChDev.mounted (chRead_devs ..)) (Eq.trans (updDev_mounted _ side side fun _ => ?_) ?_)
        · rfl
        · exact (congrArg ChDev.mounted (chSubmit_devs ..)).trans h4
      · exact (congrArg ChDev.mounted (chSubmit_devs ..)).trans h4

end

/-- Settles O46. -/
theorem chroniclePlacesAndErases : Obligations.ChroniclePlacesAndErases := by
  unfold Obligations.ChroniclePlacesAndErases
  rintro s ctl m o n key d r rs pre op q b ds es e hctl rfl rfl rfl
  refine ⟨fun hbs hs => ?_, fun hh hl hok hm hf hops hroom => ?_, fun hops hb => ?_, fun hops hb hf => ?_, fun hok hm hf hops he => ?_,
    fun hq hf => ⟨?_, fun he => ?_, fun he => ?_⟩, fun answers => ?_, fun hd hok hm hf hops hn => ?_⟩
  · have hstep : s.chron.buckets.foldl (fun s e => s.refillBucket e.1 e.2) s =
        s.updChron (fun c => { c with buckets := kput {} c.buckets key { b with spent := b.spent - (s.bucketRate key).1 } }) := by
      rw [hbs]
      exact refillBucket_quiet s key b hs
    exact congrArg (onChron s) hstep
  · have hstep : s.recordPlace = (placed s s.chMaster n pre r).popHold := by
      unfold State.recordPlace
      dsimp only
      rw [hh]
      dsimp only
      rw [hok, hm, hf, hops, hroom, if_neg (by decide)]
      exact placeRec_eq ..
    obtain ⟨hseq, hopsAt⟩ := placed_dev s s.chMaster n pre r hops
    obtain ⟨hhold, hlost⟩ := placed_ram s s.chMaster n pre r
    have hexec : exec .recordPlace s = .next (kept s (chronParts s ((placed s s.chMaster n pre r).updChron
        (fun c => { c with hold := c.hold.drop 1, displaced := false })))) := by
      rw [← popHold_eq _ (hlost.trans hl), ← hstep]
      rfl
    refine ⟨_, hexec, ?_, ?_, ?_⟩
    · change (placed s s.chMaster n pre r).chron.hold.drop 1 = rs
      rw [hhold, hh]
      rfl
    · rw [chDev_kept]
      exact hseq
    · rw [chDev_kept]
      exact hopsAt
  · exact ⟨_, onCtl_there hctl rfl, (chDev_kept ..).trans (programDone_ok s hops hb)⟩
  · have hdev := devLost_chDev s ctl
    refine ⟨_, onCtl_there hctl (programDone_lost s hops hb hf), ?_, ?_, ?_⟩
    · rw [chDev_kept, hdev]
    · rw [chDev_kept, hdev]
    · rw [bit_regPart (t := kept s (chronParts s (s.devLost ctl))) (s := s.devLost ctl) (congrArg (Prod.mk _) (devLost_pkg s ctl).symm)]
      exact devLost_event s ctl
  · have hstep : s.compact ctl = s.putOps ctl [.eraseStart e.1] := by
      unfold State.compact
      dsimp only
      rw [hok, hm, hf, hops, if_neg (by decide), he]
    obtain ⟨b, hb⟩ := putOps_chDev s ctl [.eraseStart e.1]
    refine ⟨_, onCtl_there hctl hstep, ?_⟩
    rw [chDev_kept, hb]
    dsimp only
    rw [hops, List.nil_append]
  · obtain ⟨h1, h2⟩ := eraseDone_verified s hq hf
    exact ⟨_, onCtl_there hctl rfl, by rw [chDev_kept]; exact h1, by rw [chDev_kept]; exact h2⟩
  · refine ⟨_, onCtl_there hctl (eraseDone_again s hq hf he), ?_, rfl⟩
    rw [chDev_kept, chDev_congr (State.emit_chron ..), chDev_updDev_self]
  · obtain ⟨h1, h2⟩ := eraseDone_bad s hq hf he
    exact ⟨_, onCtl_there hctl rfl, by rw [chDev_kept]; exact h1, by rw [chDev_kept]; exact h2⟩
  · refine ⟨_, onCtl_there hctl rfl, ?_⟩
    rw [chDev_kept]
    exact mountDone_mounted s ctl answers
  · obtain ⟨t, ht⟩ : ∃ t, t = s.updDev (1 - s.chActive) (fun d => { d with decisions := ds }) := ⟨_, rfl⟩
    have hdev : t.chDev (1 - s.chActive) = { s.chDev (1 - s.chActive) with decisions := ds } := by rw [ht, chDev_updDev_self]
    have hstep : s.applyDecision = t.putOps (1 - s.chActive) [.mark n q 0x00] := by
      unfold State.applyDecision
      dsimp only
      rw [hd]
      dsimp only
      rw [hok, hm, hf, hops, if_neg (by decide)]
      unfold State.actDecision
      dsimp only
      rw [← ht]
      unfold State.retireSlot
      dsimp only
      have hfind : ((t.chDev (1 - s.chActive)).copyingTo q).or ((t.chDev (1 - s.chActive)).sectorOf q) = some n := by
        rw [hdev, ← hn]
        unfold ChDev.copyingTo ChDev.sectorOf
        dsimp only
        rw [hops]
        rfl
      rw [hfind]
    obtain ⟨b, hb⟩ := putOps_chDev t (1 - s.chActive) [.mark n q 0x00]
    have hexec : exec .standbyDecisionApply s = .next (kept s (chronParts s (t.putOps (1 - s.chActive) [.mark n q 0x00]))) := by
      rw [← hstep]
      rfl
    refine ⟨_, hexec, ?_, ?_⟩
    · refine (congrArg ChDev.decisions (chDev_kept s _ _)).trans ?_
      rw [hb, hdev]
    · refine (congrArg ChDev.ops (chDev_kept s _ _)).trans ?_
      rw [hb, hdev]
      dsimp only
      rw [hops, List.nil_append]

end Sys2Proof.Machine
end

section
/-! Commands of the Chronicle (R325, R326, R330, R334, R335). -/
namespace Sys2Proof.Machine

/-! ## Bytes and windows -/

theorem ofLe_lt (l : List Byte) : ofLe l < 256 ^ l.length := by
  induction l with
  | nil => decide
  | cons b l ih =>
    have hb : b.toNat < 256 := b.isLt
    simp only [ofLe, List.length_cons, pow_succ]
    omega

theorem leAt_lt (bs : List Byte) (off n : Nat) : leAt bs off n < 256 ^ n :=
  lt_of_lt_of_le (ofLe_lt _) (Nat.pow_le_pow_right (by decide) (List.length_take_le ..))

section
variable (s : State) (u : Nat) {f : Fld}

theorem fldAt_setFldAt_ne {i k : Nat} (v : Nat) (h : f.stride * i ≠ f.stride * k) : (s.setFldAt u f k v).fldAt u f i = s.fldAt u f i := by
  unfold State.fldAt State.setFldAt
  rw [reg_setReg_off _ _ (by omega)]

/-- Registers written in turn show what was written to each. -/
theorem fldAt_setFldAts {v : Nat → Nat} (h32 : f.hi < 32) (hl : f.lo ≤ f.hi) (hs : 0 < f.stride) (n i : Nat) (hi : i < n) :
    ((List.range n).foldl (fun s i => s.setFldAt u f i (v i)) s).fldAt u f i = v i % 2 ^ (f.hi - f.lo + 1) := by
  induction n with
  | zero => exact absurd hi (Nat.not_lt_zero i)
  | succ n ih =>
    rw [List.range_succ, List.foldl_append]
    by_cases h : i = n
    · rw [h]
      exact fldAt_setFldAt_self _ _ _ _ _ h32 hl
    · refine (fldAt_setFldAt_ne _ _ _ ?_).trans (ih (by omega))
      exact fun he => h (Nat.eq_of_mul_eq_mul_left hs he)

theorem reg_setFldAts_off {v : Nat → Nat} {off : Nat} (h : off < f.off) (l : List Nat) :
    (l.foldl (fun s i => s.setFldAt u f i (v i)) s).reg u off = s.reg u off := by
  refine foldl_keeps (fun t => t.reg u off) (fun t i => ?_) l s
  unfold State.setFldAt
  exact reg_setReg_off _ _ (by omega)

end

/-! ## Reading (R334) -/

section
variable (s : State) (side : Nat)

/-- The cursor that a read command starts from. -/
def readFrom (s : State) (side : Nat) (next : Bool) : W32 := s.reg (chronUnit s.pkg side) R.CHRON_CURSOR + (if next then 1 else 0)

theorem readFrom_eq (next : Bool) : (if next then s.reg (chronUnit s.pkg side) R.CHRON_CURSOR + 1 else s.reg (chronUnit s.pkg side) R.CHRON_CURSOR) =
    readFrom s side next := by
  cases next
  · exact (BitVec.add_zero _).symm
  · rfl

/-- What a read command shows where it finds a record. -/
def readFound (s : State) (u : Nat) (x : ChSlot) : State :=
  (List.range 8).foldl (fun s i => s.setFldAt u F.CHRON_WIN_WORD i (leAt x.bytes (4 * i) 4))
    (((s.setFld u F.CHRON_RD_STATUS_READY 1).setFld u F.CHRON_RD_STATUS_FOUND 1).setReg u R.CHRON_CURSOR x.seq)

/-- What it shows where there is none. -/
def readNone (s : State) (u : Nat) : State := (s.setFld u F.CHRON_RD_STATUS_READY 1).setFld u F.CHRON_RD_STATUS_FOUND 0

theorem chRead_found {next : Bool} {x : ChSlot}
    (h : lowestSeq ((s.chDev side).live.filter (fun x => !seqLt x.seq (readFrom s side next))) = some x) :
    s.chRead side next = readFound s (chronUnit s.pkg side) x := by
  unfold State.chRead
  dsimp only
  rw [readFrom_eq, chDev_congr (State.setFld_chron ..), h]
  rfl

theorem chRead_none {next : Bool} (h : lowestSeq ((s.chDev side).live.filter (fun x => !seqLt x.seq (readFrom s side next))) = none) :
    s.chRead side next = readNone s (chronUnit s.pkg side) := by
  unfold State.chRead
  dsimp only
  rw [readFrom_eq, chDev_congr (State.setFld_chron ..), h]
  rfl

theorem readFound_pkg (u : Nat) (x : ChSlot) : (readFound s u x).pkg = s.pkg :=
  foldl_keeps State.pkg (fun t _ => State.setFldAt_pkg t ..) _ _

theorem readFound_spec (u : Nat) (x : ChSlot) : (readFound s u x).fld u F.CHRON_RD_STATUS_READY = 1 ∧ (readFound s u x).fld u F.CHRON_RD_STATUS_FOUND = 1 ∧
    (readFound s u x).reg u R.CHRON_CURSOR = x.seq ∧ ∀ i, i < 8 → (readFound s u x).fldAt u F.CHRON_WIN_WORD i = leAt x.bytes (4 * i) 4 := by
  have hfld : ∀ g : Fld, g.off = 0x020 → (readFound s u x).fld u g =
      ((s.setFld u F.CHRON_RD_STATUS_READY 1).setFld u F.CHRON_RD_STATUS_FOUND 1).fld u g := by
    intro g hg
    unfold readFound State.fld
    rw [hg, reg_setFldAts_off _ _ (by decide), reg_setReg_off _ _ (by decide)]
  refine ⟨?_, ?_, ?_, fun i hi => ?_⟩
  · rw [hfld _ rfl, fld_setFld_apart _ _ (by decide) (by decide) (by decide), fld_setFld_self _ _ F.CHRON_RD_STATUS_READY _ (by decide) (by decide)]
    rfl
  · rw [hfld _ rfl, fld_setFld_self _ _ F.CHRON_RD_STATUS_FOUND _ (by decide) (by decide)]
    rfl
  · unfold readFound
    rw [reg_setFldAts_off _ _ (by decide), reg_setReg_self]
  · unfold readFound
    rw [fldAt_setFldAts _ _ (f := F.CHRON_WIN_WORD) (by decide) (by decide) (by decide) 8 i hi]
    exact Nat.mod_eq_of_lt (leAt_lt ..)

theorem readNone_spec (u : Nat) : (readNone s u).fld u F.CHRON_RD_STATUS_READY = 1 ∧ (readNone s u).fld u F.CHRON_RD_STATUS_FOUND = 0 ∧
    (readNone s u).reg u R.CHRON_CURSOR = s.reg u R.CHRON_CURSOR := by
  unfold readNone
  refine ⟨?_, ?_, ?_⟩
  · rw [fld_setFld_apart _ _ (by decide) (by decide) (by decide), fld_setFld_self _ _ F.CHRON_RD_STATUS_READY _ (by decide) (by decide)]
    rfl
  · rw [fld_setFld_self _ _ F.CHRON_RD_STATUS_FOUND _ (by decide) (by decide)]
    rfl
  · unfold State.setFld
    rw [reg_setReg_off _ _ (by decide), reg_setReg_off _ _ (by decide)]

variable {side} in
/-- A read command at a controller that has mounted (R334, R336). -/
theorem chRead_exec (next : Bool) {x : State} (h : side < 2) (hm : (s.chDev side).mounted = true) (hx : s.chRead side next = x) :
    exec (if next then .chronNext side else .chronLoad side) s = .next (kept s (chronParts s x)) := by
  have hcmd : s.chReadCmd side next = x := by
    unfold State.chReadCmd
    rw [if_pos hm, hx]
  cases next
  · exact onCtl_there h hcmd
  · exact onCtl_there h hcmd

theorem reg_regPart {s t : State} (h : t.regPart = s.regPart) (u off : Nat) : t.reg u off = s.reg u off := by
  obtain ⟨hr, hp⟩ := Prod.mk.inj h
  simp only [State.reg, hr, hp]

theorem chronParts_regPart {t : State} (h : t.pkg = s.pkg) : (kept s (chronParts s t)).regPart = t.regPart := congrArg (Prod.mk t.regs) h.symm

end

/-! ## FREEZE (R335) -/

section
variable (s : State) (side : Nat)

theorem retireSlot_regPart (q : W32) : (s.retireSlot side q).regPart = s.regPart := by
  unfold State.retireSlot
  dsimp only
  split
  · obtain ⟨b, o, h⟩ := putOps_eq s side [.mark ‹Nat› q 0x00]
    rw [h]
    rfl
  · rfl

theorem mirror_regPart (x : ChDecision) : (s.mirror x).regPart = s.regPart := by
  unfold State.mirror
  dsimp only
  split <;> rfl

theorem retireTo_regPart (b : W32) : (s.retireTo b).regPart = s.regPart := by
  unfold State.retireTo
  dsimp only
  refine (foldl_keeps State.regPart (fun t x => retireSlot_regPart ..) _ _).trans ?_
  split
  · exact mirror_regPart ..
  · rfl

theorem kick_regPart : (s.kick side).regPart = s.regPart := by
  obtain ⟨b, o, h⟩ := kick_eq s side
  rw [h]
  rfl

/-- A controller's programs and erases resume (R335). -/
def resumed (s : State) (side : Nat) : State :=
  match ((s.kick side).chDev side).eraseQ with
  | n :: _ => if ((s.kick side).chDev side).ok then (s.kick side).emit (.flashErase side n) else s.kick side
  | [] => s.kick side

theorem resumed_regPart : (resumed s side).regPart = s.regPart := by
  unfold resumed
  split
  · split
    · exact kick_regPart ..
    · exact kick_regPart ..
  · exact kick_regPart ..

/-- The end of FREEZE before programs and erases resume: a RETIRE_TO that waited has acted (R335, R336). -/
def thawed (s : State) : State :=
  match (s.setFreeze 0).chron.retire with
  | some b => ((s.setFreeze 0).updChron (fun c => { c with retire := none })).retireTo b
  | none => s.setFreeze 0

theorem thaw_eq : s.thaw = resumed (resumed (thawed s) 0) 1 := rfl

theorem thaw_regPart : s.thaw.regPart = (s.setFreeze 0).regPart := by
  rw [thaw_eq, resumed_regPart, resumed_regPart]
  unfold thawed
  split
  · exact retireTo_regPart ..
  · rfl

theorem setFreeze_fld {a : Nat} (h : a < 2) : (s.setFreeze 0).fld (chronUnit s.pkg a) F.CHRON_CTRL_FREEZE = 0 := by
  unfold State.setFreeze
  interval_cases a
  · exact fld_setFld_same _ (f := F.CHRON_CTRL_FREEZE) (n := 0) (by decide) (by decide) (fld_setFld_self s _ F.CHRON_CTRL_FREEZE 0 (by decide) (by decide))
  · exact fld_setFld_self _ _ F.CHRON_CTRL_FREEZE 0 (by decide) (by decide)

theorem thaw_pkg : s.thaw.pkg = s.pkg := congrArg Prod.snd (thaw_regPart s)

theorem thaw_fld {a : Nat} (h : a < 2) : s.thaw.fld (chronUnit s.pkg a) F.CHRON_CTRL_FREEZE = 0 := by
  rw [fld_regPart (thaw_regPart s)]
  exact setFreeze_fld s h

/-- A state of the Chronicle's with FREEZE at 0 is not frozen. -/
theorem not_frozen {t : State} (ht : t.pkg = s.pkg) (h : t.fld (chronUnit s.pkg s.chActive) F.CHRON_CTRL_FREEZE = 0) :
    (kept s (chronParts s t)).frozen = false := by
  have hf : (kept s (chronParts s t)).frozen = (kept s (chronParts s t)).bit (chronUnit s.pkg s.chActive) F.CHRON_CTRL_FREEZE := rfl
  rw [hf, bit_regPart (chronParts_regPart s ht)]
  unfold State.bit
  rw [h]
  rfl

/-- A record that is submitted leaves every field but the events', and the events that are set (R327). -/
theorem chHold_keeps (r : ChRec) : (s.chHold r).pkg = s.pkg ∧ (∀ u g, g.off ≠ 8 → g.off < 4096 → (s.chHold r).fld u g = s.fld u g) ∧
    ∀ u g, g.hi = g.lo → g.off = 8 → s.bit u g = true → (s.chHold r).bit u g = true := by
  unfold State.chHold
  dsimp only
  split
  · exact ⟨rfl, fun u g _ _ => rfl, fun u g _ _ h => h⟩
  · split
    · exact ⟨rfl, fun u g _ _ => rfl, fun u g _ _ h => h⟩
    · unfold State.chEvent
      refine ⟨(State.event_pkg ..).trans rfl, fun u g h8 hg => ?_, fun u g h1 h8 h => ?_⟩
      · exact (fld_event_apart _ h8 (by decide) hg).trans (fld_regPart rfl u g)
      · exact bit_event_stays _ h1 (by decide) (by omega) (by decide) h

theorem chSubmit_keeps (r : ChRec) : (s.chSubmit r).pkg = s.pkg ∧ (∀ u g, g.off ≠ 8 → g.off < 4096 → (s.chSubmit r).fld u g = s.fld u g) ∧
    ∀ u g, g.hi = g.lo → g.off = 8 → s.bit u g = true → (s.chSubmit r).bit u g = true := by
  unfold State.chSubmit
  dsimp only
  split
  · exact chHold_keeps _ _
  · exact ⟨rfl, fun u g _ _ => rfl, fun u g _ _ h => h⟩

end

section
variable (s : State) {ctl : Nat}

/-- A record of the FM's codes that is submitted with its FT (R326). -/
theorem swSubmit_exec {bs : List Byte} (hctl : ctl < 2) (hg : s.chGoverns ctl = true)
    (hbs : bs = (List.range 8).flatMap (fun i => leBytes 4 (s.fldAt (chronUnit s.pkg ctl) F.CHRON_SW_WORD i))) (hlo : 0x0300 ≤ leAt bs 0 2)
    (hhi : leAt bs 0 2 ≤ 0x03FF) (hft : leAt bs 8 8 ≠ 0) : exec (.chronSwSubmit ctl) s = .next (chronParts s (s.chSubmit {
      code := leAt bs 0 2, sev := leAt bs 2 1 % 4, quality := leAt bs 2 1 / 4 % 4, source := leAt bs 3 3, cycles := 0,
      ft := BitVec.ofNat 64 (leAt bs 8 8), seconds := 0, payload := (bs.drop 24).take 7 })) := by
  subst hbs
  generalize hbs : (List.range 8).flatMap (fun i => leBytes 4 (s.fldAt (chronUnit s.pkg ctl) F.CHRON_SW_WORD i)) = bs at hlo hhi hft ⊢
  have hne : (BitVec.ofNat 64 (leAt bs 8 8) : FT) ≠ 0 := by
    intro h0
    have hlt : leAt bs 8 8 < 2 ^ 64 := lt_of_lt_of_eq (leAt_lt bs 8 8) (by norm_num)
    have := congrArg BitVec.toNat h0
    rw [BitVec.toNat_ofNat, Nat.mod_eq_of_lt hlt] at this
    exact hft this
  have hcmd : s.swSubmit ctl = s.chSubmit {
      code := leAt bs 0 2, sev := leAt bs 2 1 % 4, quality := leAt bs 2 1 / 4 % 4, source := leAt bs 3 3, cycles := 0,
      ft := BitVec.ofNat 64 (leAt bs 8 8), seconds := 0, payload := (bs.drop 24).take 7 } := by
    unfold State.swSubmit
    dsimp only
    rw [hbs, if_neg (by simp [hg]; omega), if_neg hne]
  exact onCtl_there hctl hcmd

/-- FREEZE begins for both copies (R335). -/
theorem freezeCmd_exec (hctl : ctl < 2) (hg : s.chGoverns ctl = true) (hf : s.frozen = false) :
    exec (.chronFreeze ctl) s = .next ((s.updChron (fun c => { c with frozeAt := s.time.ft })).setFreeze 1) := by
  have hcmd : s.freezeCmd ctl = (s.updChron (fun c => { c with frozeAt := s.time.ft })).setFreeze 1 := by
    unfold State.freezeCmd
    rw [hg, hf, if_neg (by decide), if_neg (by decide)]
  exact onCtl_there hctl hcmd

/-- A FREEZE that has lasted CHRON_FREEZE_MAX ends (R335). -/
theorem freezeExpiry_spec (hctl : ctl < 2) (ha : s.chActive = ctl) (hf : s.frozen = true)
    (hft : 4000000 * s.fld (chronUnit s.pkg ctl) F.CHRON_FREEZE_MAX_MS ≤ ftSince s.time.ft s.chron.frozeAt) :
    ∃ t, exec .chronFreezeExpiry s = .next t ∧ t.frozen = false ∧ t.bit (chronUnit s.pkg ctl) F.CHRON_EVENT_FREEZE_EXPIRED = true := by
  obtain ⟨r, hr⟩ : ∃ r, r = s.chOwn 0x0007 1 (leBytes 4 (ftSince s.time.ft s.chron.frozeAt / 4000000)) := ⟨_, rfl⟩
  obtain ⟨y, hy⟩ : ∃ y, y = s.thaw.chEvent s.chActive F.CHRON_EVENT_FREEZE_EXPIRED := ⟨_, rfl⟩
  have hexec : exec .chronFreezeExpiry s = .next (kept s (chronParts s (y.chSubmit r))) := by
    have hcond : (s.frozen && decide (4000000 * s.fld (chronUnit s.pkg s.chActive) F.CHRON_FREEZE_MAX_MS ≤ ftSince s.time.ft s.chron.frozeAt)) = true := by
      rw [hf, ha, decide_eq_true hft]
      rfl
    rw [hy, hr]
    exact congrArg (onChron s) (if_pos hcond)
  obtain ⟨hp, hfld, hbit⟩ := chSubmit_keeps y r
  have hypkg : y.pkg = s.pkg := by
    rw [hy]
    exact (State.event_pkg ..).trans (thaw_pkg s)
  have hyfreeze : y.fld (chronUnit s.pkg s.chActive) F.CHRON_CTRL_FREEZE = 0 := by
    rw [hy]
    exact (fld_event_apart _ (by decide) (by decide) (by decide)).trans (thaw_fld s (ha ▸ hctl))
  have hyexp : y.bit (chronUnit s.pkg ctl) F.CHRON_EVENT_FREEZE_EXPIRED = true := by
    rw [hy]
    unfold State.chEvent State.bit
    rw [thaw_pkg, ha, fld_event_self _ _ _ rfl (by decide)]
    rfl
  refine ⟨_, hexec, not_frozen s (hp.trans hypkg) ((hfld _ _ (by decide) (by decide)).trans hyfreeze), ?_⟩
  rw [bit_regPart (chronParts_regPart s (hp.trans hypkg))]
  exact hbit _ _ rfl rfl hyexp

end

/-- Settles O47. -/
theorem chronicleCommandsAct : Obligations.ChronicleCommandsAct := by
  unfold Obligations.ChronicleCommandsAct
  rintro s ctl u x c bs hctl rfl
  have hgov : s.chGoverns ctl = true → s.chActive = ctl := fun h => (beq_iff_eq.mp h).symm
  refine ⟨fun next hm hc hx => ?_, fun next hm hc hx => ?_, fun hg hf => ?_, fun hg hf hr => ?_, fun hg hbs hlo hhi hft => ?_, fun hg hf => ?_, fun hg hf => ?_,
    fun hg hf hft => ?_, ?_⟩
  · subst hc
    obtain ⟨h1, h2, h3, h4⟩ := readFound_spec s (chronUnit s.pkg ctl) x
    have hreg := chronParts_regPart s (readFound_pkg s (chronUnit s.pkg ctl) x)
    refine ⟨_, chRead_exec s next hctl hm (chRead_found s ctl hx), (fld_regPart hreg _ _).trans h1, (fld_regPart hreg _ _).trans h2, ?_,
      fun i hi => (fldAt_regPart hreg _ _ _).trans (h4 i hi)⟩
    exact (reg_regPart hreg _ _).trans h3
  · subst hc
    obtain ⟨h1, h2, h3⟩ := readNone_spec s (chronUnit s.pkg ctl)
    have hreg := chronParts_regPart s (t := readNone s (chronUnit s.pkg ctl)) rfl
    refine ⟨_, chRead_exec s next hctl hm (chRead_none s ctl hx), (fld_regPart hreg _ _).trans h1, (fld_regPart hreg _ _).trans h2, ?_⟩
    exact (reg_regPart hreg _ _).trans h3
  · have hcmd : s.retireCmd ctl = s.retireTo (s.reg (chronUnit s.pkg ctl) R.CHRON_RETIRE_SEQ) := by
      unfold State.retireCmd
      dsimp only
      rw [hg, hf, if_neg (by decide), if_neg (by decide)]
    exact onCtl_there hctl hcmd
  · have hcmd : s.retireCmd ctl = s.updChron (fun c => { c with retire := some (s.reg (chronUnit s.pkg ctl) R.CHRON_RETIRE_SEQ) }) := by
      unfold State.retireCmd State.updChron
      dsimp only
      rw [hg, hf, if_neg (by decide), if_pos rfl, hr]
    exact onCtl_there hctl hcmd
  · exact swSubmit_exec s hctl hg hbs hlo hhi hft
  · exact freezeCmd_exec s hctl hg hf
  · have hcmd : s.unfreezeCmd ctl = s.thaw := by
      unfold State.unfreezeCmd
      rw [hg, hf]
      rfl
    refine ⟨_, onCtl_there hctl hcmd, not_frozen s (thaw_pkg s) ?_⟩
    rw [hgov hg]
    exact thaw_fld s hctl
  · exact freezeExpiry_spec s hctl (hgov hg) hf hft
  · exact onUnit_true s _ (decide_eq_true hctl)

end Sys2Proof.Machine
end

section
/-! Resets (R338, R357, R399). -/
namespace Sys2Proof.Machine

/-! ## Maps whose values a reset changes -/

theorem kfind_above {α : Type} {b k : Nat} {m : KMap α} (h : keysAbove b m) (hk : k ≤ b) : kfind m k = none := by
  induction m with
  | nil => rfl
  | cons e m ih =>
    have hb : b < e.1 := h e List.mem_cons_self
    rw [kfind_cons, if_neg (by omega)]
    exact ih fun f hf => h f (List.mem_cons_of_mem _ hf)

/-- A map whose values are changed, and which keeps those that are not the default, reads as changed. -/
theorem kget_changed {α : Type} [DecidableEq α] {d : α} {g : α → α} (hg : g d = d) {m : KMap α} (h : kwf m = true) (k : Nat) :
    kget d ((m.map (fun e => (e.1, g e.2))).filter (fun e => e.2 != d)) k = g (kget d m k) := by
  induction m with
  | nil => exact hg.symm
  | cons e m ih =>
    obtain ⟨habove, hm⟩ := (kwf_cons e m).mp h
    have hi := ih hm
    have hnone : kfind ((m.map (fun e => (e.1, g e.2))).filter (fun e => e.2 != d)) e.1 = none := by
      refine kfind_above (b := e.1) (fun f hf => ?_) (Nat.le_refl _)
      obtain ⟨x, hx, rfl⟩ := List.mem_map.mp (List.mem_filter.mp hf).1
      exact habove x hx
    by_cases hk : e.1 = k
    · have hsame : kget d (e :: m) k = e.2 := by
        unfold kget
        rw [kfind_cons, if_pos hk]
        rfl
      rw [List.map_cons, List.filter_cons, hsame]
      split
      · unfold kget
        rw [kfind_cons, if_pos hk]
        rfl
      next hd =>
        have hd : g e.2 = d := by simpa using hd
        unfold kget
        rw [← hk, hnone, hd]
        rfl
    · have hrest : kget d (e :: m) k = kget d m k := by
        unfold kget
        rw [kfind_cons, if_neg hk]
      rw [List.map_cons, List.filter_cons, hrest, ← hi]
      split
      · unfold kget
        rw [kfind_cons, if_neg hk]
      · rfl

/-! ## What follows the restart keeps it -/

section
variable (s : State)

/-- The parts of the block whose restart a reset shows. -/
def State.blockPart (s : State) : Package × KMap Ni × KMap Pool × KMap Rtr × KMap Port × KMap Dlink × Option Nat × Option Image × Bool × Time × Boot :=
  (s.pkg, s.ni, s.pools, s.rtr, s.ports, s.dlinks, s.holder, s.image, s.committed, s.time, s.boot)

theorem setFld_blockPart (u : Nat) (f : Fld) (v : Nat) : (s.setFld u f v).blockPart = s.blockPart := rfl

theorem event_blockPart (u : Nat) (f : Fld) : (s.event u f).blockPart = s.blockPart := by
  unfold State.blockPart
  rw [State.event_pkg, State.event_ni, State.event_pools, State.event_rtr, State.event_ports, State.event_dlinks, State.event_holder, State.event_image,
    State.event_committed, State.event_time, State.event_boot]

theorem coolRequest_blockPart (cool : Bool) : (s.coolRequest cool).blockPart = s.blockPart := by
  unfold State.coolRequest State.coolTry
  split
  · rfl
  · split
    · rfl
    · split
      · rfl
      · split <;> rfl

theorem throttleHeld_blockPart (c : Nat) : (throttleHeld s c).blockPart = s.blockPart := by
  unfold throttleHeld State.setPw
  dsimp only
  rw [setFld_blockPart, setFld_blockPart, setFld_blockPart, setFld_blockPart]

theorem throttleHolding_blockPart : (throttleHolding s).blockPart = s.blockPart := by
  unfold throttleHolding State.setPw
  dsimp only
  rw [setFld_blockPart, setFld_blockPart]
  split <;> rfl

theorem throttleWith_blockPart (short : Bool) : (s.throttleWith short).blockPart = s.blockPart := by
  rw [throttleWith_eq]
  split
  · split
    · exact throttleHeld_blockPart ..
    · rw [coolRequest_blockPart]
      exact (event_blockPart ..).trans (throttleHeld_blockPart ..)
  · split
    · exact throttleHolding_blockPart _
    · rfl

theorem throttleEval_blockPart : s.throttleEval.blockPart = s.blockPart := by
  unfold State.throttleEval
  dsimp only
  rw [throttleWith_blockPart]
  split
  · exact event_blockPart ..
  · rfl

theorem throttleAfresh_blockPart (n valid : Nat) : (s.throttleAfresh n valid).blockPart = s.blockPart := by
  unfold State.throttleAfresh State.setPw
  rw [throttleEval_blockPart, setFld_blockPart, setFld_blockPart]

theorem incAll_blockPart : s.incAll.blockPart = s.blockPart := by
  unfold State.incAll
  exact foldl_keeps State.blockPart (fun t st => setFld_blockPart t ..) _ _

theorem captureLost_blockPart : s.captureLost.blockPart = s.blockPart := by
  unfold State.captureLost
  refine foldl_keeps State.blockPart (fun t e => ?_) _ _
  split
  · rfl
  · exact event_blockPart ..

theorem leaveHoliday_none (h : s.hol.active = false) : s.leaveHoliday = { s with hol := { lastId := s.hol.lastId } } := by
  unfold State.leaveHoliday
  rw [h]
  rfl

/-- The state that a warm reset restarts from. -/
def beforeRestart (s : State) : State := s.leaveHoliday.captureLost

theorem beforeRestart_blockPart (h : s.hol.active = false) : (beforeRestart s).blockPart = s.blockPart := by
  unfold beforeRestart
  rw [captureLost_blockPart, leaveHoliday_none s h]
  rfl

theorem warmReset_eq (kind : Nat) : s.warmReset kind =
    (((beforeRestart s).warmParts.incAll).throttleAfresh (s.pw F.POWER_STATUS_THROTTLE_N) (s.pw F.POWER_STATUS_PC_VALID)).setBoot
      F.BOOT_STATUS_RESET_KIND kind := rfl

theorem setBoot_blockPart (f : Fld) (v : Nat) : (s.setBoot f v).blockPart = s.blockPart := rfl

theorem warmReset_blockPart (kind : Nat) : (s.warmReset kind).blockPart = (beforeRestart s).warmParts.blockPart := by
  rw [warmReset_eq, setBoot_blockPart, throttleAfresh_blockPart, incAll_blockPart]

theorem pkg_of_blockPart {t : State} (h : t.blockPart = s.blockPart) : t.pkg = s.pkg := congrArg Prod.fst h

theorem ni_of_blockPart {t : State} (h : t.blockPart = s.blockPart) : t.ni = s.ni := by
  unfold State.blockPart at h
  simp only [Prod.mk.injEq] at h
  exact h.2.1

/-- A field written on both sides reads so on each (R357). -/
theorem setBoot_fld {f : Fld} {v side : Nat} (hs : side < 2) (h : f.hi < 32) (hl : f.lo ≤ f.hi) :
    (s.setBoot f v).fld (bootUnit s.pkg side) f = v % 2 ^ (f.hi - f.lo + 1) := by
  unfold State.setBoot
  interval_cases side
  · exact fld_setFld_same _ h hl (fld_setFld_self s _ f v h hl)
  · exact fld_setFld_self _ _ f v h hl

theorem warmReset_pkg (kind : Nat) (h : s.hol.active = false) : (s.warmReset kind).pkg = s.pkg := by
  have hp : (s.warmReset kind).pkg = (beforeRestart s).warmParts.pkg := pkg_of_blockPart _ (warmReset_blockPart s kind)
  have hr : (beforeRestart s).warmParts.pkg = (beforeRestart s).pkg := rfl
  exact hp.trans (hr.trans (pkg_of_blockPart _ (beforeRestart_blockPart s h)))

/-- A warm reset shows its kind (R338). -/
theorem warmReset_kind {kind : Nat} (h : s.hol.active = false) (hk : kind < 4) :
    (s.warmReset kind).fld (bootUnit s.pkg 0) F.BOOT_STATUS_RESET_KIND = kind := by
  have hp := warmReset_pkg s kind h
  rw [warmReset_eq] at hp ⊢
  rw [← hp]
  refine (setBoot_fld _ (f := F.BOOT_STATUS_RESET_KIND) (by decide) (by decide) (by decide)).trans (Nat.mod_eq_of_lt hk)

/-- The NIs over a warm reset: fences stay and transactions end (R313, R320). -/
theorem warmParts_getNi (h : kwf s.ni = true) (st : Nat) : s.warmParts.getNi st = (s.getNi st).warm :=
  kget_changed (d := ({} : Ni)) (g := Ni.warm) rfl h st

end

section
variable (s : State)

/-- What a warm reset outside a Holiday leaves of the parts that restart. -/
theorem warmReset_restarts (kind : Nat) (h : s.hol.active = false) : (s.warmReset kind).pools = [] ∧ (s.warmReset kind).rtr = [] ∧
    (s.warmReset kind).ports = [] ∧ (s.warmReset kind).dlinks = [] ∧ (s.warmReset kind).holder = none ∧ (s.warmReset kind).image = none ∧
    (s.warmReset kind).committed = false ∧ (s.warmReset kind).time.ft = s.time.ft ∧ (s.warmReset kind).boot.f0 = s.boot.f0 ∧
    (s.warmReset kind).boot.f1 = s.boot.f1 := by
  have hreset := warmReset_blockPart s kind
  have hbefore := beforeRestart_blockPart s h
  generalize s.warmReset kind = t at hreset ⊢
  generalize beforeRestart s = b at hreset hbefore
  have hparts : b.warmParts.blockPart = (b.pkg, b.warmParts.ni, [], [], [], [], none, none, false, b.warmParts.time,
    { f0 := b.boot.f0, f1 := b.boot.f1 }) := rfl
  have hft : b.warmParts.time.ft = b.time.ft := rfl
  rw [hparts] at hreset
  unfold State.blockPart at hreset hbefore
  simp only [Prod.mk.injEq] at hreset hbefore
  obtain ⟨-, -, hpools, hrtr, hports, hdl, hholder, himage, hcomm, htime, hboot⟩ := hreset
  obtain ⟨-, -, -, -, -, -, -, -, -, btime, bboot⟩ := hbefore
  refine ⟨hpools, hrtr, hports, hdl, hholder, himage, hcomm, ?_, ?_, ?_⟩
  · rw [htime, hft, btime]
  · rw [hboot, bboot]
  · rw [hboot, bboot]

theorem warmReset_nis (kind : Nat) (h : s.hol.active = false) (hw : kwf s.ni = true) (st : Nat) :
    ((s.warmReset kind).getNi st).fenced = (s.getNi st).fenced ∧ ((s.warmReset kind).getNi st).txn = [] := by
  have hni : (beforeRestart s).ni = s.ni := ni_of_blockPart _ (beforeRestart_blockPart s h)
  have hget : (s.warmReset kind).getNi st = (s.getNi st).warm := by
    have hw' : kwf (beforeRestart s).ni = true := by rw [hni]; exact hw
    have h1 : (s.warmReset kind).getNi st = (beforeRestart s).warmParts.getNi st :=
      congrArg (fun m => kget ({} : Ni) m st) (ni_of_blockPart _ (warmReset_blockPart s kind))
    have h2 : (beforeRestart s).getNi st = s.getNi st := congrArg (fun m => kget ({} : Ni) m st) hni
    rw [h1, warmParts_getNi _ hw' st, h2]
  rw [hget]
  exact ⟨rfl, rfl⟩

end

/-- Settles O48. -/
theorem resetsRestartTheBlock : Obligations.ResetsRestartTheBlock := by
  unfold Obligations.ResetsRestartTheBlock
  intro s side
  refine ⟨⟨kept s s.coldReset, rfl, rfl, rfl, rfl, rfl, rfl, rfl, rfl, rfl, rfl, rfl, rfl, rfl, rfl, rfl⟩, fun h hw => ?_, fun hs hh h => ?_, fun hs hh => ?_⟩
  · obtain ⟨hpools, hrtr, hports, hdl, hholder, himage, hcomm, hft, h0, h1⟩ := warmReset_restarts s 2 h
    have hkind := warmReset_kind s (kind := 2) h (by decide)
    have hnis := warmReset_nis s 2 h hw
    have hreg := kept_regPart (warmReset_pkg s 2 h)
    have hexec : exec .warmResetPin s = .next (kept s (s.warmReset 2)) := rfl
    generalize s.warmReset 2 = t at *
    exact ⟨kept s t, hexec, (fld_regPart hreg _ _).trans hkind, hpools, hrtr, hports, hdl, hholder, himage, hcomm, hft, h0, h1, hnis⟩
  · obtain ⟨-, hrtr, -, -, hholder, himage, -, -, -, -⟩ := warmReset_restarts s 1 h
    have hkind := warmReset_kind s (kind := 1) h (by decide)
    have hreg := kept_regPart (warmReset_pkg s 1 h)
    have hexec : exec (.bootWarmReset side) s = .next (kept s (s.warmReset 1)) := by
      refine (onUnit_true s _ (decide_eq_true hs)).trans (congrArg (fun t => Host.Outcome.next (kept s t)) (if_pos ?_))
      exact beq_iff_eq.mpr hh
    generalize s.warmReset 1 = t at *
    exact ⟨kept s t, hexec, (fld_regPart hreg _ _).trans hkind, hrtr, hholder, himage⟩
  · exact (onUnit_true s _ (decide_eq_true hs)).trans (congrArg (fun t => Host.Outcome.next (kept s t)) (if_neg fun h => hh (beq_iff_eq.mp h)))

end Sys2Proof.Machine
end

section
/-! The sequencer's journal, boot state and status (R339–R342, R347, R349, R350). -/
namespace Sys2Proof.Machine

/-! ## What leaves BOOT_STATUS -/

/-- A step after which the package is the same and every field of BOOT_STATUS reads as before, whatever the unit. -/
def StatusKept (s t : State) : Prop :=
  t.pkg = s.pkg ∧ ∀ (u : Nat) (g : Fld), g.off = 8 → 12 ≤ g.lo → g.lo ≤ g.hi → t.fld u g = s.fld u g

namespace StatusKept
variable {s t x : State}

theorem refl (s : State) : StatusKept s s := ⟨rfl, fun _ _ _ _ _ => rfl⟩

theorem trans (h : StatusKept s t) (k : StatusKept t x) : StatusKept s x :=
  ⟨k.1.trans h.1, fun u g h8 hl hh => (k.2 u g h8 hl hh).trans (h.2 u g h8 hl hh)⟩

theorem of_regPart (h : t.regPart = s.regPart) : StatusKept s t := ⟨congrArg Prod.snd h, fun u g _ _ _ => fld_regPart h u g⟩

/-- A write below the fields of BOOT_STATUS, or of another register. -/
theorem setFld (s : State) (u : Nat) {f : Fld} (v : Nat) (h : f.off ≠ 8 ∨ (f.lo ≤ f.hi ∧ f.hi < 12)) (hf : f.off < 4096) :
    StatusKept s (s.setFld u f v) := by
  refine ⟨rfl, fun u' g h8 hl hh => fld_setFld_apart s v ?_ hf (by omega)⟩
  rcases h with h | h
  · simp only [fldsApart, h8, Bool.or_eq_true, bne_iff_ne, ne_eq]
    exact Or.inl (Ne.symm h)
  · simp only [fldsApart, Bool.or_eq_true, Bool.and_eq_true, decide_eq_true_eq]
    omega

/-- An event of another register, or of a bit below the fields of BOOT_STATUS. -/
theorem event (s : State) (u : Nat) {f : Fld} (h : f.off ≠ 8 ∨ f.lo < 12) (hf : f.off < 4096) : StatusKept s (s.event u f) := by
  have hset : StatusKept s (s.setFld u { f with hi := f.lo } 1) :=
    setFld s u 1 (h.imp id fun hlo => ⟨Nat.le_refl _, hlo⟩) hf
  refine ⟨State.event_pkg .., fun u' g h8 hl hh => Eq.trans ?_ (hset.2 u' g h8 hl hh)⟩
  unfold State.event State.eventBit
  dsimp only
  split
  · rfl
  · exact fld_regPart (congrArg₂ Prod.mk (State.interrupt_regs ..) (State.interrupt_pkg ..)) u' g

end StatusKept

/-! ## What leaves the sequencer -/

section
variable (s : State)

/-- The sequencer's own state, the Holiday controller and the lease's holder. -/
def State.seqPart (s : State) : Boot × Hol × Option Nat := (s.boot, s.hol, s.holder)

theorem event_seqPart (u : Nat) (f : Fld) : (s.event u f).seqPart = s.seqPart := by
  unfold State.seqPart
  rw [State.event_boot, State.event_hol, State.event_holder]

theorem chHold_kept (r : ChRec) : StatusKept s (s.chHold r) ∧ (s.chHold r).seqPart = s.seqPart := by
  unfold State.chHold
  dsimp only
  split
  · exact ⟨.of_regPart rfl, rfl⟩
  · split
    · exact ⟨.of_regPart rfl, rfl⟩
    · unfold State.chEvent
      exact ⟨(StatusKept.of_regPart rfl).trans (.event _ _ (by decide) (by decide)), event_seqPart ..⟩

theorem chSubmit_kept (r : ChRec) : StatusKept s (s.chSubmit r) ∧ (s.chSubmit r).seqPart = s.seqPart := by
  unfold State.chSubmit
  dsimp only
  split
  · exact ⟨(StatusKept.of_regPart rfl).trans (chHold_kept ..).1, (chHold_kept ..).2⟩
  · exact ⟨.of_regPart rfl, rfl⟩

theorem msixSend_kept (v : Nat) : (s.msixSend v).regPart = s.regPart ∧ (s.msixSend v).seqPart = s.seqPart := by
  unfold State.msixSend
  dsimp only
  split
  · exact ⟨rfl, rfl⟩
  · split <;> exact ⟨rfl, rfl⟩

theorem vec_kept (v : Nat) : (s.vec v).regPart = s.regPart ∧ (s.vec v).seqPart = s.seqPart := by
  unfold State.vec
  split
  · exact ⟨rfl, rfl⟩
  · exact msixSend_kept ..

theorem mbxEvent_kept {f : Fld} (h : f.off ≠ 8 ∨ f.lo < 12) (hf : f.off < 4096) : StatusKept s (s.mbxEvent f) ∧ (s.mbxEvent f).seqPart = s.seqPart := by
  have hev := StatusKept.event s (mbxUnit s.pkg) h hf
  unfold State.mbxEvent
  dsimp only
  split
  · exact ⟨hev, event_seqPart ..⟩
  · exact ⟨hev.trans (.of_regPart (vec_kept ..).1), (vec_kept ..).2.trans (event_seqPart ..)⟩

theorem updMbx_regPart (f : Mbx → Mbx) : (s.updMbx f).regPart = s.regPart := rfl
theorem updMbx_seqPart (f : Mbx → Mbx) : (s.updMbx f).seqPart = s.seqPart := rfl
theorem setMb_seqPart (f : Fld) (v : Nat) : (s.setMb f v).seqPart = s.seqPart := rfl
theorem updBoot_regPart (f : Boot → Boot) : (s.updBoot f).regPart = s.regPart := rfl

theorem setMb_kept {f : Fld} (v : Nat) (h : f.off ≠ 8) (hf : f.off < 4096) : StatusKept s (s.setMb f v) := .setFld s _ v (Or.inl h) hf

theorem rspWrite_kept (r : MbxRsp) : StatusKept s (s.rspWrite r) ∧ (s.rspWrite r).seqPart = s.seqPart := by
  unfold State.rspWrite
  extract_lets q p t1 t2
  have h1 : StatusKept s t1 := by
    refine StatusKept.trans ?_ (.of_regPart (updMbx_regPart ..))
    refine (setMb_kept s (f := F.MBX_FM_SEQ_SENT_FSEQ) q ?_ ?_).trans (setMb_kept _ (f := F.MBX_RSP_PROD_INDEX) _ ?_ ?_)
    · decide
    · decide
    · decide
    · decide
  have s1 : t1.seqPart = s.seqPart := by
    unfold t1
    rw [updMbx_seqPart, setMb_seqPart, setMb_seqPart]
  clear_value t1
  have h2 : StatusKept s t2 := h1.trans (.of_regPart (vec_kept ..).1)
  have s2 : t2.seqPart = s.seqPart := (vec_kept ..).2.trans s1
  split
  · exact ⟨h2.trans (.of_regPart (vec_kept ..).1), (vec_kept ..).2.trans s2⟩
  · exact ⟨h2, s2⟩

theorem mbxRecord_kept (k detail : Nat) (result : List Byte) : StatusKept s (s.mbxRecord k detail result) ∧
    (s.mbxRecord k detail result).seqPart = s.seqPart := by
  unfold State.mbxRecord
  split
  · exact ⟨.refl s, rfl⟩
  · split
    · obtain ⟨h, hs⟩ := mbxEvent_kept ((s.count (mbxUnit s.pkg) R.MBX_EVENTS_LOST 1).updMbx (fun m => { m with lost := m.lost + 1 }))
        (f := F.MBX_EVENT_EVENTS_LOST) (by decide) (by decide)
      exact ⟨(StatusKept.of_regPart rfl).trans h, hs⟩
    · exact rspWrite_kept ..

theorem bootEvent_kept {f : Fld} (h : f.off = 12) : StatusKept s (s.bootEvent f) ∧ (s.bootEvent f).seqPart = s.seqPart := by
  have hne : f.off ≠ 8 ∨ f.lo < 12 := Or.inl (by omega)
  unfold State.bootEvent
  split
  · exact ⟨.event s _ hne (by omega), event_seqPart ..⟩
  · exact ⟨(StatusKept.event s _ hne (by omega)).trans (.event _ _ hne (by omega)), (event_seqPart ..).trans (event_seqPart ..)⟩

/-! ## The journal -/

/-- The sequencer with an entry in both journals (R347). -/
def entered (b : Boot) (e : JEntry) : Boot :=
  { b with f0 := { b.f0 with journal := pushEntry b.f0.journal e }, f1 := { b.f1 with journal := pushEntry b.f1.journal e } }

/-- A journal entry goes into both journals (R347, R351). -/
theorem journalWrite_kept (step event subject : Nat) (detail : W32) : ∃ e : JEntry, e.step = step ∧ e.event = event ∧
    StatusKept s (s.journalWrite step event subject detail) ∧
    (s.journalWrite step event subject detail).seqPart = (entered s.boot e, s.hol, s.holder) := by
  unfold State.journalWrite
  extract_lets e t
  have he : e.step = step ∧ e.event = event := ⟨rfl, rfl⟩
  clear_value e
  have hreg : t.regPart = s.regPart := rfl
  have hseq : t.seqPart = (entered s.boot e, s.hol, s.holder) := rfl
  clear_value t
  refine ⟨e, he.1, he.2, ?_, ?_⟩
  · split
    · exact .of_regPart hreg
    · exact (StatusKept.of_regPart hreg).trans (chSubmit_kept ..).1
  · split
    · exact hseq
    · exact (chSubmit_kept ..).2.trans hseq

theorem boot_of_seqPart {t : State} {b : Boot} {h : Hol} {o : Option Nat} (hs : t.seqPart = (b, h, o)) : t.boot = b := congrArg Prod.fst hs

/-- A field of another register that a journal entry leaves. -/
theorem journalWrite_fld (step event subject : Nat) (detail : W32) (u : Nat) {g : Fld} (h8 : g.off ≠ 8) (hg : g.off < 4096) :
    (s.journalWrite step event subject detail).fld u g = s.fld u g := by
  unfold State.journalWrite
  extract_lets e t
  have ht : t.regPart = s.regPart := rfl
  split
  · exact fld_regPart ht u g
  · obtain ⟨-, hfld, -⟩ := chSubmit_keeps t { t.chOwn (0x0200 + 0x10 * step + event) (journalSeverity event) ((e.bytes.drop 16).take 7) with
      source := bootUnit t.pkg t.bootSide }
    exact (hfld u g h8 hg).trans (fld_regPart ht u g)

/-! ## Status fields -/

/-- A field of BOOT_STATUS on both sides, and what it leaves beside. -/
theorem setBoot_apart {f g : Fld} (v u : Nat) (h : fldsApart f g = true) (hf : f.off < 4096) (hg : g.off < 4096) : (s.setBoot f v).fld u g = s.fld u g := by
  unfold State.setBoot
  rw [fld_setFld_apart _ _ h hf hg, fld_setFld_apart _ _ h hf hg]

/-- The status that a step to start shows (R339). -/
theorem goStep_spec {k : Nat} (h0 : k ≠ 0) (h8 : k < 8) : (s.goStep k).pkg = s.pkg ∧ (s.goStep k).bootStep = k ∧ (s.goStep k).bootState = 1 ∧
    (s.goStep k).boot.started = false ∧ (s.goStep k).fld (bootUnit s.pkg 0) F.BOOT_STATUS_REDUCED = s.fld (bootUnit s.pkg 0) F.BOOT_STATUS_REDUCED := by
  obtain ⟨t, ht⟩ : ∃ t, t = s.setBoot F.BOOT_STATUS_STATE 1 := ⟨_, rfl⟩
  have hgo : s.goStep k = (t.setBoot F.BOOT_STATUS_STEP k).updBoot (fun b => { b with started := false }) := by
    unfold State.goStep
    rw [if_neg h0, ht]
  have hpkg : t.pkg = s.pkg := by
    rw [ht]
    rfl
  have hreg : (s.goStep k).regPart = (t.setBoot F.BOOT_STATUS_STEP k).regPart := by
    rw [hgo]
    rfl
  have hgopkg : (s.goStep k).pkg = s.pkg := (congrArg Prod.snd hreg).trans hpkg
  unfold State.bootStep State.bootState
  rw [hgopkg, fld_regPart hreg, fld_regPart hreg, fld_regPart hreg]
  refine ⟨rfl, ?_, ?_, ?_, ?_⟩
  · rw [← hpkg]
    exact (setBoot_fld t (f := F.BOOT_STATUS_STEP) (by decide) (by decide) (by decide)).trans (Nat.mod_eq_of_lt h8)
  · rw [setBoot_apart _ _ _ (by decide) (by decide) (by decide), ht]
    exact setBoot_fld s (f := F.BOOT_STATUS_STATE) (by decide) (by decide) (by decide)
  · rw [hgo]
    rfl
  · rw [setBoot_apart _ _ _ (by decide) (by decide) (by decide), ht, setBoot_apart _ _ _ (by decide) (by decide) (by decide)]

/-- A step that is done and is not the last, nor B4, is followed by the next (R339). -/
theorem stepDone_next {k : Nat} (h4 : k ≠ 4) (h7 : k < 7) : (s.stepDone k).pkg = s.pkg ∧ (s.stepDone k).bootStep = k + 1 ∧ (s.stepDone k).bootState = 1 ∧
    (s.stepDone k).boot.started = false ∧
    (s.stepDone k).fld (bootUnit s.pkg 0) F.BOOT_STATUS_REDUCED = s.fld (bootUnit s.pkg 0) F.BOOT_STATUS_REDUCED := by
  obtain ⟨e, -, -, hj, -⟩ := journalWrite_kept s k 2 0 0
  obtain ⟨x, hx⟩ : ∃ x, x = (s.journalWrite k 2 0 0).updBoot (fun b => { b with started := false }) := ⟨_, rfl⟩
  have hkept : StatusKept s x := by
    rw [hx]
    exact hj.trans (.of_regPart (updBoot_regPart ..))
  have hgo : s.stepDone k = x.goStep (k + 1) := by
    have hno : ¬(decide (k = 4) && x.staging.isNone) = true := by simp [h4]
    unfold State.stepDone State.afterStep
    dsimp only
    rw [← hx, if_neg (by omega), if_neg hno]
  obtain ⟨hp, hstep, hstate, hstarted, hred⟩ := goStep_spec x (k := k + 1) (by omega) (by omega)
  rw [hgo]
  refine ⟨hp.trans hkept.1, hstep, hstate, hstarted, ?_⟩
  rw [← hkept.1]
  exact hred.trans (hkept.2 _ _ rfl (by decide) (by decide))

end

end Sys2Proof.Machine
end

section
/-! Bring-up, step by step (R339–R342, R347, R349, R350). -/
namespace Sys2Proof.Machine

section
variable (s : State)

theorem bootState_of_kept {t : State} (h : StatusKept s t) : t.bootState = s.bootState := by
  unfold State.bootState
  rw [h.1]
  exact h.2 _ _ rfl (by decide) (by decide)

theorem setBoot_pkg (f : Fld) (v : Nat) : (s.setBoot f v).pkg = s.pkg := rfl
theorem setBoot_seqPart (f : Fld) (v : Nat) : (s.setBoot f v).seqPart = s.seqPart := rfl

theorem setBoot_state {n : Nat} (h : n < 8) : (s.setBoot F.BOOT_STATUS_STATE n).bootState = n :=
  (setBoot_fld s (f := F.BOOT_STATUS_STATE) (by decide) (by decide) (by decide)).trans (Nat.mod_eq_of_lt h)

theorem setBoot_state_kept {f : Fld} (v : Nat) (h : fldsApart f F.BOOT_STATUS_STATE = true) (hf : f.off < 4096) :
    (s.setBoot f v).bootState = s.bootState := setBoot_apart s v _ h hf (by decide)

/-! ## Blocks of the boot state -/

theorem writeBlock_regPart (f : BootBlock → BootBlock) : (s.writeBlock f).regPart = s.regPart := rfl

/-- The boot state is written alike into both devices (R348). -/
theorem writeBlock_boot (f : BootBlock → BootBlock) : ∃ b g : BootBlock, b = { f g with generation := g.generation + 1 } ∧
    (s.writeBlock f).boot.f0.block = some b ∧ (s.writeBlock f).boot.f1.block = some b ∧ (s.writeBlock f).boot.started = s.boot.started :=
  ⟨_, s.bootBlock.getD {}, rfl, rfl, rfl, rfl⟩

/-! ## READY and FAILED -/

theorem started_of_seqPart {t : State} (h : t.seqPart = s.seqPart) : t.boot.started = s.boot.started := by
  rw [show t.boot = s.boot from congrArg Prod.fst h]

/-- READY shows in STATE (R342). -/
theorem bootReady_spec (h : s.boot.started = false) : s.bootReady.pkg = s.pkg ∧ s.bootReady.bootState = 3 ∧ s.bootReady.boot.started = false := by
  unfold State.bootReady
  extract_lets t1 less t2 crc t3
  have h1 : t1.pkg = s.pkg ∧ t1.bootState = 3 ∧ t1.boot.started = false := ⟨setBoot_pkg .., setBoot_state s (by decide), h⟩
  have h2 : t2.pkg = s.pkg ∧ t2.bootState = 3 ∧ t2.boot.started = false := by
    obtain ⟨hp, hst, hb⟩ := h1
    clear_value t1 less
    unfold t2
    split
    · exact ⟨(setBoot_pkg ..).trans hp, (setBoot_state_kept t1 1 (by decide) (by decide)).trans hst, hb⟩
    · exact ⟨hp, hst, hb⟩
  clear_value t2
  have h3 : t3.pkg = s.pkg ∧ t3.bootState = 3 ∧ t3.boot.started = false := by
    obtain ⟨hp, hst, hb⟩ := h2
    obtain ⟨e, -, -, hj, hseq⟩ := journalWrite_kept t2 7 9 0 0
    obtain ⟨b, g, -, -, -, hw⟩ := writeBlock_boot (t2.journalWrite 7 9 0 0) (fun b => { b with lastReady := true, fuseHash := t2.pkg.hash, settingsCrc := crc })
    have hk : StatusKept t2 t3 := hj.trans (.of_regPart (writeBlock_regPart ..))
    refine ⟨hk.1.trans hp, (bootState_of_kept t2 hk).trans hst, hw.trans ?_⟩
    rw [boot_of_seqPart hseq]
    exact hb
  clear_value t3
  obtain ⟨hp, hst, hb⟩ := h3
  obtain ⟨he, hes⟩ := bootEvent_kept t3 (f := F.BOOT_EVENT_READY) rfl
  obtain ⟨hm, hms⟩ := mbxRecord_kept (t3.bootEvent F.BOOT_EVENT_READY) 1 t3.bootNo []
  have hk := he.trans hm
  exact ⟨hk.1.trans hp, (bootState_of_kept t3 hk).trans hst, (started_of_seqPart t3 (hms.trans hes)).trans hb⟩

/-- FAILED shows in STATE (R340). -/
theorem bootFail_spec (k : Nat) : (s.bootFail k).pkg = s.pkg ∧ (s.bootFail k).bootState = 4 ∧ (s.bootFail k).boot.started = false := by
  unfold State.bootFail
  have hp0 : s.takeFree.2.pkg = s.pkg := rfl
  generalize s.takeFree = p at hp0
  obtain ⟨v, t0⟩ := p
  dsimp -zeta only at hp0 ⊢
  extract_lets t1 t2
  have h1 : t1.pkg = s.pkg ∧ t1.bootState = 4 := by
    obtain ⟨e, -, -, hj, -⟩ := journalWrite_kept t0 k 7 0 (v.extractLsb' 0 32)
    exact ⟨(setBoot_pkg ..).trans (hj.1.trans hp0), setBoot_state _ (by decide)⟩
  have h2 : t2.pkg = s.pkg ∧ t2.bootState = 4 := by
    obtain ⟨hp, hst⟩ := h1
    clear_value t1
    unfold t2
    split
    · have hk := setMb_kept t1 (f := F.MBX_CTRL_EN) 1 (by decide) (by decide)
      exact ⟨hk.1.trans hp, (bootState_of_kept t1 hk).trans hst⟩
    · exact ⟨hp, hst⟩
  clear_value t2
  obtain ⟨hp, hst⟩ := h2
  obtain ⟨x, hx⟩ : ∃ x, x = t2.updBoot (fun b => { b with started := false }) := ⟨_, rfl⟩
  have hx0 : x.boot.started = false := by rw [hx]; rfl
  have hxk : StatusKept t2 x := .of_regPart (by rw [hx]; exact updBoot_regPart ..)
  rw [← hx]
  obtain ⟨he, hes⟩ := bootEvent_kept x (f := F.BOOT_EVENT_STEP_FAILED) rfl
  obtain ⟨hm, hms⟩ := mbxRecord_kept (x.bootEvent F.BOOT_EVENT_STEP_FAILED) 7 k []
  have hk := hxk.trans (he.trans hm)
  exact ⟨hk.1.trans hp, (bootState_of_kept t2 hk).trans hst, (started_of_seqPart x (hms.trans hes)).trans hx0⟩

/-! ## B7 -/

theorem openNis_pkg (kinds : List StationKind) (cmd : Bool) : (s.openNis kinds cmd).pkg = s.pkg := by
  unfold State.openNis
  refine foldl_keeps State.pkg (fun t st => ?_) _ _
  dsimp only
  split <;> rfl

theorem workB7_pkg : s.workB7.pkg = s.pkg := by
  unfold State.workB7
  rw [openNis_pkg, openNis_pkg]
  refine foldl_keeps State.pkg (fun t st => ?_) _ _
  rfl

/-- B7 that is done is followed by READY (R339, R342). -/
theorem stepDone_last : (s.stepDone 7).pkg = s.pkg ∧ (s.stepDone 7).bootState = 3 ∧ (s.stepDone 7).boot.started = false := by
  obtain ⟨e, -, -, ⟨hp7, -⟩, -⟩ := journalWrite_kept s 7 2 0 0
  have hdone : s.stepDone 7 = ((s.journalWrite 7 2 0 0).updBoot (fun b => { b with started := false })).bootReady := by
    unfold State.stepDone State.afterStep
    dsimp only
    rw [if_pos rfl]
  generalize s.journalWrite 7 2 0 0 = y at hdone hp7
  obtain ⟨hp, hst, hb⟩ := bootReady_spec (y.updBoot (fun b => { b with started := false })) rfl
  rw [hdone]
  exact ⟨hp.trans hp7, hst, hb⟩

/-- B7 at level 0 starts: it writes STARTED into both journals, and works at its end only (R339). -/
theorem stepStart_last (h : s.stepLevel 7 = 0) : ∃ e : JEntry, e.step = 7 ∧ e.event = 0 ∧ (s.stepStart 7).boot.started = true ∧
    (s.stepStart 7).boot.f0.journal = pushEntry s.boot.f0.journal e ∧ (s.stepStart 7).boot.f1.journal = pushEntry s.boot.f1.journal e := by
  obtain ⟨x, hx⟩ : ∃ x, x = s.setBoot F.BOOT_STATUS_LEVEL 0 := ⟨_, rfl⟩
  obtain ⟨e, hstep, hev, -, hseq⟩ := journalWrite_kept x 7 0 0 0
  have hboot : x.boot = s.boot := by
    rw [hx]
    rfl
  generalize hy : x.journalWrite 7 0 0 0 = y at hseq
  have hfails : y.stepFails 7 0 = false := rfl
  have hsubj : y.subjects 7 = [] := rfl
  have hstart : s.stepStart 7 = y.updBoot (fun b => { b with started := true }) := by
    unfold State.stepStart
    dsimp only
    rw [if_neg (by decide : ¬(7 : Nat) = 0), h, ← hx, hy, if_neg (by decide : ¬(0 : Nat) = 3), hfails, if_neg (by decide)]
    cases y.staging with
    | none => rfl
    | some img => rfl
  have hyb : y.boot = entered s.boot e := by rw [boot_of_seqPart hseq, hboot]
  refine ⟨e, hstep, hev, ?_, ?_, ?_⟩
  · rw [hstart]
    rfl
  · rw [hstart]
    exact congrArg (fun b : Boot => b.f0.journal) hyb
  · rw [hstart]
    exact congrArg (fun b : Boot => b.f1.journal) hyb

end

end Sys2Proof.Machine
end

section
/-! The commands of the sequencer (R339–R342, R347, R349, R350). -/
namespace Sys2Proof.Machine

/-! ## What an outcome shows of the boot status -/

section
variable (s : State) {x : State}

theorem bootStep_kept (h : x.pkg = s.pkg) : (kept s x).bootStep = x.bootStep := by
  unfold State.bootStep
  rw [show (kept s x).pkg = x.pkg from h.symm, fld_regPart (kept_regPart h)]

theorem bootState_kept (h : x.pkg = s.pkg) : (kept s x).bootState = x.bootState := by
  unfold State.bootState
  rw [show (kept s x).pkg = x.pkg from h.symm, fld_regPart (kept_regPart h)]

/-- An event changes registers and interrupts alone. -/
theorem kept_event (u : Nat) (f : Fld) : kept s (s.event u f) = s.event u f := by
  unfold State.event State.eventBit
  dsimp only
  split
  · rfl
  · unfold State.interrupt
    split
    · rfl
    · split <;> rfl

/-- A boot event shows at the side that acts, or at the preferred core's where no core holds the lease. -/
theorem bootEvent_bit (hp : x.pkg = s.pkg) (hh : x.holder = s.holder) (f : Fld) (hf : f.hi = f.lo) (h32 : f.lo < 32) (h4 : f.off < 4096) :
    (x.bootEvent f).bit (bootUnit s.pkg s.bootSide) f = true := by
  have hset : ∀ (y : State) (u : Nat), (y.event u f).bit u f = true := fun y u => by
    unfold State.bit
    rw [fld_event_self _ _ _ hf h32]
    rfl
  unfold State.bootEvent State.bootSide
  rw [hp, hh]
  cases s.holder with
  | some side => exact hset ..
  | none =>
    unfold State.prefCore
    cases s.pkg.pref with
    | true => exact hset ..
    | false => exact bit_event_stays _ hf h32 h4 h4 (hset ..)

end

/-! ## Steps -/

section
variable {s : State} {side k : Nat}

theorem bootStepStart_exec (h : s.mayStart = true) : exec .bootStepStart s = .next (kept s (s.stepStart s.bootStep)) :=
  congrArg (done s) (if_pos h)

theorem bootStepStart_last (h : s.mayStart = true) (hk : s.bootStep = 7) (hl : s.stepLevel 7 = 0) :
    ∃ t e, exec .bootStepStart s = .next t ∧ t.boot.started = true ∧ t.boot.f0.journal = pushEntry s.boot.f0.journal e ∧
      t.boot.f1.journal = pushEntry s.boot.f1.journal e ∧ e.step = 7 ∧ e.event = 0 := by
  have hexec := bootStepStart_exec h
  rw [hk] at hexec
  obtain ⟨e, hstep, hev, hs, h0, h1⟩ := stepStart_last s hl
  exact ⟨_, e, hexec, hs, h0, h1, hstep, hev⟩

/-- The guard of a step that runs. -/
theorem running_true (h : s.boot.started = true) (hst : s.bootState = 1) (ha : s.hol.active = false) :
    (s.boot.started && decide (s.bootState < 2) && !s.hol.active) = true := by
  rw [h, hst, ha]
  decide

theorem bootStepFinish_exec (h : s.boot.started = true) (hst : s.bootState = 1) (ha : s.hol.active = false) :
    exec .bootStepFinish s = .next (kept s (s.stepFinish s.bootStep)) :=
  congrArg (done s) (if_pos (running_true h hst ha))

/-- A step other than B1 whose work holds is done (R339). -/
theorem stepFinish_holds (h1 : k ≠ 1) (hh : s.finishHolds k = true) : s.stepFinish k = (if k = 7 then s.workB7 else s).stepDone k := by
  have hno : ¬(decide (k = 1) && s.bootFld F.BOOT_CTRL_IMAGE_SRC == 1 && s.staging.isNone && !s.boot.noImage) = true := by simp [h1]
  unfold State.stepFinish
  rw [if_neg hno, if_pos hh]

theorem bootStepFinish_next (h : s.boot.started = true) (hst : s.bootState = 1) (ha : s.hol.active = false) (hk : s.bootStep = k)
    (hm : k ∈ [2, 3, 5, 6]) (hh : s.finishHolds k = true) :
    ∃ t, exec .bootStepFinish s = .next t ∧ t.bootStep = k + 1 ∧ t.bootState = 1 ∧ t.boot.started = false := by
  have hne : k ≠ 1 ∧ k ≠ 4 ∧ k < 7 ∧ k ≠ 7 := by
    simp only [List.mem_cons, List.not_mem_nil, or_false] at hm
    omega
  obtain ⟨h1, h4, h7, hn7⟩ := hne
  have hexec := bootStepFinish_exec h hst ha
  rw [hk, stepFinish_holds h1 hh, if_neg hn7] at hexec
  obtain ⟨hp, hstep, hstate, hb, -⟩ := stepDone_next s h4 h7
  exact ⟨_, hexec, (bootStep_kept s hp).trans hstep, (bootState_kept s hp).trans hstate, hb⟩

theorem bootStepFinish_ready (h : s.boot.started = true) (hst : s.bootState = 1) (ha : s.hol.active = false) (hk : s.bootStep = 7)
    (hh : s.finishHolds 7 = true) : ∃ t, exec .bootStepFinish s = .next t ∧ t.bootState = 3 ∧ t.boot.started = false := by
  have hexec := bootStepFinish_exec h hst ha
  rw [hk, stepFinish_holds (by decide) hh, if_pos rfl] at hexec
  have hw := workB7_pkg s
  generalize s.workB7 = y at hexec hw
  obtain ⟨hp, hstate, hb⟩ := stepDone_last y
  generalize y.stepDone 7 = z at hexec hp hstate hb
  exact ⟨_, hexec, (bootState_kept s (hp.trans hw)).trans hstate, hb⟩

/-! ## Timeouts -/

/-- Every step but B5 has a timeout (R339). -/
theorem stepTimeout_some (h5 : k ≠ 5) : ∃ ms, s.stepTimeout k = some ms := by
  unfold State.stepTimeout
  split
  case h_6 => exact absurd rfl h5
  all_goals exact ⟨_, rfl⟩

theorem bootStepTimeout_exec (h : s.boot.started = true) (hst : s.bootState = 1) (ha : s.hol.active = false) :
    exec .bootStepTimeout s = .next (kept s s.bootTimeout) :=
  congrArg (done s) (if_pos (running_true h hst ha))

/-- The control fields are read at the side that acts. -/
theorem bootFld_congr {x : State} (hp : x.pkg = s.pkg) (hh : x.holder = s.holder) (f : Fld) : x.bootFld f = x.fld (bootUnit s.pkg s.bootSide) f := by
  unfold State.bootFld State.bootSide State.prefCore
  rw [hp, hh]

/-- A timeout writes its journal entry, and ends as AUTO_WARM of before says (R340). -/
theorem bootTimeout_eq (h5 : s.bootStep ≠ 5) : ∃ ms, s.bootTimeout =
    if s.bootFld F.BOOT_CTRL_AUTO_WARM = 1 then (s.journalWrite s.bootStep 3 0 ms).warmReset 3
    else (s.journalWrite s.bootStep 3 0 ms).bootFail (s.journalWrite s.bootStep 3 0 ms).bootStep := by
  obtain ⟨ms, hms⟩ := stepTimeout_some (s := s) h5
  refine ⟨BitVec.ofNat 32 ms, ?_⟩
  unfold State.bootTimeout
  rw [hms]
  have hfld : (s.journalWrite s.bootStep 3 0 (BitVec.ofNat 32 ms)).bootFld F.BOOT_CTRL_AUTO_WARM = s.bootFld F.BOOT_CTRL_AUTO_WARM := by
    obtain ⟨e, -, -, hj, hseq⟩ := journalWrite_kept s s.bootStep 3 0 (BitVec.ofNat 32 ms)
    have hf := journalWrite_fld s s.bootStep 3 0 (BitVec.ofNat 32 ms) (bootUnit s.pkg s.bootSide) (g := F.BOOT_CTRL_AUTO_WARM) (by decide) (by decide)
    generalize s.journalWrite s.bootStep 3 0 (BitVec.ofNat 32 ms) = y at hj hseq hf
    exact (bootFld_congr hj.1 (congrArg (fun p => p.2.2) hseq) _).trans hf
  rw [← hfld]

theorem bootStepTimeout_fails (h : s.boot.started = true) (hst : s.bootState = 1) (ha : s.hol.active = false) (h5 : s.bootStep ≠ 5)
    (hw : s.bootFld F.BOOT_CTRL_AUTO_WARM = 0) : ∃ t, exec .bootStepTimeout s = .next t ∧ t.bootState = 4 ∧ t.boot.started = false := by
  obtain ⟨ms, heq⟩ := bootTimeout_eq h5
  have hexec := bootStepTimeout_exec h hst ha
  rw [heq, hw, if_neg (by decide)] at hexec
  obtain ⟨e, -, -, hj, -⟩ := journalWrite_kept s s.bootStep 3 0 ms
  generalize s.journalWrite s.bootStep 3 0 ms = y at hexec hj
  obtain ⟨hp, hstate, hb⟩ := bootFail_spec y y.bootStep
  exact ⟨_, hexec, (bootState_kept s (hp.trans hj.1)).trans hstate, hb⟩

theorem bootStepTimeout_warm (h : s.boot.started = true) (hst : s.bootState = 1) (ha : s.hol.active = false) (h5 : s.bootStep ≠ 5)
    (hw : s.bootFld F.BOOT_CTRL_AUTO_WARM = 1) :
    ∃ t, exec .bootStepTimeout s = .next t ∧ t.fld (bootUnit s.pkg 0) F.BOOT_STATUS_RESET_KIND = 3 ∧ t.holder = none := by
  obtain ⟨ms, heq⟩ := bootTimeout_eq h5
  have hexec := bootStepTimeout_exec h hst ha
  rw [heq, hw, if_pos rfl] at hexec
  obtain ⟨e, -, -, hj, hseq⟩ := journalWrite_kept s s.bootStep 3 0 ms
  generalize s.journalWrite s.bootStep 3 0 ms = y at hexec hj hseq
  have hy : y.hol.active = false := by
    rw [show y.hol = s.hol from congrArg (fun p => p.2.1) hseq]
    exact ha
  have hp : (y.warmReset 3).pkg = s.pkg := (warmReset_pkg y 3 hy).trans hj.1
  have hkind := warmReset_kind y hy (by decide : 3 < 4)
  rw [hj.1] at hkind
  obtain ⟨-, -, -, -, hholder, -⟩ := warmReset_restarts y 3 hy
  exact ⟨_, hexec, (fld_regPart (kept_regPart hp) _ _).trans hkind, hholder⟩

theorem bootDeadlineExpiry_late (h : s.inB5 = true) (hd : s.bootFld F.BOOT_DEADLINE_S ≠ 0) (ha : s.hol.active = false) :
    ∃ t, exec .bootDeadlineExpiry s = .next t ∧ t.bit (bootUnit s.pkg s.bootSide) F.BOOT_EVENT_LATE = true := by
  have hguard : (s.inB5 && s.bootFld F.BOOT_DEADLINE_S != 0 && !s.hol.active) = true := by
    rw [h, ha, (bne_iff_ne).mpr hd]
    rfl
  have hexec : exec .bootDeadlineExpiry s = .next (kept s ((s.journalWrite 5 10 0 0).bootEvent F.BOOT_EVENT_LATE)) :=
    congrArg (done s) (if_pos hguard)
  obtain ⟨e, -, -, hj, hseq⟩ := journalWrite_kept s 5 10 0 0
  generalize s.journalWrite 5 10 0 0 = y at hexec hj hseq
  have hh : y.holder = s.holder := congrArg (fun p => p.2.2) hseq
  have hp : (y.bootEvent F.BOOT_EVENT_LATE).pkg = s.pkg := (bootEvent_kept y (f := F.BOOT_EVENT_LATE) rfl).1.1.trans hj.1
  exact ⟨_, hexec, (bit_regPart (kept_regPart hp) _ _).trans (bootEvent_bit s hj.1 hh _ rfl (by decide) (by decide))⟩

/-! ## Commands of the active core -/

section
variable (hh : s.holder = some side)
include hh

theorem bootActs_true : s.bootActs side = true := by
  unfold State.bootActs
  rw [hh]
  exact beq_self_eq_true _

theorem bootReject_eq : s.bootReject = s.event (bootUnit s.pkg side) F.BOOT_EVENT_CMD_REJECT := by
  unfold State.bootReject State.bootEvent
  rw [hh]

section
variable (hs : side < 2)
include hs

theorem bootContinue_goes (hst : s.bootState = 2) (hk : s.bootStep = 1) :
    ∃ t, exec (.bootContinueNoImage side) s = .next t ∧ t.bootState = 1 ∧ t.boot.noImage = true := by
  have hgo : s.bootContinue side = (s.updBoot (fun b => { b with noImage := true })).setBoot F.BOOT_STATUS_STATE 1 := by
    unfold State.bootContinue
    rw [bootActs_true hh, if_neg (by decide), if_pos ⟨hst, hk⟩]
  have hexec : exec (.bootContinueNoImage side) s = .next (kept s (s.bootContinue side)) := onUnit_true s _ (decide_eq_true hs)
  rw [hgo] at hexec
  obtain ⟨y, hy⟩ : ∃ y, y = s.updBoot (fun b => { b with noImage := true }) := ⟨_, rfl⟩
  have hyp : y.pkg = s.pkg := by rw [hy]; rfl
  have hyn : y.boot.noImage = true := by rw [hy]; rfl
  rw [← hy] at hexec
  exact ⟨_, hexec, (bootState_kept s ((setBoot_pkg ..).trans hyp)).trans (setBoot_state y (by decide)), hyn⟩

theorem bootContinue_rejects (hst : s.bootState ≠ 2) :
    exec (.bootContinueNoImage side) s = .next (s.event (bootUnit s.pkg side) F.BOOT_EVENT_CMD_REJECT) := by
  have hrej : s.bootContinue side = s.event (bootUnit s.pkg side) F.BOOT_EVENT_CMD_REJECT := by
    unfold State.bootContinue
    rw [bootActs_true hh, if_neg (by decide), if_neg (fun h => hst h.1), bootReject_eq hh]
  have hexec : exec (.bootContinueNoImage side) s = .next (kept s (s.bootContinue side)) := onUnit_true s _ (decide_eq_true hs)
  rw [hexec, hrej, kept_event]

theorem bootProceed_rejects (h5 : s.inB5 = false) :
    exec (.bootProceed side) s = .next (s.event (bootUnit s.pkg side) F.BOOT_EVENT_CMD_REJECT) := by
  have hrej : s.bootProceed side = s.event (bootUnit s.pkg side) F.BOOT_EVENT_CMD_REJECT := by
    unfold State.bootProceed
    rw [bootActs_true hh, if_neg (by decide), h5, if_neg (by decide), bootReject_eq hh]
  have hexec : exec (.bootProceed side) s = .next (kept s (s.bootProceed side)) := onUnit_true s _ (decide_eq_true hs)
  rw [hexec, hrej, kept_event]

theorem bootClearLevels_writes : ∃ t b, exec (.bootClearLevels side) s = .next t ∧ t.boot.f0.block = some b ∧ t.boot.f1.block = some b ∧
    b.levels = 0 ∧ b.clearedAt = BitVec.ofNat 32 s.bootNo := by
  have hexec : exec (.bootClearLevels side) s = .next (kept s (s.clearLevels side)) := onUnit_true s _ (decide_eq_true hs)
  rw [show s.clearLevels side = _ from if_pos (bootActs_true hh)] at hexec
  obtain ⟨b, g, hb, h0, h1, -⟩ := writeBlock_boot s (fun b => { b with levels := 0, clearedAt := BitVec.ofNat 32 s.bootNo })
  exact ⟨_, b, hexec, h0, h1, by rw [hb], by rw [hb]⟩

theorem bootClearDisables_writes : ∃ t b, exec (.bootClearDisables side) s = .next t ∧ t.boot.f0.block = some b ∧ t.boot.f1.block = some b ∧
    b.dis = [] := by
  have hexec : exec (.bootClearDisables side) s = .next (kept s (s.clearDisables side)) := onUnit_true s _ (decide_eq_true hs)
  rw [show s.clearDisables side = _ from if_pos (bootActs_true hh)] at hexec
  obtain ⟨b, g, hb, h0, h1, -⟩ := writeBlock_boot s (fun b => { b with dis := [] })
  exact ⟨_, b, hexec, h0, h1, by rw [hb]⟩

end
end

/-- The ports that PROCEED leaves behind go DOWN (R350). -/
theorem portDisable_pkg (q : Nat) : (s.portDisable q).pkg = s.pkg := by
  unfold State.portDisable
  exact portDown_pkg ..

theorem noteCtl_pkg (u : Nat) : (s.noteCtl u).pkg = s.pkg := rfl

theorem bootProceed_goes (hs : side < 2) (hh : s.holder = some side) (h5 : s.inB5 = true) :
    ∃ t, exec (.bootProceed side) s = .next t ∧ t.bootStep = 6 ∧ t.bootState = 1 ∧ t.fld (bootUnit s.pkg 0) F.BOOT_STATUS_REDUCED = 1 := by
  have hgo : ∃ y : State, y.pkg = s.pkg ∧ s.bootProceed side = (y.setBoot F.BOOT_STATUS_REDUCED 1).stepDone 5 := by
    unfold State.bootProceed
    rw [bootActs_true hh, if_neg (by decide), if_pos h5]
    refine ⟨_, ?_, rfl⟩
    exact foldl_keeps State.pkg (fun t q => (noteCtl_pkg ..).trans (portDisable_pkg (s := t) q)) _ s
  obtain ⟨y, hy, hgo⟩ := hgo
  have hexec : exec (.bootProceed side) s = .next (kept s (s.bootProceed side)) := onUnit_true s _ (decide_eq_true hs)
  have hred := setBoot_fld y (f := F.BOOT_STATUS_REDUCED) (v := 1) (side := 0) (by decide) (by decide) (by decide)
  have hzp : (y.setBoot F.BOOT_STATUS_REDUCED 1).pkg = s.pkg := (setBoot_pkg ..).trans hy
  rw [hgo] at hexec
  rw [hy] at hred
  generalize y.setBoot F.BOOT_STATUS_REDUCED 1 = z at hexec hred hzp
  obtain ⟨hp, hstep, hstate, -, hkeep⟩ := stepDone_next z (k := 5) (by decide) (by decide)
  have hps := hp.trans hzp
  rw [hzp] at hkeep
  exact ⟨_, hexec, (bootStep_kept s hps).trans hstep, (bootState_kept s hps).trans hstate,
    (fld_regPart (kept_regPart hps) _ _).trans (hkeep.trans hred)⟩

end

/-- Settles O49, command by command, from what the journal, the status and the block of the boot state leave. -/
theorem bringUpStepsInOrder : Obligations.BringUpStepsInOrder := by
  intro s side k hs hk ha
  subst hk
  refine ⟨fun h h7 hl => bootStepStart_last h h7 hl, bootStepStart_exec, fun h hst hm hh => bootStepFinish_next h hst ha rfl hm hh,
    fun h hst h7 hh => bootStepFinish_ready h hst ha h7 hh, fun h hst h5 hw => bootStepTimeout_fails h hst ha h5 hw,
    fun h hst h5 hw => bootStepTimeout_warm h hst ha h5 hw, fun h hd => bootDeadlineExpiry_late h hd ha, fun hh => ?_⟩
  exact ⟨fun hst h1 => bootContinue_goes hh hs hst h1, bootContinue_rejects hh hs, bootProceed_goes hs hh, bootProceed_rejects hh hs,
    bootClearLevels_writes hh hs, bootClearDisables_writes hh hs⟩

end Sys2Proof.Machine
end

section
/-! The rings of the host mailbox (R359–R363). -/
namespace Sys2Proof.Machine

section
variable (s : State)

/-! ## What the mailbox leaves -/

/-- The block without what the mailbox's own steps change: its rings, registers, counters, outputs and held interrupts. -/
def State.offMbx (s : State) : State := { s with mbx := {}, regs := [], ctrs := [], out := [], irqHeld := [] }

theorem updMbx_offMbx (f : Mbx → Mbx) : (s.updMbx f).offMbx = s.offMbx := rfl
theorem setFld_offMbx (u : Nat) (f : Fld) (v : Nat) : (s.setFld u f v).offMbx = s.offMbx := rfl
theorem setMb_offMbx (f : Fld) (v : Nat) : (s.setMb f v).offMbx = s.offMbx := rfl
theorem emit_offMbx (o : Out) : (s.emit o).offMbx = s.offMbx := rfl

theorem event_offMbx (u : Nat) (f : Fld) : (s.event u f).offMbx = s.offMbx := by
  unfold State.event State.eventBit
  dsimp only
  split
  · rfl
  · unfold State.interrupt
    split
    · rfl
    · split <;> rfl

theorem msixSend_offMbx (v : Nat) : (s.msixSend v).offMbx = s.offMbx := by
  unfold State.msixSend
  dsimp only
  split
  · rfl
  · split <;> rfl

theorem vec_offMbx (v : Nat) : (s.vec v).offMbx = s.offMbx := by
  unfold State.vec
  split
  · rfl
  · exact msixSend_offMbx ..

theorem mbxEvent_offMbx (f : Fld) : (s.mbxEvent f).offMbx = s.offMbx := by
  unfold State.mbxEvent
  dsimp only
  split
  · exact event_offMbx ..
  · rw [vec_offMbx, event_offMbx]

theorem rspWrite_offMbx (r : MbxRsp) : (s.rspWrite r).offMbx = s.offMbx := by
  unfold State.rspWrite
  extract_lets q p t1 t2
  have h1 : t1.offMbx = s.offMbx := by
    unfold t1
    rw [updMbx_offMbx, setMb_offMbx, setMb_offMbx]
  clear_value t1
  have h2 : t2.offMbx = s.offMbx := (vec_offMbx ..).trans h1
  split
  · rw [vec_offMbx, h2]
  · exact h2

theorem respondMbx_offMbx (r : MbxRsp) : (s.respondMbx r).offMbx = s.offMbx := by
  unfold State.respondMbx
  split
  · rfl
  · exact rspWrite_offMbx ..

theorem mbxAnswer_offMbx (h : W32) (op status detail : Nat) (r : List Byte) : (s.mbxAnswer h op status detail r).offMbx = s.offMbx :=
  respondMbx_offMbx ..

theorem mbxConsume_offMbx : s.mbxConsume.offMbx = s.offMbx := by
  unfold State.mbxConsume
  dsimp only
  split
  · rw [vec_offMbx, setMb_offMbx]
  · rw [setMb_offMbx]

/-- Taking a command stays within the mailbox. -/
theorem mbxTaken_offMbx : (mbxTaken s).offMbx = s.offMbx := by
  unfold mbxTaken
  rw [updMbx_offMbx, setMb_offMbx, mbxConsume_offMbx]

theorem pkg_of_offMbx {t : State} (h : t.offMbx = s.offMbx) : t.pkg = s.pkg := (congrArg State.pkg h :)

/-! ## The outcome of a command of the rings -/

theorem onMbx_eq {x y : State} (h : x = y) : onMbx s x = .next (Part.put .mbx s y) := by
  rw [h]
  rfl

variable {x : State}

theorem mbxPut_regPart (h : x.pkg = s.pkg) : (Part.put .mbx s x).regPart = x.regPart := congrArg (Prod.mk x.regs) h.symm

theorem mbxPut_mb (h : x.pkg = s.pkg) (f : Fld) : (Part.put .mbx s x).mb f = x.mb f := by
  unfold State.mb
  rw [show (Part.put .mbx s x).pkg = x.pkg from h.symm, fld_regPart (mbxPut_regPart s h)]

/-- A step within the mailbox that changes the mailbox record alone is its own outcome. -/
theorem mbxPut_updMbx (f : Mbx → Mbx) : Part.put .mbx s (s.updMbx f) = s.updMbx f := rfl

/-! ## Fields of the MBX unit -/

theorem mb_of_regPart {t : State} (h : t.regPart = s.regPart) (f : Fld) : t.mb f = s.mb f := by
  unfold State.mb
  rw [show t.pkg = s.pkg from congrArg Prod.snd h, fld_regPart h]

theorem mb_setMb_self {f : Fld} {v : Nat} (h : f.hi < 32) (hl : f.lo ≤ f.hi) : (s.setMb f v).mb f = v % 2 ^ (f.hi - f.lo + 1) :=
  fld_setFld_self s _ f v h hl

/-- An event of the mailbox shows, and leaves the indices (R359). -/
theorem mbxEvent_shows {f : Fld} (hf : f.hi = f.lo) (h32 : f.lo < 32) : (s.mbxEvent f).bit (mbxUnit s.pkg) f = true := by
  have hset : (s.event (mbxUnit s.pkg) f).bit (mbxUnit s.pkg) f = true := by
    unfold State.bit
    rw [fld_event_self _ _ _ hf h32]
    rfl
  unfold State.mbxEvent
  dsimp only
  split
  · exact hset
  · rw [bit_regPart (vec_kept ..).1]
    exact hset

theorem mbxEvent_mb {f g : Fld} (hfg : g.off ≠ f.off) (hf : f.off < 4096) (hg : g.off < 4096) : (s.mbxEvent f).mb g = s.mb g := by
  have hpkg : (s.mbxEvent f).pkg = s.pkg := pkg_of_offMbx s (mbxEvent_offMbx ..)
  have hset : (s.event (mbxUnit s.pkg) f).fld (mbxUnit s.pkg) g = s.fld (mbxUnit s.pkg) g := fld_event_apart s hfg hf hg
  unfold State.mb
  rw [hpkg]
  unfold State.mbxEvent
  dsimp only
  split
  · exact hset
  · rw [fld_regPart (vec_kept ..).1]
    exact hset

/-! ## Taking a command -/

/-- The row of the command at the front runs it on the state that has taken it (R359–R361). -/
theorem mbxRow_takes {op : Nat} (act : State → W32 → Desc → State) (h : mbxTakes s op) :
    s.mbxRow op act = act (mbxTaken s) (dw s.mbxFront 0) s.mbxFront := by
  obtain ⟨hready, hop, hseq, n, a, hcmd, harg, hst⟩ := h
  have hp : (mbxTaken s).pkg = s.pkg := pkg_of_offMbx s (mbxTaken_offMbx s)
  have hh : (mbxTaken s).holder = s.holder := (congrArg State.holder (mbxTaken_offMbx s) :)
  have hgo : ¬(!s.mbxReady || !mbxIs op op) = true := by
    unfold mbxIs
    rw [hready, beq_self_eq_true op]
    exact Bool.false_ne_true
  rw [← hp, ← hh] at hst
  subst hop
  unfold mbxTaken at hst ⊢
  unfold State.mbxRow
  dsimp only
  rw [if_neg hgo, if_neg (not_not.mpr hseq), hcmd]
  dsimp only
  rw [harg]
  exact if_pos hst

/-! ## The ring's commands -/

theorem mbxCmdProdWrite_moves (idx : W16) (e : Desc) (h : (idx.toNat + 65536 - s.mb F.MBX_CMD_CONS_INDEX) % 65536 ≤ 256) :
    ∃ t, exec (.mbxCmdProdWrite idx [e]) s = .next t ∧ t.mb F.MBX_CMD_PROD_INDEX = idx.toNat ∧
      kfind t.mbx.cmd (s.mb F.MBX_CMD_PROD_INDEX % 256) = some e := by
  obtain ⟨y, hy⟩ : ∃ y, y = s.updMbx (fun m => { m with cmd := kins m.cmd (s.mb F.MBX_CMD_PROD_INDEX % 256) e }) := ⟨_, rfl⟩
  have hcons : y.mb F.MBX_CMD_CONS_INDEX = s.mb F.MBX_CMD_CONS_INDEX := by
    rw [hy]
    exact mb_of_regPart s (updMbx_regPart ..) _
  have hmove : s.cmdProd idx [e] = y.setMb F.MBX_CMD_PROD_INDEX idx.toNat := by
    rw [← hcons, hy] at h
    rw [hy]
    exact if_pos h
  have hpkg : y.pkg = s.pkg := by rw [hy]; rfl
  refine ⟨Part.put .mbx s (s.cmdProd idx [e]), rfl, ?_, ?_⟩
  · rw [hmove, mbxPut_mb s (x := y.setMb _ _) hpkg, mb_setMb_self y (f := F.MBX_CMD_PROD_INDEX) (by decide) (by decide)]
    exact Nat.mod_eq_of_lt idx.isLt
  · rw [hmove, hy]
    exact kfind_kins_self ..

theorem mbxCmdProdWrite_errs (idx : W16) (e : Desc) (h : 256 < (idx.toNat + 65536 - s.mb F.MBX_CMD_CONS_INDEX) % 65536) :
    ∃ t, exec (.mbxCmdProdWrite idx [e]) s = .next t ∧ t.mb F.MBX_CMD_PROD_INDEX = s.mb F.MBX_CMD_PROD_INDEX ∧
      t.bit (mbxUnit s.pkg) F.MBX_EVENT_IDX_ERR = true := by
  obtain ⟨y, hy⟩ : ∃ y, y = s.updMbx (fun m => { m with cmd := kins m.cmd (s.mb F.MBX_CMD_PROD_INDEX % 256) e }) := ⟨_, rfl⟩
  have hreg : y.regPart = s.regPart := by
    rw [hy]
    exact updMbx_regPart ..
  have herr : s.cmdProd idx [e] = y.mbxEvent F.MBX_EVENT_IDX_ERR := by
    rw [← mb_of_regPart s hreg, hy] at h
    rw [hy]
    exact if_neg (Nat.not_le.mpr h)
  have hpkg : y.pkg = s.pkg := congrArg Prod.snd hreg
  have hpkg' : (y.mbxEvent F.MBX_EVENT_IDX_ERR).pkg = s.pkg := (pkg_of_offMbx y (mbxEvent_offMbx ..)).trans hpkg
  refine ⟨Part.put .mbx s (s.cmdProd idx [e]), rfl, ?_, ?_⟩
  · rw [herr, mbxPut_mb s hpkg', mbxEvent_mb y (by decide) (by decide) (by decide)]
    exact mb_of_regPart s hreg _
  · rw [herr, bit_regPart (mbxPut_regPart s hpkg'), ← hpkg]
    exact mbxEvent_shows y rfl (by decide)

/-- Where no answer waits and none is lost, room in the ring writes nothing (R362). -/
theorem mbxFlush_idle (hw : s.mbx.waiting = []) (hl : s.mbx.lost = 0) : s.mbxFlush = s := by
  unfold State.mbxFlush
  split
  · rfl
  · rw [hw]
    have hflush : flushRsp [] s = s := by
      unfold flushRsp State.updMbx
      rw [← hw]
    rw [hflush]
    dsimp only
    rw [hl]
    exact if_neg (by simp)

theorem mbxRspConsWrite_moves (idx : W16) (h : (idx.toNat + 65536 - s.mb F.MBX_RSP_CONS_INDEX) % 65536 ≤ s.rspLevel) (hw : s.mbx.waiting = [])
    (hl : s.mbx.lost = 0) :
    ∃ t, exec (.mbxRspConsWrite idx) s = .next t ∧ t.mb F.MBX_RSP_CONS_INDEX = idx.toNat ∧ t.mbx = s.mbx := by
  have hmove : s.rspCons idx = s.setMb F.MBX_RSP_CONS_INDEX idx.toNat :=
    (if_pos h).trans (mbxFlush_idle (s.setMb F.MBX_RSP_CONS_INDEX idx.toNat) hw hl)
  refine ⟨Part.put .mbx s (s.rspCons idx), rfl, ?_, ?_⟩
  · rw [hmove, mbxPut_mb s (x := s.setMb _ _) rfl, mb_setMb_self s (f := F.MBX_RSP_CONS_INDEX) (by decide) (by decide)]
    exact Nat.mod_eq_of_lt idx.isLt
  · rw [hmove]
    rfl

theorem mbxRspConsWrite_errs (idx : W16) (h : s.rspLevel < (idx.toNat + 65536 - s.mb F.MBX_RSP_CONS_INDEX) % 65536) :
    ∃ t, exec (.mbxRspConsWrite idx) s = .next t ∧ t.mb F.MBX_RSP_CONS_INDEX = s.mb F.MBX_RSP_CONS_INDEX ∧
      t.bit (mbxUnit s.pkg) F.MBX_EVENT_IDX_ERR = true := by
  have herr : s.rspCons idx = s.mbxEvent F.MBX_EVENT_IDX_ERR := if_neg (Nat.not_le.mpr h)
  have hpkg := pkg_of_offMbx s (mbxEvent_offMbx s F.MBX_EVENT_IDX_ERR)
  refine ⟨Part.put .mbx s (s.rspCons idx), rfl, ?_, ?_⟩
  · rw [herr, mbxPut_mb s hpkg]
    exact mbxEvent_mb s (by decide) (by decide) (by decide)
  · rw [herr, bit_regPart (mbxPut_regPart s hpkg)]
    exact mbxEvent_shows s rfl (by decide)

/-! ## Answers and vectors -/

theorem mbxBackgroundDone_answers {h : W32} {r : MbxRsp} (hs : s.mbxServed = true) (hj : s.mbx.jobs.find? (fun r => r.echo == h) = some r) :
    exec (.mbxBackgroundDone h) s =
      .next (Part.put .mbx s ((s.updMbx (fun m => { m with jobs := m.jobs.filter (fun r => r.echo != h) })).respondMbx r)) := by
  have hdone : s.mbxJobDone h = (s.updMbx (fun m => { m with jobs := m.jobs.filter (fun r => r.echo != h) })).respondMbx r := by
    unfold State.mbxJobDone
    rw [hj]
    exact if_pos hs
  exact onMbx_eq s hdone

theorem msixHoldoffExpiry_ends {v : Nat} (hh : s.mbx.hold.contains v = true) (ho : s.mbx.owed.contains v = false) :
    exec (.msixHoldoffExpiry v) s = .next (s.updMbx (fun m => { m with hold := m.hold.filter (· != v), owed := m.owed.filter (· != v) })) := by
  have hend : s.holdoffEnd v = s.updMbx (fun m => { m with hold := m.hold.filter (· != v), owed := m.owed.filter (· != v) }) := by
    unfold State.holdoffEnd
    rw [hh, ho, if_neg (by decide)]
    exact if_neg (by decide)
  exact onMbx_eq s hend

/-- A message that leaves or waits changes neither the table nor the answers of long commands (R363). -/
theorem vec_tables (v : Nat) : (s.vec v).mbx.msix = s.mbx.msix ∧ (s.vec v).mbx.jobs = s.mbx.jobs := by
  have hnote : ∀ (t : State) (f : Mbx → Mbx), (t.updMbx f).mbx = f t.mbx := fun _ _ => rfl
  unfold State.vec
  split
  · rw [hnote]
    split <;> exact ⟨rfl, rfl⟩
  · unfold State.msixSend
    dsimp only
    split
    · rw [hnote]
      split <;> exact ⟨rfl, rfl⟩
    · split <;> exact ⟨rfl, rfl⟩

theorem msixTableWrite_writes {v : Nat} (addr : FT) (data : W32) (masked : Bool) (h : v < 8) :
    ∃ t, exec (.msixTableWrite v addr data masked) s = .next t ∧ kget {} t.mbx.msix v = { addr := addr, data := data, masked := masked } := by
  refine ⟨Part.put .mbx s (s.msixWrite v addr data masked), rfl, ?_⟩
  show kget {} (s.msixWrite v addr data masked).mbx.msix v = _
  unfold State.msixWrite
  rw [if_neg (Nat.not_le.mpr h)]
  dsimp only
  split
  · rw [(vec_tables ..).1]
    exact kget_kput_self ..
  · exact kget_kput_self ..

end

/-- Settles O51, command by command: a write of an index, the end of a long answer, and the vectors' table. -/
theorem mailboxRingsMove : Obligations.MailboxRingsMove := by
  intro s idx e v addr data masked r h hh
  subst hh
  refine ⟨mbxCmdProdWrite_moves s idx e, mbxCmdProdWrite_errs s idx e, mbxRspConsWrite_moves s idx, mbxRspConsWrite_errs s idx, fun ht => ?_, fun ht => ?_,
    mbxBackgroundDone_answers s, msixHoldoffExpiry_ends s, msixTableWrite_writes s addr data masked⟩
  · exact onMbx_eq s (mbxRow_takes s _ ht)
  · exact onMbx_eq s (mbxRow_takes s _ ht)

end Sys2Proof.Machine
end

section
/-! The mailbox's commands that reach beyond the mailbox (R361, R367–R371). -/
namespace Sys2Proof.Machine

section
variable (s : State)

/-! ## Taking a command, and long answers -/

theorem mbxTaken_jobs : (mbxTaken s).mbx.jobs = s.mbx.jobs := by
  have hcons : s.mbxConsume.mbx.jobs = s.mbx.jobs := by
    unfold State.mbxConsume
    dsimp only
    split
    · exact (vec_tables ..).2
    · rfl
  exact hcons

theorem mbxTaken_pkg : (mbxTaken s).pkg = s.pkg := pkg_of_offMbx s (mbxTaken_offMbx s)

/-- A command that the mailbox takes runs on the state that has taken it. -/
theorem mbxRun_takes {op : Nat} {act : State → W32 → Desc → State} (h : mbxTakes s op) {x : State}
    (hx : act (mbxTaken s) (dw s.mbxFront 0) s.mbxFront = x) : s.mbxRun op act = .next (kept s x) := by
  unfold State.mbxRun
  rw [mbxRow_takes s act h, hx]
  rfl

/-- The answer of a long command waits as one more (R360). -/
theorem mbxLater_jobs (h : W32) (op status detail : Nat) (r : List Byte) : (s.mbxLater h op status detail r).mbx.jobs =
    s.mbx.jobs ++ [{ echo := h, code := BitVec.ofNat 16 op, status := status, detail := BitVec.ofNat 32 detail, result := r }] := rfl

/-! ## Images -/

section
variable {t : State} (h : W32) (d : Desc) (dma : Dma) (hm : dByte d 20 < 2) (hl : t.live = 0) (hd : dma.status = 0)
include hm hl hd

/-- IMAGE_STAGE of an image that does not parse answers its failure (R367). -/
theorem imageStage_fails {f : ImgFail} (hp : t.parseImage (dma.bytes.take (dBytes d 16 4)) (dByte d 20 == 1) = .error f) :
    t.imageStage h d dma = t.mbxLater h 0x0010 6 f.code f.result := by
  have hl' : ¬(t.live != 0) = true := by simp [hl]
  have hd' : ¬(dma.status != 0) = true := by simp [hd]
  unfold State.imageStage
  dsimp only
  rw [if_neg (Nat.not_lt.mpr (Nat.lt_succ_iff.mp hm)), if_neg hl', if_neg hd', hp]

/-- IMAGE_STAGE stages the image that parses, and keeps a copy of one to be stored (R367, R371). -/
theorem imageStage_stages {i : Image} (hp : t.parseImage (dma.bytes.take (dBytes d 16 4)) (dByte d 20 == 1) = .ok i) :
    t.imageStage h d dma = (if i.store then (State.imageStaged { t with staging := some i } i).storeImage i
      else State.imageStaged { t with staging := some i } i).mbxLater h 0x0010 0 0 (leBytes 8 i.id.toNat) := by
  have hl' : ¬(t.live != 0) = true := by simp [hl]
  have hd' : ¬(dma.status != 0) = true := by simp [hd]
  unfold State.imageStage
  dsimp only
  rw [if_neg (Nat.not_lt.mpr (Nat.lt_succ_iff.mp hm)), if_neg hl', if_neg hd', hp]

end

theorem targetOk_congr {t : State} (h0 : t.alm.b0 = s.alm.b0) (h1 : t.alm.b1 = s.alm.b1) (hi : t.alm.inForce = s.alm.inForce) (ht : t.time = s.time)
    (n : Nat) : t.targetOk n = s.targetOk n := by
  unfold State.targetOk State.bankIn State.bankOther State.ss State.ssAt
  rw [h0, h1, hi, ht]

/-- The fence of the mirror touches neither the images nor the almanac. -/
theorem mirrorFence_keeps (side : Nat) : (s.mirrorFence side).live = s.live ∧ (s.mirrorFence side).staging = s.staging ∧
    (s.mirrorFence side).alm = s.alm := by
  unfold State.mirrorFence
  split
  · exact ⟨rfl, rfl, rfl⟩
  · exact ⟨rfl, rfl, rfl⟩

/-- The other bank, filled and armed at a legal target (R369). -/
theorem commit_arms {w : State} {target : FT} (hok : w.targetOk target.toNat = true) :
    ∃ y, (((w.updAlm (fun a => { a with other := .ready })).almEvent F.ALM_EVENT_LOAD_DONE).almArmAt target false) = y ∧ y.alm.other = .armed ∧
      y.alm.target = target := by
  obtain ⟨y, hy⟩ : ∃ y, y = (w.updAlm (fun a => { a with other := .ready })).almEvent F.ALM_EVENT_LOAD_DONE := ⟨_, rfl⟩
  have hoff : y.offMbx = (w.updAlm (fun a => { a with other := .ready })).offMbx := by
    rw [hy]
    exact event_offMbx ..
  have halm : y.alm = { w.alm with other := .ready } := (congrArg State.alm hoff :)
  have htime : y.time = w.time := (congrArg State.time hoff :)
  have hother : y.alm.other = .ready := by rw [halm]
  have hok' : y.targetOk target.toNat = true := by
    rw [targetOk_congr w (by rw [halm]) (by rw [halm]) (by rw [halm]) htime]
    exact hok
  have hno : ¬(y.alm.other != .ready) = true := by rw [hother]; decide
  refine ⟨y.updAlm (fun a => { a with other := .armed, target := target, byPower := false }), ?_, rfl, rfl⟩
  rw [← hy]
  unfold State.almArmAt
  rw [if_neg hno, hok', if_neg (by decide)]

/-- IMAGE_COMMIT of a staged image that validates arms the other bank (R369). -/
theorem imageCommit_arms {t w : State} {img : Image} (h : W32) (d : Desc) (hs : t.staging = some img) (hv : t.validate img true = none)
    (hf : t.alm.other = .free) (hw : w = (t.writeTables (img.marked t.pkg)).setOther (bankOf (img.marked t.pkg).recs (t.liveVariant (img.marked t.pkg))))
    (hok : w.targetOk (BitVec.ofNat 64 (dBytes d 8 8)).toNat = true) :
    (t.imageCommit h d).live = 1 ∧ (t.imageCommit h d).staging = some (img.marked t.pkg) ∧ (t.imageCommit h d).alm.other = .armed ∧
      (t.imageCommit h d).alm.target = BitVec.ofNat 64 (dBytes d 8 8) := by
  obtain ⟨y, hy, hother, htarget⟩ := commit_arms hok
  have hgo : ∃ r, t.imageCommit h d = (State.mirrorFence { y with staging := some (img.marked t.pkg), live := 1 } y.bootSide).mbxAnswer h 0x0011 0 0 r := by
    have hno : ¬(t.alm.other != .free) = true := by rw [hf]; decide
    refine ⟨leBytes 8 (dBytes d 8 8) ++ leBytes 2 (t.liveVariant (img.marked t.pkg)).toNat, ?_⟩
    unfold State.imageCommit
    rw [hs]
    dsimp only
    rw [hv]
    dsimp only
    rw [if_neg hno, ← hw, hy, hother]
    exact if_pos rfl
  obtain ⟨r, hgo⟩ := hgo
  obtain ⟨hl, hst, ha⟩ := mirrorFence_keeps { y with staging := some (img.marked t.pkg), live := 1 } y.bootSide
  have hoff := mbxAnswer_offMbx (State.mirrorFence { y with staging := some (img.marked t.pkg), live := 1 } y.bootSide) h 0x0011 0 0 r
  rw [← hgo] at hoff
  have ha' : (t.imageCommit h d).alm = y.alm := (congrArg State.alm hoff :).trans ha
  exact ⟨(congrArg State.live hoff :).trans hl, (congrArg State.staging hoff :).trans hst, by rw [ha', hother], by rw [ha', htarget]⟩

/-- IMAGE_ABORT before the Equinox (R371). -/
theorem imageAbort_drops {t : State} (h : W32) (hl : t.live ≠ 2) : (t.imageAbort h).staging = none ∧ (t.imageAbort h).live = 0 ∧
    (t.live = 1 → (t.imageAbort h).alm.other = .free) := by
  unfold State.imageAbort
  rw [if_neg hl]
  extract_lets y
  have hy : t.live = 1 → y.alm.other = .free := fun h1 => by
    unfold y
    rw [if_pos h1]
    rfl
  clear_value y
  have hoff := mbxAnswer_offMbx { y with staging := none, live := 0 } h 0x0012 0 0 []
  have halm := congrArg State.alm hoff
  exact ⟨(congrArg State.staging hoff :), (congrArg State.live hoff :), fun h1 => (congrArg Alm.other halm :).trans (hy h1)⟩

/-- The end of a live change puts the staged image in service (R370). -/
theorem liveFinish_serves {img : Image} (hs : s.staging = some img) (hl : s.live = 2) : s.liveFinish.image = some img ∧ s.liveFinish.staging = none ∧
    s.liveFinish.live = 0 := by
  unfold State.liveFinish
  rw [hs]
  dsimp only
  rw [if_pos hl]
  exact ⟨rfl, rfl, rfl⟩

/-! ## Firmware -/

/-- FW_WRITE of a slot not in use stores the firmware that verifies, and no other (R361). -/
theorem fwWrite_stores {t : State} (h : W32) (d : Desc) (dma : Dma) (hn : dBytes d 16 4 ≤ 8 * 2 ^ 20) (hs : dByte d 20 < 2) (hu : dByte d 20 ≠ t.fwSlot)
    (hd : dma.status = 0) :
    (if dByte d 20 = 0 then (t.fwWrite h d dma).boot.f0.fw0 else (t.fwWrite h d dma).boot.f0.fw1) =
      (if Config.firmwareValid t.pkg.keyHash (dma.bytes.take (dBytes d 16 4)) then dma.bytes.take (dBytes d 16 4)
       else if dByte d 20 = 0 then t.boot.f0.fw0 else t.boot.f0.fw1) := by
  have hd' : ¬(dma.status != 0) = true := by simp [hd]
  unfold State.fwWrite
  dsimp only
  rw [if_neg (Nat.not_lt.mpr hn), if_neg (Nat.not_lt.mpr (Nat.lt_succ_iff.mp hs)), if_neg hu, if_neg hd']
  cases Config.firmwareValid t.pkg.keyHash (dma.bytes.take (dBytes d 16 4)) with
  | false => rfl
  | true =>
    by_cases h0 : dByte d 20 = 0
    · simp only [if_pos h0]
      rfl
    · simp only [if_neg h0]
      rfl

/-- FW_SELECT writes the slot of the next boot into both blocks (R361). -/
theorem mbxFwSelect_writes (h : mbxTakes s 0x0021) (hs : dByte s.mbxFront 8 < 2) :
    ∃ u b, exec .mbxFwSelect s = .next u ∧ u.boot.f0.block = some b ∧ u.boot.f1.block = some b ∧ b.fwSlot = dByte s.mbxFront 8 := by
  obtain ⟨b, g, hb, h0, h1, -⟩ := writeBlock_boot (mbxTaken s) (fun b => { b with fwSlot := dByte s.mbxFront 8 })
  generalize hy : (mbxTaken s).writeBlock (fun b => { b with fwSlot := dByte s.mbxFront 8 }) = y at h0 h1
  have hoff := mbxAnswer_offMbx y (dw s.mbxFront 0) 0x0021 0 0 []
  have hboot : (y.mbxAnswer (dw s.mbxFront 0) 0x0021 0 0 []).boot = y.boot := (congrArg State.boot hoff :)
  rw [← hboot] at h0 h1
  refine ⟨_, b, mbxRun_takes s h ?_, h0, h1, by rw [hb]⟩
  rw [← hy]
  exact if_neg (Nat.not_lt.mpr (Nat.lt_succ_iff.mp hs))

/-! ## Logs -/

theorem diaryRd_mbx (wr rd : Nat) (v : FT) : (s.diaryRd wr rd v).1.mbx = s.mbx := by
  unfold State.diaryRd
  dsimp only
  split <;> rfl

theorem length_leBytes (n v : Nat) : (leBytes n v).length = n := by
  induction n generalizing v with
  | zero => rfl
  | succ n ih => exact congrArg (· + 1) (ih _)

theorem take_leBytes (n v : Nat) (r : List Byte) : (leBytes n v ++ r).take n = leBytes n v :=
  List.take_left' (length_leBytes n v)

theorem mbxChronRead_queues (ht : mbxTakes s 0x0050) :
    ∃ u r, exec .mbxChronRead s = .next u ∧ u.mbx.jobs = s.mbx.jobs ++ [r] ∧ r.echo = dw s.mbxFront 0 ∧ r.status = 0 ∧
      r.result.take 4 = leBytes 4 (((mbxTaken s).liveFrom (dw s.mbxFront 4)).take (dBytes s.mbxFront 20 4)).length := by
  refine ⟨_, _, mbxRun_takes s ht rfl, (mbxLater_jobs ..).trans (congrArg (· ++ [_]) ?_), rfl, rfl, take_leBytes ..⟩
  rw [← mbxTaken_jobs s]
  split <;> rfl

/-- DIARY_READ queues an answer that begins with the number of entries read (R361). -/
theorem diaryRead_queues {t : State} (h : W32) (d : Desc) (hd : dByte d 28 < 2) :
    ∃ r : MbxRsp, (t.diaryRead h d).mbx.jobs = t.mbx.jobs ++ [r] ∧ r.echo = h ∧ r.status = 0 ∧
      r.result.take 4 = leBytes 4 (t.diaryFrom (dBytes d 16 8) (dBytes d 24 4)).length := by
  unfold State.diaryRead
  extract_lets first xs next y z
  have hy : y.mbx = t.mbx := by
    unfold y
    split <;> rfl
  clear_value y
  have hz : z.mbx = t.mbx := by
    unfold z
    split
    · rw [diaryRd_mbx, hy]
    · exact hy
  clear_value z
  rw [if_neg (Nat.not_lt.mpr (Nat.lt_succ_iff.mp hd)), ← hz]
  exact ⟨_, mbxLater_jobs .., rfl, rfl, take_leBytes ..⟩

/-! ## Registers -/

/-- REG_READ of an address that may be accessed answers its value (R361). -/
theorem mbxRegRead_answers (ht : mbxTakes s 0x0040) (ha : (mbxTaken s).addrOk (dw s.mbxFront 2) = true)
    (hu : (mbxTaken s).unitStopped (unitOf (dw s.mbxFront 2)) = false) {tv : State × Nat × W32} (hr : tv = (mbxTaken s).readReg (dw s.mbxFront 2))
    (hok : tv.2.1 = trOk) :
    exec .mbxRegRead s = .next (kept s (tv.1.mbxAnswer (dw s.mbxFront 0) 0x0040 0 0 (leBytes 4 tv.2.2.toNat))) := by
  refine mbxRun_takes s ht ?_
  dsimp only
  rw [ha, hu, ← hr]
  exact if_pos hok

/-- REG_WRITE of an address that may be accessed answers the write's status (R361). -/
theorem mbxWrite_answers {t : State} (h addr data : W32) (ha : t.addrOk addr = true) (hu : t.unitStopped (unitOf addr) = false)
    (hs : t.startsReset addr data = false) {ts : State × Nat} (hw : ts = t.writeReg addr data) :
    t.mbxWrite h addr data = ts.1.settle.mbxAnswer h 0x0041 (if ts.2 = trOk then 0 else 8) ts.2 [] := by
  unfold State.mbxWrite
  rw [ha, hu, if_neg (by decide), ← hw, hs]
  exact if_neg Bool.false_ne_true

end

/-- Settles O52, command by command, from what each does to the state that has taken it. -/
theorem mailboxCommandsAct : Obligations.MailboxCommandsAct := by
  intro s t w d h addr dma img ts tv hd hh ht
  subst hd hh ht
  have hpkg := mbxTaken_pkg s
  have hoff := mbxTaken_offMbx s
  have hlive : (mbxTaken s).live = s.live := (congrArg State.live hoff :)
  have hstaging : (mbxTaken s).staging = s.staging := (congrArg State.staging hoff :)
  have hboot : (mbxTaken s).boot = s.boot := (congrArg State.boot hoff :)
  refine ⟨fun h => mbxRun_takes s h rfl, fun h hm hl hd => ?_,
    fun h hs hv hf hw hok => ⟨_, mbxRun_takes s h rfl, ?_⟩, fun h hl => ⟨_, mbxRun_takes s h rfl, ?_⟩, fun h hn hs hu hd => ⟨_, mbxRun_takes s h rfl, ?_⟩,
    mbxFwSelect_writes s, fun h => mbxRun_takes s h rfl, fun h ha hok hu hr hst => ?_, fun h ha hok hu hr hw => ?_, mbxChronRead_queues s, fun h hd => ?_,
    fun hs hl => ⟨_, rfl, liveFinish_serves s hs hl⟩⟩
  · cases hp : (mbxTaken s).parseImage (dma.bytes.take (dBytes s.mbxFront 16 4)) (dByte s.mbxFront 20 == 1) with
    | error f => exact mbxRun_takes s h (imageStage_fails _ _ dma hm (hlive.trans hl) hd hp)
    | ok i => exact mbxRun_takes s h (imageStage_stages _ _ dma hm (hlive.trans hl) hd hp)
  · rw [← hpkg] at hw ⊢
    exact imageCommit_arms _ _ (hstaging.trans hs) hv hf hw hok
  · rw [← hlive] at hl ⊢
    exact imageAbort_drops _ hl
  · rw [← hpkg, ← hboot]
    exact fwWrite_stores _ _ dma hn hs hu hd
  · subst ha
    exact mbxRegRead_answers s h hok hu hr hst
  · subst ha
    exact mbxRun_takes s h (mbxWrite_answers _ _ _ hok hu hr hw)
  · obtain ⟨r, hjobs, hr⟩ := diaryRead_queues (t := mbxTaken s) (dw s.mbxFront 0) s.mbxFront hd
    exact ⟨_, r, mbxRun_takes s h rfl, hjobs.trans (by rw [mbxTaken_jobs]), hr⟩

end Sys2Proof.Machine
end

section
/-! The Diary's reports (R236, R240, R242). -/
namespace Sys2Proof.Machine

/-! ## A record that reaches the trace unit -/

/-- Making room changes the ring alone. -/
theorem discardOld_rr (n : Nat) (fuel : Nat) (t : Trace) (k : Nat) : (discardOld n fuel t k).1.rr = t.rr := by
  induction fuel generalizing t k with
  | zero => rfl
  | succ fuel ih =>
    unfold discardOld
    split
    · rfl
    · split
      · split
        · rfl
        · exact ih ..
      · split
        · exact ih ..
        · rfl

section
variable {R : State → State → Prop} (hrefl : ∀ s, R s s) (htrans : ∀ {a b c}, R a b → R b c → R a c)
  (htrace : ∀ s f, (f s.trace).rr = s.trace.rr → R s (s.updTrace f)) (hcount : ∀ s u off n, R s (s.count u off n))
  (hdone : ∀ s u, R s (s.event u F.TRACE_EVENT_DONE)) (hover : ∀ s u, R s (s.event u F.TRACE_EVENT_OVERFLOW)) (s : State)
include hrefl htrans htrace hdone

theorem captured_rel (n : Nat) : R s (s.captured n) := by
  unfold State.captured
  dsimp only
  split
  · exact hrefl s
  · split
    · exact htrace _ _ rfl
    · split
      · exact htrans (htrans (htrace _ _ rfl) (htrace _ _ rfl)) (hdone ..)
      · exact htrans (htrace _ _ rfl) (htrace _ _ rfl)

include hcount hover

/-- A record that reaches the trace unit changes its ring, counts, and sets DONE or OVERFLOW (R384): what each of these steps keeps, it keeps. -/
theorem capture_rel (r : RecBody) : R s (s.capture r) := by
  unfold State.capture
  extract_lets u n o y
  have hy : R s y := by
    unfold y
    split
    · exact htrans (htrace _ _ rfl) (captured_rel hrefl htrans htrace hdone _ _)
    · exact hrefl s
  clear_value y
  split
  · exact hrefl s
  · split
    · exact htrans (htrace s _ (discardOld_rr n (s.trace.ring.length + 1) s.trace 0)) (hcount ..)
    · split
      · exact htrans (htrans hy (htrace _ _ rfl)) (captured_rel hrefl htrans htrace hdone _ _)
      · exact htrans (htrans (htrans (htrans hy (htrace _ _ rfl)) (hcount ..)) (hcount ..)) (hover ..)

end

/-! ## What leaves WR and the open sets -/

/-- A step after which the package, both sides' units and the entry ring's WR are as before. -/
def WrKept (s t : State) : Prop :=
  t.pkg = s.pkg ∧ (t.diary.d0, t.diary.d1) = (s.diary.d0, s.diary.d1) ∧ ∀ u, t.pair u R.TRACE_DIARY_WR = s.pair u R.TRACE_DIARY_WR

namespace WrKept
variable {s t x : State}

theorem refl (s : State) : WrKept s s := ⟨rfl, rfl, fun _ => rfl⟩

theorem trans (h : WrKept s t) (k : WrKept t x) : WrKept s x := ⟨k.1.trans h.1, k.2.1.trans h.2.1, fun u => (k.2.2 u).trans (h.2.2 u)⟩

theorem of_regPart (h : t.regPart = s.regPart) (hd : t.diary = s.diary) : WrKept s t :=
  ⟨congrArg Prod.snd h, by rw [hd], fun u => pair_regPart h u _⟩

/-- A register other than the two of WR. -/
theorem setReg (s : State) (v : Nat) {off : Nat} (w : W32) (h0 : off ≠ 0x20) (h4 : off ≠ 0x24) (ho : off < 4096) : WrKept s (s.setReg v off w) := by
  refine ⟨rfl, rfl, fun u => ?_⟩
  have hhi : (s.setReg v off w).reg u 0x24 = s.reg u 0x24 := reg_setReg_apart s w (Ne.symm h4) (by decide) ho
  have hlo : (s.setReg v off w).reg u 0x20 = s.reg u 0x20 := reg_setReg_apart s w (Ne.symm h0) (by decide) ho
  exact congrArg₂ (· ++ ·) hhi hlo

theorem setPair (s : State) (v : Nat) {off : Nat} (w : FT) (h : off + 4 < 0x20 ∨ 0x24 < off) (ho : off + 4 < 4096) : WrKept s (s.setPair v off w) :=
  (setReg s v _ (by omega) (by omega) (by omega)).trans (setReg _ v _ (by omega) (by omega) (by omega))

theorem event (s : State) (v : Nat) {f : Fld} (h : f.off < 0x20) : WrKept s (s.event v f) := by
  have hset := setReg s v (setBits (s.reg v f.off) f.lo f.lo 1) (off := f.off) (by omega) (by omega) (by omega)
  unfold State.event State.eventBit
  dsimp only
  split
  · exact hset
  · refine hset.trans (of_regPart (congrArg₂ Prod.mk (State.interrupt_regs ..) (State.interrupt_pkg ..)) ?_)
    exact State.interrupt_diary ..

theorem count (s : State) (u off n : Nat) : WrKept s (s.count u off n) := ⟨rfl, rfl, fun _ => rfl⟩
theorem updTrace (s : State) (f : Trace → Trace) : WrKept s (s.updTrace f) := ⟨rfl, rfl, fun _ => rfl⟩
theorem emit (s : State) (o : Out) : WrKept s (s.emit o) := ⟨rfl, rfl, fun _ => rfl⟩
theorem takeFree (s : State) : WrKept s s.takeFree.2 := ⟨rfl, rfl, fun _ => rfl⟩

end WrKept

section
variable (s : State)

/-! ## The trace unit's part -/

theorem capture_kept (r : RecBody) : WrKept s (s.capture r) :=
  capture_rel .refl .trans (fun s f _ => .updTrace s f) .count (fun s u => .event s u (by decide)) (fun s u => .event s u (by decide)) s r

theorem mirrorEntry_kept (bytes : List Byte) (dropped : Bool) : WrKept s (s.mirrorEntry bytes dropped) := by
  unfold State.mirrorEntry
  split
  · exact capture_kept ..
  · exact .refl s

/-! ## An entry -/

/-- The statistics block of an entry leaves the entry ring (R239). -/
theorem putBlock_kept (n : Nat) (sums : List StatsRec) : WrKept s (s.putBlock n sums).2.2 := by
  unfold State.putBlock
  extract_lets u size bytes wr rd off pad stop start y z
  split
  · exact .refl s
  · split
    · exact (WrKept.count ..).trans (.event _ _ (by decide))
    · have hy : WrKept s y := .setPair s u _ (by decide) (by decide)
      clear_value y
      refine WrKept.trans ?_ (.emit ..)
      unfold z
      split
      · exact hy.trans (.setPair y u _ (by decide) (by decide))
      · exact hy

theorem entryBytes_kept (rs : List DiaryReport) (r : DiaryReport) (stats : Option Nat) (lost : Bool) (n : Nat) :
    WrKept s (s.entryBytes rs r stats lost n).2 := by
  have hlate : WrKept s (s.entryLate rs).2 := by
    unfold State.entryLate
    split
    · exact .refl s
    · exact (WrKept.takeFree s).trans (.takeFree ..)
  unfold State.entryBytes
  dsimp only
  split
  · exact hlate
  · split <;> exact .refl s

/-- Entry n moves WR to n + 1, whether it finds room or not (R240). -/
theorem putEntry_wr (n : Nat) (bytes : List Byte) : (s.putEntry n bytes).pkg = s.pkg ∧
    ((s.putEntry n bytes).diary.d0, (s.putEntry n bytes).diary.d1) = (s.diary.d0, s.diary.d1) ∧
    (s.putEntry n bytes).pair (diaryUnit s.pkg) R.TRACE_DIARY_WR = BitVec.ofNat 64 (n + 1) := by
  unfold State.putEntry
  extract_lets u size rd y full z w
  have hwr : y.pair u R.TRACE_DIARY_WR = BitVec.ofNat 64 (n + 1) := pair_setPair_self ..
  have hy : y.pkg = s.pkg ∧ y.diary = s.diary := ⟨rfl, rfl⟩
  clear_value y
  have hw : WrKept y w := by
    have hz : WrKept y z := by
      unfold z
      split
      · exact ((WrKept.setPair y u _ (by decide) (by decide)).trans (.count ..)).trans (.event _ _ (by decide))
      · exact .refl y
    clear_value z
    exact hz.trans ⟨rfl, rfl, fun _ => rfl⟩
  clear_value w
  have hk : ∀ x, WrKept y x → x.pkg = s.pkg ∧ (x.diary.d0, x.diary.d1) = (s.diary.d0, s.diary.d1) ∧
      x.pair u R.TRACE_DIARY_WR = BitVec.ofNat 64 (n + 1) := fun x ⟨hp, hd, hx⟩ => ⟨hp.trans hy.1, by rw [hd, hy.2], (hx u).trans hwr⟩
  split
  · exact hk _ (((WrKept.count ..).trans (.event _ _ (by decide))).trans (mirrorEntry_kept ..))
  · exact hk _ ((hw.trans (.emit ..)).trans (mirrorEntry_kept ..))

/-- A set of one report makes one entry (R236). -/
theorem writeEntry_one (r : DiaryReport) : (s.writeEntry [r]).pkg = s.pkg ∧
    ((s.writeEntry [r]).diary.d0, (s.writeEntry [r]).diary.d1) = (s.diary.d0, s.diary.d1) ∧
    (s.writeEntry [r]).pair (diaryUnit s.pkg) R.TRACE_DIARY_WR = s.pair (diaryUnit s.pkg) R.TRACE_DIARY_WR + 1 := by
  have hput := putBlock_kept s (s.pair (diaryUnit s.pkg) R.TRACE_DIARY_WR).toNat (entrySummaries [r])
  unfold State.writeEntry
  rw [show byMember [r] = [r] from rfl]
  dsimp only
  generalize s.putBlock (s.pair (diaryUnit s.pkg) R.TRACE_DIARY_WR).toNat (entrySummaries [r]) = p at hput
  obtain ⟨stats, dropped, x⟩ := p
  have hbytes := entryBytes_kept x [r] r stats (dropped || [r].any (·.statsLost)) (s.pair (diaryUnit s.pkg) R.TRACE_DIARY_WR).toNat
  dsimp only at hput ⊢
  generalize x.entryBytes [r] r stats (dropped || [r].any (·.statsLost)) (s.pair (diaryUnit s.pkg) R.TRACE_DIARY_WR).toNat = q at hbytes
  obtain ⟨bytes, y⟩ := q
  dsimp only at hbytes ⊢
  obtain ⟨z, hz⟩ : ∃ z, z = if (decide (r.kind = 0) && digestsDisagree [r]) = true then y.event (diaryUnit s.pkg) F.TRACE_DIARY_EVENT_DISAGREE else y :=
    ⟨_, rfl⟩
  have hkept : WrKept s z := by
    rw [hz]
    split
    · exact (hput.trans hbytes).trans (.event _ _ (by decide))
    · exact hput.trans hbytes
  rw [← hz]
  obtain ⟨hp, hd, hwr⟩ := putEntry_wr z (s.pair (diaryUnit s.pkg) R.TRACE_DIARY_WR).toNat bytes
  rw [hkept.1] at hwr
  refine ⟨hp.trans hkept.1, hd.trans hkept.2.1, hwr.trans ?_⟩
  rw [BitVec.ofNat_add, BitVec.ofNat_toNat, BitVec.setWidth_eq]
  rfl

/-! ## A report -/

variable {side : Nat} {r : DiaryReport}

theorem diarySide_setDiarySide (d : DiarySide) : (s.setDiarySide side d).diarySide side = d := by
  unfold State.setDiarySide State.diarySide State.updDiary
  by_cases h : side = 0
  · simp only [if_pos h]
  · simp only [if_neg h]

theorem diarySide_setDiarySide_other (h : side < 2) (d : DiarySide) : (s.setDiarySide (1 - side) d).diarySide side = s.diarySide side := by
  unfold State.setDiarySide State.diarySide State.updDiary
  interval_cases side
  · rfl
  · rfl

theorem diarySide_congr {t : State} (h : (t.diary.d0, t.diary.d1) = (s.diary.d0, s.diary.d1)) (side : Nat) : t.diarySide side = s.diarySide side := by
  obtain ⟨h0, h1⟩ := Prod.mk.inj h
  unfold State.diarySide
  rw [h0, h1]

theorem setDiarySide_regPart (d : DiarySide) (n : Nat) : (s.setDiarySide n d).regPart = s.regPart := rfl

/-- PENDING is shown in a field of its own (R242). -/
theorem diaryPending_kept : WrKept s s.diaryPending := .setReg s _ _ (by decide) (by decide) (by decide)

/-- The active unit writes the entry of a set that is complete, and closes it (R236, R242). -/
theorem completeSet_writes {key : Nat} (hs : side < 2) (ha : side = s.diaryActive) (hc : (s.diarySide side).confirmed.contains key = false) :
    (s.completeSet side key [r]).pkg = s.pkg ∧ kget [] ((s.completeSet side key [r]).diarySide side).sets key = [] ∧
      (s.completeSet side key [r]).pair (diaryUnit s.pkg) R.TRACE_DIARY_WR = s.pair (diaryUnit s.pkg) R.TRACE_DIARY_WR + 1 := by
  have hact : ¬(side != s.diaryActive) = true := by simp [ha]
  unfold State.completeSet
  extract_lets d x o due y
  have hx : x.diarySide side = { d with sets := kdel d.sets key } := diarySide_setDiarySide ..
  have hxr : x.regPart = s.regPart := setDiarySide_regPart ..
  clear_value x
  have hy : y.diarySide side = { d with sets := kdel d.sets key } := (diarySide_setDiarySide_other x hs _).trans hx
  have hyr : y.regPart = s.regPart := (setDiarySide_regPart ..).trans hxr
  clear_value y
  have hyp : y.pkg = s.pkg := congrArg Prod.snd hyr
  rw [hc, if_neg Bool.false_ne_true, if_neg hact]
  obtain ⟨hp, hd, hwr⟩ := writeEntry_one y r
  rw [hyp, pair_regPart hyr] at hwr
  refine ⟨hp.trans hyp, ?_, hwr⟩
  rw [diarySide_congr y hd, hy]
  exact kget_kdel_self ..

section
variable (hh : s.holds = false) (he : s.bit (diaryUnit s.pkg) F.TRACE_DIARY_CTRL_EN = true) (hn : kget [] (s.diarySide side).sets (repSet r) = [])
include hh he hn

/-- The unit once the first report of a set has joined it. -/
theorem diaryReport_joins : ∃ x : State, x.diarySide side = { s.diarySide side with sets := kins (s.diarySide side).sets (repSet r) [r] } ∧
    x.regPart = s.regPart ∧ x.diaryActive = s.diaryActive ∧
    s.diaryReport side r = (if s.reportsDue r ≤ 1 then x.completeSet side (repSet r) [r] else x).diaryPending := by
  refine ⟨s.setDiarySide side { s.diarySide side with sets := kins (s.diarySide side).sets (repSet r) [r] }, diarySide_setDiarySide .., rfl, rfl, ?_⟩
  have hno : ¬(!s.bit (diaryUnit s.pkg) F.TRACE_DIARY_CTRL_EN) = true := by rw [he]; decide
  unfold State.diaryReport State.takeReport
  rw [hh, if_neg Bool.false_ne_true, if_neg hno]
  dsimp only
  rw [hn]
  rfl

theorem diaryReport_opens (hd : 1 < s.reportsDue r) : (s.diaryReport side r).pkg = s.pkg ∧
    kget [] ((s.diaryReport side r).diarySide side).sets (repSet r) = [r] ∧
    (s.diaryReport side r).pair (diaryUnit s.pkg) R.TRACE_DIARY_WR = s.pair (diaryUnit s.pkg) R.TRACE_DIARY_WR := by
  obtain ⟨x, hx, hreg, -, hgo⟩ := diaryReport_joins s hh he hn
  rw [if_neg (Nat.not_le.mpr hd)] at hgo
  obtain ⟨hp, hsides, hwr⟩ := diaryPending_kept x
  rw [hgo]
  refine ⟨hp.trans (congrArg Prod.snd hreg), ?_, (hwr _).trans (pair_regPart hreg _ _)⟩
  rw [diarySide_congr x hsides, hx]
  exact kget_kins_self ..

theorem diaryReport_enters (hs : side < 2) (hd : s.reportsDue r ≤ 1) (ha : side = s.diaryActive)
    (hc : (s.diarySide side).confirmed.contains (repSet r) = false) : (s.diaryReport side r).pkg = s.pkg ∧
    kget [] ((s.diaryReport side r).diarySide side).sets (repSet r) = [] ∧
      (s.diaryReport side r).pair (diaryUnit s.pkg) R.TRACE_DIARY_WR = s.pair (diaryUnit s.pkg) R.TRACE_DIARY_WR + 1 := by
  obtain ⟨x, hx, hreg, hact, hgo⟩ := diaryReport_joins s hh he hn
  rw [if_pos hd] at hgo
  have hxp : x.pkg = s.pkg := congrArg Prod.snd hreg
  obtain ⟨hp, hsets, hwr⟩ := completeSet_writes x (r := r) (key := repSet r) hs (ha.trans hact.symm) (by rw [hx]; exact hc)
  rw [hxp, pair_regPart hreg] at hwr
  rw [hgo]
  generalize x.completeSet side (repSet r) [r] = y at hp hsets hwr
  obtain ⟨hp', hsides, hwr'⟩ := diaryPending_kept y
  exact ⟨hp'.trans (hp.trans hxp), by rw [diarySide_congr y hsides, hsets], (hwr' _).trans hwr⟩

end

/-! ## The commands -/

theorem diaryReportReceive_exec (hs : side < 2) : exec (.diaryReportReceive side r) s = .next (kept s (onDiary s (s.diaryReport side r))) :=
  onUnit_true s _ (decide_eq_true hs)

theorem onDiary_regPart {x : State} (h : x.pkg = s.pkg) : (kept s (onDiary s x)).regPart = x.regPart := congrArg (Prod.mk x.regs) h.symm

theorem onDiary_pair {x : State} (h : x.pkg = s.pkg) (u off : Nat) : (kept s (onDiary s x)).pair u off = x.pair u off :=
  pair_regPart (onDiary_regPart s h) u off

/-- Software moves RD to a value between RD and WR alone (R240). -/
theorem diaryRd_moves (rd : FT) (h1 : (s.pair (diaryUnit s.pkg) R.TRACE_DIARY_RD).toNat ≤ rd.toNat)
    (h2 : rd.toNat ≤ (s.pair (diaryUnit s.pkg) R.TRACE_DIARY_WR).toNat) :
    (s.diaryRd R.TRACE_DIARY_WR R.TRACE_DIARY_RD rd).1 = s.setPair (diaryUnit s.pkg) R.TRACE_DIARY_RD rd := by
  unfold State.diaryRd
  dsimp only
  rw [if_neg]
  simp only [Bool.or_eq_true, decide_eq_true_eq, not_or, Nat.not_lt]
  exact ⟨h2, h1⟩

theorem diaryRd_keeps (rd : FT) (h : rd.toNat < (s.pair (diaryUnit s.pkg) R.TRACE_DIARY_RD).toNat ∨
    (s.pair (diaryUnit s.pkg) R.TRACE_DIARY_WR).toNat < rd.toNat) : (s.diaryRd R.TRACE_DIARY_WR R.TRACE_DIARY_RD rd).1 = s := by
  unfold State.diaryRd
  dsimp only
  rw [if_pos]
  simp only [Bool.or_eq_true, decide_eq_true_eq]
  exact h.symm

end

/-- Settles O53: a report held, lost, opening its set or making its entry, and RD within its bounds. -/
theorem diaryTakesReports : Obligations.DiaryTakesReports := by
  intro s side u r rd hs hu
  subst hu
  have hexec := diaryReportReceive_exec s (r := r) hs
  refine ⟨fun hh => ?_, fun hh he ha => ?_, fun hh he hn hd => ?_, fun hh he hn hd ha hc => ?_, fun h1 h2 => ?_, fun h => ?_⟩
  · rw [hexec, show s.diaryReport side r = _ from if_pos hh]
    rfl
  · have hlost : s.diaryReport side r = s.count (diaryUnit s.pkg) R.TRACE_DIARY_LOST 1 := by
      unfold State.diaryReport State.takeReport
      rw [hh, if_neg Bool.false_ne_true]
      dsimp only
      rw [he, if_pos ha]
      rfl
    rw [hexec, hlost]
    rfl
  · obtain ⟨hp, hset, hwr⟩ := diaryReport_opens s hh he hn hd
    exact ⟨_, hexec, hset, (onDiary_pair s hp _ _).trans hwr⟩
  · obtain ⟨hp, hset, hwr⟩ := diaryReport_enters s hh he hn hs hd ha hc
    exact ⟨_, hexec, hset, (onDiary_pair s hp _ _).trans hwr⟩
  · show Host.Outcome.next (kept s (onDiary s (s.diaryRd R.TRACE_DIARY_WR R.TRACE_DIARY_RD rd).1)) = _
    rw [diaryRd_moves s rd h1 h2]
    rfl
  · show Host.Outcome.next (kept s (onDiary s (s.diaryRd R.TRACE_DIARY_WR R.TRACE_DIARY_RD rd).1)) = _
    rw [diaryRd_keeps s rd h]
    rfl

end Sys2Proof.Machine
end

section
/-! The trace unit's commands (R375, R384, R385). -/
namespace Sys2Proof.Machine

section
variable (s : State)

/-! ## Records that enter the ring -/

/-- What a record that reaches the trace unit leaves: the collectors' turns, the routers, the package and FT. -/
def State.traceRest (s : State) : KMap Nat × KMap Rtr × Package × FT := (s.trace.rr, s.rtr, s.pkg, s.time.ft)

theorem event_traceRest (u : Nat) (f : Fld) : (s.event u f).traceRest = s.traceRest := by
  unfold State.traceRest
  rw [State.event_trace, State.event_rtr, State.event_pkg, State.event_time]

theorem updTrace_traceRest (f : Trace → Trace) (h : (f s.trace).rr = s.trace.rr) : (s.updTrace f).traceRest = s.traceRest := by
  unfold State.traceRest
  rw [show (s.updTrace f).trace = f s.trace from rfl, h]
  rfl

theorem count_traceRest (u off n : Nat) : (s.count u off n).traceRest = s.traceRest := rfl

theorem capture_traceRest (r : RecBody) : (s.capture r).traceRest = s.traceRest :=
  capture_rel (R := fun s t => t.traceRest = s.traceRest) (fun _ => rfl) (fun h k => k.trans h) updTrace_traceRest count_traceRest
    (fun s u => event_traceRest s u _) (fun s u => event_traceRest s u _) s r

/-- A record that reaches an ARMED unit enters, and shows nowhere else (R384). -/
theorem capture_armed (r : RecBody) (h : s.trace.st = 1) : (s.capture r).regPart = s.regPart := by
  unfold State.capture
  dsimp only
  rw [if_neg (by omega), if_pos h]
  rfl

/-! ## The commands -/

theorem onTrace_eq (x : State) : onTrace s x = .next (Part.put .trace s x) := rfl

theorem tracePut_regPart {x : State} (h : x.pkg = s.pkg) : (Part.put .trace s x).regPart = x.regPart := congrArg (Prod.mk x.regs) h.symm

/-- The collector takes the oldest record of the router whose turn it is (R375). -/
theorem traceCollect_takes {die k : Nat} {x : Rtr} {p : ProbeRec} {ps : List ProbeRec} (h : s.nextFifo die = some (k, x)) (hf : x.fifo = p :: ps) :
    ∃ t, exec (.traceCollect die) s = .next t ∧ kfind t.rtr k = some { x with fifo := ps } ∧ kfind t.trace.rr die = some k := by
  obtain ⟨y, hy⟩ : ∃ y : State, y = { s with rtr := kins s.rtr k { x with fifo := ps }, trace := { s.trace with rr := kins s.trace.rr die k } } := ⟨_, rfl⟩
  have hexec : exec (.traceCollect die) s = onTrace s (y.capture (probeRec k p)) := by
    show execTraceCollect die s = _
    unfold execTraceCollect
    rw [h]
    dsimp only
    rw [hf, hy]
  have hrest := capture_traceRest y (probeRec k p)
  have hrr : (y.capture (probeRec k p)).trace.rr = y.trace.rr := congrArg Prod.fst hrest
  have hrtr : (y.capture (probeRec k p)).rtr = y.rtr := congrArg (fun q => q.2.1) hrest
  refine ⟨_, hexec, ?_, ?_⟩
  · show kfind (y.capture (probeRec k p)).rtr k = _
    rw [hrtr, hy]
    exact kfind_kins_self ..
  · show kfind (y.capture (probeRec k p)).trace.rr die = _
    rw [hrr, hy]
    exact kfind_kins_self ..

/-- A trigger while ARMED is taken with the FT (R384). -/
theorem trigTake_armed (source : Nat) (h : s.trace.st = 1) : (s.trigTake source).pkg = s.pkg ∧ (s.trigTake source).trace.st = 2 ∧
    (s.trigTake source).trace.trigFt = s.time.ft ∧ (s.trigTake source).bit (traceUnit s.pkg) F.TRACE_EVENT_TRIGGERED = true ∧
    (s.trigTake source).bit (traceUnit s.pkg) F.TRACE_TRIG_CFG_HOLIDAY = s.bit (traceUnit s.pkg) F.TRACE_TRIG_CFG_HOLIDAY := by
  obtain ⟨y, hy⟩ : ∃ y, y = s.capture (s.traceRec 0x04 false (BitVec.ofNat 8 source :: List.replicate 15 0)) := ⟨_, rfl⟩
  have hreg : y.regPart = s.regPart := by
    rw [hy]
    exact capture_armed s _ h
  have hft : y.time.ft = s.time.ft := by
    rw [hy]
    exact congrArg (fun q => q.2.2.2) (capture_traceRest s _)
  obtain ⟨z, hz⟩ : ∃ z, z = (y.updTrace (fun _ => { (discardOld y.tracePost (y.trace.ring.length + 1) y.trace 0).1 with
      st := 2, post := 0, drain := none, trigFt := y.time.ft })).count (traceUnit s.pkg) R.TRACE_OVERWRITTEN
        (discardOld y.tracePost (y.trace.ring.length + 1) y.trace 0).2 := ⟨_, rfl⟩
  have hgo : s.trigTake source = z.event (traceUnit s.pkg) F.TRACE_EVENT_TRIGGERED := by
    have h0 : ¬s.trace.st = 0 := by omega
    have h1 : ¬(s.trace.st != 1) = true := by simp [h]
    unfold State.trigTake
    dsimp only
    rw [if_neg h0, if_neg h1, ← hy, hz]
  have hzr : z.regPart = s.regPart := by
    rw [hz]
    exact hreg
  have hzt : z.trace.st = 2 ∧ z.trace.trigFt = s.time.ft := by
    rw [hz]
    exact ⟨rfl, hft⟩
  rw [hgo, State.event_pkg, State.event_trace]
  refine ⟨congrArg Prod.snd hzr, hzt.1, hzt.2, ?_, ?_⟩
  · unfold State.bit
    rw [fld_event_self _ _ _ rfl (by decide)]
    rfl
  · unfold State.bit
    rw [fld_event_apart z (by decide) (by decide) (by decide), fld_regPart hzr]

theorem traceTrigger_takes (h : s.trace.st = 1) (hn : s.bit (traceUnit s.pkg) F.TRACE_TRIG_CFG_HOLIDAY = false) :
    ∃ t, exec .traceTrigger s = .next t ∧ t.trace.st = 2 ∧ t.trace.trigFt = s.time.ft ∧ t.bit (traceUnit s.pkg) F.TRACE_EVENT_TRIGGERED = true := by
  obtain ⟨hp, hst, hft, hev, hhol⟩ := trigTake_armed s 0 h
  have hgo : s.trigger 0 = s.trigTake 0 := by
    have hno : ¬(s.trace.st == 1 && (s.trigTake 0).bit (traceUnit s.pkg) F.TRACE_TRIG_CFG_HOLIDAY) = true := by
      rw [hhol, hn, Bool.and_false]
      exact Bool.false_ne_true
    unfold State.trigger
    exact if_neg hno
  have hexec : exec .traceTrigger s = onTrace s (s.trigTake 0) := congrArg (onTrace s) hgo
  generalize s.trigTake 0 = x at hexec hp hst hft hev
  refine ⟨_, hexec, hst, hft, ?_⟩
  rw [← hev]
  exact bit_regPart (tracePut_regPart s hp) _ _

/-- ADVANCE within the oldest record releases 64 bytes of it (R384). -/
theorem traceAdvance_within {r : List Byte} {rs : List (List Byte)} (he : s.bit (traceUnit s.pkg) F.TRACE_CTRL_PORT_EN = false)
    (hr : s.trace.ring = r :: rs) (hl : s.trace.headOff + 64 < r.length) (hd : s.trace.drain = none) :
    exec .traceAdvance s = .next (s.updTrace (fun t => { t with headOff := t.headOff + 64 })) := by
  have htake : takeBytes s.trace.headOff (r :: rs) 64 = (0, r :: rs, s.trace.headOff + 64) := by
    unfold takeBytes
    exact if_neg (by omega)
  have hkeep : ({ s.trace with ring := r :: rs, headOff := s.trace.headOff + 64 } : Trace).drained 0 = { s.trace with headOff := s.trace.headOff + 64 } := by
    unfold Trace.drained
    rw [← hr]
    dsimp only
    rw [hd]
  have hgo : s.traceAdvance = s.updTrace (fun t => { t with headOff := t.headOff + 64 }) := by
    unfold State.traceAdvance
    rw [he, if_neg Bool.false_ne_true, hr, htake]
    exact congrArg (fun x => s.updTrace fun _ => x) hkeep
  show onTrace s s.traceAdvance = _
  rw [hgo]
  rfl

/-- The lanes change no record (R385). -/
theorem sendBlock_ring (t : Trace) (x : Nat) : (t.sendBlock x).1.ring = t.ring ∧ (t.sendBlock x).1.headOff = t.headOff := by
  unfold Trace.sendBlock
  by_cases h : t.blocks = traceSpan
  · rw [if_pos h]
    exact ⟨rfl, rfl⟩
  · rw [if_neg h]
    exact ⟨rfl, rfl⟩

theorem sendBlocks_ring (t : Trace) (bs : List Byte) (n : Nat) : (t.sendBlocks bs n).1.ring = t.ring ∧ (t.sendBlocks bs n).1.headOff = t.headOff := by
  induction n with
  | zero => exact ⟨rfl, rfl⟩
  | succ n ih =>
    obtain ⟨hr, ho⟩ := sendBlock_ring (t.sendBlocks bs n).1 (leAt bs (16 * n) 16)
    exact ⟨hr.trans ih.1, ho.trans ih.2⟩

theorem idled_ring (t : Trace) (n : Nat) : (t.idled n).ring = t.ring ∧ (t.idled n).headOff = t.headOff := by
  unfold Trace.idled
  split
  · exact ⟨rfl, rfl⟩
  · exact ⟨rfl, rfl⟩

/-- What the trace port sends (R385). -/
theorem traceSend_out (bs : List Byte) : ∃ xs, (s.traceSend bs).trace.ring = s.trace.ring ∧ (s.traceSend bs).trace.headOff = s.trace.headOff ∧
    (s.traceSend bs).out = .traceOut bs xs :: s.out := by
  obtain ⟨hr, ho⟩ := sendBlocks_ring (s.trace.idled s.takeFree.1.toNat) bs (bs.length / 16)
  obtain ⟨hr', ho'⟩ := idled_ring s.trace s.takeFree.1.toNat
  exact ⟨((s.trace.idled s.takeFree.1.toNat).sendBlocks bs (bs.length / 16)).2, hr.trans hr', ho.trans ho', rfl⟩

theorem traceRecordDrained_sends {r : List Byte} {rs : List (List Byte)} (he : s.bit (traceUnit s.pkg) F.TRACE_CTRL_PORT_EN = true)
    (hr : s.trace.ring = r :: rs) (hd : s.trace.drain = none) : exec .traceRecordDrained s =
      .next (State.traceSend (s.updTrace (fun t => { t with ring := rs, headOff := 0 })) (r.drop s.trace.headOff)) := by
  have hkeep : ({ s.trace with ring := rs, headOff := 0 } : Trace).drained 1 = { s.trace with ring := rs, headOff := 0 } := by
    unfold Trace.drained
    dsimp only
    rw [hd]
  have hexec : exec .traceRecordDrained s =
      onTrace s (State.traceSend (s.updTrace (fun _ => ({ s.trace with ring := rs, headOff := 0 } : Trace).drained 1)) (r.drop s.trace.headOff)) := by
    show execTraceRecordDrained s = _
    unfold execTraceRecordDrained
    rw [he, if_pos rfl, hr]
    rfl
  rw [hexec, hkeep]
  rfl

end

/-- Settles O55, command by command, from what a record leaves where it enters. -/
theorem traceUnitActs : Obligations.TraceUnitActs := by
  intro s die k x p ps r rs
  refine ⟨traceCollect_takes s, fun h => ?_, traceTrigger_takes s, traceAdvance_within s, fun he hr hd => ⟨traceRecordDrained_sends s he hr hd, ?_⟩,
    fun he => ?_⟩
  · show onTrace s s.traceArm = _
    rw [show s.traceArm = _ from if_pos h]
    rfl
  · obtain ⟨xs, hring, hoff, hout⟩ := traceSend_out (s.updTrace (fun t => { t with ring := rs, headOff := 0 })) (r.drop s.trace.headOff)
    exact ⟨_, xs, traceRecordDrained_sends s he hr hd, hring, hoff, hout⟩
  · have hgo : s.tracePort = State.traceStart (s.setFld (traceUnit s.pkg) F.TRACE_CTRL_PORT_EN 1) := by
      unfold State.tracePort
      rw [he]
      exact if_neg Bool.false_ne_true
    show onTrace s s.tracePort = _
    rw [hgo]
    rfl

end Sys2Proof.Machine
end

section
/-! What the trace unit and the Holiday controller leave as it is (R376–R381). -/
namespace Sys2Proof.Machine

/-- A step after which the package and the Holiday controller are the same, and every output sent and every event bit set stands. -/
structure Told (s t : State) : Prop where
  pkg : t.pkg = s.pkg
  hol : t.hol = s.hol
  out : ∀ o, o ∈ s.out → o ∈ t.out
  bit : ∀ (u : Nat) (f : Fld), f.hi = f.lo → f.off < 4096 → s.bit u f = true → t.bit u f = true

namespace Told
variable {s t x : State}

theorem refl (s : State) : Told s s := ⟨rfl, rfl, fun _ h => h, fun _ _ _ _ h => h⟩

theorem trans (h : Told s t) (k : Told t x) : Told s x :=
  ⟨k.pkg.trans h.pkg, k.hol.trans h.hol, fun o ho => k.out o (h.out o ho), fun u f hf h4 hb => k.bit u f hf h4 (h.bit u f hf h4 hb)⟩

theorem of_regPart (h : t.regPart = s.regPart) (hh : t.hol = s.hol) (ho : t.out = s.out) : Told s t :=
  ⟨congrArg Prod.snd h, hh, fun o hm => by rw [ho]; exact hm, fun u f _ _ hb => by rw [bit_regPart h]; exact hb⟩

theorem updTrace (s : State) (f : Trace → Trace) : Told s (s.updTrace f) := ⟨rfl, rfl, fun _ h => h, fun _ _ _ _ h => h⟩

theorem count (s : State) (u off n : Nat) : Told s (s.count u off n) := ⟨rfl, rfl, fun _ h => h, fun _ _ _ _ h => h⟩

theorem emit (s : State) (o : Out) : Told s (s.emit o) := ⟨rfl, rfl, fun _ h => List.mem_cons_of_mem _ h, fun _ _ _ _ h => h⟩

theorem event (s : State) (u : Nat) {g : Fld} (hg : g.lo < 32) (h4 : g.off < 4096) : Told s (s.event u g) := by
  refine ⟨State.event_pkg .., State.event_hol .., fun o ho => ?_, fun _ f hf hf4 hb => bit_event_stays s hf hg hf4 h4 hb⟩
  unfold State.event State.eventBit
  dsimp only
  split
  · exact ho
  · unfold State.interrupt
    split
    · exact List.mem_cons_of_mem _ ho
    · split <;> exact ho

end Told

section
variable (s : State)

/-- A record that reaches the trace unit (R384). -/
theorem capture_told (r : RecBody) : Told s (s.capture r) :=
  capture_rel .refl .trans (fun s f _ => .updTrace s f) .count (fun s u => .event s u (by decide) (by decide))
    (fun s u => .event s u (by decide) (by decide)) s r

theorem holidayRec_told (arg ev : Nat) : Told s (s.holidayRec arg ev) := capture_told ..

/-- A trigger (R384). -/
theorem trigTake_told (source : Nat) : Told s (s.trigTake source) := by
  unfold State.trigTake
  dsimp only
  split
  · exact .refl s
  · split
    · exact .event _ _ (by decide) (by decide)
    · exact (((capture_told ..).trans (.updTrace ..)).trans (.count ..)).trans (.event _ _ (by decide) (by decide))

/-- HOLIDAY frames wait at the ports alone (R379). -/
theorem sendHoliday_told (arg : Nat) (except : Option Nat) : Told s (s.sendHoliday arg except) := by
  have hkeep : (fun t : State => (t.regPart, t.hol, t.out)) (s.sendHoliday arg except) = (s.regPart, s.hol, s.out) := by
    refine foldl_keeps (fun t : State => (t.regPart, t.hol, t.out)) (fun t q => ?_) _ s
    dsimp only
    split <;> rfl
  obtain ⟨hreg, hrest⟩ := Prod.mk.inj hkeep
  obtain ⟨hhol, hout⟩ := Prod.mk.inj hrest
  exact .of_regPart hreg hhol hout

/-! ## A Holiday begins -/

/-- What a Holiday that begins shows (R376, R378). -/
theorem holidayEnter_begins (cause : Nat) (machine own : Bool) (id : Option Nat) (arg : Nat) (ingress : Option Nat) (h : s.hol.active = false) :
    (s.holidayEnter cause machine own id arg ingress).pkg = s.pkg ∧
    (s.holidayEnter cause machine own id arg ingress).hol = { s.hol with
      active := true, stopped := false, resuming := false, id := id.getD s.hol.id, cause := cause, machine := machine, own := own, acks := [],
      resumed := [], release := none, suspended := true, scanReady := false } ∧
    (s.holidayEnter cause machine own id arg ingress).bit (holidayUnit s.pkg) F.TRACE_HOLIDAY_EVENT_ENTERED = true ∧
    Out.pin .holidayOut false ∈ (s.holidayEnter cause machine own id arg ingress).out := by
  have hno : ¬(s.hol.active && !s.hol.resuming) = true := by
    rw [h]
    exact Bool.false_ne_true
  unfold State.holidayEnter
  rw [if_neg hno]
  extract_lets t1 t2 t3 t4
  have h1 : Told s t1 := by
    unfold t1
    split
    · exact trigTake_told ..
    · exact .refl s
  have hp2 : t2.pkg = s.pkg := h1.pkg
  have hh2 : t2.hol = { s.hol with
      active := true, stopped := false, resuming := false, id := id.getD s.hol.id, cause := cause, machine := machine, own := own, acks := [],
      resumed := [], release := none, suspended := true, scanReady := false } := by
    rw [← h1.hol]
    rfl
  clear_value t2
  have hp3 : t3.pkg = s.pkg := (State.event_pkg ..).trans hp2
  have hh3 : t3.hol = t2.hol := State.event_hol ..
  have hb3 : t3.bit (holidayUnit s.pkg) F.TRACE_HOLIDAY_EVENT_ENTERED = true := by
    rw [← hp2]
    unfold State.bit t3
    exact congrArg (· == 1) (fld_event_self _ _ _ rfl (by decide))
  have ho3 : Out.pin .holidayOut false ∈ t3.out := (Told.event _ _ (by decide) (by decide)).out _ (List.mem_cons_self ..)
  clear_value t3
  have h4 : Told t3 (if machine = true then t4.sendHoliday arg ingress else t4) := by
    split
    · exact (holidayRec_told ..).trans (sendHoliday_told ..)
    · exact holidayRec_told ..
  exact ⟨h4.pkg.trans hp3, h4.hol.trans (hh3.trans hh2), h4.bit _ _ rfl (by decide) hb3, h4.out _ ho3⟩

end

end Sys2Proof.Machine
end

section
/-! Holidays stop, resume and are scanned (R376–R381, R290). -/
namespace Sys2Proof.Machine

section
variable (s : State)

theorem bit_of_event {u : Nat} {f : Fld} (hf : f.hi = f.lo) (h32 : f.lo < 32) : (s.event u f).bit u f = true := by
  unfold State.bit
  rw [fld_event_self _ _ _ hf h32]
  rfl

variable {x : State}

theorem tracePut_bit (h : x.pkg = s.pkg) (u : Nat) (f : Fld) : (Part.put .trace s x).bit u f = x.bit u f := bit_regPart (tracePut_regPart s h) u f

/-! ## Sources -/

theorem holidayStopPackage_begins {side : Nat} (hs : s.sideActs side = true) (h : s.hol.active = false) :
    ∃ t, exec (.holidayStopPackage side) s = .next t ∧ t.hol.active = true ∧ t.hol.cause = 0 ∧ t.hol.machine = false ∧ t.hol.resumed = [] ∧
      t.bit (holidayUnit s.pkg) F.TRACE_HOLIDAY_EVENT_ENTERED = true ∧ Out.pin .holidayOut false ∈ t.out := by
  have hexec : exec (.holidayStopPackage side) s = onTrace s (s.holidayEnter 0 false true none (stopArg 0 s.hol.id) none) :=
    congrArg (onTrace s) (if_pos hs)
  obtain ⟨hp, hh, hb, ho⟩ := holidayEnter_begins s 0 false true none (stopArg 0 s.hol.id) none h
  generalize s.holidayEnter 0 false true none (stopArg 0 s.hol.id) none = x at hexec hp hh hb ho
  refine ⟨Part.put .trace s x, hexec, ?_⟩
  rw [tracePut_bit s hp, show (Part.put .trace s x).hol = x.hol from rfl, hh]
  exact ⟨rfl, rfl, rfl, rfl, hb, ho⟩

theorem holidayStopMachine_begins {side : Nat} (hs : s.sideActs side = true) (h : s.hol.active = false) :
    ∃ t, exec (.holidayStopMachine side) s = .next t ∧ t.hol.active = true ∧ t.hol.cause = 1 ∧ t.hol.machine = true ∧ t.hol.own = true ∧
      t.hol.id = (s.hol.lastId + 1) % 65536 := by
  have hexec : exec (.holidayStopMachine side) s =
      onTrace s (s.holidayEnter 1 true true (some ((s.hol.lastId + 1) % 65536)) (stopArg 1 ((s.hol.lastId + 1) % 65536)) none) :=
    congrArg (onTrace s) (if_pos hs)
  obtain ⟨-, hh, -, -⟩ := holidayEnter_begins s 1 true true (some ((s.hol.lastId + 1) % 65536)) (stopArg 1 ((s.hol.lastId + 1) % 65536)) none h
  generalize s.holidayEnter 1 true true (some ((s.hol.lastId + 1) % 65536)) (stopArg 1 ((s.hol.lastId + 1) % 65536)) none = x at hexec hh
  refine ⟨Part.put .trace s x, hexec, ?_⟩
  rw [show (Part.put .trace s x).hol = x.hol from rfl, hh]
  exact ⟨rfl, rfl, rfl, rfl, rfl⟩

theorem holidayPin_begins (hb : s.bit (holidayUnit s.pkg) F.TRACE_HOLIDAY_CTRL_PIN_EN = true) (h : s.hol.active = false) :
    ∃ t, exec .holidayPin s = .next t ∧ t.hol.active = true ∧ t.hol.cause = 4 := by
  have hexec : exec .holidayPin s = onTrace s (s.holidayEnter 4 false true none (stopArg 4 s.hol.id) none) := congrArg (onTrace s) (if_pos hb)
  obtain ⟨-, hh, -, -⟩ := holidayEnter_begins s 4 false true none (stopArg 4 s.hol.id) none h
  generalize s.holidayEnter 4 false true none (stopArg 4 s.hol.id) none = x at hexec hh
  refine ⟨Part.put .trace s x, hexec, ?_⟩
  rw [show (Part.put .trace s x).hol = x.hol from rfl, hh]
  exact ⟨rfl, rfl⟩

theorem holidayStopFrame_begins {port : Nat} {arg : W32} (hq : port < portCount s.pkg) (ha : getBits arg 31 30 = 1)
    (hacc : s.bit (holidayUnit s.pkg) F.TRACE_HOLIDAY_CTRL_ACCEPT = true) (hid : s.hol.lastId ≠ getBits arg 15 0) (h : s.hol.active = false) :
    ∃ t, exec (.holidayStopFrame port arg) s = .next t ∧ t.hol.active = true ∧ t.hol.cause = 5 ∧ t.hol.own = false ∧
      t.hol.id = getBits arg 15 0 := by
  obtain ⟨m, hm⟩ : ∃ m, m = s.bit (holidayUnit s.pkg) F.TRACE_HOLIDAY_CTRL_FORWARD := ⟨_, rfl⟩
  have hgo : s.holidayStopFrame port arg =
      s.holidayEnter 5 m false (some (getBits arg 15 0)) (stopArg (getBits arg 29 26) (getBits arg 15 0)) (some port) := by
    have h1 : ¬(getBits arg 31 30 != 1) = true := by simp [ha]
    have h2 : ¬(!s.bit (holidayUnit s.pkg) F.TRACE_HOLIDAY_CTRL_ACCEPT || s.hol.lastId == getBits arg 15 0) = true := by
      rw [hacc, beq_eq_false_iff_ne.mpr hid]
      decide
    unfold State.holidayStopFrame
    dsimp only
    rw [if_neg h1, if_neg h2, hm]
  have hexec : exec (.holidayStopFrame port arg) s = onTrace s (s.holidayStopFrame port arg) := congrArg (onTrace s) (if_pos hq)
  obtain ⟨-, hh, -, -⟩ :=
    holidayEnter_begins s 5 m false (some (getBits arg 15 0)) (stopArg (getBits arg 29 26) (getBits arg 15 0)) (some port) h
  rw [← hgo] at hh
  generalize s.holidayStopFrame port arg = x at hexec hh
  refine ⟨Part.put .trace s x, hexec, ?_⟩
  rw [show (Part.put .trace s x).hol = x.hol from rfl, hh]
  exact ⟨rfl, rfl, rfl, rfl⟩

/-! ## STOPPED -/

/-- STOPPED rises, where no release waits (R378). -/
theorem holidayStopped_rises (h : s.hol.release = none) : s.holidayStopped.pkg = s.pkg ∧ s.holidayStopped.hol.stopped = true ∧
    s.holidayStopped.bit (holidayUnit s.pkg) F.TRACE_HOLIDAY_EVENT_STOPPED = true ∧ ∀ o, o ∈ s.out → o ∈ s.holidayStopped.out := by
  unfold State.holidayStopped
  extract_lets t1 t2
  have hp1 : t1.pkg = s.pkg := State.event_pkg ..
  have hh1 : t1.hol = { s.hol with stopped := true } := State.event_hol ..
  have hb1 : t1.bit (holidayUnit s.pkg) F.TRACE_HOLIDAY_EVENT_STOPPED = true := bit_of_event _ rfl (by decide)
  have ho1 : ∀ o, o ∈ s.out → o ∈ t1.out := (Told.event (s.updHol _) _ (by decide) (by decide)).out
  clear_value t1
  have h2 : Told t1 t2 := holidayRec_told ..
  clear_value t2
  have hnone : t2.hol.release = none := by
    rw [h2.hol, hh1]
    exact h
  rw [hnone]
  refine ⟨h2.pkg.trans hp1, ?_, h2.bit _ _ rfl (by decide) hb1, fun o ho => h2.out o (ho1 o ho)⟩
  dsimp only
  rw [h2.hol, hh1]

theorem tellLost_hol (l : List Nat) : (l.foldl (fun s d => s.emit (.dieLost d)) s).hol = s.hol := by
  refine foldl_keeps State.hol (fun t d => ?_) l s
  rfl

/-- Each die of a list is reported (R378). -/
theorem tellLost_out (l : List Nat) {x : Nat} (h : x ∈ l) : Out.dieLost x ∈ (l.foldl (fun s d => s.emit (.dieLost d)) s).out := by
  have hstay : ∀ (l : List Nat) (t : State) (o : Out), o ∈ t.out → o ∈ (l.foldl (fun s d => s.emit (.dieLost d)) t).out := by
    intro l
    induction l with
    | nil => exact fun _ _ h => h
    | cons d l ih => exact fun t o h => ih _ o (List.mem_cons_of_mem _ h)
  induction l generalizing s with
  | nil => exact absurd h List.not_mem_nil
  | cons d l ih =>
    rcases List.mem_cons.mp h with rfl | h
    · exact hstay l _ _ (List.mem_cons_self ..)
    · exact ih _ h

section
variable {d : Nat} (ha : s.hol.active = true) (hst : s.hol.stopped = false) (hr : s.hol.release = none)
include ha hst

theorem stopping_true : (s.hol.active && !s.hol.stopped) = true := by
  rw [ha, hst]
  rfl

/-- An acknowledgement is noted, and the last one sets STOPPED (R378). -/
theorem dieStopAck_exec (hd : s.dieLive d = true) (hn : s.hol.acks.contains d = false) :
    exec (.dieStopAck d) s = onTrace s (if s.liveDies.all (fun x => (s.hol.acks ++ [d]).contains x) = true then
      (s.updHol (fun h => { h with acks := h.acks ++ [d] })).holidayStopped else s.updHol (fun h => { h with acks := h.acks ++ [d] })) := by
  have hupd : s.updHol (fun h => { h with acks := if h.acks.contains d then h.acks else h.acks ++ [d] }) =
      s.updHol (fun h => { h with acks := h.acks ++ [d] }) := by
    unfold State.updHol
    dsimp only
    rw [hn]
    rfl
  have hguard : (s.hol.active && !s.hol.stopped && s.dieLive d) = true := by
    rw [stopping_true s ha hst, hd]
    rfl
  show execDieStopAck d s = _
  unfold execDieStopAck
  rw [if_pos hguard, hupd]
  rfl

include hr

theorem dieStopAck_last (hd : s.dieLive d = true) (hn : s.hol.acks.contains d = false)
    (hall : s.liveDies.all (fun x => (s.hol.acks ++ [d]).contains x) = true) :
    ∃ t, exec (.dieStopAck d) s = .next t ∧ t.hol.stopped = true ∧ t.bit (holidayUnit s.pkg) F.TRACE_HOLIDAY_EVENT_STOPPED = true := by
  have hexec := dieStopAck_exec s ha hst hd hn
  rw [if_pos hall] at hexec
  obtain ⟨hp, hstop, hb, -⟩ := holidayStopped_rises (s.updHol (fun h => { h with acks := h.acks ++ [d] })) hr
  generalize (s.updHol (fun h => { h with acks := h.acks ++ [d] })).holidayStopped = x at hexec hp hstop hb
  exact ⟨Part.put .trace s x, hexec, hstop, (tracePut_bit s hp _ _).trans hb⟩

theorem holidayAckTimeout_stops : ∃ t, exec .holidayAckTimeout s = .next t ∧ t.hol.stopped = true ∧
    ∀ x, x ∈ s.liveDies → s.hol.acks.contains x = false → Out.dieLost x ∈ t.out := by
  obtain ⟨y, hy⟩ : ∃ y, y = (s.liveDies.filter (fun d => !s.hol.acks.contains d)).foldl (fun s d => s.emit (.dieLost d)) s := ⟨_, rfl⟩
  have hexec : exec .holidayAckTimeout s = onTrace s y.holidayStopped := by
    rw [hy]
    exact congrArg (onTrace s) (if_pos (stopping_true s ha hst))
  have hyh : y.hol = s.hol := by
    rw [hy]
    exact tellLost_hol ..
  have hyo : ∀ x, x ∈ s.liveDies → s.hol.acks.contains x = false → Out.dieLost x ∈ y.out := fun x hx hn => by
    rw [hy]
    exact tellLost_out _ _ (List.mem_filter.mpr ⟨hx, by rw [hn]; rfl⟩)
  obtain ⟨-, hstop, -, ho⟩ := holidayStopped_rises y (by rw [hyh]; exact hr)
  exact ⟨_, hexec, hstop, fun x hx hn => ho _ (hyo x hx hn)⟩

end

/-! ## Release -/

theorem holidayGo_hol (k : Int) (ingress : Option Nat) :
    (s.holidayGo k ingress).hol = { s.hol with lastId := s.hol.id, resuming := true, resumed := [], release := none, k := k } := by
  unfold State.holidayGo
  extract_lets arg t1 t2
  have h2 : Told t1 t2 := holidayRec_told ..
  have h3 : Told t2 (if (t2.hol.machine && t2.bit (holidayUnit t2.pkg) F.TRACE_HOLIDAY_CTRL_FORWARD) = true then t2.sendHoliday arg ingress else t2) := by
    split
    · exact sendHoliday_told ..
    · exact .refl t2
  exact h3.hol.trans h2.hol

section
variable (ha : s.hol.active = true) (hr : s.hol.resuming = false)
include ha hr

theorem releasing : ¬(!s.hol.active || s.hol.resuming) = true := by
  rw [ha, hr]
  decide

theorem holidayRelease_waits (hst : s.hol.stopped = false) : s.holidayRelease none none = s.updHol (fun h => { h with release := some (none, none) }) := by
  unfold State.holidayRelease
  rw [if_neg (releasing s ha hr), hst]
  exact if_pos rfl

theorem holidayRelease_goes (hst : s.hol.stopped = true) : s.holidayRelease none none = s.holidayGo s.resumeSs none := by
  unfold State.holidayRelease
  rw [if_neg (releasing s ha hr), hst]
  exact if_neg (by decide)

theorem holidayRelease_frame (hst : s.hol.stopped = true) (k : Nat) (port : Option Nat) :
    s.holidayRelease (some k) port = s.holidayGo (s.rebuildK k) port := by
  unfold State.holidayRelease
  rw [if_neg (releasing s ha hr), hst]
  exact if_neg (by decide)

theorem holidayReleaseFrame_goes {port : Nat} {arg : W32} (hq : port < portCount s.pkg) (hact : getBits arg 31 30 = 2)
    (hacc : s.bit (holidayUnit s.pkg) F.TRACE_HOLIDAY_CTRL_ACCEPT = true) (hid : getBits arg 29 22 = s.hol.id % 256) (hst : s.hol.stopped = true) :
    ∃ t, exec (.holidayReleaseFrame port arg) s = .next t ∧ t.hol.resuming = true ∧ t.hol.k = s.rebuildK (getBits arg 21 0) := by
  have hgo : s.holidayReleaseFrame port arg = s.holidayGo (s.rebuildK (getBits arg 21 0)) (some port) := by
    have h1 : ¬(getBits arg 31 30 != 2) = true := by simp [hact]
    unfold State.holidayReleaseFrame
    rw [if_neg h1, hacc, if_neg (by decide), if_pos hid]
    exact holidayRelease_frame s ha hr hst _ _
  have hexec : exec (.holidayReleaseFrame port arg) s = onTrace s (s.holidayReleaseFrame port arg) := congrArg (onTrace s) (if_pos hq)
  have hh := holidayGo_hol s (s.rebuildK (getBits arg 21 0)) (some port)
  rw [← hgo] at hh
  generalize s.holidayReleaseFrame port arg = x at hexec hh
  refine ⟨Part.put .trace s x, hexec, ?_⟩
  rw [show (Part.put .trace s x).hol = x.hol from rfl, hh]
  exact ⟨rfl, rfl⟩

end

theorem holidayRelease_exec {side : Nat} (hs : s.sideActs side = true) : exec (.holidayRelease side) s = onTrace s (s.holidayRelease none none) :=
  congrArg (onTrace s) (if_pos hs)

theorem holidayRelease_resumes {side : Nat} (hs : s.sideActs side = true) (ha : s.hol.active = true) (hr : s.hol.resuming = false)
    (hst : s.hol.stopped = true) :
    ∃ t, exec (.holidayRelease side) s = .next t ∧ t.hol.resuming = true ∧ t.hol.lastId = s.hol.id ∧ t.hol.k = s.resumeSs := by
  have hexec := holidayRelease_exec s hs
  rw [holidayRelease_goes s ha hr hst] at hexec
  have hh := holidayGo_hol s s.resumeSs none
  generalize s.holidayGo s.resumeSs none = x at hexec hh
  refine ⟨Part.put .trace s x, hexec, ?_⟩
  rw [show (Part.put .trace s x).hol = x.hol from rfl, hh]
  exact ⟨rfl, rfl, rfl⟩

/-! ## Dies resume -/

/-- Once the first die has resumed, nothing more is freed (R381). -/
theorem holidayFrees_later (h : s.hol.resumed ≠ []) : s.holidayFrees = s := by
  unfold State.holidayFrees
  exact if_neg (by simpa using h)

/-- The Holiday ends (R381). -/
theorem holidayDone_ends : s.holidayDone.hol.active = false ∧ s.holidayDone.hol.resuming = false ∧ Out.pin .holidayOut true ∈ s.holidayDone.out := by
  unfold State.holidayDone
  extract_lets arg t
  have hh : t.hol = { s.hol with active := false, stopped := false, resuming := false, acks := [], scanReady := false } := State.event_hol ..
  have hrec := holidayRec_told t arg 3
  have hdone : ((t.holidayRec arg 3).emit (.pin .holidayOut true)).hol =
      { s.hol with active := false, stopped := false, resuming := false, acks := [], scanReady := false } := hrec.hol.trans hh
  rw [hdone]
  exact ⟨rfl, rfl, List.mem_cons_self ..⟩

/-- Where no station holds anything, a die resumes at once (R290). -/
theorem busyStations_none (hni : s.ni = []) (heng : s.eng = []) (d : Nat) : s.busyStations d = [] := by
  unfold State.busyStations
  refine List.filter_eq_nil_iff.mpr fun st _ => ?_
  rw [hni, heng]
  simp [kfind]

section
variable (h : s.hol.resuming = true) (hr : s.hol.resumed ≠ [])
include h hr

theorem dieResume_ends (hn : s.nextDie = none) :
    ∃ t, exec .dieResume s = .next t ∧ t.hol.active = false ∧ t.hol.resuming = false ∧ Out.pin .holidayOut true ∈ t.out := by
  have hgo : s.dieResume = s.holidayDone := by
    unfold State.dieResume
    rw [h, if_neg (by decide), holidayFrees_later s hr]
    dsimp only
    rw [hn]
  refine ⟨kept s s.dieResume, rfl, ?_⟩
  rw [hgo]
  exact holidayDone_ends s

theorem dieResume_next {d : Nat} (hn : s.nextDie = some d) (hni : s.ni = []) (heng : s.eng = [])
    (hmore : (s.updHol (fun h => { h with resumed := h.resumed ++ [d] })).nextDie ≠ none) :
    exec .dieResume s = .next (s.updHol (fun h => { h with resumed := h.resumed ++ [d] })) := by
  have hbusy : (s.updHol (fun h => { h with resumed := h.resumed ++ [d] })).busyStations d = [] := busyStations_none _ hni heng d
  have hsome : ¬(s.updHol (fun h => { h with resumed := h.resumed ++ [d] })).nextDie.isNone = true := by
    rw [Option.isNone_iff_eq_none]
    exact hmore
  have hgo : s.dieResume = s.updHol (fun h => { h with resumed := h.resumed ++ [d] }) := by
    unfold State.dieResume
    rw [h, if_neg (by decide), holidayFrees_later s hr]
    dsimp only
    rw [hn]
    dsimp only
    rw [hbusy]
    exact if_neg hsome
  show Host.Outcome.next (kept s s.dieResume) = _
  rw [hgo]
  rfl

end

/-! ## Scan -/

theorem setScan_pkg (ws : List W32) : (s.setScan ws).pkg = s.pkg := by
  refine foldl_keeps State.pkg (fun t i => ?_) _ s
  rfl

/-- The registers of SCAN_DATA hold the words (R380). -/
theorem setScan_reg (ws : List W32) {i : Nat} (hi : i < 8) :
    (s.setScan ws).reg (holidayUnit s.pkg) (R.TRACE_HOLIDAY_SCAN_DATA + 4 * i) = ws.getD i 0 := by
  have hfold : ∀ n t, t = (List.range n).foldl (fun s i => s.setReg (holidayUnit s.pkg) (R.TRACE_HOLIDAY_SCAN_DATA + 4 * i) (ws.getD i 0)) s →
      t.pkg = s.pkg ∧ ∀ i, i < n → t.reg (holidayUnit s.pkg) (R.TRACE_HOLIDAY_SCAN_DATA + 4 * i) = ws.getD i 0 := by
    intro n
    induction n with
    | zero => exact fun t ht => ⟨by rw [ht]; rfl, fun i hi => absurd hi (Nat.not_lt_zero _)⟩
    | succ n ih =>
      intro t ht
      rw [List.range_succ, List.foldl_append] at ht
      obtain ⟨y, hy⟩ : ∃ y, y = (List.range n).foldl (fun s i => s.setReg (holidayUnit s.pkg) (R.TRACE_HOLIDAY_SCAN_DATA + 4 * i) (ws.getD i 0)) s :=
        ⟨_, rfl⟩
      obtain ⟨hp, hreg⟩ := ih y hy
      rw [← hy] at ht
      have ht' : t = y.setReg (holidayUnit s.pkg) (R.TRACE_HOLIDAY_SCAN_DATA + 4 * n) (ws.getD n 0) := by
        rw [ht, ← hp]
        rfl
      refine ⟨by rw [ht']; exact hp, fun i hi => ?_⟩
      rw [ht']
      by_cases hin : i = n
      · rw [hin]
        exact reg_setReg_self ..
      · rw [reg_setReg_off _ _ (by omega)]
        exact hreg i (by omega)
  exact (hfold 8 _ rfl).2 i hi

theorem holidayScan_exec {side : Nat} (hs : s.sideActs side = true) : exec (.holidayScan side) s = onTrace s s.holidayScan :=
  congrArg (onTrace s) (if_pos hs)

theorem tracePut_reg (h : x.pkg = s.pkg) (u off : Nat) : (Part.put .trace s x).reg u off = x.reg u off := reg_regPart (tracePut_regPart s h) u off

theorem holidayScan_reads {side : Nat} (hs : s.sideActs side = true) (hst : s.hol.stopped = true) :
    ∃ t, exec (.holidayScan side) s = .next t ∧ t.hol.scanReady = true ∧
      ∀ i, i < 8 → t.reg (holidayUnit s.pkg) (R.TRACE_HOLIDAY_SCAN_DATA + 4 * i) = (scanWords s.scanned.2 s.scanned.1.head?).getD i 0 := by
  have hexec := holidayScan_exec s hs
  have hgo : s.holidayScan = (s.setScan (scanWords s.scanned.2 s.scanned.1.head?)).updHol (fun h => { h with scanReady := true }) := by
    unfold State.holidayScan
    rw [hst]
    exact if_neg (by decide)
  have hp := setScan_pkg s (scanWords s.scanned.2 s.scanned.1.head?)
  have hreg := fun i (hi : i < 8) => setScan_reg s (scanWords s.scanned.2 s.scanned.1.head?) hi
  rw [hgo] at hexec
  generalize s.setScan (scanWords s.scanned.2 s.scanned.1.head?) = y at hexec hp hreg
  refine ⟨Part.put .trace s (y.updHol (fun h => { h with scanReady := true })), hexec, rfl, fun i hi => ?_⟩
  rw [tracePut_reg s (x := y.updHol _) hp]
  exact hreg i hi

theorem holidayScan_rejects {side : Nat} (hs : s.sideActs side = true) (hst : s.hol.stopped = false) :
    ∃ t, exec (.holidayScan side) s = .next t ∧ t.hol.scanReady = false ∧ t.bit (holidayUnit s.pkg) F.TRACE_HOLIDAY_EVENT_CMD_REJECT = true ∧
      ∀ i, i < 8 → t.reg (holidayUnit s.pkg) (R.TRACE_HOLIDAY_SCAN_DATA + 4 * i) = 0 := by
  have hexec := holidayScan_exec s hs
  have hgo : s.holidayScan = ((s.setScan []).event (holidayUnit s.pkg) F.TRACE_HOLIDAY_EVENT_CMD_REJECT).updHol (fun h => { h with scanReady := false }) := by
    unfold State.holidayScan
    rw [hst]
    exact if_pos rfl
  have hp := setScan_pkg s []
  have hreg := fun i (hi : i < 8) => setScan_reg s [] hi
  rw [hgo] at hexec
  generalize s.setScan [] = y at hexec hp hreg
  have hpe : (y.event (holidayUnit s.pkg) F.TRACE_HOLIDAY_EVENT_CMD_REJECT).pkg = s.pkg := (State.event_pkg ..).trans hp
  have hbit : (y.event (holidayUnit s.pkg) F.TRACE_HOLIDAY_EVENT_CMD_REJECT).bit (holidayUnit s.pkg) F.TRACE_HOLIDAY_EVENT_CMD_REJECT = true :=
    bit_of_event _ rfl (by decide)
  have hdata : ∀ i, i < 8 →
      (y.event (holidayUnit s.pkg) F.TRACE_HOLIDAY_EVENT_CMD_REJECT).reg (holidayUnit s.pkg) (R.TRACE_HOLIDAY_SCAN_DATA + 4 * i) = 0 := fun i hi => by
    unfold State.event
    rw [reg_eventBit_off _ _ (by unfold R.TRACE_HOLIDAY_SCAN_DATA F.TRACE_HOLIDAY_EVENT_CMD_REJECT; dsimp only; omega), hreg i hi]
    rfl
  generalize y.event (holidayUnit s.pkg) F.TRACE_HOLIDAY_EVENT_CMD_REJECT = z at hexec hpe hbit hdata
  refine ⟨Part.put .trace s (z.updHol (fun h => { h with scanReady := false })), hexec, rfl, ?_, fun i hi => ?_⟩
  · rw [tracePut_bit s (x := z.updHol _) hpe]
    exact hbit
  · rw [tracePut_reg s (x := z.updHol _) hpe]
    exact hdata i hi

end

/-- Settles O54: the sources, STOPPED, the release, the dies that resume, and the scan. -/
theorem holidaysStopAndResume : Obligations.HolidaysStopAndResume := by
  intro s side port d hu arg hhu
  subst hhu
  refine ⟨fun hs h => ⟨holidayStopPackage_begins s hs h, holidayStopMachine_begins s hs h⟩, holidayPin_begins s,
    fun hq ha hacc hid h => holidayStopFrame_begins s hq ha hacc hid h, fun ha hst hr hd hn => ⟨dieStopAck_last s ha hst hr hd hn, fun hall => ?_⟩,
    holidayAckTimeout_stops s, fun hs ha hr hst => ?_, holidayRelease_resumes s,
    fun hq hact hacc hid ha hr hst => holidayReleaseFrame_goes s ha hr hq hact hacc hid hst, dieResume_ends s, fun h hr hn => dieResume_next s h hr hn,
    holidayScan_reads s, holidayScan_rejects s⟩
  · have hexec := dieStopAck_exec s ha hst hd hn
    rw [hall, if_neg Bool.false_ne_true] at hexec
    exact hexec
  · have hexec := holidayRelease_exec s hs
    rw [holidayRelease_waits s ha hr hst] at hexec
    exact hexec

end Sys2Proof.Machine
end
